-- ==== Sys2Proof/Word.lean ====
section
/-! DEFINITION. The words of the device and the one shape of sparse data: a list of (key, value) pairs with rising keys. -/

namespace Sys2Proof

/-- A byte, a 32-bit control-space word, a 64-bit register. -/
abbrev Byte := BitVec 8
abbrev Word := BitVec 32
abbrev DWord := BitVec 64

/-- Sparse data by key: keys strictly rising, no entry equal to what an unlisted key reads as (`FMap.wf`). -/
abbrev FMap (α : Type) := List (Nat × α)

end Sys2Proof
end

