-- ==== Sys2Proof/Machine/Maps.lean ====
section
/-! DEFINITION. Sparse data by key, bit fields of numbers, little-endian bytes: the helpers every layer uses. -/

namespace Sys2Proof

/-- What a key reads as: its entry, or `d` where it has none. -/
def FMap.get {α : Type} (d : α) : FMap α → Nat → α
  | [], _ => d
  | (k, v) :: m, i => if i = k then v else FMap.get d m i

/-- The map without the entry of `i`. -/
def FMap.erase {α : Type} : FMap α → Nat → FMap α
  | [], _ => []
  | (k, v) :: m, i => if k = i then m else (k, v) :: FMap.erase m i

/-- The map with `v` at `i`, keys kept rising. -/
def FMap.put {α : Type} : FMap α → Nat → α → FMap α
  | [], i, v => [(i, v)]
  | (k, w) :: m, i, v =>
    if i < k then (i, v) :: (k, w) :: m
    else if i = k then (k, v) :: m
    else (k, w) :: FMap.put m i v

/-- The map with `v` at `i`; writing what an unlisted key reads as removes the entry. -/
def FMap.set {α : Type} [DecidableEq α] (d : α) (m : FMap α) (i : Nat) (v : α) : FMap α :=
  if v = d then FMap.erase m i else FMap.put m i v

/-- The map with the value at `i` changed by `f`. -/
def FMap.upd {α : Type} [DecidableEq α] (d : α) (m : FMap α) (i : Nat) (f : α → α) : FMap α :=
  m.set d i (f (m.get d i))

/-- The entry of a key, where it has one. -/
def FMap.lookup {α : Type} : FMap α → Nat → Option α
  | [], _ => none
  | (k, v) :: m, i => if i = k then some v else FMap.lookup m i

/-- The entries whose key and value satisfy `p`. -/
def FMap.keep {α : Type} (p : Nat → α → Bool) (m : FMap α) : FMap α := m.filter fun e => p e.1 e.2

/-- Every entry's value changed by `f`; an entry that becomes what an unlisted key reads as goes. -/
def FMap.mapv {α : Type} [DecidableEq α] (d : α) (f : α → α) : FMap α → FMap α
  | [] => []
  | (k, v) :: m => if f v = d then FMap.mapv d f m else (k, f v) :: FMap.mapv d f m

/-- The keys. -/
def FMap.keyList {α : Type} (m : FMap α) : List Nat := m.map Prod.fst

/-- Every key above `b`, keys strictly rising, no entry equal to what an unlisted key reads as. -/
def FMap.wfFrom {α : Type} [DecidableEq α] (d : α) (b : Nat) : FMap α → Bool
  | [] => true
  | (k, v) :: m => decide (b ≤ k) && decide (v ≠ d) && FMap.wfFrom d (k + 1) m

/-- The canonical form. -/
def FMap.wf {α : Type} [DecidableEq α] (d : α) (m : FMap α) : Bool := FMap.wfFrom d 0 m

namespace Machine

/-- Bits `hi` to `lo` of a number. -/
def bits (n hi lo : Nat) : Nat := (n >>> lo) % 2 ^ (hi + 1 - lo)

/-- Bit `i` of a number. -/
def bit (n i : Nat) : Bool := (n >>> i) % 2 = 1

/-- A Boolean as a number. -/
def b2n (b : Bool) : Nat := if b then 1 else 0

/-- Number `n` with bits `hi` to `lo` replaced by `v`. -/
def setBits (n hi lo v : Nat) : Nat :=
  n - (bits n hi lo) * 2 ^ lo + (v % 2 ^ (hi + 1 - lo)) * 2 ^ lo

/-- A `w`-bit two's-complement field read as an integer. -/
def sext (w n : Nat) : Int := if n % 2 ^ w < 2 ^ (w - 1) then (n % 2 ^ w : Nat) else (n % 2 ^ w : Nat) - (2 ^ w : Nat)

/-- An integer modulo `2^w`. -/
def wrap (w : Nat) (i : Int) : Nat := (i % (2 ^ w : Nat)).toNat

/-- Little-endian number of a list of bytes. -/
def leNat : List Byte → Nat
  | [] => 0
  | b :: bs => b.toNat + 256 * leNat bs

/-- `n` bytes of a number, lowest first. -/
def leBytes : Nat → Nat → List Byte
  | 0, _ => []
  | n + 1, v => BitVec.ofNat 8 v :: leBytes n (v / 256)

/-- Do the two ranges `[a, a+n)` and `[b, b+m)` meet? -/
def overlaps (a n b m : Nat) : Bool := decide (a < b + m) && decide (b < a + n)

/-- The list with element `i` changed by `f`. -/
def modAt {α : Type} (l : List α) (i : Nat) (f : α → α) : List α :=
  match l, i with
  | [], _ => []
  | x :: xs, 0 => f x :: xs
  | x :: xs, i + 1 => x :: modAt xs i f

/-- `f` applied for each of a list in turn. -/
def each {α σ : Type} (l : List α) (f : σ → α → σ) (s : σ) : σ := l.foldl f s

/-- One state when a condition holds, the other unchanged. -/
def when {σ : Type} (c : Bool) (f : σ → σ) (s : σ) : σ := if c then f s else s

/-- Rounds up to a multiple. -/
def alignUp (n a : Nat) : Nat := (n + a - 1) / a * a

/-- Is there no pair of equal elements? -/
def noRepeats (l : List Nat) : Bool :=
  match l with
  | [] => true
  | x :: xs => !xs.contains x && noRepeats xs

end Machine
end Sys2Proof
end

