-- ==== Sys2Proof/Machine/Data.lean ====
section
/-! DEFINITION. The parts of the state that no register word holds, part 1: tiles, arrays, engines, call sheets, rigs,
takes, pages. Plain data throughout. A field's default is its value after reset. -/

namespace Sys2Proof.Machine

/-- Bytes with word poison (R206, R219): a page, a tile store. Word `w` covers bytes 8w to 8w + 7. -/
structure Content where
  bytes : FMap Byte := []
  pois : FMap Bool := []
  deriving DecidableEq, Repr

/-- An FP32 element with its poison bit (R89, R99). -/
structure Elem where
  v : Word := 0
  p : Bool := false
  deriving DecidableEq, Repr

/-- A task: the call sheet's log number, the part's lead logical tile, the segment (R270). -/
structure TaskRef where
  logno : Nat := 0
  lead : Nat := 0
  seg : Nat := 0
  deriving DecidableEq, Repr

/-! ### The array -/

/-- The identity of a loaded block (R65). `form`: 0 W0 only, 1 W0 and W1, 2 the FP32 block of a strict task (log entry 16). -/
structure BlockId where
  space : Nat := 0
  addr : Nat := 0
  ver : Nat := 0
  xd : Nat := 0
  shape : Nat := 0
  form : Nat := 0
  f19tr : Bool := false
  deriving DecidableEq, Repr

/-- An expansion descriptor (R29). -/
structure XDesc where
  kind : Nat := 0
  flags : Nat := 0
  taddr : Nat := 0
  zaddr : Nat := 0
  deriving DecidableEq, Repr

/-- The stationary block in the cells: its identity, which block of the task (R58), W0 and W1 by cell k × 512 + n,
poisoned columns, whether it may be held (R69). -/
structure Block where
  id : BlockId := {}
  index : Nat := 0
  w0 : FMap Word := []
  w1 : FMap Word := []
  poisCols : List Nat := []
  /-- a stationary element was proxy-derived (R121) -/
  prox : Bool := false
  deriving DecidableEq, Repr

/-- A task in an array's list (R66) or in progress: a call sheet's part, or a segment of it (R270). -/
structure ArrTask where
  ref : TaskRef := {}
  rig : Nat := 0
  space : Nat := 0
  row0 : Nat := 0
  rows : Nat := 0
  totalRows : Nat := 0
  klen : Nat := 0
  pass : Nat := 1
  strict : Bool := false
  f19tr : Bool := false
  accn : Bool := false
  clear : Bool := false
  fbank : Nat := 0
  drainq : Nat := 0
  id : BlockId := {}
  xd : Option XDesc := none
  passOver : Nat := 0
  deriving DecidableEq, Repr

/-- The task in progress: which block of which row group is in force or being loaded, how many stationary rows of it have
moved (`loaded`; above R the a_lo rows of pass 3), the next source row, whether the block is ready for rows. -/
structure ArrRun where
  task : ArrTask := {}
  blk : Nat := 0
  grp : Nat := 0
  loading : Bool := false
  loaded : Nat := 0
  nextRow : Nat := 0
  deriving DecidableEq, Repr

/-- A row admitted and not complete (R59, R64): its values, R of b_hi and then R of b_lo (FP32 in a strict task), the block it
meets. -/
structure RowFly where
  task : ArrTask := {}
  srcRow : Nat := 0
  lastBlk : Bool := true
  vals : List Word := []
  block : Block := {}
  pois : Bool := false
  prox : Bool := false
  deriving DecidableEq, Repr

/-- The array of a lead member (R49 to R77), and each tile's own ballast (R72, R73): slots of the gap so far, the mode with which it
started, the step (0 full current, 1 to 4 taper, 5 ended). `after`: of the 15 slots that follow a strict entry and are no gap slots,
those still to pass (R61, R71). -/
structure Arr where
  blk : Option Block := none
  list : List ArrTask := []
  run : Option ArrRun := none
  fly : List RowFly := []
  gap : Nat := 0
  gapMode : Nat := 1
  inGap : Bool := false
  step : Nat := 0
  after : Nat := 0
  deriving DecidableEq, Repr

/-- An accumulator bank (R89 to R93): elements by 128 i + j, rows reserved and complete, what fills it. -/
structure Bank where
  elems : FMap Elem := []
  /-- rows the array has reserved and not completed -/
  resv : List Nat := []
  /-- rows of the current output block that have completed their last block -/
  done : Nat := 0
  /-- rows the call sheet assigns to the bank in this output block -/
  expect : Nat := 0
  fin : Bool := false
  task : TaskRef := {}
  rig : Nat := 0
  blockIdx : Nat := 0
  last : Bool := false
  drainQ : Bool := false
  sat : Bool := false
  prox : Bool := false
  preProx : Bool := false
  deriving DecidableEq, Repr

/-- An entry of the finished-tile queue (R117, R120): values by 128 i + j, tag, the task and segment that formed it. -/
structure FtqEntry where
  vals : FMap Elem := []
  tag : Nat := 0
  task : TaskRef := {}
  /-- pushed before an error that its task's part is replayed for (R122) -/
  old : Bool := false
  deriving DecidableEq, Repr

/-- A copy in progress (R118). -/
structure FtqCopy where
  bank : Nat := 0
  task : TaskRef := {}
  deriving DecidableEq, Repr

/-- An active loop of a routine: body from `first` to `last`, iterations left after this one. -/
structure VLoop where
  first : Nat := 0
  last : Nat := 0
  left : Nat := 0
  deriving DecidableEq, Repr

/-- The vector engine (R99 to R104, R119): registers by 256 r + lane, masks, scalars, per-lane flags in FLGM order. -/
structure Vec where
  running : Bool := false
  rout : Nat := 0
  pc : Nat := 0
  wait : Nat := 0
  task : TaskRef := {}
  rig : Nat := 0
  strict : Bool := false
  /-- the free values that the registers held at routine start (R99), drawn under this number; none: zero (log entry 9) -/
  seed : Option Nat := none
  v : FMap (Option Elem) := []
  m : FMap (BitVec 256) := []
  sr : FMap Word := []
  q : Nat := 0
  lf : FMap Nat := []
  /-- beats that a ready tile-store access has waited behind stream accesses (R103) -/
  portWait : Nat := 0
  loops : List VLoop := []
  order : List TaskRef := []
  words : FMap Word := []
  entries : FMap Nat := []
  nwords : Nat := 0
  deriving DecidableEq, Repr

/-! ### Stream engines -/

/-- A counter of a generation (R129). -/
structure Ctr where
  val : Nat := 0
  lim : Nat := 1
  str : Int := 0
  deriving DecidableEq, Repr

/-- A base register (R128, R129). -/
structure Base where
  cls : Nat := 0
  addr : Nat := 0
  space : Nat := 0
  deriving DecidableEq, Repr

/-- A block that an EMIT has emitted and whose transfers have not all issued (R131): the far pattern, the near place,
the next element, the settings in force. -/
structure Blk where
  base : Base := {}
  g8 : Base := {}
  g8n : Nat := 0
  d : Nat := 1
  ctrs : List Ctr := []
  total : Nat := 0
  next : Nat := 0
  esz : Nat := 3
  conv : Nat := 0
  /-- feed 0, slot 1 or 2, bank rows 3 (NEAR), local store 4 -/
  near : Nat := 0
  nearAt : Nat := 0
  dlTime : Nat := 0
  dlPol : Nat := 0
  firstReq : Option Nat := none
  deriving DecidableEq, Repr

/-- A transfer that has left and not completed (R134, R136): `data` of a read transfer that has arrived before an earlier
one of its engine; a line still missing is listed in `missing`. -/
structure Xfer where
  id : Nat := 0
  write : Bool := false
  base : Base := {}
  len : Nat := 0
  near : Nat := 0
  nearAt : Nat := 0
  cnt : Nat := 0
  /-- elements of the near side that it moves: of G8 exponents the elements of their groups -/
  span : Nat := 0
  esz : Nat := 3
  dlTime : Nat := 0
  dlPol : Nat := 0
  firstReq : Nat := 0
  /-- read data that has arrived, with word poison flags per byte; or the bytes being written -/
  data : List (Byte × Bool) := []
  arrived : Bool := false
  /-- lines counted late; lines whose data a deadline or a lost line has replaced, by line of the far address (R143) -/
  late : List Nat := []
  repl : FMap (List (Byte × Bool)) := []
  prox : Bool := false
  negWait : Bool := false
  /-- lines that a memory has reported lost (R204) -/
  lost : List Nat := []
  /-- pages whose header or proxy the memory has lost for this transfer (R205) -/
  noProxy : List Nat := []
  /-- lines whose read found one outstanding that serves it too (R67) -/
  co : List Nat := []
  seq : Nat := 0
  /-- a write that stands in outbound staging: the vertical port has not moved it (R148) -/
  staged : Bool := false
  deriving DecidableEq, Repr

/-- A generation (R129). -/
structure Gen where
  num : Nat := 0
  logno : Nat := 0
  lead : Nat := 0
  fromEng : Option Nat := none
  descSpace : Nat := 0
  descAddr : Nat := 0
  instrs : List Nat := []
  slSpace : Nat := 0
  pc : Nat := 0
  ctrs : List Ctr := [{}, {}, {}, {}, {}, {}]
  bases : List Base := [{}, {}, {}, {}]
  esz : Nat := 3
  conv : Nat := 0
  dlTime : Nat := 0
  dlPol : Nat := 0
  abt : Bool := false
  toggle : Nat := 0
  ended : Bool := false
  wait : Nat := 0
  blks : List Blk := []
  xfers : List Xfer := []
  nxfer : Nat := 0
  g8n : FMap Nat := []
  /-- banks read out (R92) -/
  banks : List Nat := []
  /-- a COLL is in progress (R289) -/
  coll : Bool := false
  deriving DecidableEq, Repr

/-- An arm whose descriptor and shot list are being fetched and checked (R139). -/
structure Arm where
  logno : Nat := 0
  lead : Nat := 0
  space : Nat := 0
  addr : Nat := 0
  fromEng : Option Nat := none
  deriving DecidableEq, Repr

/-- One of an engine's two slots (R139). -/
inductive Slot where
  | empty
  | checking (a : Arm)
  | ready (g : Gen)
  deriving DecidableEq, Repr

/-- A logical stream engine (R139 to R141). -/
structure Eng where
  run : Slot := .empty
  shd : Slot := .empty
  /-- a parity error has stopped the engine (R147), until the replay's arm of its generation has been accepted (R141) -/
  stopped : Bool := false
  /-- generation numbers given (R139; log entry 23) -/
  count : Nat := 0
  /-- arms of the tile controller for a replay that wait for a slot (R140, R350) -/
  held : List Arm := []
  deriving DecidableEq, Repr

/-- An element waiting in a feed (R449), in delivery order: raw bits, size code, poison, proxy mark, its task, the engine. -/
structure FeedElem where
  v : Word := 0
  esz : Nat := 3
  p : Bool := false
  prox : Bool := false
  logno : Nat := 0
  eng : Nat := 0
  deriving DecidableEq, Repr

/-- The slots of a slot-wired engine (R135, R157). -/
structure SlotRes where
  s0 : Nat := 0
  s1 : Nat := 0
  size : Nat := 0
  deriving DecidableEq, Repr

/-- A tile, by physical number. Registers of its block are in the register file. -/
structure Tile where
  store : Content := {}
  /-- slots (8 e + slot) whose data is proxy-derived (R144) -/
  slotProx : FMap Bool := []
  /-- tile-store rows remapped to spares, of 128 (R358) -/
  rowSpares : List Nat := []
  banks : FMap Bank := []
  arr : Arr := {}
  feedS : List FeedElem := []
  feedT : List FeedElem := []
  ftq : List FtqEntry := []
  ftqHead : Nat := 0
  copy : Option FtqCopy := none
  /-- finished banks that wait for a push, in the order in which they finished (R118) -/
  finQ : List Nat := []
  vec : Vec := {}
  engs : FMap Eng := []
  slots : FMap SlotRes := []
  /-- elements of a task's stationary feed that are discarded, its block being loaded already (R66, R449; log entry 31); the engine
  that last delivered to a feed, by 2 × log number + feed (0 stationary, 1 streamed) -/
  skipS : FMap Nat := []
  lastFeed : FMap (Option Nat) := []
  draws : Nat := 0
  lastEng : FMap Nat := []
  localLast : Nat := 7
  /-- the next of the eight slots of the vertical port's round (R136) -/
  portSlot : Nat := 0
  /-- failed physical lanes by 32 g + lane, failed engines, parity errors per unit in the heat epoch (R97, R125, R358) -/
  badLanes : List Nat := []
  badEngs : List Nat := []
  perrs : FMap Nat := []
  /-- corrected words of this heat epoch by tile-store row; replays of this heat epoch (R358) -/
  rowCes : FMap Nat := []
  replays : Nat := 0
  deriving DecidableEq, Repr

/-! ### Call sheets -/

/-- A call sheet, decoded (R330). -/
structure CallSheet where
  kind : Nat := 0
  ctl : Nat := 0
  num : Nat := 1
  rout : Nat := 0
  bank : Nat := 0
  tmask : Nat := 0
  dspace : Nat := 0
  nrow : Nat := 0
  klen : Nat := 0
  sbspace : Nat := 0
  xdaddr : Nat := 0
  dtab : Nat := 0
  user : Nat := 0
  args : List Nat := []
  reserved : Bool := false
  deriving DecidableEq, Repr

/-- A part of a call sheet (R333): lead, members, what it has still to do. -/
structure Part where
  lead : Nat := 0
  tiles : List Nat := []
  /-- descriptor addresses by 8 × (position of the tile in `tiles`) + engine, as the table gave them -/
  descs : FMap Nat := []
  saddr : Nat := 0
  /-- segments not yet entered, routines not yet ended, rows not yet complete -/
  segsLeft : Nat := 0
  routLeft : Nat := 0
  rowsLeft : Nat := 0
  /-- arms and generations of the part that have not ended (R139) -/
  gens : Nat := 0
  done : Bool := false
  replays : Nat := 0
  /-- actions of R351 performed by each unit since the part's last start, by 16 × physical tile + unit -/
  ords : FMap Nat := []
  deriving DecidableEq, Repr

/-- A call sheet fetched into the continuity log: waiting in its queue, or dispatched and not complete. -/
structure Sheet where
  logno : Nat := 0
  sq : Nat := 0
  rig : Nat := 0
  cs : CallSheet := {}
  dispatched : Bool := false
  /-- a member of the take with this number (R250) -/
  take : Option Nat := none
  parts : List Part := []
  status : Option Nat := none
  detail : Nat := 0
  fpart : Nat := 0xFF
  pois : Bool := false
  prox : Bool := false
  repl : Bool := false
  stopped : Bool := false
  xd : Option XDesc := none
  /-- its dispatch has waited for a slot of its completion queue (R339, R343) -/
  slotWait : Bool := false
  deriving DecidableEq, Repr

/-- A completion not yet written (R337, R339): held for its take, waiting for a slot or for output versions. -/
structure Compl where
  logno : Nat := 0
  sq : Nat := 0
  cq : Nat := 0
  rig : Nat := 0
  user : Nat := 0
  status : Nat := 0
  flags : Nat := 0
  cause : Nat := 0
  fpart : Nat := 0xFF
  take : Nat := 0
  detail : Nat := 0
  noirq : Bool := false
  /-- a slot is reserved -/
  slot : Bool := true
  /-- held until the take of this number ends (R337) -/
  holdTake : Option Nat := none
  /-- waits for its DONE record, of this number, to count as written (R367) -/
  await : Option Nat := none
  deriving DecidableEq, Repr

/-- A submission queue's context (R324, R329). -/
structure Sq where
  space : Nat := 0
  addr : Nat := 0
  logsz : Nat := 4
  prio : Nat := 0
  cq : Nat := 0
  rig : Nat := 0
  head : Nat := 0
  tail : Nat := 0
  wraps : Nat := 0
  age : Nat := 0
  /-- given up by a reload in progress (R341) -/
  gone : Bool := false
  deriving DecidableEq, Repr

/-- A completion queue's context (R324, R339, R340). `written`, `freed` and `go` count completions written, slots freed and GOs
returned since the queue was created; the ring index is modulo the size. `reserved` slots wait for their completion. -/
structure Cq where
  addr : Nat := 0
  logsz : Nat := 4
  vec : Nat := 0
  cthr : Nat := 1
  ctime : Nat := 0
  rig : Nat := 0
  written : Nat := 0
  freed : Nat := 0
  reserved : Nat := 0
  go : Nat := 0
  pending : Nat := 0
  oldest : Nat := 0
  /-- a vector is to be sent once GO has come for every completion -/
  due : Bool := false
  /-- given up by a reload in progress (R341) -/
  gone : Bool := false
  deriving DecidableEq, Repr

/-! ### Rigs and takes -/

/-- A fused array (R52, R155): shape code, members in row-major order. -/
structure Fused where
  shape : Nat := 0
  members : List Nat := []
  deriving DecidableEq, Repr

/-- A training group of the latched parameter table (R252). -/
structure Group where
  kind : Nat := 1
  flags : Nat := 0
  space : Nat := 0
  nelem : Nat := 0
  rowlen : Nat := 0
  xgrp : Nat := 0
  maddr : Nat := 0
  waddr : Nat := 0
  eaddr : Nat := 0
  gaddr : Nat := 0
  deriving DecidableEq, Repr

/-- The take of a rig (R250, R251, R257). `state` has the codes of R257 and 8 for Striking. -/
structure Take where
  state : Nat := 0
  num : Nat := 0
  lsLog : Nat := 16
  groups : List Group := []
  hyper : List Nat := []
  strag : Nat := 2
  nonfin : Bool := false
  sat : Bool := false
  pois : Bool := false
  prox : Bool := false
  abort : Bool := false
  peer : Bool := false
  late : Bool := false
  stop : Bool := false
  driver : Bool := false
  /-- the transported gradient, then the combined result G^c, by 2^32 × group + element (FP32 patterns) -/
  gc : FMap Nat := []
  /-- packed blocks as bytes for the exchange, by group -/
  packed : FMap (List Byte) := []
  /-- the close call sheet's log number -/
  close : Option Nat := none
  /-- the print record counts as written (R268) -/
  recorded : Bool := false
  /-- Derive has formed its copies; the last PAGE frame sent for them (R367) -/
  derived : Option Nat := none
  /-- exchange: groups whose combined result has arrived -/
  xdone : List Nat := []
  /-- this member's contribution that an exchange left out, by group; the members that the lead last left out (R269) -/
  lateG : FMap (List Byte) := []
  lateOf : FMap (List Nat) := []
  /-- how many takes have ended since: of `lateG` at 2 × group, of `lateOf` at 2 × group + 1 -/
  lateAge : FMap Nat := []
  deriving DecidableEq, Repr

/-- A rig of the image in force (R154). -/
structure Rig where
  exists_ : Bool := false
  tiles : List Nat := []
  fused : List Fused := []
  sqFirst : Nat := 1
  sqLast : Nat := 0
  cqFirst : Nat := 1
  cqLast : Nat := 0
  sigFirst : Nat := 1
  sigLast : Nat := 0
  obFirst : Nat := 0
  obCount : Nat := 0
  xbFirst : Nat := 0
  xbCount : Nat := 0
  /-- stopping by an immediate stop (R164) -/
  killed : Bool := false
  lastSq : Nat := 0
  /-- a call sheet has been dispatched since the rig's load (R372) -/
  ran : Bool := false
  take : Take := {}
  deriving DecidableEq, Repr

/-- A space (R157, R178). -/
structure Space where
  owner : Nat := 0
  ro : Bool := false
  shared : Bool := false
  ledger : Nat := 0
  readers : List Nat := []
  deriving DecidableEq, Repr

/-! ### Pages -/

/-- A page (R180, R181): the fields of its PTE, its negative, its content and version. -/
structure Page where
  ro : Bool := false
  tier : Nat := 0
  cmp : Bool := false
  mov : Bool := false
  kind : Nat := 0
  neg : Bool := false
  ldg : Bool := false
  pin : Bool := false
  zero : Bool := true
  hint : Nat := 0
  heat : Nat := 0
  len : Nat := 0
  frame : Nat := 0
  negLen : Nat := 0
  negFrame : Nat := 0
  /-- version counter of R348 -/
  ver : Nat := 0
  data : Content := {}
  /-- the content when sealed: what the negative holds (R196) -/
  negData : Content := {}
  /-- lines marked poisoned at line level (R206) -/
  linePois : List Nat := []
  /-- 4 KiB units of the MAP reservation still held (R183) -/
  resv : Nat := 16
  deriving DecidableEq, Repr

/-- A ledger record (R208): NTAKE, the pending update by element as code, exponent and residual. -/
structure Ledger where
  ntake : Nat := 0
  codes : FMap Nat := []
  exps : FMap Nat := []
  err : FMap Nat := []
  /-- a word of the record is poisoned (R263) -/
  pois : Bool := false
  /-- of a staged record: the update that it adds, by element (R211; log entry 121) -/
  upd : FMap Nat := []
  /-- the order in which records were created, for R212 -/
  born : Nat := 0
  deriving DecidableEq, Repr

/-- A version of a page beside the current one (R254, R334, R349): which page, its content, who holds it. -/
structure Version where
  page : Nat := 0
  logno : Nat := 0
  rig : Nat := 0
  data : Content := {}
  ver : Nat := 0
  zero : Bool := false
  deriving DecidableEq, Repr

/-- Which version of a page an entry of the write-combining buffer belongs to (R213, R334). -/
inductive Which where
  | current
  | staged (rig : Nat)
  | out (logno : Nat)
  | held (ver : Nat)
  deriving DecidableEq, Repr

/-- A write-combining entry (R213): page, line, version, bytes by offset in the line, poisoned words, the engine. -/
structure WcEntry where
  page : Nat := 0
  line : Nat := 0
  which : Which := .current
  bytes : FMap (Option Byte) := []
  pois : FMap Bool := []
  user : Nat := 0
  born : Nat := 0
  deriving DecidableEq, Repr

/-- Why a page moves (R187, R188, R194, R182). -/
inductive MoveKind where
  | ascent | descent | forced | pinned
  deriving DecidableEq, Repr

/-- A move waiting or in flight (R192): destination tier, move pointer, the destination frame and its units, whether the line at MP has
been asked of the source. The page's content stands for the source and for what has landed, which agree. -/
structure Move where
  page : Nat := 0
  kind : MoveKind := .ascent
  dest : Nat := 0
  mp : Nat := 0
  frame : Nat := 0
  units : Nat := 16
  asked : Bool := false
  act : Nat := 0
  /-- lines written to the destination's frame of now (R193) -/
  sent : Nat := 0
  deriving DecidableEq, Repr

/-- A mapping command in progress (R182). -/
structure MCmd where
  op : Nat := 0
  arg : Nat := 0
  space : Nat := 0
  vpn : Nat := 0
  npage : Nat := 0
  done : Nat := 0
  /-- waits for tier 3's confirmation of a negative, a move or a fold -/
  waiting : Bool := false
  /-- units of tier 3 held for the negative being written (R183) -/
  held : Nat := 0
  deriving DecidableEq, Repr

/-- An export or import in progress that waits for the pages it writes (R272). -/
structure TxJob where
  rig : Nat := 0
  imp : Bool := false
  group : Nat := 0
  space : Nat := 0
  addr : Nat := 0
  deriving DecidableEq, Repr

/-- A line being reread from its negative (R197): how many reads failed, the waiting transfers, and the tasks whose descriptor, shot
list, table or call-sheet data it is (log number and lead). -/
structure NegRead where
  page : Nat := 0
  line : Nat := 0
  fails : Nat := 0
  /-- waiting readers: physical tile, engine, transfer id -/
  readers : List (Nat × Nat × Nat) := []
  tasks : List (Nat × Nat) := []
  deriving DecidableEq, Repr

end Sys2Proof.Machine
end

