-- ==== Sys2Proof/Machine/DataPorts.lean ====
section
/-! DEFINITION. The parts of the state that no register word holds, part 2: frames, streams, collectives, links, what the
device drives out. -/

namespace Sys2Proof.Machine

/-- What a record of the continuity log holds (R345). -/
inductive LogKind where
  | sheet (sq user : Nat)
  | read (page ver : Nat)
  /-- a unit's action: unit, ordinal in the part, WR count of the stream (R351) -/
  | mark (unit ord wr : Nat)
  | bank (tile b : Nat) (elems : FMap Elem) (prox : Bool)
  | done (sq user status flags : Nat)
  /-- stage 0 Pack, 1 Apply, 2 Derive of a group -/
  | stage (num stg group : Nat)
  /-- take record as the bits NONFIN, SAT, POIS, PROX, ABORT, PEER, LATE from bit 0 up; SATNF, LSGROW of the rig, for R371 -/
  | ddone (num rec satnf lsgrow ls ncons : Nat)
  | fin (print : Bool) (cause num ls ncons : Nat)
  deriving DecidableEq, Repr

/-- A record of the continuity log (R345): its order, call sheet, part, rig, whether it lies in the ring, whether the twin has
acknowledged it. -/
structure LogRec where
  seq : Nat := 0
  logno : Nat := 0
  lead : Nat := 0
  rig : Nat := 0
  kind : LogKind := .sheet 0 0
  ring : Bool := false
  acked : Bool := true
  /-- copies found unreadable: of the two in the head, of the ring's and the twin's (R221, R346) -/
  bad : Nat := 0
  deriving DecidableEq, Repr

/-- What a frame carries beyond R280 where the spec names the content and no bit layout (log entry 18). -/
inductive FrameExt where
  /-- PAIR: protection setting, reserve needed in GiB (R362) -/
  | pair (prot need : Nat)
  | pack (ok : Bool)
  | lrec (recs : List LogRec)
  /-- PAGE: its sequence, the rig that owns the page's space -/
  | page (seq rig : Nat)
  /-- MACK: highest LREC and PAGE sequence stored -/
  | mack (lrec page : Nat)
  /-- MASK: positions included, whether late contributions take part (R293) -/
  | mask (incl : List Nat) (late : Bool)
  deriving DecidableEq, Repr

/-- A fabric or tether frame (R280): header fields and payload. -/
structure Frame where
  ftype : Nat := 0
  vc : Nat := 0
  lvl : Nat := 0
  hops : Nat := 0
  dst : Nat := 0
  src : Nat := 0
  stile : Nat := 0
  seng : Nat := 0
  cnt : Nat := 0
  arg : Nat := 0
  pmask : Nat := 0
  ofs : Nat := 0
  payload : List Byte := []
  ext : Option FrameExt := none
  /-- not part of the frame: the log number of the task of this device that issued it and whose abort drops it unsent (R288) -/
  own : Option Nat := none
  deriving DecidableEq, Repr

/-- Commands to an NVMe drive besides its reads (R243). -/
inductive NvmeCmd where
  | identify | setFeatures | createQueue (q : Nat) | getLog | write (fua : Bool) | deallocate | flush
  deriving DecidableEq, Repr

/-- A payload flit as the replay buffer keeps it (R234): its sequence number, SLOTK, 240 bytes. -/
structure SentFlit where
  seq : Nat := 0
  slotk : Nat := 0
  body : List Byte := []
  deriving DecidableEq, Repr

/-- What the device drives out of its bump field, in the model's own record (log entry 3). -/
inductive Out where
  | frame (port : Nat) (f : Frame)
  /-- a null flit: port, ACK or NAK of a sequence number, credits of a class -/
  | flit (port : Nat) (nak : Bool) (seq : Nat) (cls crd : Nat)
  /-- null flits that say nothing -/
  | idle (port n : Nat)
  /-- a payload flit sent, and one sent again -/
  | sent (port : Nat) (q : SentFlit)
  | replay (port : Nat) (q : SentFlit)
  | trainSet (port : Nat) (kind : Nat) (lane : Nat) (bytes : List Byte)
  /-- B_n_RST_L: released or not -/
  | bufReset (b : Nat) (released : Bool)
  /-- a Svaweurn request: link, kind, tag, address or register, units, data with poison -/
  | svaweurn (port kind tag addr units : Nat) (data : List (Byte × Bool))
  /-- a read request to a CXL or NVMe port -/
  | portReq (port : Nat) (write : Bool) (addr len : Nat)
  /-- a command to drive `dev` of tier 3: first block, blocks (R243) -/
  | nvme (dev : Nat) (c : NvmeCmd) (lba n : Nat)
  /-- the HDM decoder of a CXL device: port, device, first frame, frames (R242) -/
  | hdm (port dev base units : Nat)
  /-- a 32-byte completion written to host memory (R337) -/
  | completion (addr : Nat) (data : List Byte)
  | msix (vec : Nat)
  | snoopMiss (addr : Nat)
  /-- read data returned on CXL.io or SMBus -/
  | regData (addr : Nat) (data : Word)
  | windowData (off : Nat) (data : List Byte) (poison : Bool)
  | smbAck (ok : Bool)
  | smbAlertResponse (addr : Nat)
  | tdo (data : Nat)
  | tdoBytes (data : List Byte)
  | vcmd (island uv : Nat) (frame : Nat)
  deriving DecidableEq, Repr

/-- A waiter on a signal (R297): physical tile and unit, 0 to 7 the logical engines, 8 the vector engine. -/
structure Waiter where
  tile : Nat := 0
  unit : Nat := 0
  deriving DecidableEq, Repr

/-- A cross-device barrier's progress (R309, R311): arrivals here, arrivals recorded of each child by position, whether the
arrive frame of this phase has gone, the frames last sent, those rejected and when each was, when the arrivals here not yet taken came. -/
structure Xbar where
  arr : Nat := 0
  child : FMap Nat := []
  sent : Bool := false
  lastSent : List Frame := []
  rej : List (Nat × Frame) := []
  arrAt : List Nat := []
  timedOut : Bool := false
  deriving DecidableEq, Repr

/-- An accepted remote write not yet visible (R284): its stream, its place in arrival order. -/
structure RemoteWr where
  stream : Nat := 0
  seq : Nat := 0
  win : Nat := 0
  frame : Frame := {}
  port : Nat := 0
  deriving DecidableEq, Repr

/-- A SIG held for the writes of its stream up to its CNT; one of an overflowed stream for the writes that had arrived, those numbered up to
`upTo` (R287, R288). -/
structure HeldSig where
  stream : Nat := 0
  cnt : Nat := 0
  upTo : Nat := 0
  overflow : Bool := false
  sig : Nat := 0
  at_ : Nat := 0
  port : Nat := 0
  deriving DecidableEq, Repr

/-- A sending stream (R282, R286): sequence of the next WR, acknowledged count, the route entry and the port that it still follows. -/
structure SendStream where
  seq : Nat := 0
  acked : Nat := 0
  route : Nat := 0
  port : Nat := 0
  deriving DecidableEq, Repr

/-- A collective in progress: a COLL of an engine, or the exchange of a rig's group (R290, R291, R293). Blocks are 32 elements in the
format carried, each byte with its poison. -/
structure Coll where
  tile : Nat := 0
  eng : Nat := 0
  /-- the task and part of a COLL -/
  logno : Nat := 0
  lead : Nat := 0
  rig : Option Nat := none
  group : Nat := 0
  collid : Nat := 0
  op : Nat := 0
  form : Nat := 0
  fmt : Nat := 0
  grp : Nat := 0
  /-- the members that receive, and those that contribute, in ascending identity -/
  members : List Nat := []
  incl : List Nat := []
  nblk : Nat := 0
  src : Nat := 0
  dst : Nat := 0
  /-- the second reduction, of late contributions (R269, R293) -/
  second : Bool := false
  /-- tree form: contributions of children by 16 × block + round, and the rounds combined by block; reduce-scatter: blocks received;
  partial values, or an exchange's results, by block -/
  recv : FMap (List (Byte × Bool)) := []
  got : FMap Nat := []
  part : FMap (List (Byte × Bool)) := []
  /-- result blocks in place -/
  have_ : List Nat := []
  deriving DecidableEq, Repr

/-- The exchange of a group (R269, R293): verdicts that the lead has (0 ok, 1 non-finite, 2 void), whether and when this member's own
contribution was ready, what MASK said once it has come. -/
structure Exchange where
  rig : Nat := 0
  group : Nat := 0
  members : List Nat := []
  verdicts : FMap (Option Nat) := []
  started : Bool := false
  readyAt : Nat := 0
  masked : Bool := false
  incl : List Nat := []
  late : Bool := false
  verdict : Nat := 0
  deriving DecidableEq, Repr

end Sys2Proof.Machine
end

