-- ==== Sys2Proof/Machine/DataUnits.lean ====
section
/-! DEFINITION. The parts of the state that no register word holds, part 3: links, memories, maintenance, tether, power,
security, flight log, loader. Plain data. -/

namespace Sys2Proof.Machine

/-! ### Links and memories (spec 09, 11) -/

/-- What a tag of a Svaweurn link stands for (R237): 1 RD, 2 WR, 3 FILL, 4 CFGRD, 5 CFGWR, 6 SYNC. -/
structure TagCmd where
  kind : Nat := 0
  ch : Nat := 0
  addr : Nat := 0
  units : Nat := 0
  /-- page that a read or write serves, and which 256 bytes of its home: of a page in plain form the line's; a stored page's header and proxy come
  first (R202) -/
  page : Nat := 0
  line : Nat := 0
  head : Bool := false
  /-- what it writes, kept until it is confirmed (R223) -/
  data : List (Byte × Bool) := []
  deriving DecidableEq, Repr

/-- A link by port number of R416: sequence state (R234), credits held (R235, R279), the training step reached (R239). -/
structure Link where
  nextSeq : Nat := 0
  expSeq : Nat := 0
  /-- payload flits sent and not acknowledged, oldest first -/
  unacked : List SentFlit := []
  /-- frames sent whose last flit, by its sequence number, is not acknowledged (R355, R356) -/
  flying : List (Nat × Frame) := []
  /-- how often in a row the flit at the front has been replayed -/
  replays : Nat := 0
  /-- Svaweurn: 0 command, 1 data credits; fabric: 2 × virtual channel + level, in 32-byte units -/
  credits : FMap Nat := []
  /-- training: 0 none, 1 TSA sent, 3 TSC sent, 4 up, 5 fast retrain; `full`: a fast retrain failed before -/
  train : Nat := 0
  full : Bool := false
  rxok : List Nat := []
  /-- failed for its lanes: it never trains again (R239) -/
  dead : Bool := false
  /-- presets last chosen: this end's transmitter, the far one's (R239, R240) -/
  presets : Nat × Nat := (0, 0)
  tags : FMap TagCmd := []
  /-- Svaweurn: commands that wait for a tag, a credit or room for replay; has register 0x0003 been added to the credits (R235)? -/
  waiting : List TagCmd := []
  told : Bool := false
  /-- fabric: WR frames that have come and for which no buffer has room; their credits are withheld (R285) -/
  inbox : List Frame := []
  /-- frames that wait for credits or the replay buffer, in request order, each with: is it in transit; by class 2 × virtual
  channel + level, whether the last one sent was in transit (R279, R282) -/
  queue : List (Bool × Frame) := []
  lastTransit : FMap Bool := []
  /-- Svaweurn: GiB filled of each channel -/
  filled : FMap Nat := []
  deriving DecidableEq, Repr

/-- A memory device of tier 2 or 3 (R242, R243): its port, the frames it holds, whether it is online. -/
structure MemDev where
  port : Nat := 0
  base : Nat := 0
  units : Nat := 0
  online : Bool := true
  deriving DecidableEq, Repr

/-- An access of the device to a CXL or NVMe device that has not completed (R242, R243). -/
structure PortReq where
  id : Nat := 0
  port : Nat := 0
  dev : Nat := 0
  page : Nat := 0
  /-- the first 256 bytes of the page's home that it asks for, counted in such pieces -/
  line : Nat := 0
  deriving DecidableEq, Repr

/-- A tier 0 channel by physical number (R228 to R231): corrected words of this heat epoch, whether it has been retrained in
this epoch, the operation in progress (1 evacuation, 2 retrain in place, 3 retrain of an evacuated source), the channel pointer in 1/256 of the channel. -/
structure Chan where
  ce : Nat := 0
  once : Bool := false
  op : Nat := 0
  dst : Nat := 0
  retire : Bool := false
  cmd : Bool := false
  cp : Nat := 0
  deriving DecidableEq, Repr

/-- A maintenance activity (R246): kind 0 SCRUB, 1 EVAC, 2 MOVE, 3 RETRAIN, 4 FLOG, 5 FWUPD, 6 FILL; the resources it works
on; what it is for (a page, a channel). -/
structure Act where
  id : Nat := 0
  kind : Nat := 0
  res : List Nat := []
  arg : Nat := 0
  cmd : Bool := false
  deriving DecidableEq, Repr

/-- The scrubber of a memory (R245): the next unit of 4 KiB, the units left of a forced pass, lines of traffic that no unit has answered. -/
structure Scrub where
  pos : Nat := 0
  pass : Nat := 0
  traffic : Nat := 0
  deriving DecidableEq, Repr

/-- The descent sweep of a tier (R188): next frame, threshold D in force, whether this sweep descended anything. -/
structure Sweep where
  pos : Nat := 0
  d : Nat := 2
  hit : Bool := false
  deriving DecidableEq, Repr

/-! ### The tether (spec 14) -/

/-- The reserve hosted for the partner (R363 to R372). -/
structure Reserve where
  log : List LogRec := []
  printed : FMap Content := []
  staged : FMap Content := []
  /-- records as the bytes of R208 -/
  ledgers : FMap Content := []
  stagedLedgers : FMap Content := []
  prot : Nat := 0
  frozen : Bool := false
  settled : Bool := false
  lrecSeq : Nat := 0
  pageSeq : Nat := 0
  /-- which rig staged a page -/
  owner : FMap Nat := []
  /-- GiB and tier taken -/
  gib : Nat := 0
  tier : Nat := 1
  deriving DecidableEq, Repr

/-- The tether's own state (R362 to R371): has HELLO come, is the partner's PAIR accepted, is ours; the newest record and page sent and
acknowledged. -/
structure Tether where
  helloOk : Bool := false
  accepted : Bool := false
  packed : Bool := false
  sentSeq : Nat := 0
  ackSeq : Nat := 0
  pageSent : Nat := 0
  pageAck : Nat := 0
  /-- pages sent to the twin since pairing (R366) -/
  mirrored : List Nat := []
  /-- when a frame last arrived; when one last left, by port -/
  lastFrame : Nat := 0
  lastSent : FMap Nat := []
  /-- GiB asked of the twin in PAIR -/
  need : Nat := 0
  /-- UNPR has been sent -/
  unpr : Bool := false
  /-- the destination of a RESTORE in progress -/
  restore : Option Nat := none
  /-- the WRs of its stream that had been sent and acknowledged when it began -/
  restoreFrom : Nat := 0
  /-- the bad lane of each tether port and direction, 2 × port + 1 for the transmitter; 7 none (R276, R417) -/
  bad : FMap Nat := []
  deriving DecidableEq, Repr

/-! ### Power (spec 15) -/

/-- A ramp waiting: island, whether a thermal step asked for it, order (R381). -/
structure Ramp where
  island : Nat := 0
  thermal : Bool := false
  deriving DecidableEq, Repr

/-! ### Security and the flight log (spec 16, 17) -/

/-- A key command whose fuses are being programmed (R401). -/
structure KeyOp where
  enrol : Bool := true
  slot : Nat := 0
  key : List Byte := []
  deriving DecidableEq, Repr

/-- A firmware update (R399): the image in the management store; does its copy still hold the staging area. -/
structure FwOp where
  img : List Byte := []
  copying : Bool := true
  deriving DecidableEq, Repr

/-- An open debug session (R408). -/
structure Session where
  scope : Nat := 0
  life : Nat := 0
  since : Nat := 0
  deriving DecidableEq, Repr

/-- A journal record (R422). -/
structure JRec where
  typ : Nat := 0
  ukind : Nat := 0
  unit : Nat := 0
  boot : Nat := 0
  order : Nat := 0
  data : List Byte := []
  deriving DecidableEq, Repr

/-- The latency histogram of a tile (R420): medians, samples of the current window by stage, bins. -/
structure Hist where
  median : FMap Nat := []
  window : FMap (List Nat) := []
  bins : FMap Nat := []
  deriving DecidableEq, Repr

/-- The spares of a tile in the spare maps (R417). -/
structure TileMap where
  lanes : List Nat := []
  engs : List Nat := []
  rows : List Nat := []
  deriving DecidableEq, Repr

/-- The content of a state region (R417). The spare maps hold entries of the register file as they stand there. -/
inductive FlData where
  | none_
  | header (serial : List Byte) (boots jhead jwrap : Nat)
  | counters (c : FMap Nat)
  | maps (regs : FMap Nat) (tiles : FMap TileMap) (mgmt : List Nat) (tether : FMap Nat)
  | hists (h : FMap Hist)
  | resid (r : FMap Nat)
  | vendor (n : Nat)
  deriving DecidableEq, Repr

/-- A slot of a state region (R417, R418): its content, its commit sequence number. -/
structure FlSlot where
  seq : Nat := 0
  data : FlData := .none_
  valid : Bool := false
  deriving DecidableEq, Repr

/-- The flight log: working copy and what the RRAM holds (R417 to R423). Slots by 2 × region + slot, regions 0 header,
1 counters, 2 spare maps, 3 histograms, 4 residency, 5 vendor diagnostics. -/
structure Flog where
  counters : FMap Nat := []
  hists : FMap Hist := []
  resid : FMap Nat := []
  /-- what each drive's health log said when it was last read, in the working copy (R243) -/
  health : FMap (List Byte) := []
  boots : Nat := 0
  order : Nat := 0
  jhead : Nat := 0
  jwrap : Nat := 0
  /-- journal records waiting for a FLOG unit -/
  waiting : List JRec := []
  journal : FMap (Option JRec) := []
  slots : FMap FlSlot := []
  deriving DecidableEq, Repr

/-- A flight-log commit requested: whole (every changed region) or journal and spare maps only. -/
structure Commit where
  whole : Bool := true
  cmd : Bool := false
  deriving DecidableEq, Repr

/-! ### The loader (spec 07) -/

/-- A load in progress (R163, R165): HOW and HOLD, the slot states and the staging area latched at START. -/
structure Load where
  how : Nat := 0
  hold : Bool := false
  enrolled : Nat := 0
  revoked : Nat := 0
  img : Content := {}
  deriving DecidableEq, Repr

end Sys2Proof.Machine
end

