-- ==== Sys2Proof/Syntax.lean ====
section
/-! DEFINITION. The commands of the block: one constructor per row of spec/opcode_table.json, with the operands the row's
step takes. `p` is a physical tile, `e` a logical stream engine, `n` a rig; `errs` lists code words of the access with the
bits that arrived wrong (80-bit patterns, R219); `data` is the word a register write carries. -/

namespace Sys2Proof
open Machine

/-- The fields of a V-format vector instruction (R105, R106). -/
structure VOp where
  d : Nat := 0
  a : Nat := 0
  b : Nat := 0
  bm : Nat := 0
  msk : Nat := 0
  mz : Nat := 0
  sub : Nat := 0
  deriving DecidableEq, Repr

/-- The fields of an S-format instruction. -/
structure SOp where
  sd : Nat := 0
  sa : Nat := 0
  imm : Nat := 0
  deriving DecidableEq, Repr

/-- The fields of a T-format instruction. -/
structure TOp where
  d : Nat := 0
  e : Nat := 0
  sub : Nat := 0
  imm : Nat := 0
  deriving DecidableEq, Repr

/-- The fields of an M-format instruction. -/
structure MOp where
  d : Nat := 0
  sa : Nat := 0
  fmt : Nat := 0
  imm : Nat := 0
  deriving DecidableEq, Repr

/-- A link flit as read (R233, R234, R278): header fields, whether its CRC is good. -/
structure Flit where
  typ : Nat := 0
  seq : Nat := 0
  ackseq : Nat := 0
  ackv : Bool := false
  nak : Bool := false
  cls : Nat := 0
  lvl : Nat := 0
  crd : Nat := 0
  crcOk : Bool := true
  deriving DecidableEq, Repr

/-- A message from a Svaweurn buffer: its 16 bytes (R236, R237). -/
structure BufMsg where
  bytes : List Byte := []
  deriving DecidableEq, Repr

/-- What the received TSB sets and this end's measurement tell (R239 steps 3 to 5): the rate that the sets name, the preset that the far end names
for this end's transmitter, the best one of the far transmitter, lanes whose eye margin is below threshold. -/
structure TrainReport where
  /-- the lanes that the far end receives -/
  good : List Nat := []
  rate : Nat := 1
  preset : Nat := 0
  best : Nat := 0
  low : List Nat := []
  deriving DecidableEq, Repr

/-- What a fast retrain finds in its steps 4 to 7 (R239, R240): whether they ended in time, lanes that the far end does not receive, lanes whose eye
margin is below threshold. -/
structure FastReport where
  ok : Bool := true
  lost : List Nat := []
  low : List Nat := []
  deriving DecidableEq, Repr

/-- What one module's training found (R318): the codes of QUE_ULINK. -/
structure UcieReport where
  state : Nat := 3
  rate : Nat := 0
  rep : Nat := 0
  deriving DecidableEq, Repr

/-- What a start-up step of R393 found in the world outside: a failure code (0 none), the straps, the links and memories
that answered. -/
structure BootReport where
  fail : Nat := 0
  vals : List Nat := []
  deriving DecidableEq, Repr

/-- What arrives as a flit: its 256 bytes, and whether a lane failed in it (R233, R240). -/
structure FlitIn where
  bytes : List Byte := []
  laneFail : Bool := false
  deriving DecidableEq, Repr

/-- How a channel's retrain ended, and the DQ lanes it repaired (R227, R231). -/
structure RetrainReport where
  ok : Bool := true
  dq : Nat := 0
  deriving DecidableEq, Repr

/-- What is gone behind a CXL port: all of it, or one device (R242). -/
structure CxlLoss where
  x : Nat := 0
  dev : Option Nat := none
  deriving DecidableEq, Repr

/-- Records of the continuity log of which the read for a replay finds copies unreadable: the record's number in the log's order, how many copies
(R346). -/
abbrev Unread := List (Nat × Nat)

/-- A controller or a management core that fails, with what the replays that follow find unreadable in the log (R223, R346, R350). -/
structure UnitFault where
  unit : Nat := 0
  unread : Unread := []
  deriving DecidableEq, Repr

/-- A tile to be replaced, the wrong bits of words of its store that the copy reads (R221, R359), and what the replays find unreadable in the log. -/
structure Substitution where
  tile : Nat := 0
  errs : List (Nat × Nat) := []
  unread : Unread := []
  deriving DecidableEq, Repr

/-- An operation through the test access port in a debug session (R407, R408). -/
inductive DebugAccess where
  | scan (tile : Option Nat) (bits : List Bool)
  | readMem (space addr len : Nat)
  | writeMem (space addr : Nat) (data : List Byte)
  | readTile (p addr len : Nat)
  | writeTile (p addr : Nat) (data : List Byte)
  | core (op : Nat)
  deriving DecidableEq, Repr

/-- The commands. -/
inductive Instr where
  /-- REGISTER_WRITE (R4). A control-space write to a register that has no row of its own, applied field by field under the RW, W1C, WS, WL and WO access codes. -/
  | registerWrite (addr : Nat) (data : Word) (be : Nat)
  /-- LOW_WORD_READ (R77). A read of the low word of a 64-bit register latches the high word for the next read. -/
  | lowWordRead (addr : Nat)
  /-- SYN_GMDAT_ACCESS (R315). An access to the member word selected by SYN_GMSEL; INDEX increases by 1 when AINC is set. -/
  | synGmdatAccess (wr : Option Word)
  /-- SMBUS_SET_ADDRESS (R439). SMBus command 0x01 sets the control-space address that the sideband uses. -/
  | smbusSetAddress (addr : Word) (pecOk : Bool)
  /-- SMBUS_BLOCK_ACCESS (R439). SMBus command 0x02 reads or writes four bytes at the set address, which then increases by 4; a wrong PEC is not acknowledged. -/
  | smbusBlockAccess (wr : Option Word) (pecOk : Bool)
  /-- SNOOP (R321). A CXL.cache snoop from the host is answered as not holding the line. -/
  | snoop (addr : Nat)
  /-- PORST_L_ASSERT (R444). The board drives PORST_L low, which returns the device to step 1 of start-up. -/
  | porstAssert
  /-- SUPPLY_OUT_OF_RANGE (R445). A rail leaves its monitor window and the device returns to step 1 of start-up. -/
  | supplyOutOfRange (rail : Nat)
  /-- RESET_RELEASE (R393). The supply monitor releases internal reset once every supply has been in range for 1 ms. -/
  | resetRelease
  /-- BOOT_STEP_COMPLETE (R393). A start-up step ends and the next step begins. -/
  | bootStepComplete (r : BootReport)
  /-- LOAD_START (R163). A write of IMG_CTL.START starts a load of the image in the staging area and latches HOW and HOLD. -/
  | loadStart (data : Word)
  /-- IMAGE_CHECK_COMPLETE (R162). The signature and rule checks of an image end in acceptance or rejection. -/
  | imageCheckComplete
  /-- IMAGE_APPLY (R165). Once the affected rigs have stopped, the loader fills the stores and banks and writes the image's structure. -/
  | imageApply
  /-- IMAGE_APPLY_COMPLETE (R165). Applying ends: the rigs become running or stopped, ACC is set, the digests and CHAIN are written. -/
  | imageApplyComplete
  /-- RIG_GO (R176). IMG_RCTL.GO makes a stopped or stopping rig run. -/
  | rigGo (n : Nat) (data : Word)
  /-- RIG_STOP (R176). IMG_RCTL.STOP starts a graceful stop of the rig. -/
  | rigStop (n : Nat) (data : Word)
  /-- RIG_KILL (R164). IMG_RCTL.KILL starts an immediate stop of the rig. -/
  | rigKill (n : Nat) (data : Word)
  /-- RIG_STOPPED (R164). A stopping rig becomes stopped once it has no task in progress and no take open, or once its aborts have settled. -/
  | rigStopped (n : Nat)
  /-- CREATE_SQ (R325). Queue command that creates a submission queue. -/
  | createSq (data : Word)
  /-- CREATE_CQ (R325). Queue command that creates a completion queue. -/
  | createCq (data : Word)
  /-- DELETE_SQ (R325). Queue command that deletes a submission queue. -/
  | deleteSq (data : Word)
  /-- DELETE_CQ (R325). Queue command that deletes a completion queue. -/
  | deleteCq (data : Word)
  /-- SQ_TAIL_DOORBELL (R326). A write of a submission queue's tail doorbell makes the entries up to the new tail fetchable. -/
  | sqTailDoorbell (n : Nat) (data : Word)
  /-- CQ_HEAD_DOORBELL (R326). A write of a completion queue's head doorbell frees the completion slots below the new head. -/
  | cqHeadDoorbell (n : Nat) (data : Word)
  /-- CALL_SHEET_FETCH (R328). The queue engine fetches a call sheet, gives it a LOGNO, records it in the continuity log and advances the head. -/
  | callSheetFetch (n : Nat) (errs : List (Nat × Nat))
  /-- LOG_HEAD_MIGRATE (R344). Records move from the log head to the tier 0 ring, oldest first, while the head is more than half full. -/
  | logHeadMigrate
  /-- CALL_SHEET_DISPATCH (R329). A rig dispatches a call sheet from an eligible submission queue chosen by priority and aging. -/
  | callSheetDispatch (n : Nat) (errs : List (Nat × Nat))
  /-- PART_COMPLETE (R336). A part of a call sheet completes. -/
  | partComplete (logno : Nat) (part : Nat)
  /-- OUTPUT_VERSIONS_CURRENT (R336). A successful call sheet's output versions all become current. -/
  | outputVersionsCurrent (logno : Nat)
  /-- COMPLETION_GO (R340). The host returns GO for a completion write. -/
  | completionGo (m : Nat)
  /-- CQ_COALESCE_TIMEOUT (R340). CTIME µs have passed since the oldest pending completion, so the vector is sent. -/
  | cqCoalesceTimeout (m : Nat)
  /-- MSIX_UNMASK (R340). Unmasking a vector sends a pending message. -/
  | msixUnmask (vec : Nat)
  /-- HOST_WINDOW_READ (R323). A host CXL.mem read through an aperture of the window. -/
  | hostWindowRead (off : Nat) (errs : List (Nat × Nat)) (lost : Bool)
  /-- HOST_WINDOW_WRITE (R323). A host CXL.mem write through an aperture, applied at the tier controller as a read-modify-write of its line. -/
  | hostWindowWrite (off : Nat) (data : List Byte) (mask : Nat) (errs : List (Nat × Nat))
  /-- UCIE_MODULE_RETRAIN (R319). A UCIe module retrains at run time, and its traffic moves to the other module. -/
  | ucieModuleRetrain (m : Nat)
  /-- UCIE_RETRAIN_COMPLETE (R318). A UCIe module retrain ends with the module up at x64, up at x32, at 16 GT/s, or down. -/
  | ucieRetrainComplete (m : Nat) (r : UcieReport)
  /-- SHOT_NOP (R130). Shot-list NOP. -/
  | shotNop (p : Nat) (e : Nat)
  /-- CNT (R130). Sets a counter's limit and stride and sets its value to 0. -/
  | cnt (p : Nat) (e : Nat) (k : Nat) (lim : Nat) (str : Int)
  /-- BASE (R130). Sets the class and address of a base. -/
  | base (p : Nat) (e : Nat) (b : Nat) (cls : Nat) (addr : Nat)
  /-- OFS (R130). Adds a signed byte offset to a base. -/
  | ofs (p : Nat) (e : Nat) (b : Nat) (off : Int)
  /-- FMT (R130). Sets the element size and the conversion. -/
  | fmt (p : Nat) (e : Nat) (esz : Nat) (conv : Nat)
  /-- EMIT (R131). Emits one block, generating the far addresses and merging them into transfers. -/
  | emit (p : Nat) (e : Nat) (b : Nat) (d : Nat) (slot : Nat) (near : Nat)
  /-- WAIT (R130). Waits until a signal has a nonzero count, then consumes one. -/
  | wait (p : Nat) (e : Nat) (sig : Nat)
  /-- RAISE (R134). Raises a signal once every earlier transfer of the generation has completed. -/
  | raise (p : Nat) (e : Nat) (sig : Nat)
  /-- DL (R143). Sets the deadline and deadline policy for later blocks. -/
  | dl (p : Nat) (e : Nat) (time : Nat) (pol : Nat)
  /-- POIS (R145). Selects the abort policy for faults that this engine detects. -/
  | pois (p : Nat) (e : Nat) (abt : Bool)
  /-- LOOPC (R130). Advances a counter and jumps back while the count is below the limit. -/
  | loopc (p : Nat) (e : Nat) (k : Nat) (tgt : Nat)
  /-- ARM (R139). Arms a logical engine of the same tile with a descriptor. -/
  | arm (p : Nat) (e : Nat) (tgt : Nat) (wt : Bool) (addr : Nat)
  /-- SHOT_END (R134). Ends the shot list; the generation completes once its transfers have completed. -/
  | shotEnd (p : Nat) (e : Nat)
  /-- RSIG (R289). Sends a SIG frame to a signal of another device after the engine's earlier WRs have been sent. -/
  | rsig (p : Nat) (e : Nat) (dev : Nat) (sig : Nat)
  /-- COLL (R289). Runs a collective operation over a group. -/
  | coll (p : Nat) (e : Nat) (op : Nat) (form : Nat) (fmt : Nat) (grp : Nat) (count : Nat)
  /-- ARM_CHECK_COMPLETE (R139). The fetch and checks of an arm's descriptor and shot list end in acceptance or refusal. -/
  | armCheckComplete (p : Nat) (e : Nat) (shadow : Bool) (errs : List (Nat × Nat))
  /-- GENERATION_COMPLETE (R134). A generation has executed END and every transfer it issued has completed. -/
  | generationComplete (p : Nat) (e : Nat)
  /-- STRM_HALT_WRITE (R141). A write of STRM_CTL.HALT; clearing it starts a held generation. -/
  | strmHaltWrite (p : Nat) (e : Nat) (data : Word)
  /-- TRANSFER_ISSUE (R136). A transfer of up to 512 bytes leaves through a slot of its class once buffer space and a slot are available. -/
  | transferIssue (p : Nat) (e : Nat) (errs : List (Nat × Nat))
  /-- READ_TRANSFER_COMPLETE (R134). A read transfer's data arrives and is placed on the near side. -/
  | readTransferComplete (p : Nat) (e : Nat) (x : Nat) (errs : List (Nat × Nat)) (lost : List Nat) (proxy : Bool)
  /-- WRITE_TRANSFER_COMPLETE (R134). A write transfer becomes visible at its far side. -/
  | writeTransferComplete (p : Nat) (e : Nat) (x : Nat)
  /-- NEGATIVE_READ_COMPLETE (R197). The reread from a negative completes; the line is rewritten and the waiting readers are served. -/
  | negativeReadComplete (page : Nat) (line : Nat) (ok : Bool)
  /-- DEADLINE_EXPIRY (R143). A line is still missing at its deadline and the deadline policy acts on it. -/
  | deadlineExpiry (p : Nat) (e : Nat) (x : Nat) (line : Nat) (proxy : Bool)
  /-- STREAM_PARITY_ERROR (R147). A parity error in a stream engine stops the engine and hands the task to replay. -/
  | streamParityError (p : Nat) (e : Nat) (shadow : Bool) (unread : Unread)
  /-- ARRAY_TASK_START (R142). The tile controller starts the next task in the array, once a task is ready. -/
  | arrayTaskStart (p : Nat)
  /-- STATIONARY_ROW_LOAD (R56). One stationary row moves into the array. -/
  | stationaryRowLoad (p : Nat) (errs : List (Nat × Nat))
  /-- ROW_ADMIT (R64). A streamed source row is admitted to the array after its bank row has been reserved. -/
  | rowAdmit (p : Nat)
  /-- BUBBLE (R63). An entry slot passes with no streamed row. -/
  | bubble (p : Nat)
  /-- BALLAST_TAPER_STEP (R73). The ballast current steps down after the full-current slots or after 64 slots of a step. -/
  | ballastTaperStep (p : Nat)
  /-- BALLAST_END (R73). Ballast ends at the mode's limit and the array quiesces. -/
  | ballastEnd (p : Nat)
  /-- ROW_COMPLETE (R59). A row's outputs are written to its accumulator bank L beats after its last entry. -/
  | rowComplete (p : Nat)
  /-- ARRAY_PARITY_ERROR (R70). A parity error stops the array, clears its block, releases its reserved rows and hands the task to replay. -/
  | arrayParityError (p : Nat) (unread : Unread)
  /-- BANK_PARITY_ERROR (R94). A bank parity error stops the tile's work on that bank and hands the task to replay. -/
  | bankParityError (p : Nat) (b : Nat) (unread : Unread)
  /-- ARRAY_HALT_WRITE (R76). A write of TILE_ARR_CTL.HALT stops or resumes the admission of new tasks. -/
  | arrayHaltWrite (p : Nat) (data : Word)
  /-- BALLAST_MODE_WRITE (R75). A write of PWR_BAL_i.MODE; 0b11 is ignored and sets BADW. -/
  | ballastModeWrite (i : Nat) (data : Word)
  /-- FTQ_PUSH_START (R118). A finished bank is allocated a queue entry and its copy starts, once an entry is free. -/
  | ftqPushStart (p : Nat)
  /-- FTQ_PUSH_COMPLETE (R118). The copy ends: the tag is written, the entry becomes valid and the bank is freed. -/
  | ftqPushComplete (p : Nat)
  /-- ROUTINE_START (R119). The tile controller starts a vector routine, in array start order. -/
  | routineStart (p : Nat)
  /-- NOP (R109). Vector no-operation. -/
  | nop (p : Nat)
  /-- FADD (R109). Vector add. -/
  | fadd (p : Nat) (o : VOp)
  /-- FSUB (R109). Vector subtract. -/
  | fsub (p : Nat) (o : VOp)
  /-- FMUL (R109). Vector multiply. -/
  | fmul (p : Nat) (o : VOp)
  /-- FMA (R109). Vector fused multiply-add into the destination. -/
  | fma (p : Nat) (o : VOp)
  /-- FDIV (R109). Vector divide. -/
  | fdiv (p : Nat) (o : VOp)
  /-- FMAX (R109). Vector maximum under the rig's MAX/MIN rule. -/
  | fmax (p : Nat) (o : VOp)
  /-- FMIN (R109). Vector minimum under the rig's MAX/MIN rule. -/
  | fmin (p : Nat) (o : VOp)
  /-- FSQRT (R109). Vector square root. -/
  | fsqrt (p : Nat) (o : VOp)
  /-- FRSQ (R109). Vector reciprocal square root. -/
  | frsq (p : Nat) (o : VOp)
  /-- FRCP (R109). Vector reciprocal. -/
  | frcp (p : Nat) (o : VOp)
  /-- FEXP (R109). Vector exponential. -/
  | fexp (p : Nat) (o : VOp)
  /-- FLOG (R109). Vector natural logarithm. -/
  | flog (p : Nat) (o : VOp)
  /-- FTANH (R109). Vector hyperbolic tangent. -/
  | ftanh (p : Nat) (o : VOp)
  /-- FSGN (R109). Sign-bit operations on a vector. -/
  | fsgn (p : Nat) (o : VOp)
  /-- FCMP (R109). Vector compare into a mask. -/
  | fcmp (p : Nat) (o : VOp)
  /-- FCLS (R109). Vector class test into a mask. -/
  | fcls (p : Nat) (o : VOp)
  /-- MLOG (R109). Mask logic operation. -/
  | mlog (p : Nat) (o : VOp)
  /-- MFIRST (R109). Builds a mask of the lanes below a scalar count. -/
  | mfirst (p : Nat) (o : VOp)
  /-- MPOP (R109). Counts the set active lanes of a mask into a scalar. -/
  | mpop (p : Nat) (o : VOp)
  /-- MOV (R109). Vector move. -/
  | mov (p : Nat) (o : VOp)
  /-- SEL (R109). Vector select by mask. -/
  | sel (p : Nat) (o : VOp)
  /-- CMPR (R112). Compresses the active lanes into the lowest lanes and writes their count. -/
  | cmpr (p : Nat) (o : VOp)
  /-- EXPD (R112). Expands dense lanes back to the active positions. -/
  | expd (p : Nat) (o : VOp)
  /-- FOLD (R109). Combines the two halves of a vector register. -/
  | fold (p : Nat) (o : VOp)
  /-- RED (R113). Reduces the active lanes to a scalar or to per-row lanes. -/
  | red (p : Nat) (o : VOp)
  /-- CVT (R109). Rounds a vector to a narrower format and holds it as FP32. -/
  | cvt (p : Nat) (o : VOp)
  /-- QDQ (R109). Quantizes a vector to G8 and reads it back. -/
  | qdq (p : Nat) (o : VOp)
  /-- CHKF (R109). Records a non-finite value in the take when an active lane is non-finite. -/
  | chkf (p : Nat) (o : VOp)
  /-- FLGM (R115). Reads a per-lane flag into a mask, or clears the flag. -/
  | flgm (p : Nat) (o : VOp)
  /-- SLI (R109). Loads an immediate into the upper half of a scalar. -/
  | sli (p : Nat) (o : SOp)
  /-- SORI (R109). ORs an immediate into a scalar. -/
  | sori (p : Nat) (o : SOp)
  /-- SADD (R109). Adds a sign-extended immediate to a scalar as an integer. -/
  | sadd (p : Nat) (o : SOp)
  /-- SFOP (R109). Scalar FP32 operation. -/
  | sfop (p : Nat) (o : SOp)
  /-- LDT (R120). Loads a row pair of a finished-tile queue entry, waiting until the entry is pushed. -/
  | ldt (p : Nat) (o : TOp)
  /-- STT (R120). Stores a row pair into a finished-tile queue entry. -/
  | stt (p : Nat) (o : TOp)
  /-- POPT (R120). Releases the head entry of the finished-tile queue. -/
  | popt (p : Nat)
  /-- TAG (R120). Reads the tag of a finished-tile queue entry into a scalar. -/
  | tag (p : Nat) (o : TOp)
  /-- SETQ (R109). Sets or advances the row-pair index q. -/
  | setq (p : Nat) (o : TOp)
  /-- LDV (R114). Loads a vector from the tile store with format conversion. -/
  | ldv (p : Nat) (o : MOp) (errs : List (Nat × Nat))
  /-- STV (R114). Stores a vector to the tile store with format conversion. -/
  | stv (p : Nat) (o : MOp)
  /-- LOOP (R109). Repeats the next LEN words CNT + 1 times. -/
  | loop (p : Nat) (cnt : Nat) (len : Nat)
  /-- SIGR (R296). Raises a signal of the rig. -/
  | sigr (p : Nat) (sig : Nat)
  /-- SIGW (R296). Waits on a signal and consumes one count. -/
  | sigw (p : Nat) (sig : Nat)
  /-- END (R120). Ends the vector routine; own entries still in the queue are popped and LEFT is set. -/
  | endRoutine (p : Nat)
  /-- VECTOR_PARITY_ERROR (R122). A parity error stops the vector routine and hands the task to replay. -/
  | vectorParityError (p : Nat) (lane : Option Nat) (unread : Unread)
  /-- VEC_HALT_WRITE (R123). A write of VEC_CTL.HALT stops or allows new routine starts. -/
  | vecHaltWrite (p : Nat) (data : Word)
  /-- HOST_RAISE (R296). A host write to SYN_SRAISE raises a signal. -/
  | hostRaise (data : Word)
  /-- SIGNAL_REGION_UNCORRECTABLE (R301). An uncorrectable word in the signal region stops the owning rigs immediately and zeroes the signals it holds. -/
  | signalRegionUncorrectable (word : Nat)
  /-- OB_PHASE_COMPLETE (R306). An on-chip barrier completes a phase, takes one from each member's count and raises RELS by NREL. -/
  | obPhaseComplete (k : Nat)
  /-- OB_ENABLE_WRITE (R307). A write of SYN_OB_k.EN enables or disables an on-chip barrier, or is refused with BBAD. -/
  | obEnableWrite (k : Nat) (data : Word)
  /-- XB_ENABLE_WRITE (R308). A write of SYN_XB_k.EN enables or disables a cross-device barrier, or is refused with BBAD. -/
  | xbEnableWrite (k : Nat) (data : Word)
  /-- BAR_ARRIVE (R309). An arrive BAR frame for a phase is received from a child. -/
  | barArrive (port : Nat) (f : Frame)
  /-- BAR_RELEASE (R309). A release BAR frame is received, forwarded to the children, and raises RELS. -/
  | barRelease (port : Nat) (f : Frame)
  /-- BAR_RESEND (R311). A rejected BAR frame is resent every 10 µs. -/
  | barResend (k : Nat)
  /-- XB_TIMEOUT (R311). A cross-device phase passes TIMEOUT µs; XTO is set and the barrier keeps waiting. -/
  | xbTimeout (k : Nat)
  /-- GROUP_VALID_WRITE (R313). A write of SYN_GRP_n.VALID, checked for GBAD and GBUSY. -/
  | groupValidWrite (n : Nat) (data : Word)
  /-- FRAME_TRANSIT (R282). A frame for another identity is routed by the routing table and forwarded cut-through. -/
  | frameTransit (port : Nat) (f : Frame)
  /-- WR_FRAME (R284). A remote WR frame arrives and is accepted into its window or rejected. -/
  | wrFrame (port : Nat) (f : Frame)
  /-- REMOTE_WRITE_VISIBLE (R284). An accepted remote write becomes visible at the destination. -/
  | remoteWriteVisible (stream : Nat) (seq : Nat) (errs : List (Nat × Nat))
  /-- WACK (R286). A WACK frame arrives and completes the remote writes that it covers. -/
  | wack (port : Nat) (f : Frame)
  /-- SIG (R287). A SIG frame arrives; it is held until the writes it announces are visible, or rejected. -/
  | sig (port : Nat) (f : Frame)
  /-- SIG_HOLD_TIMEOUT (R288). A SIG held longer than 10 ms is discarded and HTO is set. -/
  | sigHoldTimeout (i : Nat)
  /-- REJ (R284). A REJ frame is received by the sender. -/
  | rej (port : Nat) (f : Frame)
  /-- CDATA (R291). A collective data frame arrives and is reduced or forwarded in ring or tree order. -/
  | cdata (port : Nat) (f : Frame)
  /-- READY (R293). A member's READY with its verdict arrives at the exchange lead. -/
  | ready (port : Nat) (f : Frame)
  /-- MASK (R293). The lead's MASK, with inclusion and combined verdict, arrives at a member. -/
  | mask (port : Nat) (f : Frame)
  /-- HELLO (R276). A HELLO frame carrying the peer's identity arrives at the end of training. -/
  | hello (port : Nat) (f : Frame)
  /-- FLIT_RECEIVE (R234). A link flit arrives and is checked, acknowledged and sequenced, and its credits are taken. -/
  | flitReceive (port : Nat) (f : FlitIn)
  /-- FAST_RETRAIN_COMPLETE (R240). A fast retrain ends; on failure a full training runs and the range may go offline. -/
  | fastRetrainComplete (port : Nat) (r : FastReport)
  /-- LINK_TRAINING_START (R239). The device releases the link reset and sends TSA on all lanes. -/
  | linkTrainingStart (port : Nat)
  /-- TSA (R239). TSA training sets are received on a lane. -/
  | tsa (port : Nat) (lane : Nat)
  /-- TSB (R239). TSB training sets are received; the rate switches and the presets are adapted. -/
  | tsb (port : Nat) (r : TrainReport)
  /-- TSC (R239). TSC sets with the logical lane assignment are echoed. -/
  | tsc (port : Nat)
  /-- LINK_TRAINING_TIMEOUT (R239). Training does not complete in time, or too few lanes are good, so the link fails. -/
  | linkTrainingTimeout (port : Nat)
  /-- RDR (R237). A Svaweurn read response arrives with its data units. -/
  | rdr (b : Nat) (m : BufMsg)
  /-- WRC (R237). A Svaweurn write-complete response arrives. -/
  | wrc (b : Nat) (m : BufMsg)
  /-- FILLC (R239). A fill-complete response arrives and 1 GiB of tier 1 comes online. -/
  | fillc (b : Nat) (m : BufMsg)
  /-- CFGR (R237). A configuration response arrives with its value. -/
  | cfgr (b : Nat) (m : BufMsg)
  /-- SYNCC (R237). A sync-complete response arrives. -/
  | syncc (b : Nat) (m : BufMsg)
  /-- ALERT (R237). An unsolicited ALERT message arrives from a buffer. -/
  | alert (b : Nat) (m : BufMsg)
  /-- TWN_PAIR (R364). TWN_CTL.PAIR starts pairing with the twin. -/
  | twnPair (data : Word)
  /-- TWN_UNPAIR (R369). TWN_CTL.UNPAIR starts unpairing. -/
  | twnUnpair (data : Word)
  /-- PAIR (R364). A PAIR frame with the partner's protection setting and needed reserve arrives. -/
  | pair (port : Nat) (f : Frame)
  /-- PACK (R364). A PACK frame accepting or refusing the pairing arrives. -/
  | pack (port : Nat) (f : Frame)
  /-- LREC (R362). Mirrored log records arrive from the partner. -/
  | lrec (port : Nat) (f : Frame)
  /-- PAGE (R367). A mirrored page fragment arrives into the reserve. -/
  | page (port : Nat) (f : Frame)
  /-- MACK (R367). An acknowledgement of stored records and pages arrives. -/
  | mack (port : Nat) (f : Frame)
  /-- UNPR (R369). An unpairing frame arrives; the reserve is freed and the device answers. -/
  | unpr (port : Nat) (f : Frame)
  /-- BEAT (R362). A keep-alive frame arrives on a tether port. -/
  | beat (port : Nat) (f : Frame)
  /-- BEAT_SEND (R362). A tether port that has carried no frame for 100 µs sends BEAT. -/
  | beatSend (t : Nat)
  /-- PARTNER_LOST (R368). No tether frame for 1 ms: the partner is declared lost, mirroring suspends and the hosted reserve freezes. -/
  | partnerLost
  /-- RESTORE (R371). TWN_RCMD RESTORE settles the open take and sends the frozen reserve to DST as WR frames. -/
  | restore (data : Word)
  /-- RESTORE_COMPLETE (R371). The restore completes and TWN_RSTAT.DONE is set. -/
  | restoreComplete
  /-- RELEASE (R369). TWN_RCMD RELEASE frees the frozen reserve. -/
  | release (data : Word)
  /-- TWN_RSCAL_GO (R372). In takeover state, sets a rig's loss scale, consecutive count and take number. -/
  | twnRscalGo (data : Word)
  /-- MAP (R182). Mapping command that maps pages as ZERO. -/
  | map (data : Word)
  /-- UNMAP (R182). Mapping command that unmaps pages and frees their homes, negatives and ledger records. -/
  | unmap (data : Word)
  /-- SEAL (R196). Mapping command that writes each page's negative and seals the page read-only. -/
  | seal (data : Word)
  /-- PIN (R182). Mapping command that moves pages to a tier and pins them there. -/
  | pin (data : Word)
  /-- UNPIN (R182). Mapping command that clears PIN. -/
  | unpin (data : Word)
  /-- HINT (R182). Mapping command that sets the placement hint. -/
  | hint (data : Word)
  /-- FOLD_COMMAND (R210). Mapping command that folds the pages' ledger records. -/
  | foldCommand (data : Word)
  /-- HEAT_EPOCH_END (R186). Tier 0 traffic reaches HEATEPOCH GiB; every HEAT is halved and the epoch-bound values take effect. -/
  | heatEpochEnd
  /-- DESCENT_SWEEP (R188). The sweep pointer visits a page and descends it when the tier is below its low-water mark. -/
  | descentSweep (tier : Nat)
  /-- MOVE_START (R192). A queued move of a page starts once a destination frame is free. -/
  | moveStart (page : Nat) (frame : Nat)
  /-- MOVE_LINE_LAND (R192). A line of a moving page lands at the destination and the move pointer advances. -/
  | moveLineLand (page : Nat) (errs : List (Nat × Nat)) (lost : Bool)
  /-- MOVE_COMPLETE (R192). The destination confirms the page; the PTE is updated in one step and the source is freed. -/
  | moveComplete (page : Nat)
  /-- MOVE_WRITE_FAILURE (R193). The destination reports a write failure and the move restarts to another frame from the move buffer. -/
  | moveWriteFailure (page : Nat) (frame : Nat)
  /-- WC_FLUSH (R214). A write-combining entry is flushed to its home. -/
  | wcFlush (i : Nat) (errs : List (Nat × Nat))
  /-- EVACUATE (R228). Channel command that requests evacuation of an HBM channel to its spare. -/
  | evacuate (data : Word)
  /-- RETRAIN (R231). Channel command that requests a retrain of an HBM channel in place. -/
  | retrain (data : Word)
  /-- RETIRE (R228). Channel command that evacuates an HBM channel and retires it without retraining. -/
  | retire (data : Word)
  /-- CHANNEL_MARGIN_LOW (R228). An HBM PHY reports a margin below threshold and an evacuation or retrain is requested. -/
  | channelMarginLow (c : Nat)
  /-- MAINT_UNIT_END (R247). A maintenance unit ends and the arbiter starts queued activities in request order. -/
  | maintUnitEnd (act : Nat)
  /-- EVAC_COPY_COMPLETE (R228). The copy completes, the channel map swaps, and the source is retrained or retired. -/
  | evacCopyComplete (c : Nat) (errs : List (Nat × Nat))
  /-- CHANNEL_RETRAIN_COMPLETE (R231). A channel retrain ends; a failed in-place retrain stops every rig as a device loss. -/
  | channelRetrainComplete (c : Nat) (r : RetrainReport)
  /-- SCRUB_UNIT (R245). After RATIO lines of traffic the scrubber reads its next unit. -/
  | scrubUnit (mem : Nat) (errs : List (Nat × Nat))
  /-- PASS (R245). MEM_SCRB.PASS starts one forced scrub pass over tiers 0 and 1. -/
  | scrubPass (data : Word)
  /-- CONTROLLER_PARITY_ERROR (R223). A memory or port controller detects a parity error and discards its state. -/
  | controllerParityError (x : UnitFault)
  /-- CONTROLLER_RESET_DONE (R223). The controller resets within 20 µs and accepts the resent requests. -/
  | controllerResetDone (port : Nat)
  /-- CXL_COMPLETION_TIMEOUT (R242). A CXL request gets no completion within 50 ms, and its line is lost. -/
  | cxlCompletionTimeout (x : Nat) (req : Nat)
  /-- CXL_LINK_DOWN (R242). A CXL device is removed or its link goes down, and its range goes offline. -/
  | cxlLinkDown (l : CxlLoss)
  /-- NVME_COMMAND_TIMEOUT (R243). An NVMe command fails or exceeds 2 s, and its lines are lost. -/
  | nvmeCommandTimeout (d : Nat) (req : Nat)
  /-- PACK_DONE (R259). Pack has formed the transported gradients and error terms, and the take moves to Exchange or Apply. -/
  | packDone (n : Nat)
  /-- APPLY_DONE (R261). Apply has formed and placed the updates, and the take moves to Derive. -/
  | applyDone (n : Nat)
  /-- DERIVE_DONE (R263). Derive has formed the working copies, and the take is judged. -/
  | deriveDone (n : Nat)
  /-- STRAGGLER_TIMEOUT (R269). The straggler time expires at the lead, which decides inclusion and sends MASK. -/
  | stragglerTimeout (n : Nat) (g : Nat)
  /-- STRIKE (R257). IMG_TCTL.STRIKE strikes the open take and aborts its tasks. -/
  | strike (n : Nat) (data : Word)
  /-- PRINT_RECORD_WRITTEN (R268). The print record counts as written and the print takes effect. -/
  | printRecordWritten (n : Nat)
  /-- PRINT_COMPLETE (R268). Every staged frame and record has become current; the take goes to Idle. -/
  | printComplete (n : Nat)
  /-- STRIKE_COMPLETE (R267). The staged frames and records are freed, and the struck take goes to Idle. -/
  | strikeComplete (n : Nat)
  /-- EXPORT (R272). Exports a group in the working format. -/
  | exportGroup (n : Nat) (data : Word)
  /-- IMPORT (R272). Imports a group, setting masters and working copies and clearing its error terms and ledger. -/
  | importGroup (n : Nat) (data : Word)
  /-- POINT_WRITE (R380). A write of PWR_VP_i.POINT requests a voltage point. -/
  | pointWrite (i : Nat) (data : Word)
  /-- RAMP_START (R381). A waiting ramp starts once fewer than four islands are ramping. -/
  | rampStart (i : Nat)
  /-- RAMP_COMPLETE (R381). An island's supply ramp reaches its target. -/
  | rampComplete (i : Nat)
  /-- VCMD_REPEAT (R442). Every 1 ms the frame for the target in force is repeated. -/
  | vcmdRepeat (i : Nat)
  /-- THERMAL_SAMPLE (R384). The island sensors are sampled every 10 µs and the thermal rules act. -/
  | thermalSample (temps : List Nat)
  /-- CLRALL (R414). EVT_GCTL.CLRALL sets every count to zero. -/
  | clrall (data : Word)
  /-- FREEZE_WRITE (R412). A write of EVT_GCTL.FREEZE stops or resumes every counter. -/
  | freezeWrite (data : Word)
  /-- COUNTER_ENABLE_WRITE (R412). A write of EVT_CTL_c.EN enables a counter, or stops it and forgets any start. -/
  | counterEnableWrite (c : Nat) (data : Word)
  /-- FLIGHT_LOG_COMMIT_CMD (R419). EVT_FLCMD COMMIT requests a commit of every changed region. -/
  | flightLogCommitCmd (data : Word)
  /-- FLOG_COMMIT_DONE (R418). A flight-log commit writes and verifies its slots and advances SEQ. -/
  | flogCommitDone (failed : List Nat)
  /-- LATENCY_SAMPLE (R420). Every 2^20 beats a tile samples its 16 critical stages into the histograms. -/
  | latencySample (p : Nat) (ratios : List Nat)
  /-- AGING_SUBSTITUTION (R360). An aging tile is replaced once its rig has no take open and no part on it. -/
  | agingSubstitution (u : Substitution)
  /-- TILE_SUBSTITUTION (R359). A held spare replaces a failing tile: its store is copied, it is loaded, the maps are updated and the parts are replayed. -/
  | tileSubstitution (u : Substitution)
  /-- MGMT_CORE_FAILOVER (R17). The spare management core takes over and the interrupted step is repeated. -/
  | mgmtCoreFailover (x : UnitFault)
  /-- KEY_ENROL (R401). A key record with OP enrol is checked and programs an owner key. -/
  | keyEnrol (data : Word)
  /-- KEY_REVOKE (R401). A key record with OP revoke is checked and revokes an owner key. -/
  | keyRevoke (data : Word)
  /-- KEY_FUSE_PROGRAM_DONE (R401). Programming of the key fuses completes and is verified. -/
  | keyFuseProgramDone (ok : Bool)
  /-- FIRMWARE_WRITE (R399). SEC_FWCMD WRITE copies, verifies and writes a new firmware copy. -/
  | firmwareWrite (data : Word)
  /-- FIRMWARE_WRITE_DONE (R399). The firmware update ends and the new copy is marked preferred. -/
  | firmwareWriteDone (ok : Bool)
  /-- FIRMWARE_COMMIT (R399). SEC_FWCMD COMMIT raises FWSVN to the running firmware's SVN. -/
  | firmwareCommit (data : Word)
  /-- ATTEST_REQUEST (R403). SEC_ACMD.GO requests an attestation report over the nonce. -/
  | attestRequest (data : Word)
  /-- ATTEST_REPORT_DONE (R403). The signed report is placed in SEC_AREP and DONE is set. -/
  | attestReportDone
  /-- DEBUG_OPEN (R408). SEC_DCTL.OPEN presents the debug token, and the session opens or is refused. -/
  | debugOpen (data : Word)
  /-- DBGTOK (R408). A token shifted in through the test access port is presented at the end of the shift. -/
  | dbgtok (token : List Byte)
  /-- DEBUG_END (R408). SEC_DCTL.END ends the session and renews SEC_DNONCE. -/
  | debugEnd (data : Word)
  /-- DEBUG_LIFE_EXPIRY (R408). The session's LIFE expires on the interval timer and the session ends. -/
  | debugLifeExpiry
  /-- TAP_IDCODE (R407). The test access port returns IDCODE 0x0C18_74A1. -/
  | tapIdcode
  /-- TAP_BYPASS (R407). The test access port BYPASS instruction. -/
  | tapBypass (tdi : List Bool)
  /-- BOUNDARY_SCAN (R407). Boundary scan through the test access port. -/
  | boundaryScan (kind : Nat) (tdi : List Bool)
  /-- NEGATIVE_WRITE_COMPLETE (R196). Tier 3 confirms the write of a page's negative, or reports its failure, and SEAL then sets NEG and RO or stops with ERR 0x08. -/
  | negativeWriteComplete (ok : Bool)
  /-- SMBUS_ALERT_RESPONSE (R439). A read of the SMBus Alert Response Address, which the target answers while it holds SMB_ALERT_L low. -/
  | smbusAlertResponse
  /-- DEBUG_SCOPE_ACCESS (R407). A scan, memory read, memory write or management-core debug operation through the test access port within an open session's scopes; memory writes bypass rigs, spaces and takes. -/
  | debugScopeAccess (a : DebugAccess)
  deriving DecidableEq, Repr

end Sys2Proof
end

