-- ==== Sys2Proof/Machine/Num.lean ====
section
/-! DEFINITION. F19, its companions and every conversion (spec 02, R23 to R48): formats, exact values, one rounding,
the special values and flags of the fast path and of strict conformance. -/

namespace Sys2Proof.Machine

/-- A floating format: exponent and fraction widths (R23). -/
structure Fmt where
  eb : Nat
  fb : Nat
  deriving DecidableEq, Repr

def fp32 : Fmt := ⟨8, 23⟩
def f19 : Fmt := ⟨8, 10⟩
def fp16 : Fmt := ⟨5, 10⟩
def s16 : Fmt := ⟨8, 7⟩

/-- The bias of a format. -/
def Fmt.bias (f : Fmt) : Nat := 2 ^ (f.eb - 1) - 1
/-- The exponent of the smallest quantum: value = mantissa × 2^qmin for a subnormal. -/
def Fmt.qmin (f : Fmt) : Int := 1 - (f.bias : Int) - f.fb
/-- The magnitude bits of infinity. -/
def Fmt.infBits (f : Fmt) : Nat := (2 ^ f.eb - 1) * 2 ^ f.fb
/-- The sign bit's weight. -/
def Fmt.signBit (f : Fmt) : Nat := 2 ^ (f.eb + f.fb)
/-- The default NaN (R25): positive, quiet, other fraction bits zero. -/
def Fmt.nan (f : Fmt) : Nat := f.infBits + 2 ^ (f.fb - 1)
/-- Largest finite magnitude. -/
def Fmt.maxFin (f : Fmt) : Nat := f.infBits - 1

/-- What an encoding stands for. A finite value is ± m × 2^e. -/
inductive FVal where
  | nan (s : Bool) (frac : Nat)
  | inf (s : Bool)
  | fin (s : Bool) (m : Nat) (e : Int)
  deriving DecidableEq, Repr

/-- The value of an encoding (R23, R25). -/
def Fmt.decode (f : Fmt) (b : Nat) : FVal :=
  let s := bit b (f.eb + f.fb)
  let e := bits b (f.eb + f.fb - 1) f.fb
  let m := b % 2 ^ f.fb
  if e = 2 ^ f.eb - 1 then (if m = 0 then .inf s else .nan s m)
  else if e = 0 then .fin s m f.qmin
  else .fin s (m + 2 ^ f.fb) (f.qmin + e - 1)

/-- Is an encoding subnormal? -/
def Fmt.subnormal (f : Fmt) (b : Nat) : Bool :=
  decide (bits b (f.eb + f.fb - 1) f.fb = 0) && decide (b % 2 ^ f.fb ≠ 0)

def Fmt.isNaN (f : Fmt) (b : Nat) : Bool := decide (b % f.signBit > f.infBits)
def Fmt.isInf (f : Fmt) (b : Nat) : Bool := decide (b % f.signBit = f.infBits)
def Fmt.isFinite (f : Fmt) (b : Nat) : Bool := decide (b % f.signBit < f.infBits)
/-- A signalling NaN (R25: the top fraction bit is 0). -/
def Fmt.isSNaN (f : Fmt) (b : Nat) : Bool := f.isNaN b && !bit b (f.fb - 1)

/-- The nine flags of TILE_NFLAG (R45). -/
structure NFlags where
  fdnz : Bool := false
  fnan : Bool := false
  cinv : Bool := false
  covf : Bool := false
  snv : Bool := false
  sdz : Bool := false
  sof : Bool := false
  suf : Bool := false
  snx : Bool := false
  deriving DecidableEq, Repr

def NFlags.or (a b : NFlags) : NFlags :=
  ⟨a.fdnz || b.fdnz, a.fnan || b.fnan, a.cinv || b.cinv, a.covf || b.covf, a.snv || b.snv, a.sdz || b.sdz,
   a.sof || b.sof, a.suf || b.suf, a.snx || b.snx⟩

/-- The flags as bits in TILE_NFLAG order (R45). -/
def NFlags.toList (a : NFlags) : List (Nat × Bool) :=
  [(11, a.fdnz), (10, a.fnan), (9, a.cinv), (8, a.covf), (4, a.snv), (3, a.sdz), (2, a.sof), (1, a.suf), (0, a.snx)]

/-- The numeric settings an operation runs under (R47): strict conformance, the rig's conversion-overflow mode
(infinity) and its MAX/MIN rule (propagate). -/
structure NMode where
  strict : Bool := false
  covfInf : Bool := false
  propagate : Bool := false
  deriving DecidableEq, Repr

/-- Magnitude `m`, of exponent `e`, brought to quantum `q` by rounding to nearest, ties to even;
`sticky` says that the exact magnitude lies above `m` by less than one unit. Gives the mantissa and inexactness. -/
def quantRNE (m : Nat) (e q : Int) (sticky : Bool) : Nat × Bool :=
  if q ≤ e then (m <<< (e - q).toNat, sticky)
  else
    let sh := (q - e).toNat
    let hi := m >>> sh
    let rem := m % 2 ^ sh
    let half := 2 ^ (sh - 1)
    let up := decide (rem > half) || (decide (rem = half) && (sticky || bit hi 0))
    (if up then hi + 1 else hi, decide (rem ≠ 0) || sticky)

/-- The same, dropped toward zero. -/
def quantTrunc (m : Nat) (e q : Int) (sticky : Bool) : Nat × Bool :=
  if q ≤ e then (m <<< (e - q).toNat, sticky)
  else
    let sh := (q - e).toNat
    (m >>> sh, decide (m % 2 ^ sh ≠ 0) || sticky)

/-- A rounded magnitude: its bits (the format's, without the sign; infinity where it overflowed), and what happened. -/
structure Rnd where
  mag : Nat
  inexact : Bool
  ovr : Bool
  tiny : Bool
  deriving DecidableEq, Repr

/-- The exponent of the quantum a magnitude is rounded at, exponent range unbounded. -/
def quantum (f : Fmt) (m : Nat) (e : Int) : Int := e + (Nat.log2 m : Int) - f.fb

/-- One rounding of m × 2^e (m > 0) into format `f`, to nearest even or toward zero. Tininess after rounding (R42). -/
def Fmt.round (f : Fmt) (trunc : Bool) (m : Nat) (e : Int) (sticky : Bool) : Rnd :=
  let qz := if trunc then quantTrunc else quantRNE
  let q0 := quantum f m e
  let q := if q0 < f.qmin then f.qmin else q0
  let r := qz m e q sticky
  let mag := (q - f.qmin).toNat * 2 ^ f.fb + r.1
  let u := qz m e q0 sticky
  let tiny := decide (q0 < f.qmin) && decide (u.1 * 2 ^ (q0 - f.qmin + 400).toNat < 2 ^ (f.fb + 400))
  if mag ≥ f.infBits then ⟨f.infBits, true, true, false⟩ else ⟨mag, r.2, false, tiny⟩

/-- An encoding with its sign. -/
def Fmt.signed (f : Fmt) (s : Bool) (mag : Nat) : Nat := mag + (if s then f.signBit else 0)

/-- The result of an arithmetic operation rounded into `f` (R38, R39, R41, R42): overflow gives infinity; what rounds below the smallest
normal number, the exponent unbounded, is flushed on the fast path (log entry 15). -/
def Fmt.arith (f : Fmt) (md : NMode) (s : Bool) (m : Nat) (e : Int) (sticky : Bool) : Nat × NFlags :=
  if m = 0 ∧ ¬ sticky then (f.signed s 0, {})
  else
    let r := f.round false m e sticky
    if md.strict then
      (f.signed s r.mag, { sof := r.ovr, snx := r.inexact, suf := r.tiny && r.inexact })
    else if r.tiny then (f.signed s 0, { fdnz := true })
    else (f.signed s r.mag, {})

/-- An FP32 operand as read: on the fast path a subnormal reads as zero of its sign and sets FDNZ (R39). -/
def readFP (md : NMode) (x : Nat) : FVal × NFlags :=
  if !md.strict && fp32.subnormal x then (.fin (bit x 31) 0 0, { fdnz := true })
  else (fp32.decode x, { snv := md.strict && fp32.isSNaN x })

/-- A NaN made from operands that are none: FNAN on the fast path, SNV in strict mode (R38, R42). -/
def madeNaN (md : NMode) : Nat × NFlags :=
  (fp32.nan, if md.strict then { snv := true } else { fnan := true })

/-- An exact sum of two finite values; an exact zero is +0 but for two negative zeros (R38). -/
def addExact (s1 : Bool) (m1 : Nat) (e1 : Int) (s2 : Bool) (m2 : Nat) (e2 : Int) : Bool × Nat × Int :=
  let e := if m1 = 0 then e2 else if m2 = 0 then e1 else min e1 e2
  let a : Int := (if s1 then -1 else 1) * ((m1 <<< (e1 - e).toNat : Nat) : Int)
  let b : Int := (if s2 then -1 else 1) * ((m2 <<< (e2 - e).toNat : Nat) : Int)
  let t := a + b
  if t = 0 then (s1 && s2, 0, 0) else (decide (t < 0), t.natAbs, e)

/-- FP32 sum with one rounding. -/
def fAdd (md : NMode) (x y : Nat) : Nat × NFlags :=
  let (a, fa) := readFP md x
  let (b, fb) := readFP md y
  let fl := fa.or fb
  match a, b with
  | .nan _ _, _ => (fp32.nan, fl)
  | _, .nan _ _ => (fp32.nan, fl)
  | .inf s, .inf t => if s = t then (fp32.signed s fp32.infBits, fl) else let r := madeNaN md; (r.1, fl.or r.2)
  | .inf s, _ => (fp32.signed s fp32.infBits, fl)
  | _, .inf s => (fp32.signed s fp32.infBits, fl)
  | .fin s1 m1 e1, .fin s2 m2 e2 =>
    let (s, m, e) := addExact s1 m1 e1 s2 m2 e2
    let r := fp32.arith md s m e false
    (r.1, fl.or r.2)

/-- The sign bit flipped. -/
def fNeg (x : Nat) : Nat := if bit x 31 then x - 2 ^ 31 else x + 2 ^ 31

def fSub (md : NMode) (x y : Nat) : Nat × NFlags :=
  if fp32.isNaN y then fAdd md x y else fAdd md x (fNeg y)

/-- The exact product of two values; none where it is 0 × ∞ (R38). -/
def mulExact : FVal → FVal → Option FVal
  | .nan _ _, _ => some (.nan false 0)
  | _, .nan _ _ => some (.nan false 0)
  | .inf s, .inf t => some (.inf (s != t))
  | .inf s, .fin t m _ => if m = 0 then none else some (.inf (s != t))
  | .fin s m _, .inf t => if m = 0 then none else some (.inf (s != t))
  | .fin s m e, .fin t n g => some (.fin (s != t) (m * n) (e + g))

/-- A rounded result of an exact value. -/
def fOut (md : NMode) : FVal → Nat × NFlags
  | .nan _ _ => (fp32.nan, {})
  | .inf s => (fp32.signed s fp32.infBits, {})
  | .fin s m e => fp32.arith md s m e false

def fMul (md : NMode) (x y : Nat) : Nat × NFlags :=
  let (a, fa) := readFP md x
  let (b, fb) := readFP md y
  let r := match mulExact a b with
    | none => madeNaN md
    | some v => fOut md v
  (r.1, (fa.or fb).or r.2)

/-- x × y + z, the product exact, one rounding. -/
def fMA (md : NMode) (x y z : Nat) : Nat × NFlags :=
  let (a, fa) := readFP md x
  let (b, fb) := readFP md y
  let (c, fc) := readFP md z
  let fl := (fa.or fb).or fc
  match c, mulExact a b with
  | .nan _ _, some _ => (fp32.nan, fl)
  | .nan _ _, none => (fp32.nan, fl.or { snv := md.strict })
  | _, none => let r := madeNaN md; (r.1, fl.or r.2)
  | _, some (.nan _ _) => (fp32.nan, fl)
  | .inf s, some (.inf t) => if s = t then (fp32.signed s fp32.infBits, fl) else let r := madeNaN md; (r.1, fl.or r.2)
  | .inf s, some (.fin ..) => (fp32.signed s fp32.infBits, fl)
  | .fin .., some (.inf t) => (fp32.signed t fp32.infBits, fl)
  | .fin s2 m2 e2, some (.fin s1 m1 e1) =>
    let (s, m, e) := addExact s1 m1 e1 s2 m2 e2
    let r := fp32.arith md s m e false
    (r.1, fl.or r.2)

/-- The exact order of two non-NaN encodings as read, −0 below +0 (R40). -/
def fKey (x : Nat) : Int := if bit x 31 then -(x % 2 ^ 31 : Nat) - 1 else (x % 2 ^ 31 : Nat)

/-- An operand of MAX, MIN, compare: subnormals read as zero on the fast path. -/
def flushIn (md : NMode) (x : Nat) : Nat × NFlags :=
  if !md.strict && fp32.subnormal x then (x / 2 ^ 31 % 2 * 2 ^ 31, { fdnz := true })
  else (x, { snv := md.strict && fp32.isSNaN x })

/-- MAX (or MIN) under the rig's rule (R40). -/
def fMaxMin (md : NMode) (isMax : Bool) (x y : Nat) : Nat × NFlags :=
  let (a, fa) := flushIn md x
  let (b, fb) := flushIn md y
  let fl := fa.or fb
  let r := match fp32.isNaN a, fp32.isNaN b with
    | true, true => fp32.nan
    | true, false => if md.propagate then fp32.nan else b
    | false, true => if md.propagate then fp32.nan else a
    | false, false => if isMax then (if fKey a ≥ fKey b then a else b) else (if fKey a ≤ fKey b then a else b)
  (r, fl)

/-! ### Conversions -/

/-- A NaN carried into a narrower format: sign kept, the fraction bits that fit, the top one forced to 1 (R27, R34, R38). -/
def nanInto (src dst : Fmt) (s : Bool) (frac : Nat) : Nat :=
  let fr := if dst.fb ≤ src.fb then frac >>> (src.fb - dst.fb) else frac <<< (dst.fb - src.fb)
  dst.signed s (dst.infBits + (fr % 2 ^ (dst.fb - 1)) + 2 ^ (dst.fb - 1))

/-- A conversion into a floating format (R26, R27, R34, R38, R39, R43). -/
def convert (md : NMode) (src dst : Fmt) (trunc : Bool) (x : Nat) : Nat × NFlags :=
  match src.decode x with
  | .nan s fr => (nanInto src dst s fr, { snv := md.strict && src.isSNaN x })
  | .inf s => (dst.signed s dst.infBits, {})
  | .fin s m e =>
    if m = 0 then (dst.signed s 0, {})
    else if !md.strict && src.eb = 8 && src.subnormal x then (dst.signed s 0, { fdnz := true })
    else
      let r := dst.round trunc m e false
      if r.ovr then
        (dst.signed s (if md.covfInf then dst.infBits else dst.maxFin), { covf := true, sof := md.strict, snx := md.strict })
      else
        if md.strict then (dst.signed s r.mag, { snx := r.inexact, suf := r.tiny && r.inexact })
        else if r.tiny then (dst.signed s 0, { fdnz := true })
        else (dst.signed s r.mag, {})

/-- An F19 value as its 32-bit container (R24). -/
def f19c (v : Nat) : Nat := v <<< 13

/-- FP32 to an F19 container (R27). -/
def toF19 (md : NMode) (trunc : Bool) (x : Nat) : Nat × NFlags :=
  let r := convert md fp32 f19 trunc x; (f19c r.1, r.2)

/-- FP16 to an F19 container, exact in every mode (R26). -/
def fp16ToF19 (x : Nat) : Nat := f19c (convert { strict := true } fp16 f19 false x).1

/-- FP16 widened to FP32 (R26: the container is the FP32 value). -/
def fp16ToFp32 (x : Nat) : Nat := fp16ToF19 x

/-- S16 widened to FP32: the same value; a subnormal reads as zero on the fast path (R39). -/
def s16ToFp32 (md : NMode) (x : Nat) : Nat × NFlags :=
  if s16.isNaN x then (nanInto s16 fp32 (bit x 15) (x % 2 ^ 7), { snv := md.strict && s16.isSNaN x })
  else if !md.strict && s16.subnormal x then ((x / 2 ^ 15 % 2) * 2 ^ 31, { fdnz := true })
  else (x % 2 ^ 16 * 2 ^ 16, {})

/-- FP32 to an integer format of `w` bits (R43, R44): nearest even, saturating. The result as a `w`-bit field. -/
def toIntFmt (md : NMode) (w : Nat) (isSigned : Bool) (x : Nat) : Nat × NFlags :=
  let lo : Int := if isSigned then -(2 ^ (w - 1) : Nat) else 0
  let hi : Int := if isSigned then (2 ^ (w - 1) : Nat) - 1 else (2 ^ w : Nat) - 1
  match fp32.decode x with
  | .nan _ _ => (0, { cinv := true, snv := md.strict })
  | .inf s => (wrap w (if s then lo else hi), { covf := true, snv := md.strict })
  | .fin s m e =>
    if !md.strict && fp32.subnormal x then (0, { fdnz := true })
    else
      let r := quantRNE m e 0 false
      let i : Int := if s then -(r.1 : Nat) else (r.1 : Nat)
      if i < lo then (wrap w lo, { covf := true, snv := md.strict })
      else if hi < i then (wrap w hi, { covf := true, snv := md.strict })
      else (wrap w i, { snx := md.strict && r.2 })

/-- An integer as FP32 (nearest even). -/
def intToFp32 (md : NMode) (i : Int) : Nat × NFlags :=
  if i = 0 then (0, {}) else fp32.arith md (decide (i < 0)) i.natAbs 0 false

/-- What one G8 code under its block exponent reads as in FP32 (R32). -/
def g8Value (md : NMode) (e code : Nat) : Nat × NFlags :=
  if e = 0 then (0, {})
  else if e = 255 ∨ code % 256 = 128 then (fp32.nan, {})
  else
    let m := sext 8 code
    if m = 0 then (0, {})
    else fp32.arith md (decide (m < 0)) m.natAbs ((e : Int) - 133) false

/-- The exponent a block of FP32 values is quantized with (R33); the inputs are as read (flushed on the fast path). -/
def g8Exp (g : List Nat) : Nat :=
  let a := (g.filter fp32.isFinite).foldl (fun a x => max a (x % 2 ^ 31)) 0
  if a < 2 ^ 23 then (if g.all fp32.isFinite then 0 else 1) else a / 2 ^ 23

/-- One code under exponent `e` (R33 steps 1, 3, 4). -/
def g8Code (e x : Nat) : Nat :=
  match fp32.decode x with
  | .nan _ _ => 128
  | .inf _ => 128
  | .fin s m k =>
    if e = 0 then 0
    else
      let r := (quantRNE m (k + 133 - e) 0 false).1
      let c := min r 127
      if s then (256 - c) % 256 else c

/-- A block of FP32 values quantized to G8 (R33): exponent, codes, and whether a value was non-finite; an inexact code sets no SNX (log
entry 143). -/
def g8Quant (md : NMode) (g : List Nat) : Nat × List Nat × Bool × NFlags :=
  let r := g.map (flushIn md)
  let xs := r.map Prod.fst
  let e := g8Exp xs
  (e, xs.map (g8Code e), !g.all fp32.isFinite, { fdnz := r.any (·.2.fdnz), snv := r.any (·.2.snv) })

/-- The two F19 parts of an FP32 operand of a fast task (R35), as containers: a subnormal is read as zero of its sign (R39). Of a
non-finite operand the first part is the operand and the second +0 (log entry 14). -/
def split (x : Nat) : Nat × Nat :=
  if fp32.subnormal x then (x / 2 ^ 31 % 2 * 2 ^ 31, 0)
  else match fp32.decode x with
  | .nan s fr => (f19c (nanInto fp32 f19 s fr), 0)
  | .inf s => (f19c (f19.signed s f19.infBits), 0)
  | .fin s m e =>
    if m = 0 then (x, 0)
    else
      let r := f19.round false m e false
      let hi := f19c (f19.signed s (if r.ovr then f19.maxFin else r.mag))
      match fp32.decode hi with
      | .fin s2 m2 e2 =>
        let (sl, ml, el) := addExact s m e (!s2) m2 e2
        if ml = 0 then (hi, 0) else (hi, f19c (f19.signed sl (f19.round false ml el false).mag))
      | _ => (hi, 0)

/-- The split of an operand that is read (R35, R39): reading a subnormal sets FDNZ, the split itself no flag (log entry 64). -/
def splitRead (x : Nat) : Nat × Nat × NFlags := let r := split x; (r.1, r.2, { fdnz := fp32.subnormal x })

/-- An FP16 operand of the array as an F19 container: a signalling NaN is invalid in a strict task (R26, R42). -/
def fp16Read (md : NMode) (x : Nat) : Nat × NFlags := (fp16ToF19 x, { snv := md.strict && fp16.isSNaN x })

/-! ### Weight expansion (R28 to R30) -/

/-- Code `i` of packed W4 data, or byte `i` of W8 data (R28). -/
def weightCode (w8 : Bool) (data : Nat → Nat) (i : Nat) : Nat :=
  if w8 then data i % 256 else bits (data (i / 2)) (if i % 2 = 0 then 3 else 7) (if i % 2 = 0 then 0 else 4)

/-- Affine expansion (q − z) × s, formed exactly, rounded once to F19 (to binary32 in a strict task, R41; beyond its range an
infinity with SOF and SNX whatever the mode, log entry 141) (R30). -/
def affine (md : NMode) (w8 isSigned : Bool) (q z s : Nat) : Nat × NFlags :=
  let w := if w8 then 8 else 4
  let qi : Int := if isSigned then sext w q else (q % 2 ^ w : Nat)
  let zi : Int := if isSigned then sext w z else (z % 2 ^ w : Nat)
  let d := qi - zi
  match fp32.decode (s / 2 ^ 13 % 2 ^ 19 * 2 ^ 13) with
  | .nan _ _ => (fp32.nan, { snv := md.strict && fp32.isSNaN (s / 2 ^ 13 % 2 ^ 19 * 2 ^ 13) })
  | .inf t => if d = 0 then madeNaN md else (fp32.signed (t != decide (d < 0)) fp32.infBits, {})
  | .fin t m e =>
    if !md.strict && fp32.subnormal (s / 2 ^ 13 % 2 ^ 19 * 2 ^ 13) then
      (fp32.signed (t != decide (d < 0)) 0, { fdnz := true })
    else if m = 0 ∨ d = 0 then (fp32.signed (t != decide (d < 0)) 0, {})
    else if md.strict then fp32.arith md (t != decide (d < 0)) (m * d.natAbs) e false
    else
      let sg := t != decide (d < 0)
      let r := f19.round false (m * d.natAbs) e false
      if r.ovr then (f19c (f19.signed sg (if md.covfInf then f19.infBits else f19.maxFin)), { covf := true })
      else if r.tiny then (f19c (f19.signed sg 0), { fdnz := true })
      else (f19c (f19.signed sg r.mag), {})

end Sys2Proof.Machine
end

