-- ==== Sys2Proof/Machine/Acc.lean ====
section
/-! DEFINITION. Accumulation (spec 04, R78 to R86): the exact chunk sum in its 80-bit window and its addition into the
FP32 running sum. -/

namespace Sys2Proof.Machine

/-- An array operand as a cell reads it: an F19 container, subnormals read as zero of their sign (R24, R39, R80). -/
def readF19 (x : Nat) : FVal × Bool :=
  let c := x / 2 ^ 13 % 2 ^ 19 * 2 ^ 13
  if fp32.subnormal c then (.fin (bit c 31) 0 0, true) else (fp32.decode c, false)

/-- One product of a chunk (R38, R80), and whether an operand was flushed. -/
def cellProduct (a b : Nat) : Option FVal × Bool :=
  let (x, fx) := readF19 a
  let (y, fy) := readF19 b
  (mulExact x y, fx || fy)

/-- A closed chunk (R78, R79, R81): its sum, whether bits were dropped, the flags. -/
structure Chunk where
  sum : FVal
  inexact : Bool
  flags : NFlags
  deriving DecidableEq, Repr

/-- ⌊log2⌋ of a nonzero product's magnitude. -/
def mexp : FVal → Option Int
  | .fin _ m e => if m = 0 then none else some (e + (Nat.log2 m : Int))
  | _ => none

/-- The anchor A of R78: the largest ⌊log2 |p|⌋. -/
def anchor (ps : List FVal) : Option Int :=
  ps.foldl (fun a p => match a, mexp p with
    | none, x => x
    | some y, none => some y
    | some y, some x => some (max x y)) none

/-- A product in units of 2^lsb, dropped bits truncated toward zero, and whether a dropped bit was 1. -/
def windowed (lsb : Int) : FVal → Int × Bool
  | .fin s m e =>
    let (n, x) := quantTrunc m e lsb false
    (if s then -(n : Int) else n, x)
  | _ => (0, false)

/-- The sum of a chunk's products (R78, R79, R81). -/
def chunkSum (prods : List (Option FVal × Bool)) : Chunk :=
  let ps := prods.filterMap Prod.fst
  let fd : NFlags := { fdnz := prods.any Prod.snd }
  let anyNone := prods.any (·.1.isNone)
  let anyNan := ps.any fun p => match p with | .nan .. => true | _ => false
  let pinf := ps.any fun p => match p with | .inf s => !s | _ => false
  let ninf := ps.any fun p => match p with | .inf s => s | _ => false
  if anyNone || anyNan then ⟨.nan false 0, false, fd.or { fnan := anyNone }⟩
  else if pinf && ninf then ⟨.nan false 0, false, fd.or { fnan := true }⟩
  else if pinf || ninf then ⟨.inf ninf, false, fd⟩
  else match anchor ps with
    | none => ⟨.fin (!ps.isEmpty && ps.all fun p => match p with | .fin s _ _ => s | _ => false) 0 0, false, fd⟩
    | some a =>
      let lsb := a - 72
      let ws := ps.map (windowed lsb)
      let t : Int := ws.foldl (fun t w => t + w.1) 0
      ⟨.fin (decide (t < 0)) t.natAbs lsb, ws.any Prod.snd, fd⟩

/-- What one addition into a running sum gives (R82 to R86). -/
structure Added where
  val : Nat
  flags : NFlags
  sat : Bool
  drew : Bool
  deriving DecidableEq, Repr

/-- An exact nonzero v = ± m × 2^e rounded into the running sum (R82 to R84). `draw` is the 24-bit draw; none: nearest. -/
def roundSum (draw : Option Nat) (s : Bool) (m : Nat) (e : Int) : Added :=
  let q := quantum fp32 m e
  let lo := quantTrunc m e q false
  let n := match draw with
    | none => (quantRNE m e q false).1
    | some u =>
      if lo.2 then
        let sh := (q - e).toNat
        let f := (m % 2 ^ sh) * 2 ^ 24 / 2 ^ sh
        if u < f then lo.1 + 1 else lo.1
      else lo.1
  let drew := draw.isSome && lo.2
  if q < fp32.qmin ∧ n * 2 ^ (q - fp32.qmin + 400).toNat < 2 ^ 423 then ⟨fp32.signed s 0, { fdnz := true }, false, drew⟩
  else
    let mag := (q - fp32.qmin).toNat * 2 ^ 23 + (if q < fp32.qmin then 2 ^ 23 else n)
    if mag ≥ fp32.infBits then ⟨fp32.signed s fp32.maxFin, {}, true, drew⟩
    else ⟨fp32.signed s mag, {}, false, drew⟩

/-- Does the addition of a chunk sum need a stochastic draw? Only where v is not representable (R83). -/
def needsDraw (s : Nat) (c : FVal) : Bool :=
  match (if fp32.subnormal s then FVal.fin (bit s 31) 0 0 else fp32.decode s), c with
  | .fin s1 m1 e1, .fin s2 m2 e2 =>
    let (_, m, e) := addExact s1 m1 e1 s2 m2 e2
    decide (m ≠ 0) && (quantTrunc m e (quantum fp32 m e) false).2
  | _, _ => false

/-- The running sum `s` with the chunk sum added (R82, R84, R86). -/
def addChunk (draw : Option Nat) (s : Nat) (c : FVal) : Added :=
  let sub := fp32.subnormal s
  let f0 : NFlags := { fdnz := sub }
  match (if sub then FVal.fin (bit s 31) 0 0 else fp32.decode s), c with
  | .nan _ _, _ => ⟨fp32.nan, f0, false, false⟩
  | _, .nan _ _ => ⟨fp32.nan, f0, false, false⟩
  | .inf x, .inf y =>
    if x = y then ⟨fp32.signed x fp32.infBits, f0, false, false⟩ else ⟨fp32.nan, f0.or { fnan := true }, false, false⟩
  | .inf x, .fin .. => ⟨fp32.signed x fp32.infBits, f0, false, false⟩
  | .fin .., .inf y => ⟨fp32.signed y fp32.infBits, f0, false, false⟩
  | .fin s1 m1 e1, .fin s2 m2 e2 =>
    let (sg, m, e) := addExact s1 m1 e1 s2 m2 e2
    if m = 0 then ⟨fp32.signed sg 0, f0, false, false⟩
    else
      let r := roundSum draw sg m e
      { r with flags := f0.or r.flags }

/-- The products of one chunk of `n` values of k for a fast task with pass count `p` (R36, R60): entry order is
b_hi, b_lo against W0, then b_hi against W1. -/
def chunkProducts (p : Nat) (w0 w1 xhi xlo : List Nat) : List (Option FVal × Bool) :=
  List.zipWith cellProduct w0 xhi
    ++ (if p ≥ 2 then List.zipWith cellProduct w0 xlo else [])
    ++ (if p ≥ 3 then List.zipWith cellProduct w1 xhi else [])

/-- One output element of a strict task (R41): products and sums rounded to binary32 in ascending k; the flags of each operation,
in order (R46). -/
def strictDot (md : NMode) (s : Nat) : List (Nat × Nat) → Nat × List NFlags
  | [] => (s, [])
  | (a, b) :: r =>
    let p := fMul md a b
    let t := fAdd md s p.1
    let u := strictDot md t.1 r
    (u.1, p.2 :: t.2 :: u.2)

end Sys2Proof.Machine
end

