-- ==== Sys2Proof/Machine/Code.lean ====
section
/-! DEFINITION. Codes and memory contents: the 80-bit code word (R218 to R222), CRC-64/ECMA-182 and CRC-32, reading and
writing bytes with word poison (R206). -/

namespace Sys2Proof.Machine

/-- x^14 i(x) mod g(x), g = 0x4377 (R219): division from the top bit down. -/
def bchRem : Nat → Nat → Nat
  | 0, r => r
  | k + 1, r => bchRem k (if bit r (k + 14) then r ^^^ (0x4377 <<< k) else r)

/-- The 14 check bits of data and poison (R219). -/
def bchCheck (data : Nat) (p : Bool) : Nat := bchRem 65 ((data % 2 ^ 64 + b2n p * 2 ^ 64) <<< 14)

/-- The number of ones of the low `n` bits. -/
def popcount : Nat → Nat → Nat
  | 0, _ => 0
  | n + 1, x => x % 2 + popcount n (x / 2)

/-- The code word of data and poison (R218). -/
def encode80 (data : Nat) (p : Bool) : Nat :=
  let w := data % 2 ^ 64 + b2n p * 2 ^ 64 + bchCheck data p * 2 ^ 65
  w + (popcount 79 w % 2) * 2 ^ 79

/-- What a read of a word finds (R220). -/
inductive Decoded where
  | clean | corrected | uncorrectable | miscorrected
  deriving DecidableEq, Repr

/-- A word read with the bits of `err` wrong (R220). Four or more wrong bits: a free choice (`pick`). -/
def decodeErr (err pick : Nat) : Decoded :=
  match popcount 80 err with
  | 0 => .clean
  | 1 => .corrected
  | 2 => .corrected
  | 3 => .uncorrectable
  | _ => if pick % 2 = 0 then .uncorrectable else .miscorrected

/-- One step of a reflected-free CRC over a byte, width `w`, polynomial `poly`. -/
def crcByte (w poly : Nat) (c : Nat) (b : Byte) : Nat :=
  (List.range 8).foldl (fun c _ =>
    let top := bit c (w - 1)
    let c := (c * 2) % 2 ^ w
    if top then c ^^^ poly else c) (c ^^^ (b.toNat <<< (w - 8)))

/-- CRC-64/ECMA-182. -/
def crc64 (bs : List Byte) : Nat := bs.foldl (crcByte 64 0x42F0E1EBA9EA3693) 0

/-- One byte of a content. -/
def Content.byte (c : Content) (a : Nat) : Byte := c.bytes.get 0 a

/-- Is the word that holds byte `a` poisoned? -/
def Content.poisoned (c : Content) (a : Nat) : Bool := c.pois.get false (a / 8)

/-- `n` bytes from `a`, each with its word's poison. -/
def Content.read (c : Content) (a n : Nat) : List (Byte × Bool) :=
  (List.range n).map fun i => (c.byte (a + i), c.poisoned (a + i))

/-- The bytes alone. -/
def Content.bytesAt (c : Content) (a n : Nat) : List Byte := (List.range n).map fun i => c.byte (a + i)

def Content.setByte (c : Content) (a : Nat) (b : Byte) : Content := { c with bytes := c.bytes.set 0 a b }
def Content.setPois (c : Content) (w : Nat) (p : Bool) : Content := { c with pois := c.pois.set false w p }

/-- Bytes written from `a` on. -/
def Content.putBytes (c : Content) (a : Nat) : List Byte → Content
  | [] => c
  | b :: bs => (c.setByte a b).putBytes (a + 1) bs

/-- The poison of the words that a write of `n` bytes from `a` touches (R206): a whole word takes the poison written with it,
a partly written word keeps a set poison and takes a written one. `pw w` is the poison written to word `w`. -/
def Content.settlePois (c : Content) (a n : Nat) (pw : Nat → Bool) : Content :=
  if n = 0 then c else
  each (List.range ((a + n - 1) / 8 + 1 - a / 8)) (fun c k =>
    let w := a / 8 + k
    let whole := decide (a ≤ 8 * w) && decide (8 * w + 8 ≤ a + n)
    c.setPois w (if whole then pw w else c.pois.get false w || pw w)) c

/-- A write of bytes with word poison. -/
def Content.write (c : Content) (a : Nat) (bs : List Byte) (pw : Nat → Bool := fun _ => false) : Content :=
  (c.putBytes a bs).settlePois a bs.length pw

/-- The poison by word of a list of bytes with flags written from `a`: a word is poisoned when any of its bytes is. -/
def poisOf (a : Nat) (bs : List (Byte × Bool)) (w : Nat) : Bool :=
  (List.range 8).any fun k => decide (a ≤ 8 * w + k) && ((bs[8 * w + k - a]?).map Prod.snd).getD false

/-- A write of bytes each with its poison. -/
def Content.writeP (c : Content) (a : Nat) (bs : List (Byte × Bool)) : Content :=
  c.write a (bs.map Prod.fst) (poisOf a bs)

/-- A content and what the reads of its words found. -/
structure EccOut where
  c : Content
  corrected : List Nat := []
  uncorrectable : List Nat := []
  deriving DecidableEq, Repr

/-- A read of the words from `w0` on with the errors of `errs` (word number relative to `w0`): corrected words are written
back as they were, an uncorrectable word is written back as received with its poison set (R220, R221, R222); a
miscorrected word is delivered with free data. -/
def Content.ecc (c : Content) (w0 nw : Nat) (errs : List (Nat × Nat)) (pick : Nat → Nat) : EccOut :=
  each (errs.filter fun e => decide (e.1 < nw)) (fun o e =>
    let w := w0 + e.1
    let was := o.c.bytesAt (8 * w) 8
    match decodeErr e.2 (pick e.1) with
    | .clean => o
    | .corrected => { o with corrected := o.corrected ++ [w] }
    | .uncorrectable =>
      { o with c := (o.c.putBytes (8 * w) (leBytes 8 (leNat was ^^^ (e.2 % 2 ^ 64)))).setPois w true,
               uncorrectable := o.uncorrectable ++ [w] }
    | .miscorrected =>
      { o with c := o.c.putBytes (8 * w) (leBytes 8 (pick (e.1 + 2 ^ 20))), corrected := o.corrected ++ [w] }) { c := c }

end Sys2Proof.Machine
end

