-- ==== Sys2Proof/Machine/NumFun.lean ====
section
/-! DEFINITION. Division, roots and the elementary functions of the vector engine (R116): an enclosure of the exact
value, then either the one rounding that strict conformance asks for, or a free choice among the FP32 values within the
bound that the spec states. `pick` is that free choice. -/

namespace Sys2Proof.Machine

/-- ⌊√n⌋, bit by bit from bit `k` down. -/
def isqrtFrom (n : Nat) : Nat → Nat → Nat
  | 0, r => if (r + 1) * (r + 1) ≤ n then r + 1 else r
  | k + 1, r =>
    let t := r + 2 ^ (k + 1)
    isqrtFrom n k (if t * t ≤ n then t else r)

def isqrt (n : Nat) : Nat := isqrtFrom n (Nat.log2 n / 2 + 1) 0

/-- The working precision: fraction bits. -/
def prec : Nat := 400

/-- Σ of a series in fixed point: term n+1 from term n by `nxt`. -/
def series (nxt : Nat → Int → Int) : Nat → Nat → Int → Int → Int
  | 0, _, _, acc => acc
  | k + 1, n, t, acc => series nxt k (n + 1) (nxt n t) (acc + t)

/-- 2 artanh(a/b) in fixed point, 0 ≤ a/b ≤ 1/3, and its sign applied outside. -/
def atanh2 (a b : Int) : Int :=
  let t := a * 2 ^ prec / b
  let rec go : Nat → Nat → Int → Int → Int
    | 0, _, _, acc => acc
    | k + 1, n, p, acc => go k (n + 2) (p * t / 2 ^ prec * t / 2 ^ prec) (acc + p / n)
  2 * go 140 1 t 0

/-- ln 2 in fixed point. -/
def ln2 : Int := atanh2 1 3

/-- e^r in fixed point for |r| < 1 in fixed point. -/
def expFix (r : Int) : Int := series (fun n t => t * r / 2 ^ prec / (n + 1)) 90 0 (2 ^ prec) 0

/-- e^x of a finite x = ± m × 2^e, |x| < 2^8, as f × 2^k. -/
def expExact (s : Bool) (m : Nat) (e : Int) : Nat × Int :=
  let x : Int := (if s then -1 else 1) * (quantTrunc m e (-(prec : Int)) false).1
  let k := x / ln2
  ((expFix (x - k * ln2)).toNat, k - prec)

/-- ln x of x = m × 2^e > 0 with x ≠ 1: sign, magnitude. -/
def logExact (m : Nat) (e : Int) : Bool × Nat × Int :=
  let l := Nat.log2 m
  let up := decide (m * 2 ≥ 3 * 2 ^ l)
  let k : Int := e + l + b2n up
  let d : Int := 2 ^ (l + b2n up)
  let y := (m : Int)
  let v := k * ln2 + atanh2 (y - d) (y + d)
  (decide (v < 0), v.natAbs, -(prec : Int))

/-- |tanh x| of x = m × 2^e > 0. -/
def tanhExact (m : Nat) (e : Int) : Nat × Int :=
  if e + (Nat.log2 m : Int) ≥ 6 then (2 ^ prec - 1, -(prec : Int))
  else
    let (f, k) := expExact false m (e + 1)
    let E : Nat := (quantTrunc f k (-(prec : Int)) false).1
    ((E - 2 ^ prec) * 2 ^ prec / (E + 2 ^ prec), -(prec : Int))

/-- The FP32 magnitudes within `k` ulp of m × 2^e (`sticky`: a little above it). -/
def within (k : Nat) (m : Nat) (e : Int) (sticky : Bool) : List Nat :=
  let q0 := quantum fp32 m e
  let q := if q0 < fp32.qmin then fp32.qmin else q0
  let b0 := (q - fp32.qmin).toNat * 2 ^ 23 + (quantTrunc m e q false).1
  let lo := b0 - 2 * k - 1
  (List.range (3 * k + 4)).map (lo + ·) |>.filter fun b =>
    match fp32.decode (min b fp32.infBits) with
    | .fin _ n g =>
      let u := min (min g e) q
      let c : Int := (n <<< (g - u).toNat : Nat)
      let x : Int := (m <<< (e - u).toNat : Nat)
      let w : Int := (k <<< (q - u).toNat : Nat)
      if c ≤ x then decide (x - c < w) || (decide (x - c = w) && !sticky) else decide (c - x ≤ w)
    | _ => false

/-- The two neighbours of an inexact value (an error below 1 ulp), the value itself where it is exact. -/
def faithful (m : Nat) (e : Int) (sticky : Bool) : List Nat :=
  let q0 := quantum fp32 m e
  let q := if q0 < fp32.qmin then fp32.qmin else q0
  let r := quantTrunc m e q sticky
  let b0 := (q - fp32.qmin).toNat * 2 ^ 23 + r.1
  if r.2 then [b0, b0 + 1] else [b0]

/-- The list's element that a free number picks. -/
def pickFrom (pick : Nat) (l : List Nat) (d : Nat) : Nat := l.getD (pick % l.length) d

/-- What an operation within a bound delivers of the exact value ± m × 2^e (m > 0): on a fast task a free choice within
`k` ulp, beyond the range an infinity, below it zero of its sign; on a strict task correctly or faithfully rounded. -/
def bounded (md : NMode) (correct : Bool) (k pick : Nat) (s : Bool) (m : Nat) (e : Int) (sticky : Bool) : Nat × NFlags :=
  if md.strict && correct then fp32.arith md s m e sticky
  else
    let near := fp32.round false m e sticky
    if md.strict then
      if near.ovr then (fp32.signed s fp32.infBits, { sof := true, snx := true })
      else
        let b := pickFrom pick (faithful m e sticky) near.mag
        (fp32.signed s b, { snx := near.inexact, suf := near.tiny && near.inexact, sof := decide (b ≥ fp32.infBits) })
    else if near.ovr then (fp32.signed s fp32.infBits, {})
    else
      let b := pickFrom pick (within k m e sticky) near.mag
      if b < 2 ^ 23 then (fp32.signed s 0, { fdnz := true }) else (fp32.signed s (min b fp32.infBits), {})

/-- The exact quotient of two positive magnitudes. -/
def quotient (m1 : Nat) (e1 : Int) (m2 : Nat) (e2 : Int) : Nat × Int × Bool :=
  let n := m1 <<< 200
  (n / m2, e1 - e2 - 200, decide (n % m2 ≠ 0))

/-- x / y (R116: fast within 1 ulp, `k` = 1; strict correctly rounded). A fast division by zero sets no flag (R115). -/
def fDivK (md : NMode) (k pick : Nat) (x y : Nat) : Nat × NFlags :=
  let (a, fa) := readFP md x
  let (b, fb) := readFP md y
  let fl := fa.or fb
  match a, b with
  | .nan _ _, _ => (fp32.nan, fl)
  | _, .nan _ _ => (fp32.nan, fl)
  | .inf _, .inf _ => let r := madeNaN md; (r.1, fl.or r.2)
  | .inf s, .fin t _ _ => (fp32.signed (s != t) fp32.infBits, fl)
  | .fin s _ _, .inf t => (fp32.signed (s != t) 0, fl)
  | .fin s m1 e1, .fin t m2 e2 =>
    if m2 = 0 then
      if m1 = 0 then let r := madeNaN md; (r.1, fl.or r.2)
      else (fp32.signed (s != t) fp32.infBits, fl.or { sdz := md.strict })
    else if m1 = 0 then (fp32.signed (s != t) 0, fl)
    else
      let (q, e, st) := quotient m1 e1 m2 e2
      let r := bounded md true k pick (s != t) q e st
      (r.1, fl.or r.2)

def fDiv (md : NMode) (pick x y : Nat) : Nat × NFlags := fDivK md 1 pick x y
/-- 1 / x: fast within 2 ulp, strict correctly rounded. -/
def fRcp (md : NMode) (pick x : Nat) : Nat × NFlags := fDivK md 2 pick 0x3F800000 x

/-- A magnitude with an even exponent. -/
def evenExp (m : Nat) (e : Int) : Nat × Int := if e % 2 = 0 then (m, e) else (2 * m, e - 1)

/-- √x: fast within 1 ulp, strict correctly rounded; √−0 = −0 (R38). -/
def fSqrt (md : NMode) (pick x : Nat) : Nat × NFlags :=
  let (a, fl) := readFP md x
  match a with
  | .nan _ _ => (fp32.nan, fl)
  | .inf s => if s then let r := madeNaN md; (r.1, fl.or r.2) else (fp32.infBits, fl)
  | .fin s m e =>
    if m = 0 then (fp32.signed s 0, fl)
    else if s then let r := madeNaN md; (r.1, fl.or r.2)
    else
      let (m', e') := evenExp m e
      let n := m' <<< 200
      let q := isqrt n
      let r := bounded md true 1 pick false q (e' / 2 - 100) (decide (q * q ≠ n))
      (r.1, fl.or r.2)

/-- 1/√x: fast within 2 ulp, strict faithful. -/
def fRsq (md : NMode) (pick x : Nat) : Nat × NFlags :=
  let (a, fl) := readFP md x
  match a with
  | .nan _ _ => (fp32.nan, fl)
  | .inf s => if s then let r := madeNaN md; (r.1, fl.or r.2) else (0, fl)
  | .fin s m e =>
    if m = 0 then (fp32.signed s fp32.infBits, fl.or { sdz := md.strict })
    else if s then let r := madeNaN md; (r.1, fl.or r.2)
    else
      let (m', e') := evenExp m e
      let q := isqrt (2 ^ 600 / m')
      let r := bounded md false 2 pick false q (-(e' / 2) - 300) (decide (q * q * m' ≠ 2 ^ 600))
      (r.1, fl.or r.2)

/-- e^x: fast within 2 ulp, strict faithful. -/
def fExp (md : NMode) (pick x : Nat) : Nat × NFlags :=
  let (a, fl) := readFP md x
  match a with
  | .nan _ _ => (fp32.nan, fl)
  | .inf s => (if s then 0 else fp32.infBits, fl)
  | .fin s m e =>
    if m = 0 then (0x3F800000, fl)
    else if e + (Nat.log2 m : Int) ≥ 8 then
      let r := bounded md false 2 pick false 1 (if s then -400 else 400) true
      (r.1, fl.or r.2)
    else
      let (f, k) := expExact s m e
      let r := bounded md false 2 pick false f k true
      (r.1, fl.or r.2)

/-- ln x: fast within 2 ulp, strict faithful; ln ±0 = −∞, ln 1 = +0. -/
def fLog (md : NMode) (pick x : Nat) : Nat × NFlags :=
  let (a, fl) := readFP md x
  match a with
  | .nan _ _ => (fp32.nan, fl)
  | .inf s => if s then let r := madeNaN md; (r.1, fl.or r.2) else (fp32.infBits, fl)
  | .fin s m e =>
    if m = 0 then (fp32.signed true fp32.infBits, fl.or { sdz := md.strict })
    else if s then let r := madeNaN md; (r.1, fl.or r.2)
    else if x = 0x3F800000 then (0, fl)
    else
      let (sg, f, k) := logExact m e
      let r := bounded md false 2 pick sg f k true
      (r.1, fl.or r.2)

/-- tanh x: fast within 2 ulp, strict faithful. -/
def fTanh (md : NMode) (pick x : Nat) : Nat × NFlags :=
  let (a, fl) := readFP md x
  match a with
  | .nan _ _ => (fp32.nan, fl)
  | .inf s => (fp32.signed s 0x3F800000, fl)
  | .fin s m e =>
    if m = 0 then (fp32.signed s 0, fl)
    else
      let (f, k) := tanhExact m e
      let r := bounded md false 2 pick s f k true
      (r.1, fl.or r.2)

end Sys2Proof.Machine
end

