-- ==== Sys2Proof/Machine/Stored.lean ====
section
/-! DEFINITION. The stored format of tiers 1 to 3 and its proxy (R199 to R203): the bytes of a stored page, its length, the
proxy-derived value of an element. -/

namespace Sys2Proof.Machine

/-- Bits of an element under KIND (R180): FP32 layout, S16, FP16; a raw page's elements are bytes. -/
def kindBits : Nat → Nat
  | 0 => 8
  | 1 => 32
  | _ => 16

def kindFmt : Nat → Fmt
  | 1 => fp32
  | 2 => s16
  | _ => fp16

/-- The 64 elements of record `r` as patterns. -/
def recElems (kind : Nat) (c : Content) (r : Nat) : List Nat :=
  let n := kindBits kind / 8
  (List.range 64).map fun i => leNat (c.bytesAt ((64 * r + i) * n) n)

/-- Fraction bits that a pattern needs. -/
def fracNeed (fb : Nat) (x : Nat) : Nat :=
  ((List.range fb).find? fun k => bit x k).elim 0 fun k => fb - k

/-- Bits that hold `n`. -/
def bitsFor (n : Nat) : Nat := if n = 0 then 0 else Nat.log2 n + 1

/-- How a list of patterns is coded: EBASE, DW, FW; none when the exponents spread too far. -/
def coding (f : Fmt) (xs : List Nat) : Option (Nat × Nat × Nat) :=
  let es := xs.map fun x => bits x (f.eb + f.fb - 1) f.fb
  let lo := es.foldl min (2 ^ f.eb)
  let dw := bitsFor (es.foldl max 0 - lo)
  let fw := (xs.map (fracNeed f.fb)).foldl max 0
  if dw ≤ 7 then some (lo, dw, fw) else none

/-- Bits, lowest first, packed into bytes. -/
def packBits (l : List Bool) : List Byte :=
  (List.range ((l.length + 7) / 8)).map fun k =>
    BitVec.ofNat 8 (((List.range 8).map fun i => if l.getD (8 * k + i) false then 2 ^ i else 0).sum)

/-- `w` bits of a number, lowest first. -/
def bitList (w n : Nat) : List Bool := (List.range w).map (bit n)

/-- A coded element: sign, exponent above EBASE, top fraction bits (R201). -/
def codedElem (f : Fmt) (c : Nat × Nat × Nat) (x : Nat) : List Bool :=
  bit x (f.eb + f.fb) :: bitList c.2.1 (bits x (f.eb + f.fb - 1) f.fb - c.1)
    ++ bitList c.2.2 (bits x (f.fb - 1) 0 >>> (f.fb - c.2.2))

/-- The record of 64 elements under each RMODE that can hold them, lowest RMODE first. -/
def recordForms (kind : Nat) (xs : List Nat) : List (List Byte) :=
  let f := kindFmt kind
  let set := xs.filter (· ≠ 0)
  let mask := packBits (xs.map (· ≠ 0))
  let verb : List Byte := 0xC0 :: xs.flatMap (leBytes (kindBits kind / 8))
  let zero : List (List Byte) := if set.isEmpty then [[0]] else []
  if kind = 0 then zero ++ [(0x80 : Byte) :: (mask ++ set.map (BitVec.ofNat 8)), verb]
  else
    let form := fun (top : Nat) (mk : List Byte) (ys : List Nat) => match coding f ys with
      | some c => [(BitVec.ofNat 8 (top + c.2.1 * 8) :: BitVec.ofNat 8 c.1 :: BitVec.ofNat 8 c.2.2 :: mk)
          ++ packBits (ys.flatMap (codedElem f c))]
      | none => []
    zero ++ form 0x40 [] xs ++ (if set.isEmpty then [] else form 0x80 mask set) ++ [verb]

/-- The shortest form, the first of equals (R203). -/
def shortest : List (List Byte) → List Byte
  | [] => []
  | [x] => x
  | x :: l => let y := shortest l; if x.length ≤ y.length then x else y

def recordOf (kind : Nat) (c : Content) (r : Nat) : List Byte := shortest (recordForms kind (recElems kind c r))

/-- The records of a page. -/
def pageRecords (kind : Nat) (c : Content) : List (List Byte) := (List.range (65536 / (64 * (kindBits kind / 8)))).map (recordOf kind c)

/-- Nearest integer to n / d, ties to even. -/
def rneDiv (n d : Nat) : Nat :=
  let q := n / d
  let r := n % d
  if 2 * r < d then q else if 2 * r > d then q + 1 else q + q % 2

/-- Compares m × 2^e: is the first smaller? -/
def magLt (a b : Nat × Int) : Bool :=
  let k := min a.2 b.2
  decide (a.1 * 2 ^ (a.2 - k).toNat < b.1 * 2 ^ (b.2 - k).toNat)

/-- The largest magnitude among finite elements (R200). -/
def largest (f : Fmt) (xs : List Nat) : Nat × Int :=
  xs.foldl (fun a x => match f.decode x with
    | .fin _ m e => if magLt a (m, e) then (m, e) else a
    | _ => a) (0, 0)

/-- The scale of a proxy row as an F19 container. -/
def proxyScale (f : Fmt) (xs : List Nat) : Nat :=
  let g := largest f xs
  if g.1 = 0 then 0
  else
    let q := quotient g.1 g.2 7 0
    f19c (f19.arith {} false q.1 q.2.1 q.2.2).1

/-- The code of an element, −7 to 7, or 8 for a non-finite one. -/
def proxyCode (f : Fmt) (scale x : Nat) : Nat :=
  match f.decode x, f19.decode (scale / 2 ^ 13) with
  | .fin s m e, .fin _ n g =>
    if n = 0 then 0
    else
      let k := min e g
      let q := min 7 (rneDiv (m * 2 ^ (e - k).toNat) (n * 2 ^ (g - k).toNat))
      if s then (16 - q) % 16 else q
  | _, _ => 8

/-- The proxy-derived value of an element as a pattern of the page's layout (R200). -/
def proxyValue (kind scale code : Nat) : Nat :=
  let f := kindFmt kind
  if code = 8 then f.nan
  else
    let q := sext 4 code
    match f19.decode (scale / 2 ^ 13) with
    | .fin _ n g =>
      if n * q.natAbs = 0 then f.signed (decide (q < 0)) 0
      else if (f.round false (n * q.natAbs) g false).ovr then f.signed (decide (q < 0)) f.maxFin
      else (f.arith {} (decide (q < 0)) (n * q.natAbs) g false).1
    | _ => f.nan

/-- The proxy-derived pattern of element `i` of a page. -/
def proxyElem (kind : Nat) (c : Content) (i : Nat) : Nat :=
  let f := kindFmt kind
  let xs := recElems kind c (i / 64)
  let sc := proxyScale f xs
  proxyValue kind sc (proxyCode f sc (xs.getD (i % 64) 0))

/-- Bytes of the proxy (R199). -/
def proxyLen : Nat → Nat
  | 0 => 0
  | 1 => 9216
  | _ => 18432

/-- A proxy row: scale and 64 codes, the even element in the low half of a byte. -/
def proxyRow (kind : Nat) (c : Content) (r : Nat) : List Byte :=
  let f := kindFmt kind
  let xs := recElems kind c r
  let sc := proxyScale f xs
  let cs := xs.map (proxyCode f sc)
  leBytes 4 sc ++ (List.range 32).map fun k => BitVec.ofNat 8 (cs.getD (2 * k) 0 + 16 * cs.getD (2 * k + 1) 0)

def proxyBytes (kind : Nat) (c : Content) : List Byte :=
  if kind = 0 then [] else (List.range (proxyLen kind / 36)).flatMap (proxyRow kind c)

/-- Zeros up to a multiple of 4 KiB. -/
def pad4k (l : List Byte) : List Byte := l ++ List.replicate (alignUp l.length 4096 - l.length) 0

/-- A stored page (R199): header, proxy, body, checks. `pmap` lists the poisoned lines. -/
def storedBytes (kind : Nat) (c : Content) (pmap : List Nat) : List Byte :=
  let recs := pageRecords kind c
  let coded := recs.flatten
  let verbatim := decide (coded.length > 65536)
  let body := if verbatim then c.bytesAt 0 65536 else coded
  let px := proxyBytes kind c
  let slen := 512 + px.length + body.length
  let perLine := recs.length / 256
  let lidx := (List.range 16).map fun g =>
    if verbatim then 4096 * g else ((recs.take (16 * g * perLine)).map List.length).sum
  let head := [0x43, 0x50, BitVec.ofNat 8 kind, BitVec.ofNat 8 (b2n verbatim)] ++ leBytes 2 px.length ++ [0, 0]
    ++ leBytes 4 body.length ++ leBytes 4 slen ++ packBits ((List.range 256).map pmap.contains) ++ lidx.flatMap (leBytes 4)
  let noChk := pad4k (head ++ List.replicate (512 - head.length) 0 ++ px ++ body)
  let chk := (List.range (noChk.length / 4096)).flatMap fun k => leBytes 8 (crc64 ((noChk.drop (4096 * k)).take 4096))
  noChk.take 256 ++ chk ++ noChk.drop (256 + chk.length)

/-- Stored length in 4 KiB units (LEN + 1 of R180). -/
def storedUnits (kind : Nat) (c : Content) : Nat :=
  let coded := ((pageRecords kind c).map List.length).sum
  (512 + proxyLen kind + min coded 65536 + 4095) / 4096

end Sys2Proof.Machine
end

