-- ==== Sys2Proof/Config.lean ====
section
/-! DEFINITION. What one device fixes and the spec leaves open: constants with no body, so that a statement holds
whatever they are. The free values are applied to the model's own counter `State.fresh` (log entry 2). -/

namespace Sys2Proof

/-- A free value: the use numbered `n` (State.fresh), part `i` of it (a lane, a byte). -/
opaque Config.freeNat (n i : Nat) : Nat

/-- Draw `n` of the stochastic-rounding generator of physical tile `p` under the seeding numbered `seed`: 24 bits (R88). -/
opaque Config.srDraw (seed p n : Nat) : BitVec 24

/-- Byte `i` of the output of SHAKE256 for a byte string; the spec names the function and does not give it (log entry 12). -/
opaque Config.shakeByte (msg : List Byte) (i : Nat) : Byte

/-- SHAKE256 of a byte string, `n` bytes of output. -/
def Config.shake256 (msg : List Byte) (n : Nat) : List Byte := (List.range n).map (Config.shakeByte msg)

/-- Does an Ed448 signature verify: public key, message, signature (log entry 12). -/
opaque Config.ed448Verify (pub msg sig : List Byte) : Bool

/-- Byte `i` of the Ed448 signature of a message under a seed (log entry 12). -/
opaque Config.ed448Byte (seed msg : List Byte) (i : Nat) : Byte

/-- The Ed448 signature of a message under a seed, 114 bytes. -/
def Config.ed448Sign (seed msg : List Byte) : List Byte := (List.range 114).map (Config.ed448Byte seed msg)

/-- Byte `i` of the vendor key digest held in the boot ROM (R398; log entry 12). -/
opaque Config.vendorKeyByte (i : Nat) : Byte

/-- The vendor's certifying key, 57 bytes, and the seed that signs under it (R406; log entry 12). -/
opaque Config.certifyingKey : List Byte
opaque Config.certifyingSeed : List Byte

/-- The vendor key digest, 32 bytes. -/
def Config.vendorKeyDigest : List Byte := (List.range 32).map Config.vendorKeyByte

/-- The fuses as the factory left them, each fuse by number of `Fuse` (R397; log entry 6). -/
opaque Config.factoryFuse (which i : Nat) : Nat

/-- The place, among the physical tiles not chosen yet, of a spare chosen at test (R9; log entry 6). -/
opaque Config.sparePick (k : Nat) : Nat

/-- `n` members of a list, each chosen by a number among those left. -/
def Config.choose (pick : Nat → Nat) : Nat → List Nat → List Nat
  | 0, _ => []
  | n + 1, l =>
    let x := l.getD (pick n % l.length) 0
    x :: Config.choose pick n (l.erase x)

/-- The eight physical tiles that are spares at shipment (R9). -/
def Config.shipSpares : List Nat := Config.choose Config.sparePick 8 (List.range 80)

/-- The latency ratio of a critical stage of a physical tile at test, in units of 2^-12 (R420; log entry 6). -/
opaque Config.testRatio (p stage : Nat) : Nat

/-- The first tier 0 frame of the image staging area (R152; log entry 6). -/
opaque Config.stagingFrame : Nat

/-- ω of an exchange as a member other than the lead has it: hyperparameter word 7 of the lead's rig, which no frame of R293 carries (R269; log
entry 71). -/
opaque Config.leadOmega (lead group num : Nat) : BitVec 32

/-- The two firmware copies of the boot flash as delivered, by byte (R398; log entry 6). -/
opaque Config.factoryFlash (copy i : Nat) : Byte

/-- The groups of event codes (R415): first code, codes, how many of them are defined. -/
def Config.codeGroups : List (Nat × Nat × Nat) :=
  [(0x000, 64, 60), (0x040, 128, 120), (0x0C0, 64, 60), (0x100, 128, 120), (0x180, 128, 122), (0x200, 64, 60), (0x240, 128, 118),
   (0x2C0, 128, 120), (0x340, 64, 58), (0x380, 64, 62), (0x3C0, 64, 60)]

/-- The codes that R415 and R416 list, the numeric flags' among them (R46). -/
def Config.listedCodes : List Nat :=
  [0x000, 0x040, 0x100, 0x180, 0x200, 0x240, 0x2C0, 0x340, 0x380, 0x3C0, 0x0C0, 0x0C1, 0x0C2, 0x0C3, 0x0C4, 0x0C5, 0x0C9, 0x0CA, 0x0CB,
   0x0CC, 0x004, 0x005, 0x041, 0x042, 0x045, 0x060, 0x061, 0x111, 0x181,
   0x190, 0x191, 0x192, 0x210, 0x211, 0x212, 0x243, 0x245, 0x246, 0x249, 0x2C1, 0x2C2, 0x2CB, 0x2D0, 0x342, 0x383, 0x386, 0x394, 0x3C1, 0x3C2,
   0x3C4]

/-- The place, among the codes of group `g` that the spec does not list and that are not chosen yet, of the device's choice `k` (R415; log
entry 22). -/
opaque Config.codePick (g k : Nat) : Nat

/-- The codes of group `g` that the spec does not list, in an order of the device's own. -/
def Config.codeOrder (g : Nat) : List Nat :=
  match Config.codeGroups[g]? with
  | some x =>
    let l := ((List.range x.2.1).map (x.1 + ·)).filter fun c => !Config.listedCodes.contains c
    Config.choose (Config.codePick g) l.length l
  | none => []

/-- How many codes of group `g` are not defined: the first of its order. -/
def Config.undefinedIn (g : Nat) : Nat := ((Config.codeGroups[g]?).map fun x => x.2.1 - x.2.2).getD 0

/-- Is an event code one of the 960 defined (R415; log entry 22)? -/
def Config.codeDefined (code : Nat) : Bool :=
  decide (code < 1024) && (List.range 11).all fun g => !((Config.codeOrder g).take (Config.undefinedIn g)).contains code

/-- The events that the spec defines and does not list, by group, under the model's own numbers (log entry 22). -/
def Config.unlisted : List (List Nat) :=
  [[60], [19, 70], [], [71, 80, 81, 82, 83, 84, 88, 89, 90, 91], [72], [16, 17, 18, 31, 32, 33, 34, 35, 36, 37], [1, 20, 40, 41], [77, 78, 79], [10, 11, 12, 13, 14],
   [2, 3, 4, 5, 6, 7, 73, 74, 75, 76, 92], [50, 51, 52, 53, 54, 55, 61, 62]]

/-- The code of an event that the spec defines and does not list: one of its group, which no other event has (R415, R416; log entry 22). -/
def Config.evtCode (what : Nat) : Nat :=
  match Config.unlisted.findIdx? (·.contains what) with
  | some g => ((Config.codeOrder g).drop (Config.undefinedIn g)).getD ((Config.unlisted.getD g []).idxOf what) 0
  | none => 0

/-- Byte `i` of a flight-log region whose content the spec names and whose byte layout it does not give: header, spare maps,
vendor diagnostics (R417; log entry 7). -/
opaque Config.flogByte (region : Nat) (data : List Nat) (i : Nat) : Byte

end Sys2Proof
end

