-- ==== Sys2Proof/Machine/Field.lean ====
section
/-! DEFINITION. The control space as a table: every register of Control Space Index (spec 18, R432, R433) with its address,
and every field of every register map with its bits, access code and reset value. Register and field names are the
manual's: `R.<REGISTER>`, `F.<REGISTER>_<FIELD>`. "Image value", "fuse value", "training value" and the like hold 0
until the start-up step that writes them (log entry 11). -/

namespace Sys2Proof.Machine

/-- The access codes of R4. -/
inductive Access where
  | RW | RO | W1C | WS | WL | WO
  deriving DecidableEq, Repr

/-- A register: its first address, the strides and counts of its indices (outermost first), its width in bits. -/
structure Reg where
  base : Nat
  dims : List (Nat × Nat)
  bits : Nat
  deriving DecidableEq, Repr

/-- A field: its number in the table (its place in the register file), its high and low bit, access, reset value. -/
structure Field where
  id : Nat
  hi : Nat
  lo : Nat
  acc : Access
  rst : Nat
  deriving DecidableEq, Repr

/-- The width of a field in bits. -/
def Field.width (f : Field) : Nat := f.hi - f.lo + 1

/-- The number of instances of a register. -/
def Reg.count (r : Reg) : Nat := (r.dims.map Prod.snd).foldl (· * ·) 1

/-! The registers (R5, R12, R76, R96, R123, R151, R173, R174, R217, R248, R274, R294, R315, R316, R342, R343, R375, R392, R409, R425, R429 to R433). -/
namespace R

def GLB_ID : Reg := ⟨0x0, [], 32⟩
def GLB_REV : Reg := ⟨0x4, [], 32⟩
def GLB_SER : Reg := ⟨0x10, [], 128⟩
def GLB_STAT : Reg := ⟨0x20, [], 32⟩
def GLB_TCNT : Reg := ⟨0x24, [], 32⟩
def GLB_TMAP : Reg := ⟨0x200, [(0x4, 72)], 32⟩
def GLB_PMAP : Reg := ⟨0x400, [(0x4, 80)], 32⟩
def PWR_BAL : Reg := ⟨0x600, [(0x4, 16)], 32⟩
def PWR_VP : Reg := ⟨0x700, [(0x4, 18)], 32⟩
def PWR_THERM : Reg := ⟨0x780, [], 32⟩
def PWR_NTHR : Reg := ⟨0x790, [], 64⟩
def PWR_NBEAT : Reg := ⟨0x800, [(0x8, 18)], 64⟩
def SEC_BOOT : Reg := ⟨0x10000, [], 32⟩
def SEC_FSTAT : Reg := ⟨0x10004, [], 32⟩
def SEC_KCMD : Reg := ⟨0x10010, [], 32⟩
def SEC_KSTAT : Reg := ⟨0x10014, [], 32⟩
def SEC_FWCMD : Reg := ⟨0x10020, [], 32⟩
def SEC_FWSTAT : Reg := ⟨0x10024, [], 32⟩
def SEC_ACMD : Reg := ⟨0x10030, [], 32⟩
def SEC_ASTAT : Reg := ⟨0x10034, [], 32⟩
def SEC_DCTL : Reg := ⟨0x10040, [], 32⟩
def SEC_DSTAT : Reg := ⟨0x10044, [], 32⟩
def SEC_CERT : Reg := ⟨0x10100, [], 2048⟩
def SEC_ANONCE : Reg := ⟨0x10200, [], 512⟩
def SEC_DNONCE : Reg := ⟨0x10240, [], 512⟩
def SEC_KREC : Reg := ⟨0x10400, [], 2048⟩
def SEC_DTOK : Reg := ⟨0x10500, [], 2048⟩
def SEC_AREP : Reg := ⟨0x10600, [], 5120⟩
def SEC_OKEY : Reg := ⟨0x10900, [(0x40, 4)], 512⟩
def EVT_GCTL : Reg := ⟨0x20000, [], 32⟩
def EVT_STAT : Reg := ⟨0x20004, [], 32⟩
def EVT_FLCMD : Reg := ⟨0x20010, [], 32⟩
def EVT_FLSTAT : Reg := ⟨0x20014, [], 32⟩
def EVT_FLCFG : Reg := ⟨0x20018, [], 32⟩
def EVT_FLCFGNOW : Reg := ⟨0x2001c, [], 32⟩
def EVT_FLOFS : Reg := ⟨0x20020, [], 32⟩
def EVT_FLSEQ : Reg := ⟨0x20028, [], 64⟩
def EVT_SEL : Reg := ⟨0x21000, [(0x20, 512)], 32⟩
def EVT_CTL : Reg := ⟨0x21004, [(0x20, 512)], 32⟩
def EVT_SIG : Reg := ⟨0x21008, [(0x20, 512)], 32⟩
def EVT_CNT : Reg := ⟨0x21010, [(0x20, 512)], 64⟩
def EVT_FLWIN : Reg := ⟨0x2f000, [(0x4, 1024)], 32⟩
def SYN_STAT : Reg := ⟨0x30000, [], 32⟩
def SYN_TIMER : Reg := ⟨0x30008, [], 64⟩
def SYN_SSEL : Reg := ⟨0x30010, [], 32⟩
def SYN_SCNT : Reg := ⟨0x30014, [], 32⟩
def SYN_SRAISE : Reg := ⟨0x30018, [], 32⟩
def SYN_SLAST : Reg := ⟨0x3001c, [], 32⟩
def SYN_GMSEL : Reg := ⟨0x30020, [], 32⟩
def SYN_GMDAT : Reg := ⟨0x30024, [], 32⟩
def SYN_NRAISE : Reg := ⟨0x30080, [], 64⟩
def SYN_NWAKE : Reg := ⟨0x30088, [], 64⟩
def SYN_NSAT : Reg := ⟨0x30090, [], 64⟩
def SYN_NOBC : Reg := ⟨0x30098, [], 64⟩
def SYN_NXBC : Reg := ⟨0x300a0, [], 64⟩
def SYN_RIG : Reg := ⟨0x30200, [(0x4, 72)], 32⟩
def SYN_OB_0 : Reg := ⟨0x30400, [(0x40, 64)], 32⟩
def SYN_OB_4 : Reg := ⟨0x30404, [(0x40, 64)], 32⟩
def SYN_OB_LM : Reg := ⟨0x30408, [(0x40, 64)], 96⟩
def SYN_OB_PM : Reg := ⟨0x30414, [(0x40, 64)], 96⟩
def SYN_OB_PH : Reg := ⟨0x30420, [(0x40, 64)], 32⟩
def SYN_OB_ST : Reg := ⟨0x30424, [(0x40, 64)], 32⟩
def SYN_XB_0 : Reg := ⟨0x31400, [(0x20, 16)], 32⟩
def SYN_XB_4 : Reg := ⟨0x31404, [(0x20, 16)], 32⟩
def SYN_XB_8 : Reg := ⟨0x31408, [(0x20, 16)], 32⟩
def SYN_XB_PH : Reg := ⟨0x3140c, [(0x20, 16)], 32⟩
def SYN_XB_ST : Reg := ⟨0x31410, [(0x20, 16)], 32⟩
def SYN_GRP : Reg := ⟨0x32000, [(0x4, 4096)], 32⟩
def MEM_T0CFG : Reg := ⟨0x40000, [], 32⟩
def MEM_CHCMD : Reg := ⟨0x40010, [], 32⟩
def MEM_CHSTAT : Reg := ⟨0x40014, [], 32⟩
def MEM_SCRB : Reg := ⟨0x40020, [], 32⟩
def MEM_SCRBNOW : Reg := ⟨0x40024, [], 32⟩
def MEM_MARB : Reg := ⟨0x40030, [], 32⟩
def MEM_BSTAT : Reg := ⟨0x40100, [(0x10, 8)], 32⟩
def MEM_BCAP : Reg := ⟨0x40104, [(0x10, 8)], 32⟩
def MEM_BREPL : Reg := ⟨0x40108, [(0x10, 8)], 64⟩
def MEM_CHMAP : Reg := ⟨0x40400, [(0x4, 256)], 32⟩
def TIER_CFG : Reg := ⟨0x50000, [], 32⟩
def TIER_CFGNOW : Reg := ⟨0x50004, [], 32⟩
def TIER_EPOCH : Reg := ⟨0x50008, [], 64⟩
def TIER_EBYTE : Reg := ⟨0x50010, [], 64⟩
def TIER_MCMD0 : Reg := ⟨0x50020, [], 32⟩
def TIER_MCMD1 : Reg := ⟨0x50028, [], 64⟩
def TIER_MSTAT : Reg := ⟨0x50030, [], 64⟩
def TIER_LOOKA : Reg := ⟨0x50040, [], 64⟩
def TIER_LOOKD : Reg := ⟨0x50048, [], 64⟩
def TIER_LOOKN : Reg := ⟨0x50050, [], 64⟩
def TIER_FREE : Reg := ⟨0x50060, [(0x8, 4)], 64⟩
def TIER_NASC : Reg := ⟨0x50100, [], 64⟩
def TIER_NDESC : Reg := ⟨0x50108, [], 64⟩
def TIER_NFORCE : Reg := ⟨0x50110, [], 64⟩
def TIER_NFOLD : Reg := ⟨0x50118, [], 64⟩
def TIER_NNEG : Reg := ⟨0x50120, [], 64⟩
def TIER_NLOST : Reg := ⟨0x50128, [], 64⟩
def TIER_NCOREAD : Reg := ⟨0x50130, [], 64⟩
def TIER_NT3W : Reg := ⟨0x50138, [], 64⟩
def TIER_NWCBF : Reg := ⟨0x50140, [], 64⟩
def TIER_NASCDROP : Reg := ⟨0x50148, [], 64⟩
def ECC_CFG : Reg := ⟨0x60000, [], 32⟩
def ECC_CFGNOW : Reg := ⟨0x60004, [], 32⟩
def ECC_LAST : Reg := ⟨0x60010, [], 64⟩
def ECC_NCE : Reg := ⟨0x60100, [(0x10, 4)], 64⟩
def ECC_NUE : Reg := ⟨0x60108, [(0x10, 4)], 64⟩
def FAB_ID : Reg := ⟨0x80000, [], 32⟩
def FAB_STAT : Reg := ⟨0x80004, [], 32⟩
def FAB_PSTAT : Reg := ⟨0x80040, [(0x4, 8)], 32⟩
def FAB_NWR : Reg := ⟨0x80100, [], 64⟩
def FAB_NHOLD : Reg := ⟨0x80108, [], 64⟩
def FAB_NREJ : Reg := ⟨0x80110, [], 64⟩
def FAB_NREPL : Reg := ⟨0x80118, [], 64⟩
def FAB_RT : Reg := ⟨0x81000, [(0x4, 4096)], 32⟩
def FAB_WIN_0 : Reg := ⟨0x85000, [(0x10, 256)], 32⟩
def FAB_WIN_1 : Reg := ⟨0x85004, [(0x10, 256)], 32⟩
def FAB_WIN_2 : Reg := ⟨0x85008, [(0x10, 256)], 64⟩
def TWN_CTL : Reg := ⟨0x88000, [], 32⟩
def TWN_STAT : Reg := ⟨0x88004, [], 32⟩
def TWN_PEER : Reg := ⟨0x88008, [], 32⟩
def TWN_RSV : Reg := ⟨0x8800c, [], 32⟩
def TWN_LSTAT : Reg := ⟨0x88010, [], 32⟩
def TWN_LNUM : Reg := ⟨0x88018, [], 64⟩
def TWN_PLOOK : Reg := ⟨0x88020, [], 32⟩
def TWN_PLDAT0 : Reg := ⟨0x88028, [], 64⟩
def TWN_PLDAT1 : Reg := ⟨0x88030, [], 64⟩
def TWN_PLDAT2 : Reg := ⟨0x88038, [], 32⟩
def TWN_RCMD : Reg := ⟨0x88040, [], 32⟩
def TWN_RSTAT : Reg := ⟨0x88044, [], 32⟩
def TWN_RSCAL0 : Reg := ⟨0x88048, [], 32⟩
def TWN_RSCAL1 : Reg := ⟨0x8804c, [], 32⟩
def TWN_SPCFG : Reg := ⟨0x88050, [], 32⟩
def TWN_SPCFGNOW : Reg := ⟨0x88054, [], 32⟩
def TWN_PESEL : Reg := ⟨0x88058, [], 32⟩
def TWN_PEND0 : Reg := ⟨0x8805c, [], 32⟩
def TWN_PEND1 : Reg := ⟨0x88060, [], 32⟩
def TWN_RNEED : Reg := ⟨0x88064, [], 32⟩
def TWN_NMIR : Reg := ⟨0x88100, [], 64⟩
def TWN_NREPL : Reg := ⟨0x88108, [], 64⟩
def TWN_NSUB : Reg := ⟨0x88110, [], 64⟩
def TWN_NHELD : Reg := ⟨0x88118, [], 64⟩
def TWN_RMAP : Reg := ⟨0x89000, [(0x4, 4096)], 32⟩
def IMG_CTL : Reg := ⟨0x90000, [], 32⟩
def IMG_STAT : Reg := ⟨0x90004, [], 32⟩
def IMG_SWIN : Reg := ⟨0x90008, [], 64⟩
def IMG_ID : Reg := ⟨0x90010, [], 64⟩
def IMG_DEV : Reg := ⟨0x90018, [], 32⟩
def IMG_DIG : Reg := ⟨0x90040, [], 512⟩
def IMG_RSTAT : Reg := ⟨0x91000, [(0x80, 72)], 32⟩
def IMG_RCTL : Reg := ⟨0x91004, [(0x80, 72)], 32⟩
def IMG_RMODE : Reg := ⟨0x91008, [(0x80, 72)], 32⟩
def IMG_RSTC : Reg := ⟨0x9100c, [(0x80, 72)], 32⟩
def IMG_RLIVE : Reg := ⟨0x91010, [(0x80, 72)], 32⟩
def IMG_RLNOW : Reg := ⟨0x91014, [(0x80, 72)], 32⟩
def IMG_RHYP : Reg := ⟨0x91020, [(0x80, 72), (0x4, 8)], 32⟩
def IMG_RHNOW : Reg := ⟨0x91040, [(0x80, 72), (0x4, 8)], 32⟩
def IMG_TSTAT : Reg := ⟨0x94000, [(0x80, 72)], 32⟩
def IMG_TCTL : Reg := ⟨0x94004, [(0x80, 72)], 32⟩
def IMG_TLS : Reg := ⟨0x94008, [(0x80, 72)], 32⟩
def IMG_TNUM : Reg := ⟨0x9400c, [(0x80, 72)], 32⟩
def IMG_TSTRG : Reg := ⟨0x94010, [(0x80, 72)], 32⟩
def IMG_TSTRGN : Reg := ⟨0x94014, [(0x80, 72)], 32⟩
def IMG_TPTAB : Reg := ⟨0x94018, [(0x80, 72)], 64⟩
def IMG_TPTABN : Reg := ⟨0x94020, [(0x80, 72)], 64⟩
def IMG_TXCMD : Reg := ⟨0x94028, [(0x80, 72)], 32⟩
def IMG_TXSTAT : Reg := ⟨0x9402c, [(0x80, 72)], 32⟩
def IMG_TXADR : Reg := ⟨0x94030, [(0x80, 72)], 64⟩
def IMG_TNPRT : Reg := ⟨0x94038, [(0x80, 72)], 64⟩
def IMG_TNSTR : Reg := ⟨0x94040, [(0x80, 72)], 64⟩
def IMG_TNLATE : Reg := ⟨0x94048, [(0x80, 72)], 64⟩
def QUE_CMD : Reg := ⟨0x98000, [], 32⟩
def QUE_CARG0 : Reg := ⟨0x98008, [], 64⟩
def QUE_CARG1 : Reg := ⟨0x98010, [], 32⟩
def QUE_CARG2 : Reg := ⟨0x98014, [], 32⟩
def QUE_CSTAT : Reg := ⟨0x98018, [], 32⟩
def QUE_LOOK : Reg := ⟨0x98020, [], 32⟩
def QUE_LOOKD : Reg := ⟨0x98028, [], 64⟩
def QUE_ARB : Reg := ⟨0x98030, [], 32⟩
def QUE_ARBNOW : Reg := ⟨0x98034, [], 32⟩
def QUE_STAT : Reg := ⟨0x98038, [], 32⟩
def QUE_ULINK : Reg := ⟨0x9803c, [], 32⟩
def QUE_HAFA : Reg := ⟨0x98040, [], 64⟩
def QUE_NFETCH : Reg := ⟨0x98100, [], 64⟩
def QUE_NCOMP : Reg := ⟨0x98108, [], 64⟩
def QUE_NIRQ : Reg := ⟨0x98110, [], 64⟩
def QUE_NDBX : Reg := ⟨0x98118, [], 64⟩
def QUE_AP_0 : Reg := ⟨0x99000, [(0x10, 256)], 32⟩
def QUE_AP_1 : Reg := ⟨0x99004, [(0x10, 256)], 32⟩
def QUE_AP_2 : Reg := ⟨0x99008, [(0x10, 256)], 64⟩
def QUE_SQDB : Reg := ⟨0x400000, [(0x40, 65536)], 32⟩
def QUE_CQDB : Reg := ⟨0x400008, [(0x40, 4096)], 32⟩
def TILE_NFLAG : Reg := ⟨0x1000100, [(0x20000, 80)], 32⟩
def TILE_ARR_CTL : Reg := ⟨0x1000200, [(0x20000, 80)], 32⟩
def TILE_ARR_STAT : Reg := ⟨0x1000204, [(0x20000, 80)], 32⟩
def TILE_ARR_FUSE : Reg := ⟨0x1000208, [(0x20000, 80)], 32⟩
def TILE_ARR_BLKA : Reg := ⟨0x1000210, [(0x20000, 80)], 64⟩
def TILE_ARR_BLKS : Reg := ⟨0x1000218, [(0x20000, 80)], 32⟩
def TILE_ARR_NROW : Reg := ⟨0x1000220, [(0x20000, 80)], 64⟩
def TILE_ARR_NBUB : Reg := ⟨0x1000228, [(0x20000, 80)], 64⟩
def TILE_ARR_NLOAD : Reg := ⟨0x1000230, [(0x20000, 80)], 64⟩
def TILE_ARR_NHOLD : Reg := ⟨0x1000238, [(0x20000, 80)], 64⟩
def TILE_ARR_NBAL : Reg := ⟨0x1000240, [(0x20000, 80)], 64⟩
def TILE_ACC_STAT : Reg := ⟨0x1000300, [(0x20000, 80)], 32⟩
def TILE_ACC_NCHK : Reg := ⟨0x1000308, [(0x20000, 80)], 64⟩
def TILE_ACC_NSAT : Reg := ⟨0x1000310, [(0x20000, 80)], 64⟩
def TILE_ACC_NINX : Reg := ⟨0x1000318, [(0x20000, 80)], 64⟩
def TILE_ACC_NDRAW : Reg := ⟨0x1000320, [(0x20000, 80)], 64⟩
def VEC_CTL : Reg := ⟨0x1000400, [(0x20000, 80)], 32⟩
def VEC_STAT : Reg := ⟨0x1000404, [(0x20000, 80)], 32⟩
def VEC_FTQ : Reg := ⟨0x1000408, [(0x20000, 80)], 32⟩
def VEC_NINS : Reg := ⟨0x1000410, [(0x20000, 80)], 64⟩
def VEC_NPUSH : Reg := ⟨0x1000418, [(0x20000, 80)], 64⟩
def VEC_NWAIT : Reg := ⟨0x1000420, [(0x20000, 80)], 64⟩
def VEC_LMAP : Reg := ⟨0x1000440, [(0x20000, 80), (0x4, 16)], 32⟩
def VEC_TAG : Reg := ⟨0x1000480, [(0x20000, 80), (0x8, 8)], 64⟩
def STRM_CTL : Reg := ⟨0x1000800, [(0x20000, 80), (0x40, 8)], 32⟩
def STRM_STAT : Reg := ⟨0x1000804, [(0x20000, 80), (0x40, 8)], 32⟩
def STRM_GEN : Reg := ⟨0x1000808, [(0x20000, 80), (0x40, 8)], 32⟩
def STRM_NBYTE : Reg := ⟨0x1000810, [(0x20000, 80), (0x40, 8)], 64⟩
def STRM_NDL : Reg := ⟨0x1000818, [(0x20000, 80), (0x40, 8)], 64⟩
def STRM_NREF : Reg := ⟨0x1000820, [(0x20000, 80), (0x40, 8)], 64⟩
def STRM_SPLIT : Reg := ⟨0x1000a00, [(0x20000, 80)], 32⟩
def STRM_EMAP : Reg := ⟨0x1000a04, [(0x20000, 80)], 32⟩
def STRM_ESPR : Reg := ⟨0x1000a08, [(0x20000, 80)], 32⟩
def TILE_WAKE : Reg := ⟨0x1000c00, [(0x20000, 80)], 32⟩

end R

/-! The register maps of the chapters, one line a field. -/
namespace F

def GLB_ID_VENDOR : Field := ⟨442, 31, 16, .RO, 0x7d0a⟩
def GLB_ID_PART : Field := ⟨443, 15, 0, .RO, 0xc18⟩
def GLB_REV_STEP : Field := ⟨444, 7, 0, .RO, 0xa0⟩
def GLB_SER_BYTES : Field := ⟨455, 127, 0, .RO, 0x0⟩
def GLB_STAT_BSTEP : Field := ⟨445, 31, 28, .RO, 0x1⟩
def GLB_STAT_BFAIL : Field := ⟨446, 27, 27, .RO, 0x0⟩
def GLB_STAT_TRIP : Field := ⟨447, 26, 26, .RO, 0x0⟩
def GLB_STAT_HALTD : Field := ⟨448, 25, 25, .RO, 0x0⟩
def GLB_STAT_PWIGN : Field := ⟨449, 16, 16, .W1C, 0x0⟩
def GLB_STAT_ATTN : Field := ⟨450, 10, 0, .RO, 0x0⟩
def GLB_TCNT_RIGRUN : Field := ⟨451, 31, 24, .RO, 0x0⟩
def GLB_TCNT_RETIRED : Field := ⟨452, 22, 16, .RO, 0x0⟩
def GLB_TCNT_HELD : Field := ⟨453, 15, 12, .RO, 0x0⟩
def GLB_TCNT_ENABLED : Field := ⟨454, 6, 0, .RO, 0x0⟩
def GLB_TMAP_VALID : Field := ⟨0, 15, 15, .RO, 0x1⟩
def GLB_TMAP_PHYS : Field := ⟨1, 6, 0, .RO, 0x0⟩
def GLB_PMAP_STATE : Field := ⟨2, 15, 14, .RO, 0x0⟩
def GLB_PMAP_LOGICAL : Field := ⟨3, 6, 0, .RO, 0x0⟩
def PWR_BAL_MODENOW : Field := ⟨13, 17, 16, .RO, 0x1⟩
def PWR_BAL_BADW : Field := ⟨14, 8, 8, .W1C, 0x0⟩
def PWR_BAL_MODE : Field := ⟨15, 1, 0, .WL, 0x1⟩
def PWR_VP_TEMP : Field := ⟨369, 31, 24, .RO, 0x0⟩
def PWR_VP_TRIPPED : Field := ⟨370, 23, 23, .RO, 0x0⟩
def PWR_VP_CAP : Field := ⟨371, 19, 18, .RO, 0x0⟩
def PWR_VP_PTNOW : Field := ⟨372, 17, 16, .RO, 0x1⟩
def PWR_VP_RAMP : Field := ⟨373, 15, 15, .RO, 0x0⟩
def PWR_VP_BADW : Field := ⟨374, 8, 8, .W1C, 0x0⟩
def PWR_VP_POINT : Field := ⟨375, 1, 0, .RW, 0x1⟩
def PWR_THERM_TLIM : Field := ⟨376, 31, 24, .RW, 0x5f⟩
def PWR_THERM_HYST : Field := ⟨377, 23, 16, .RW, 0x8⟩
def PWR_THERM_TMAX : Field := ⟨378, 15, 8, .RO, 0x0⟩
def PWR_THERM_CLRMAX : Field := ⟨379, 4, 4, .WO, 0x0⟩
def PWR_THERM_BADW : Field := ⟨380, 3, 3, .W1C, 0x0⟩
def PWR_THERM_TRIP : Field := ⟨381, 2, 2, .W1C, 0x0⟩
def PWR_THERM_THROT : Field := ⟨382, 1, 1, .W1C, 0x0⟩
def PWR_NTHR_COUNT : Field := ⟨456, 63, 0, .RO, 0x0⟩
def PWR_NBEAT_COUNT : Field := ⟨457, 63, 0, .RO, 0x0⟩
def SEC_BOOT_STEP : Field := ⟨383, 31, 28, .RO, 0x1⟩
def SEC_BOOT_CODE : Field := ⟨384, 27, 20, .RO, 0x0⟩
def SEC_BOOT_FAIL : Field := ⟨385, 19, 19, .RO, 0x0⟩
def SEC_BOOT_FWCOPY : Field := ⟨386, 18, 18, .RO, 0x0⟩
def SEC_BOOT_AFAIL : Field := ⟨387, 17, 17, .RO, 0x0⟩
def SEC_BOOT_BWARN : Field := ⟨388, 7, 0, .RO, 0x0⟩
def SEC_FSTAT_FWSVN : Field := ⟨389, 31, 26, .RO, 0x0⟩
def SEC_FSTAT_KREV : Field := ⟨390, 15, 12, .RO, 0x0⟩
def SEC_FSTAT_KENR : Field := ⟨391, 11, 8, .RO, 0x0⟩
def SEC_FSTAT_XWARN : Field := ⟨392, 6, 4, .RO, 0x0⟩
def SEC_FSTAT_DBGKILL : Field := ⟨393, 3, 3, .RO, 0x0⟩
def SEC_FSTAT_DBGLOCK : Field := ⟨394, 2, 2, .RO, 0x0⟩
def SEC_FSTAT_HSP : Field := ⟨395, 1, 0, .RO, 0x0⟩
def SEC_KCMD_GO : Field := ⟨396, 0, 0, .WO, 0x0⟩
def SEC_KSTAT_ERR : Field := ⟨397, 15, 8, .RO, 0x0⟩
def SEC_KSTAT_BUSYW : Field := ⟨398, 2, 2, .W1C, 0x0⟩
def SEC_KSTAT_ERRF : Field := ⟨399, 1, 1, .W1C, 0x0⟩
def SEC_KSTAT_BUSY : Field := ⟨400, 0, 0, .RO, 0x0⟩
def SEC_FWCMD_OP : Field := ⟨401, 31, 28, .RW, 0x0⟩
def SEC_FWCMD_GO : Field := ⟨402, 0, 0, .WO, 0x0⟩
def SEC_FWSTAT_ERR : Field := ⟨403, 15, 8, .RO, 0x0⟩
def SEC_FWSTAT_BUSYW : Field := ⟨404, 2, 2, .W1C, 0x0⟩
def SEC_FWSTAT_ERRF : Field := ⟨405, 1, 1, .W1C, 0x0⟩
def SEC_FWSTAT_BUSY : Field := ⟨406, 0, 0, .RO, 0x0⟩
def SEC_ACMD_GO : Field := ⟨407, 0, 0, .WO, 0x0⟩
def SEC_ASTAT_BUSYW : Field := ⟨408, 2, 2, .W1C, 0x0⟩
def SEC_ASTAT_DONE : Field := ⟨409, 1, 1, .W1C, 0x0⟩
def SEC_ASTAT_BUSY : Field := ⟨410, 0, 0, .RO, 0x0⟩
def SEC_DCTL_END : Field := ⟨411, 1, 1, .WO, 0x0⟩
def SEC_DCTL_OPEN : Field := ⟨412, 0, 0, .WO, 0x0⟩
def SEC_DSTAT_SCOPE : Field := ⟨413, 7, 4, .RO, 0x0⟩
def SEC_DSTAT_ERR : Field := ⟨414, 1, 1, .W1C, 0x0⟩
def SEC_DSTAT_OPENF : Field := ⟨415, 0, 0, .RO, 0x0⟩
def SEC_CERT_BYTES : Field := ⟨458, 2047, 0, .RO, 0x0⟩
def SEC_ANONCE_BYTES : Field := ⟨459, 511, 0, .RW, 0x0⟩
def SEC_DNONCE_BYTES : Field := ⟨460, 511, 0, .RO, 0x0⟩
def SEC_KREC_BYTES : Field := ⟨461, 2047, 0, .RW, 0x0⟩
def SEC_DTOK_BYTES : Field := ⟨462, 2047, 0, .RW, 0x0⟩
def SEC_AREP_BYTES : Field := ⟨463, 5119, 0, .RO, 0x0⟩
def SEC_OKEY_BYTES : Field := ⟨464, 511, 0, .RO, 0x0⟩
def EVT_GCTL_CLRALL : Field := ⟨416, 1, 1, .WO, 0x0⟩
def EVT_GCTL_FREEZE : Field := ⟨417, 0, 0, .RW, 0x0⟩
def EVT_STAT_BADW : Field := ⟨418, 1, 1, .W1C, 0x0⟩
def EVT_FLCMD_OP : Field := ⟨419, 31, 28, .RW, 0x0⟩
def EVT_FLCMD_GO : Field := ⟨420, 0, 0, .WO, 0x0⟩
def EVT_FLSTAT_RDERR : Field := ⟨421, 4, 4, .W1C, 0x0⟩
def EVT_FLSTAT_WERR : Field := ⟨422, 3, 3, .W1C, 0x0⟩
def EVT_FLSTAT_BUSYW : Field := ⟨423, 2, 2, .W1C, 0x0⟩
def EVT_FLSTAT_QUEUED : Field := ⟨424, 1, 1, .RO, 0x0⟩
def EVT_FLSTAT_BUSY : Field := ⟨425, 0, 0, .RO, 0x0⟩
def EVT_FLCFG_CEPOCH : Field := ⟨426, 4, 0, .WL, 0x10⟩
def EVT_FLCFGNOW_CEPOCH : Field := ⟨427, 4, 0, .RO, 0x10⟩
def EVT_FLOFS_PAGE : Field := ⟨428, 20, 12, .RW, 0x0⟩
def EVT_FLSEQ_SEQ : Field := ⟨465, 63, 0, .RO, 0x0⟩
def EVT_SEL_CODE : Field := ⟨429, 31, 22, .WS, 0x0⟩
def EVT_SEL_RIG : Field := ⟨430, 21, 15, .WS, 0x7f⟩
def EVT_SEL_TILE : Field := ⟨431, 14, 8, .WS, 0x7f⟩
def EVT_SEL_TIER : Field := ⟨432, 7, 5, .WS, 0x7⟩
def EVT_SEL_PORT : Field := ⟨433, 4, 0, .WS, 0x1f⟩
def EVT_CTL_RUN : Field := ⟨434, 4, 4, .RO, 0x0⟩
def EVT_CTL_OVF : Field := ⟨435, 3, 3, .W1C, 0x0⟩
def EVT_CTL_SREF : Field := ⟨436, 2, 2, .W1C, 0x0⟩
def EVT_CTL_MODE : Field := ⟨437, 1, 1, .WS, 0x0⟩
def EVT_CTL_EN : Field := ⟨438, 0, 0, .RW, 0x0⟩
def EVT_SIG_STOP : Field := ⟨439, 29, 16, .WS, 0x0⟩
def EVT_SIG_START : Field := ⟨440, 13, 0, .WS, 0x0⟩
def EVT_CNT_COUNT : Field := ⟨441, 63, 0, .WS, 0x0⟩
def EVT_FLWIN_BYTES : Field := ⟨466, 31, 0, .RO, 0x0⟩
def SYN_STAT_GBUSY : Field := ⟨227, 6, 6, .W1C, 0x0⟩
def SYN_STAT_GBAD : Field := ⟨228, 5, 5, .W1C, 0x0⟩
def SYN_STAT_SUE : Field := ⟨229, 4, 4, .W1C, 0x0⟩
def SYN_STAT_SREF : Field := ⟨230, 3, 3, .W1C, 0x0⟩
def SYN_STAT_BADW : Field := ⟨231, 2, 2, .W1C, 0x0⟩
def SYN_STAT_RREJ : Field := ⟨232, 1, 1, .W1C, 0x0⟩
def SYN_STAT_SSAT : Field := ⟨233, 0, 0, .W1C, 0x0⟩
def SYN_TIMER_NS : Field := ⟨234, 63, 0, .RO, 0x0⟩
def SYN_SSEL_SIG : Field := ⟨235, 13, 0, .RW, 0x0⟩
def SYN_SCNT_RIG : Field := ⟨236, 22, 16, .RO, 0x7f⟩
def SYN_SCNT_COUNT : Field := ⟨237, 15, 0, .WS, 0x0⟩
def SYN_SRAISE_SIG : Field := ⟨238, 13, 0, .WO, 0x0⟩
def SYN_SLAST_SIG : Field := ⟨239, 13, 0, .RO, 0x0⟩
def SYN_GMSEL_AINC : Field := ⟨240, 31, 31, .RW, 0x0⟩
def SYN_GMSEL_INDEX : Field := ⟨241, 14, 0, .RW, 0x0⟩
def SYN_GMDAT_ID : Field := ⟨242, 11, 0, .WS, 0x0⟩
def SYN_NRAISE_COUNT : Field := ⟨467, 63, 0, .RO, 0x0⟩
def SYN_NWAKE_COUNT : Field := ⟨468, 63, 0, .RO, 0x0⟩
def SYN_NSAT_COUNT : Field := ⟨469, 63, 0, .RO, 0x0⟩
def SYN_NOBC_COUNT : Field := ⟨470, 63, 0, .RO, 0x0⟩
def SYN_NXBC_COUNT : Field := ⟨471, 63, 0, .RO, 0x0⟩
def SYN_RIG_RSGRP : Field := ⟨243, 11, 0, .WS, 0xfff⟩
def SYN_OB_0_EN : Field := ⟨247, 31, 31, .RW, 0x0⟩
def SYN_OB_0_ARRS : Field := ⟨248, 13, 0, .WS, 0x0⟩
def SYN_OB_4_NREL : Field := ⟨249, 23, 16, .WS, 0x0⟩
def SYN_OB_4_RELS : Field := ⟨250, 13, 0, .WS, 0x0⟩
def SYN_OB_LM_LMASK : Field := ⟨251, 71, 0, .WS, 0x0⟩
def SYN_OB_PM_PMASK : Field := ⟨252, 79, 0, .RO, 0x0⟩
def SYN_OB_PH_PHASE : Field := ⟨253, 31, 0, .RO, 0x0⟩
def SYN_OB_ST_BBAD : Field := ⟨254, 3, 3, .W1C, 0x0⟩
def SYN_OB_ST_BNM : Field := ⟨255, 2, 2, .W1C, 0x0⟩
def SYN_OB_ST_BSAT : Field := ⟨256, 1, 1, .W1C, 0x0⟩
def SYN_OB_ST_PEND : Field := ⟨257, 0, 0, .RO, 0x0⟩
def SYN_XB_0_EN : Field := ⟨258, 31, 31, .RW, 0x0⟩
def SYN_XB_0_GRP : Field := ⟨259, 27, 16, .WS, 0x0⟩
def SYN_XB_0_ARRS : Field := ⟨260, 13, 0, .WS, 0x0⟩
def SYN_XB_4_TAG : Field := ⟨261, 31, 16, .WS, 0x0⟩
def SYN_XB_4_RELS : Field := ⟨262, 13, 0, .WS, 0x0⟩
def SYN_XB_8_NREL : Field := ⟨263, 31, 24, .WS, 0x0⟩
def SYN_XB_8_TIMEOUT : Field := ⟨264, 15, 0, .WS, 0x0⟩
def SYN_XB_PH_PHASE : Field := ⟨265, 31, 0, .RO, 0x0⟩
def SYN_XB_ST_BBAD : Field := ⟨266, 3, 3, .W1C, 0x0⟩
def SYN_XB_ST_XTO : Field := ⟨267, 2, 2, .W1C, 0x0⟩
def SYN_XB_ST_BSAT : Field := ⟨268, 1, 1, .W1C, 0x0⟩
def SYN_XB_ST_PEND : Field := ⟨269, 0, 0, .RO, 0x0⟩
def SYN_GRP_VALID : Field := ⟨244, 31, 31, .RW, 0x0⟩
def SYN_GRP_COUNT : Field := ⟨245, 27, 15, .WS, 0x0⟩
def SYN_GRP_FIRST : Field := ⟨246, 14, 0, .WS, 0x0⟩
def MEM_T0CFG_SPARES : Field := ⟨139, 31, 30, .RO, 0x0⟩
def MEM_T0CFG_DENS : Field := ⟨140, 29, 28, .RO, 0x0⟩
def MEM_T0CFG_HEIGHT : Field := ⟨141, 27, 26, .RO, 0x0⟩
def MEM_T0CFG_RATE : Field := ⟨142, 25, 24, .RO, 0x0⟩
def MEM_T0CFG_CHMIB : Field := ⟨143, 23, 12, .RO, 0x0⟩
def MEM_T0CFG_LIVE : Field := ⟨144, 8, 0, .RO, 0x0⟩
def MEM_CHCMD_OP : Field := ⟨145, 31, 28, .RW, 0x0⟩
def MEM_CHCMD_PCH : Field := ⟨146, 8, 1, .RW, 0x0⟩
def MEM_CHCMD_GO : Field := ⟨147, 0, 0, .WO, 0x0⟩
def MEM_CHSTAT_ERR : Field := ⟨148, 31, 24, .RO, 0x0⟩
def MEM_CHSTAT_PCH : Field := ⟨149, 23, 16, .RO, 0x0⟩
def MEM_CHSTAT_CP : Field := ⟨150, 15, 8, .RO, 0x0⟩
def MEM_CHSTAT_QUEUED : Field := ⟨151, 2, 2, .RO, 0x0⟩
def MEM_CHSTAT_ERRF : Field := ⟨152, 1, 1, .W1C, 0x0⟩
def MEM_CHSTAT_BUSY : Field := ⟨153, 0, 0, .RO, 0x0⟩
def MEM_SCRB_RATIO : Field := ⟨154, 31, 16, .WL, 0x40⟩
def MEM_SCRB_PASS : Field := ⟨155, 0, 0, .WO, 0x0⟩
def MEM_SCRBNOW_RATIO : Field := ⟨156, 31, 16, .RO, 0x40⟩
def MEM_SCRBNOW_PASSRUN : Field := ⟨157, 0, 0, .RO, 0x0⟩
def MEM_MARB_QUE : Field := ⟨158, 14, 8, .RO, 0x0⟩
def MEM_MARB_RUN : Field := ⟨159, 6, 0, .RO, 0x0⟩
def MEM_BSTAT_STATE : Field := ⟨160, 31, 29, .RO, 0x0⟩
def MEM_BSTAT_TXBAD : Field := ⟨161, 28, 25, .RO, 0xf⟩
def MEM_BSTAT_RXBAD : Field := ⟨162, 24, 21, .RO, 0xf⟩
def MEM_BSTAT_ALERT : Field := ⟨163, 0, 0, .W1C, 0x0⟩
def MEM_BCAP_CAP1 : Field := ⟨164, 31, 16, .RO, 0x0⟩
def MEM_BCAP_CAP0 : Field := ⟨165, 15, 0, .RO, 0x0⟩
def MEM_BREPL_COUNT : Field := ⟨472, 63, 0, .RO, 0x0⟩
def MEM_CHMAP_ROLE : Field := ⟨166, 15, 14, .RO, 0x0⟩
def MEM_CHMAP_LOGICAL : Field := ⟨167, 8, 0, .RO, 0x0⟩
def TIER_CFG_ASC : Field := ⟨115, 31, 24, .WL, 0x20⟩
def TIER_CFG_DESC : Field := ⟨117, 23, 16, .WL, 0x2⟩
def TIER_CFG_T3W : Field := ⟨119, 15, 8, .WL, 0x40⟩
def TIER_CFG_LOWM : Field := ⟨121, 3, 0, .WL, 0x4⟩
def TIER_CFGNOW_ASC : Field := ⟨116, 31, 24, .RO, 0x20⟩
def TIER_CFGNOW_DESC : Field := ⟨118, 23, 16, .RO, 0x2⟩
def TIER_CFGNOW_T3W : Field := ⟨120, 15, 8, .RO, 0x40⟩
def TIER_CFGNOW_LOWM : Field := ⟨122, 3, 0, .RO, 0x4⟩
def TIER_EPOCH_COUNT : Field := ⟨473, 63, 0, .RO, 0x0⟩
def TIER_EBYTE_COUNT : Field := ⟨474, 63, 0, .RO, 0x0⟩
def TIER_MCMD0_OP : Field := ⟨123, 31, 28, .RW, 0x0⟩
def TIER_MCMD0_ARG : Field := ⟨124, 27, 26, .RW, 0x0⟩
def TIER_MCMD0_SPACE : Field := ⟨125, 12, 1, .RW, 0x0⟩
def TIER_MCMD0_GO : Field := ⟨126, 0, 0, .WO, 0x0⟩
def TIER_MCMD1_NPAGE : Field := ⟨127, 63, 36, .RW, 0x0⟩
def TIER_MCMD1_VPN : Field := ⟨128, 35, 0, .RW, 0x0⟩
def TIER_MSTAT_DONE : Field := ⟨129, 63, 36, .RO, 0x0⟩
def TIER_MSTAT_ERR : Field := ⟨130, 15, 8, .RO, 0x0⟩
def TIER_MSTAT_BUSYW : Field := ⟨131, 2, 2, .W1C, 0x0⟩
def TIER_MSTAT_ERRF : Field := ⟨132, 1, 1, .W1C, 0x0⟩
def TIER_MSTAT_BUSY : Field := ⟨133, 0, 0, .RO, 0x0⟩
def TIER_LOOKA_SPACE : Field := ⟨134, 47, 36, .RW, 0x0⟩
def TIER_LOOKA_VPN : Field := ⟨135, 35, 0, .RW, 0x0⟩
def TIER_LOOKD_PTE : Field := ⟨136, 63, 0, .RO, 0x0⟩
def TIER_LOOKN_NDESC : Field := ⟨137, 63, 0, .RO, 0x0⟩
def TIER_FREE_UNITS : Field := ⟨138, 36, 0, .RO, 0x0⟩
def TIER_NASC_COUNT : Field := ⟨475, 63, 0, .RO, 0x0⟩
def TIER_NDESC_COUNT : Field := ⟨476, 63, 0, .RO, 0x0⟩
def TIER_NFORCE_COUNT : Field := ⟨477, 63, 0, .RO, 0x0⟩
def TIER_NFOLD_COUNT : Field := ⟨478, 63, 0, .RO, 0x0⟩
def TIER_NNEG_COUNT : Field := ⟨479, 63, 0, .RO, 0x0⟩
def TIER_NLOST_COUNT : Field := ⟨480, 63, 0, .RO, 0x0⟩
def TIER_NCOREAD_COUNT : Field := ⟨481, 63, 0, .RO, 0x0⟩
def TIER_NT3W_COUNT : Field := ⟨482, 63, 0, .RO, 0x0⟩
def TIER_NWCBF_COUNT : Field := ⟨483, 63, 0, .RO, 0x0⟩
def TIER_NASCDROP_COUNT : Field := ⟨484, 63, 0, .RO, 0x0⟩
def ECC_CFG_CETHR : Field := ⟨168, 15, 0, .WL, 0x1000⟩
def ECC_CFGNOW_CETHR : Field := ⟨169, 15, 0, .RO, 0x1000⟩
def ECC_LAST_WHERE : Field := ⟨170, 63, 60, .RO, 0x0⟩
def ECC_LAST_UNIT : Field := ⟨171, 59, 52, .RO, 0x0⟩
def ECC_LAST_ADDR : Field := ⟨172, 51, 0, .RO, 0x0⟩
def ECC_NCE_COUNT : Field := ⟨485, 63, 0, .RO, 0x0⟩
def ECC_NUE_COUNT : Field := ⟨486, 63, 0, .RO, 0x0⟩
def FAB_ID_VALID : Field := ⟨204, 15, 15, .RO, 0x0⟩
def FAB_ID_ID : Field := ⟨205, 11, 0, .WS, 0x0⟩
def FAB_STAT_SREF : Field := ⟨206, 4, 4, .W1C, 0x0⟩
def FAB_STAT_OVF : Field := ⟨207, 3, 3, .RO, 0x0⟩
def FAB_STAT_HTO : Field := ⟨208, 2, 2, .W1C, 0x0⟩
def FAB_STAT_HOPX : Field := ⟨209, 1, 1, .W1C, 0x0⟩
def FAB_STAT_REJR : Field := ⟨210, 0, 0, .W1C, 0x0⟩
def FAB_PSTAT_STATE : Field := ⟨211, 31, 29, .RO, 0x0⟩
def FAB_PSTAT_TXBAD : Field := ⟨212, 28, 26, .RO, 0x7⟩
def FAB_PSTAT_RXBAD : Field := ⟨213, 25, 23, .RO, 0x7⟩
def FAB_PSTAT_PEER : Field := ⟨214, 11, 0, .RO, 0x0⟩
def FAB_NWR_COUNT : Field := ⟨487, 63, 0, .RO, 0x0⟩
def FAB_NHOLD_COUNT : Field := ⟨488, 63, 0, .RO, 0x0⟩
def FAB_NREJ_COUNT : Field := ⟨489, 63, 0, .RO, 0x0⟩
def FAB_NREPL_COUNT : Field := ⟨490, 63, 0, .RO, 0x0⟩
def FAB_RT_VALID : Field := ⟨215, 31, 31, .WL, 0x0⟩
def FAB_RT_UP : Field := ⟨216, 7, 7, .WL, 0x0⟩
def FAB_RT_ALTV : Field := ⟨217, 6, 6, .WL, 0x0⟩
def FAB_RT_ALT : Field := ⟨218, 5, 3, .WL, 0x0⟩
def FAB_RT_PRI : Field := ⟨219, 2, 0, .WL, 0x0⟩
def FAB_WIN_0_EN : Field := ⟨220, 31, 31, .RW, 0x0⟩
def FAB_WIN_0_KIND : Field := ⟨221, 30, 30, .WS, 0x0⟩
def FAB_WIN_0_RIG : Field := ⟨222, 22, 16, .WS, 0x0⟩
def FAB_WIN_0_SPACE : Field := ⟨223, 11, 0, .WS, 0x0⟩
def FAB_WIN_1_LEN : Field := ⟨224, 31, 16, .WS, 0x0⟩
def FAB_WIN_1_GRP : Field := ⟨225, 11, 0, .WS, 0xfff⟩
def FAB_WIN_2_BASE : Field := ⟨226, 63, 0, .WS, 0x0⟩
def TWN_CTL_PROT : Field := ⟨313, 19, 18, .WS, 0x0⟩
def TWN_CTL_TKO : Field := ⟨314, 3, 3, .RW, 0x0⟩
def TWN_CTL_UNPAIR : Field := ⟨315, 2, 2, .WO, 0x0⟩
def TWN_CTL_PAIR : Field := ⟨316, 1, 1, .WO, 0x0⟩
def TWN_STAT_STATE : Field := ⟨317, 31, 29, .RO, 0x0⟩
def TWN_STAT_PARTNER : Field := ⟨318, 27, 16, .RO, 0x0⟩
def TWN_STAT_HOSTF : Field := ⟨319, 7, 7, .RO, 0x0⟩
def TWN_STAT_SUSP : Field := ⟨320, 6, 6, .RO, 0x0⟩
def TWN_STAT_MISM : Field := ⟨321, 5, 5, .W1C, 0x0⟩
def TWN_STAT_RSVF : Field := ⟨322, 4, 4, .W1C, 0x0⟩
def TWN_STAT_SREF : Field := ⟨323, 3, 3, .W1C, 0x0⟩
def TWN_STAT_BADW : Field := ⟨324, 2, 2, .W1C, 0x0⟩
def TWN_STAT_ONEP : Field := ⟨325, 1, 1, .RO, 0x0⟩
def TWN_STAT_LOSTF : Field := ⟨326, 0, 0, .W1C, 0x0⟩
def TWN_PEER_ID : Field := ⟨327, 11, 0, .WS, 0x0⟩
def TWN_RSV_TIER : Field := ⟨328, 31, 30, .WS, 0x1⟩
def TWN_RSV_GIB : Field := ⟨329, 19, 0, .WS, 0x0⟩
def TWN_LSTAT_USEDMB : Field := ⟨330, 19, 8, .RO, 0x0⟩
def TWN_LSTAT_LUE : Field := ⟨331, 2, 2, .W1C, 0x0⟩
def TWN_LSTAT_HOLDV : Field := ⟨332, 1, 1, .RO, 0x0⟩
def TWN_LSTAT_RFULL : Field := ⟨333, 0, 0, .RO, 0x0⟩
def TWN_LNUM_NEXT : Field := ⟨334, 63, 0, .RO, 0x1⟩
def TWN_PLOOK_COUNT : Field := ⟨335, 31, 16, .RO, 0x0⟩
def TWN_PLOOK_INDEX : Field := ⟨336, 15, 0, .RW, 0x0⟩
def TWN_PLDAT0_LOGNO : Field := ⟨337, 63, 0, .RO, 0x0⟩
def TWN_PLDAT1_USER : Field := ⟨338, 63, 0, .RO, 0x0⟩
def TWN_PLDAT2_SQID : Field := ⟨339, 31, 16, .RO, 0x0⟩
def TWN_PLDAT2_RIG : Field := ⟨340, 15, 9, .RO, 0x0⟩
def TWN_PLDAT2_DONE : Field := ⟨341, 8, 8, .RO, 0x0⟩
def TWN_PLDAT2_STATUS : Field := ⟨342, 7, 0, .RO, 0x0⟩
def TWN_RCMD_OP : Field := ⟨343, 31, 28, .RW, 0x0⟩
def TWN_RCMD_DST : Field := ⟨344, 12, 1, .RW, 0x0⟩
def TWN_RCMD_GO : Field := ⟨345, 0, 0, .WO, 0x0⟩
def TWN_RSTAT_ERR : Field := ⟨346, 31, 24, .RO, 0x0⟩
def TWN_RSTAT_PROG : Field := ⟨347, 23, 16, .RO, 0x0⟩
def TWN_RSTAT_ERRF : Field := ⟨348, 2, 2, .W1C, 0x0⟩
def TWN_RSTAT_DONE : Field := ⟨349, 1, 1, .W1C, 0x0⟩
def TWN_RSTAT_BUSY : Field := ⟨350, 0, 0, .RO, 0x0⟩
def TWN_RSCAL0_NCONS : Field := ⟨351, 31, 16, .RW, 0x0⟩
def TWN_RSCAL0_LOG2 : Field := ⟨352, 15, 10, .RW, 0x0⟩
def TWN_RSCAL0_RIG : Field := ⟨353, 9, 3, .RW, 0x0⟩
def TWN_RSCAL0_GO : Field := ⟨354, 0, 0, .WO, 0x0⟩
def TWN_RSCAL1_TNUM : Field := ⟨355, 31, 0, .RW, 0x0⟩
def TWN_SPCFG_AGETHR : Field := ⟨356, 15, 8, .WL, 0xf⟩
def TWN_SPCFG_REPTHR : Field := ⟨357, 7, 0, .WL, 0x3⟩
def TWN_SPCFGNOW_AGETHR : Field := ⟨358, 15, 8, .RO, 0xf⟩
def TWN_SPCFGNOW_REPTHR : Field := ⟨359, 7, 0, .RO, 0x3⟩
def TWN_PESEL_RIG : Field := ⟨362, 6, 0, .RW, 0x0⟩
def TWN_PEND0_NCONS : Field := ⟨363, 31, 16, .RO, 0x0⟩
def TWN_PEND0_LOG2 : Field := ⟨364, 15, 10, .RO, 0x0⟩
def TWN_PEND0_VALID : Field := ⟨365, 9, 9, .RO, 0x0⟩
def TWN_PEND0_PRINT : Field := ⟨366, 8, 8, .RO, 0x0⟩
def TWN_PEND1_TNUM : Field := ⟨367, 31, 0, .RO, 0x0⟩
def TWN_RNEED_GIB : Field := ⟨368, 19, 0, .RO, 0x0⟩
def TWN_NMIR_COUNT : Field := ⟨491, 63, 0, .RO, 0x0⟩
def TWN_NREPL_COUNT : Field := ⟨492, 63, 0, .RO, 0x0⟩
def TWN_NSUB_COUNT : Field := ⟨493, 63, 0, .RO, 0x0⟩
def TWN_NHELD_COUNT : Field := ⟨494, 63, 0, .RO, 0x0⟩
def TWN_RMAP_VALID : Field := ⟨360, 31, 31, .RW, 0x0⟩
def TWN_RMAP_WIN : Field := ⟨361, 7, 0, .RW, 0x0⟩
def IMG_CTL_HOLD : Field := ⟨84, 4, 4, .RW, 0x0⟩
def IMG_CTL_HOW : Field := ⟨85, 1, 1, .RW, 0x0⟩
def IMG_CTL_START : Field := ⟨86, 0, 0, .WO, 0x0⟩
def IMG_STAT_CODE : Field := ⟨87, 31, 16, .RO, 0x0⟩
def IMG_STAT_BUSYW : Field := ⟨88, 7, 7, .W1C, 0x0⟩
def IMG_STAT_REJ : Field := ⟨89, 6, 6, .W1C, 0x0⟩
def IMG_STAT_ACC : Field := ⟨90, 5, 5, .W1C, 0x0⟩
def IMG_STAT_STATE : Field := ⟨91, 2, 0, .RO, 0x0⟩
def IMG_SWIN_OFS : Field := ⟨495, 63, 0, .RO, 0x0⟩
def IMG_ID_ID : Field := ⟨496, 63, 0, .RO, 0x0⟩
def IMG_DEV_HEATEPOCH : Field := ⟨92, 31, 16, .RO, 0x0⟩
def IMG_DEV_COMP : Field := ⟨93, 2, 0, .RO, 0x0⟩
def IMG_DIG_BYTES : Field := ⟨497, 511, 0, .RO, 0x0⟩
def IMG_RSTAT_NLOAD : Field := ⟨94, 31, 16, .RO, 0x0⟩
def IMG_RSTAT_BADW : Field := ⟨95, 5, 5, .W1C, 0x0⟩
def IMG_RSTAT_SREF : Field := ⟨96, 4, 4, .W1C, 0x0⟩
def IMG_RSTAT_STATE : Field := ⟨97, 2, 0, .RO, 0x0⟩
def IMG_RCTL_KILL : Field := ⟨98, 2, 2, .WO, 0x0⟩
def IMG_RCTL_STOP : Field := ⟨99, 1, 1, .WO, 0x0⟩
def IMG_RCTL_GO : Field := ⟨100, 0, 0, .WO, 0x0⟩
def IMG_RMODE_SPLIT : Field := ⟨101, 17, 16, .RO, 0x0⟩
def IMG_RMODE_UPDATE : Field := ⟨102, 13, 12, .RO, 0x0⟩
def IMG_RMODE_FAULT : Field := ⟨103, 9, 8, .RO, 0x0⟩
def IMG_RMODE_COVF : Field := ⟨104, 1, 1, .RO, 0x0⟩
def IMG_RMODE_MAXMIN : Field := ⟨105, 0, 0, .RO, 0x0⟩
def IMG_RSTC_SEGLEN : Field := ⟨106, 31, 16, .WS, 0x0⟩
def IMG_RSTC_GRAD : Field := ⟨107, 1, 1, .WS, 0x0⟩
def IMG_RSTC_SATNF : Field := ⟨108, 0, 0, .WS, 0x0⟩
def IMG_RLIVE_LSGROW : Field := ⟨109, 31, 16, .WL, 0x0⟩
def IMG_RLIVE_STRAG : Field := ⟨111, 1, 0, .WL, 0x0⟩
def IMG_RLNOW_LSGROW : Field := ⟨110, 31, 16, .RO, 0x0⟩
def IMG_RLNOW_STRAG : Field := ⟨112, 1, 0, .RO, 0x0⟩
def IMG_RHYP_VALUE : Field := ⟨113, 31, 0, .WL, 0x0⟩
def IMG_RHNOW_VALUE : Field := ⟨114, 31, 0, .RO, 0x0⟩
def IMG_TSTAT_CAUSE : Field := ⟨173, 31, 28, .RO, 0x0⟩
def IMG_TSTAT_TBERR : Field := ⟨174, 24, 24, .W1C, 0x0⟩
def IMG_TSTAT_NONF : Field := ⟨175, 23, 23, .RO, 0x0⟩
def IMG_TSTAT_SATR : Field := ⟨176, 22, 22, .RO, 0x0⟩
def IMG_TSTAT_POISR : Field := ⟨177, 21, 21, .RO, 0x0⟩
def IMG_TSTAT_PROX : Field := ⟨178, 20, 20, .RO, 0x0⟩
def IMG_TSTAT_LATE : Field := ⟨179, 19, 19, .RO, 0x0⟩
def IMG_TSTAT_LSMIN : Field := ⟨180, 18, 18, .W1C, 0x0⟩
def IMG_TSTAT_STRK : Field := ⟨181, 3, 3, .RO, 0x0⟩
def IMG_TSTAT_STATE : Field := ⟨182, 2, 0, .RO, 0x0⟩
def IMG_TCTL_STRIKE : Field := ⟨183, 0, 0, .WO, 0x0⟩
def IMG_TLS_NCONS : Field := ⟨184, 31, 16, .RO, 0x0⟩
def IMG_TLS_LOG2 : Field := ⟨185, 5, 0, .RO, 0x10⟩
def IMG_TNUM_NUM : Field := ⟨186, 31, 0, .RO, 0x0⟩
def IMG_TSTRG_TIME : Field := ⟨187, 15, 0, .WL, 0x3e8⟩
def IMG_TSTRGN_TIME : Field := ⟨188, 15, 0, .RO, 0x3e8⟩
def IMG_TPTAB_SPACE : Field := ⟨189, 63, 52, .WL, 0x0⟩
def IMG_TPTAB_ADDR : Field := ⟨191, 51, 6, .WL, 0x0⟩
def IMG_TPTAB_VALID : Field := ⟨193, 0, 0, .WL, 0x0⟩
def IMG_TPTABN_SPACE : Field := ⟨190, 63, 52, .RO, 0x0⟩
def IMG_TPTABN_ADDR : Field := ⟨192, 51, 6, .RO, 0x0⟩
def IMG_TPTABN_VALID : Field := ⟨194, 0, 0, .RO, 0x0⟩
def IMG_TXCMD_OP : Field := ⟨195, 31, 28, .RW, 0x0⟩
def IMG_TXCMD_GROUP : Field := ⟨196, 27, 16, .RW, 0x0⟩
def IMG_TXCMD_GO : Field := ⟨197, 0, 0, .WO, 0x0⟩
def IMG_TXSTAT_ERR : Field := ⟨200, 15, 8, .RO, 0x0⟩
def IMG_TXSTAT_BUSYW : Field := ⟨201, 2, 2, .W1C, 0x0⟩
def IMG_TXSTAT_ERRF : Field := ⟨202, 1, 1, .W1C, 0x0⟩
def IMG_TXSTAT_BUSY : Field := ⟨203, 0, 0, .RO, 0x0⟩
def IMG_TXADR_SPACE : Field := ⟨198, 63, 52, .RW, 0x0⟩
def IMG_TXADR_ADDR : Field := ⟨199, 51, 0, .RW, 0x0⟩
def IMG_TNPRT_COUNT : Field := ⟨498, 63, 0, .RO, 0x0⟩
def IMG_TNSTR_COUNT : Field := ⟨499, 63, 0, .RO, 0x0⟩
def IMG_TNLATE_COUNT : Field := ⟨500, 63, 0, .RO, 0x0⟩
def QUE_CMD_OP : Field := ⟨272, 31, 28, .RW, 0x0⟩
def QUE_CMD_QNUM : Field := ⟨273, 16, 1, .RW, 0x0⟩
def QUE_CMD_GO : Field := ⟨274, 0, 0, .WO, 0x0⟩
def QUE_CARG0_SPACE : Field := ⟨275, 63, 52, .RW, 0x0⟩
def QUE_CARG0_ADDR : Field := ⟨276, 51, 0, .RW, 0x0⟩
def QUE_CARG1_LOGSZ : Field := ⟨277, 31, 27, .RW, 0x0⟩
def QUE_CARG1_PRIO : Field := ⟨278, 26, 23, .RW, 0x0⟩
def QUE_CARG1_CTHR : Field := ⟨279, 15, 8, .RW, 0x1⟩
def QUE_CARG1_VECLO : Field := ⟨522, 22, 16, .RW, 0x0⟩
def QUE_CARG2_CQT : Field := ⟨280, 15, 0, .RW, 0x0⟩
def QUE_CSTAT_ERR : Field := ⟨281, 15, 8, .RO, 0x0⟩
def QUE_CSTAT_BUSYW : Field := ⟨282, 2, 2, .W1C, 0x0⟩
def QUE_CSTAT_ERRF : Field := ⟨283, 1, 1, .W1C, 0x0⟩
def QUE_CSTAT_BUSY : Field := ⟨284, 0, 0, .RO, 0x0⟩
def QUE_LOOK_CQ : Field := ⟨285, 31, 31, .RW, 0x0⟩
def QUE_LOOK_QNUM : Field := ⟨286, 15, 0, .RW, 0x0⟩
def QUE_LOOKD_HEAD : Field := ⟨287, 63, 48, .RO, 0x0⟩
def QUE_LOOKD_TAIL : Field := ⟨288, 47, 32, .RO, 0x0⟩
def QUE_LOOKD_STATE : Field := ⟨289, 31, 28, .RO, 0x0⟩
def QUE_LOOKD_PRIO : Field := ⟨290, 27, 24, .RO, 0x0⟩
def QUE_LOOKD_LOGSZ : Field := ⟨291, 23, 19, .RO, 0x0⟩
def QUE_LOOKD_RIG : Field := ⟨292, 18, 12, .RO, 0x0⟩
def QUE_LOOKD_LINK : Field := ⟨293, 11, 0, .RO, 0x0⟩
def QUE_ARB_AGEMAX : Field := ⟨294, 7, 0, .WL, 0x40⟩
def QUE_ARBNOW_AGEMAX : Field := ⟨295, 7, 0, .RO, 0x40⟩
def QUE_STAT_SREF : Field := ⟨296, 4, 4, .W1C, 0x0⟩
def QUE_STAT_CQWAIT : Field := ⟨297, 3, 3, .RO, 0x0⟩
def QUE_STAT_HAF : Field := ⟨298, 2, 2, .W1C, 0x0⟩
def QUE_STAT_PHERR : Field := ⟨299, 1, 1, .W1C, 0x0⟩
def QUE_STAT_DBBAD : Field := ⟨300, 0, 0, .W1C, 0x0⟩
def QUE_ULINK_U1STATE : Field := ⟨301, 31, 29, .RO, 0x0⟩
def QUE_ULINK_U0STATE : Field := ⟨302, 15, 13, .RO, 0x0⟩
def QUE_ULINK_U1RATE : Field := ⟨303, 28, 28, .RO, 0x0⟩
def QUE_ULINK_U0RATE : Field := ⟨304, 12, 12, .RO, 0x0⟩
def QUE_ULINK_U1REP : Field := ⟨305, 27, 24, .RO, 0x0⟩
def QUE_ULINK_U0REP : Field := ⟨306, 11, 8, .RO, 0x0⟩
def QUE_HAFA_AP : Field := ⟨307, 51, 44, .RO, 0x0⟩
def QUE_HAFA_OFS : Field := ⟨308, 43, 0, .RO, 0x0⟩
def QUE_NFETCH_COUNT : Field := ⟨501, 63, 0, .RO, 0x0⟩
def QUE_NCOMP_COUNT : Field := ⟨502, 63, 0, .RO, 0x0⟩
def QUE_NIRQ_COUNT : Field := ⟨503, 63, 0, .RO, 0x0⟩
def QUE_NDBX_COUNT : Field := ⟨504, 63, 0, .RO, 0x0⟩
def QUE_AP_0_EN : Field := ⟨309, 31, 31, .RW, 0x0⟩
def QUE_AP_0_WP : Field := ⟨310, 30, 30, .RW, 0x0⟩
def QUE_AP_0_SPACE : Field := ⟨311, 11, 0, .WS, 0x0⟩
def QUE_AP_2_BASE : Field := ⟨312, 51, 16, .WS, 0x0⟩
def QUE_SQDB_INDEX : Field := ⟨505, 31, 0, .WO, 0x0⟩
def QUE_CQDB_INDEX : Field := ⟨506, 31, 0, .WO, 0x0⟩
def TILE_NFLAG_FDNZ : Field := ⟨4, 11, 11, .W1C, 0x0⟩
def TILE_NFLAG_FNAN : Field := ⟨5, 10, 10, .W1C, 0x0⟩
def TILE_NFLAG_CINV : Field := ⟨6, 9, 9, .W1C, 0x0⟩
def TILE_NFLAG_COVF : Field := ⟨7, 8, 8, .W1C, 0x0⟩
def TILE_NFLAG_SNV : Field := ⟨8, 4, 4, .W1C, 0x0⟩
def TILE_NFLAG_SDZ : Field := ⟨9, 3, 3, .W1C, 0x0⟩
def TILE_NFLAG_SOF : Field := ⟨10, 2, 2, .W1C, 0x0⟩
def TILE_NFLAG_SUF : Field := ⟨11, 1, 1, .W1C, 0x0⟩
def TILE_NFLAG_SNX : Field := ⟨12, 0, 0, .W1C, 0x0⟩
def TILE_ARR_CTL_HOLDMAX : Field := ⟨16, 15, 8, .WL, 0xf⟩
def TILE_ARR_CTL_HALT : Field := ⟨17, 0, 0, .RW, 0x0⟩
def TILE_ARR_STAT_HOLDNOW : Field := ⟨18, 31, 24, .RO, 0xf⟩
def TILE_ARR_STAT_FSHAPE : Field := ⟨19, 23, 20, .RO, 0x0⟩
def TILE_ARR_STAT_MROW : Field := ⟨20, 19, 18, .RO, 0x0⟩
def TILE_ARR_STAT_MCOL : Field := ⟨21, 17, 16, .RO, 0x0⟩
def TILE_ARR_STAT_PERR : Field := ⟨22, 11, 11, .W1C, 0x0⟩
def TILE_ARR_STAT_PBLK : Field := ⟨23, 10, 10, .RO, 0x0⟩
def TILE_ARR_STAT_W1USE : Field := ⟨24, 9, 9, .RO, 0x0⟩
def TILE_ARR_STAT_LOADED : Field := ⟨25, 8, 8, .RO, 0x0⟩
def TILE_ARR_STAT_PHASE : Field := ⟨26, 7, 6, .RO, 0x0⟩
def TILE_ARR_STAT_BAL : Field := ⟨27, 5, 4, .RO, 0x0⟩
def TILE_ARR_STAT_HALTED : Field := ⟨28, 0, 0, .RO, 0x0⟩
def TILE_ARR_FUSE_LEAD : Field := ⟨29, 22, 16, .RO, 0x0⟩
def TILE_ARR_FUSE_NMEM : Field := ⟨30, 4, 0, .RO, 0x0⟩
def TILE_ARR_BLKA_ADDR : Field := ⟨31, 51, 0, .RO, 0x0⟩
def TILE_ARR_BLKS_SPACE : Field := ⟨32, 27, 16, .RO, 0x0⟩
def TILE_ARR_BLKS_VER : Field := ⟨33, 15, 0, .RO, 0x0⟩
def TILE_ARR_NROW_COUNT : Field := ⟨507, 63, 0, .RO, 0x0⟩
def TILE_ARR_NBUB_COUNT : Field := ⟨508, 63, 0, .RO, 0x0⟩
def TILE_ARR_NLOAD_COUNT : Field := ⟨509, 63, 0, .RO, 0x0⟩
def TILE_ARR_NHOLD_COUNT : Field := ⟨510, 63, 0, .RO, 0x0⟩
def TILE_ARR_NBAL_COUNT : Field := ⟨511, 63, 0, .RO, 0x0⟩
def TILE_ACC_STAT_BSTATE : Field := ⟨34, 23, 16, .RO, 0x0⟩
def TILE_ACC_STAT_PERR : Field := ⟨35, 12, 12, .W1C, 0x0⟩
def TILE_ACC_STAT_POIS : Field := ⟨36, 11, 8, .RO, 0x0⟩
def TILE_ACC_STAT_SATF : Field := ⟨37, 3, 0, .W1C, 0x0⟩
def TILE_ACC_NCHK_COUNT : Field := ⟨512, 63, 0, .RO, 0x0⟩
def TILE_ACC_NSAT_COUNT : Field := ⟨513, 63, 0, .RO, 0x0⟩
def TILE_ACC_NINX_COUNT : Field := ⟨514, 63, 0, .RO, 0x0⟩
def TILE_ACC_NDRAW_COUNT : Field := ⟨515, 63, 0, .RO, 0x0⟩
def VEC_CTL_HALT : Field := ⟨38, 0, 0, .RW, 0x0⟩
def VEC_STAT_ROUT : Field := ⟨39, 31, 26, .RO, 0x0⟩
def VEC_STAT_PC : Field := ⟨40, 25, 14, .RO, 0x0⟩
def VEC_STAT_WAIT : Field := ⟨41, 13, 11, .RO, 0x0⟩
def VEC_STAT_RUN : Field := ⟨42, 10, 10, .RO, 0x0⟩
def VEC_STAT_LEFT : Field := ⟨43, 9, 9, .W1C, 0x0⟩
def VEC_STAT_QERR : Field := ⟨44, 8, 8, .W1C, 0x0⟩
def VEC_STAT_AERR : Field := ⟨45, 7, 7, .W1C, 0x0⟩
def VEC_STAT_PERR : Field := ⟨46, 6, 6, .W1C, 0x0⟩
def VEC_STAT_ABRT : Field := ⟨47, 5, 5, .W1C, 0x0⟩
def VEC_STAT_LEXH : Field := ⟨48, 4, 4, .RO, 0x0⟩
def VEC_FTQ_COUNT : Field := ⟨49, 11, 8, .RO, 0x0⟩
def VEC_FTQ_HEAD : Field := ⟨50, 6, 4, .RO, 0x0⟩
def VEC_FTQ_FULL : Field := ⟨51, 0, 0, .RO, 0x0⟩
def VEC_NINS_COUNT : Field := ⟨516, 63, 0, .RO, 0x0⟩
def VEC_NPUSH_COUNT : Field := ⟨517, 63, 0, .RO, 0x0⟩
def VEC_NWAIT_COUNT : Field := ⟨518, 63, 0, .RO, 0x0⟩
def VEC_LMAP_STATE : Field := ⟨52, 15, 14, .RO, 0x0⟩
def VEC_LMAP_FAILED : Field := ⟨53, 4, 0, .RO, 0x1f⟩
def VEC_TAG_TAG : Field := ⟨54, 63, 0, .RO, 0x0⟩
def STRM_CTL_CLASS : Field := ⟨55, 23, 22, .RO, 0x0⟩
def STRM_CTL_TARGET : Field := ⟨56, 21, 19, .RO, 0x0⟩
def STRM_CTL_RIG : Field := ⟨57, 16, 10, .RO, 0x0⟩
def STRM_CTL_HALT : Field := ⟨58, 0, 0, .RW, 0x0⟩
def STRM_STAT_PC : Field := ⟨59, 31, 26, .RO, 0x0⟩
def STRM_STAT_STATE : Field := ⟨60, 25, 23, .RO, 0x0⟩
def STRM_STAT_WAIT : Field := ⟨61, 22, 20, .RO, 0x0⟩
def STRM_STAT_ACODE : Field := ⟨62, 19, 17, .RO, 0x0⟩
def STRM_STAT_RARM : Field := ⟨63, 16, 16, .W1C, 0x0⟩
def STRM_STAT_ARMF : Field := ⟨64, 15, 15, .W1C, 0x0⟩
def STRM_STAT_DLX : Field := ⟨65, 14, 14, .W1C, 0x0⟩
def STRM_STAT_PROX : Field := ⟨66, 13, 13, .W1C, 0x0⟩
def STRM_STAT_POIS : Field := ⟨67, 12, 12, .W1C, 0x0⟩
def STRM_STAT_ABRT : Field := ⟨68, 11, 11, .W1C, 0x0⟩
def STRM_STAT_AERR : Field := ⟨69, 10, 10, .W1C, 0x0⟩
def STRM_STAT_PERR : Field := ⟨70, 9, 9, .W1C, 0x0⟩
def STRM_GEN_GENSHD : Field := ⟨71, 31, 16, .RO, 0x0⟩
def STRM_GEN_GENNOW : Field := ⟨72, 15, 0, .RO, 0x0⟩
def STRM_NBYTE_COUNT : Field := ⟨519, 63, 0, .RO, 0x0⟩
def STRM_NDL_COUNT : Field := ⟨520, 63, 0, .RO, 0x0⟩
def STRM_NREF_COUNT : Field := ⟨521, 63, 0, .RO, 0x0⟩
def STRM_SPLIT_SPLIT : Field := ⟨73, 1, 0, .RO, 0x0⟩
def STRM_EMAP_E0 : Field := ⟨74, 3, 0, .RO, 0x0⟩
def STRM_EMAP_E1 : Field := ⟨75, 7, 4, .RO, 0x1⟩
def STRM_EMAP_E2 : Field := ⟨76, 11, 8, .RO, 0x2⟩
def STRM_EMAP_E3 : Field := ⟨77, 15, 12, .RO, 0x3⟩
def STRM_EMAP_E4 : Field := ⟨78, 19, 16, .RO, 0x4⟩
def STRM_EMAP_E5 : Field := ⟨79, 23, 20, .RO, 0x5⟩
def STRM_EMAP_E6 : Field := ⟨80, 27, 24, .RO, 0x6⟩
def STRM_EMAP_E7 : Field := ⟨81, 31, 28, .RO, 0x7⟩
def STRM_ESPR_FAILED : Field := ⟨82, 15, 12, .RO, 0xf⟩
def STRM_ESPR_STATE : Field := ⟨83, 1, 0, .RO, 0x0⟩
def TILE_WAKE_SLEEP : Field := ⟨270, 25, 16, .RO, 0x0⟩
def TILE_WAKE_NWIRE : Field := ⟨271, 6, 0, .RO, 0x0⟩

end F

/-- The registers of the control space with their fields, part 0. -/
def regTable0 : List (Reg × List Field) := [
  (R.GLB_ID, [F.GLB_ID_VENDOR, F.GLB_ID_PART]),
  (R.GLB_REV, [F.GLB_REV_STEP]),
  (R.GLB_SER, [F.GLB_SER_BYTES]),
  (R.GLB_STAT, [F.GLB_STAT_BSTEP, F.GLB_STAT_BFAIL, F.GLB_STAT_TRIP, F.GLB_STAT_HALTD, F.GLB_STAT_PWIGN, F.GLB_STAT_ATTN]),
  (R.GLB_TCNT, [F.GLB_TCNT_RIGRUN, F.GLB_TCNT_RETIRED, F.GLB_TCNT_HELD, F.GLB_TCNT_ENABLED]),
  (R.GLB_TMAP, [F.GLB_TMAP_VALID, F.GLB_TMAP_PHYS]),
  (R.GLB_PMAP, [F.GLB_PMAP_STATE, F.GLB_PMAP_LOGICAL]),
  (R.PWR_BAL, [F.PWR_BAL_MODENOW, F.PWR_BAL_BADW, F.PWR_BAL_MODE]),
  (R.PWR_VP, [F.PWR_VP_TEMP, F.PWR_VP_TRIPPED, F.PWR_VP_CAP, F.PWR_VP_PTNOW, F.PWR_VP_RAMP, F.PWR_VP_BADW, F.PWR_VP_POINT]),
  (R.PWR_THERM, [F.PWR_THERM_TLIM, F.PWR_THERM_HYST, F.PWR_THERM_TMAX, F.PWR_THERM_CLRMAX, F.PWR_THERM_BADW, F.PWR_THERM_TRIP, F.PWR_THERM_THROT]),
  (R.PWR_NTHR, [F.PWR_NTHR_COUNT]),
  (R.PWR_NBEAT, [F.PWR_NBEAT_COUNT]),
  (R.SEC_BOOT, [F.SEC_BOOT_STEP, F.SEC_BOOT_CODE, F.SEC_BOOT_FAIL, F.SEC_BOOT_FWCOPY, F.SEC_BOOT_AFAIL, F.SEC_BOOT_BWARN]),
  (R.SEC_FSTAT, [F.SEC_FSTAT_FWSVN, F.SEC_FSTAT_KREV, F.SEC_FSTAT_KENR, F.SEC_FSTAT_XWARN, F.SEC_FSTAT_DBGKILL, F.SEC_FSTAT_DBGLOCK, F.SEC_FSTAT_HSP]),
  (R.SEC_KCMD, [F.SEC_KCMD_GO]),
  (R.SEC_KSTAT, [F.SEC_KSTAT_ERR, F.SEC_KSTAT_BUSYW, F.SEC_KSTAT_ERRF, F.SEC_KSTAT_BUSY]),
  (R.SEC_FWCMD, [F.SEC_FWCMD_OP, F.SEC_FWCMD_GO]),
  (R.SEC_FWSTAT, [F.SEC_FWSTAT_ERR, F.SEC_FWSTAT_BUSYW, F.SEC_FWSTAT_ERRF, F.SEC_FWSTAT_BUSY]),
  (R.SEC_ACMD, [F.SEC_ACMD_GO]),
  (R.SEC_ASTAT, [F.SEC_ASTAT_BUSYW, F.SEC_ASTAT_DONE, F.SEC_ASTAT_BUSY]),
  (R.SEC_DCTL, [F.SEC_DCTL_END, F.SEC_DCTL_OPEN]),
  (R.SEC_DSTAT, [F.SEC_DSTAT_SCOPE, F.SEC_DSTAT_ERR, F.SEC_DSTAT_OPENF]),
  (R.SEC_CERT, [F.SEC_CERT_BYTES]),
  (R.SEC_ANONCE, [F.SEC_ANONCE_BYTES]),
  (R.SEC_DNONCE, [F.SEC_DNONCE_BYTES])]

/-- The registers of the control space with their fields, part 1. -/
def regTable1 : List (Reg × List Field) := [
  (R.SEC_KREC, [F.SEC_KREC_BYTES]),
  (R.SEC_DTOK, [F.SEC_DTOK_BYTES]),
  (R.SEC_AREP, [F.SEC_AREP_BYTES]),
  (R.SEC_OKEY, [F.SEC_OKEY_BYTES]),
  (R.EVT_GCTL, [F.EVT_GCTL_CLRALL, F.EVT_GCTL_FREEZE]),
  (R.EVT_STAT, [F.EVT_STAT_BADW]),
  (R.EVT_FLCMD, [F.EVT_FLCMD_OP, F.EVT_FLCMD_GO]),
  (R.EVT_FLSTAT, [F.EVT_FLSTAT_RDERR, F.EVT_FLSTAT_WERR, F.EVT_FLSTAT_BUSYW, F.EVT_FLSTAT_QUEUED, F.EVT_FLSTAT_BUSY]),
  (R.EVT_FLCFG, [F.EVT_FLCFG_CEPOCH]),
  (R.EVT_FLCFGNOW, [F.EVT_FLCFGNOW_CEPOCH]),
  (R.EVT_FLOFS, [F.EVT_FLOFS_PAGE]),
  (R.EVT_FLSEQ, [F.EVT_FLSEQ_SEQ]),
  (R.EVT_SEL, [F.EVT_SEL_CODE, F.EVT_SEL_RIG, F.EVT_SEL_TILE, F.EVT_SEL_TIER, F.EVT_SEL_PORT]),
  (R.EVT_CTL, [F.EVT_CTL_RUN, F.EVT_CTL_OVF, F.EVT_CTL_SREF, F.EVT_CTL_MODE, F.EVT_CTL_EN]),
  (R.EVT_SIG, [F.EVT_SIG_STOP, F.EVT_SIG_START]),
  (R.EVT_CNT, [F.EVT_CNT_COUNT]),
  (R.EVT_FLWIN, [F.EVT_FLWIN_BYTES]),
  (R.SYN_STAT, [F.SYN_STAT_GBUSY, F.SYN_STAT_GBAD, F.SYN_STAT_SUE, F.SYN_STAT_SREF, F.SYN_STAT_BADW, F.SYN_STAT_RREJ, F.SYN_STAT_SSAT]),
  (R.SYN_TIMER, [F.SYN_TIMER_NS]),
  (R.SYN_SSEL, [F.SYN_SSEL_SIG]),
  (R.SYN_SCNT, [F.SYN_SCNT_RIG, F.SYN_SCNT_COUNT]),
  (R.SYN_SRAISE, [F.SYN_SRAISE_SIG]),
  (R.SYN_SLAST, [F.SYN_SLAST_SIG]),
  (R.SYN_GMSEL, [F.SYN_GMSEL_AINC, F.SYN_GMSEL_INDEX]),
  (R.SYN_GMDAT, [F.SYN_GMDAT_ID])]

/-- The registers of the control space with their fields, part 2. -/
def regTable2 : List (Reg × List Field) := [
  (R.SYN_NRAISE, [F.SYN_NRAISE_COUNT]),
  (R.SYN_NWAKE, [F.SYN_NWAKE_COUNT]),
  (R.SYN_NSAT, [F.SYN_NSAT_COUNT]),
  (R.SYN_NOBC, [F.SYN_NOBC_COUNT]),
  (R.SYN_NXBC, [F.SYN_NXBC_COUNT]),
  (R.SYN_RIG, [F.SYN_RIG_RSGRP]),
  (R.SYN_OB_0, [F.SYN_OB_0_EN, F.SYN_OB_0_ARRS]),
  (R.SYN_OB_4, [F.SYN_OB_4_NREL, F.SYN_OB_4_RELS]),
  (R.SYN_OB_LM, [F.SYN_OB_LM_LMASK]),
  (R.SYN_OB_PM, [F.SYN_OB_PM_PMASK]),
  (R.SYN_OB_PH, [F.SYN_OB_PH_PHASE]),
  (R.SYN_OB_ST, [F.SYN_OB_ST_BBAD, F.SYN_OB_ST_BNM, F.SYN_OB_ST_BSAT, F.SYN_OB_ST_PEND]),
  (R.SYN_XB_0, [F.SYN_XB_0_EN, F.SYN_XB_0_GRP, F.SYN_XB_0_ARRS]),
  (R.SYN_XB_4, [F.SYN_XB_4_TAG, F.SYN_XB_4_RELS]),
  (R.SYN_XB_8, [F.SYN_XB_8_NREL, F.SYN_XB_8_TIMEOUT]),
  (R.SYN_XB_PH, [F.SYN_XB_PH_PHASE]),
  (R.SYN_XB_ST, [F.SYN_XB_ST_BBAD, F.SYN_XB_ST_XTO, F.SYN_XB_ST_BSAT, F.SYN_XB_ST_PEND]),
  (R.SYN_GRP, [F.SYN_GRP_VALID, F.SYN_GRP_COUNT, F.SYN_GRP_FIRST]),
  (R.MEM_T0CFG, [F.MEM_T0CFG_SPARES, F.MEM_T0CFG_DENS, F.MEM_T0CFG_HEIGHT, F.MEM_T0CFG_RATE, F.MEM_T0CFG_CHMIB, F.MEM_T0CFG_LIVE]),
  (R.MEM_CHCMD, [F.MEM_CHCMD_OP, F.MEM_CHCMD_PCH, F.MEM_CHCMD_GO]),
  (R.MEM_CHSTAT, [F.MEM_CHSTAT_ERR, F.MEM_CHSTAT_PCH, F.MEM_CHSTAT_CP, F.MEM_CHSTAT_QUEUED, F.MEM_CHSTAT_ERRF, F.MEM_CHSTAT_BUSY]),
  (R.MEM_SCRB, [F.MEM_SCRB_RATIO, F.MEM_SCRB_PASS]),
  (R.MEM_SCRBNOW, [F.MEM_SCRBNOW_RATIO, F.MEM_SCRBNOW_PASSRUN]),
  (R.MEM_MARB, [F.MEM_MARB_QUE, F.MEM_MARB_RUN]),
  (R.MEM_BSTAT, [F.MEM_BSTAT_STATE, F.MEM_BSTAT_TXBAD, F.MEM_BSTAT_RXBAD, F.MEM_BSTAT_ALERT])]

/-- The registers of the control space with their fields, part 3. -/
def regTable3 : List (Reg × List Field) := [
  (R.MEM_BCAP, [F.MEM_BCAP_CAP1, F.MEM_BCAP_CAP0]),
  (R.MEM_BREPL, [F.MEM_BREPL_COUNT]),
  (R.MEM_CHMAP, [F.MEM_CHMAP_ROLE, F.MEM_CHMAP_LOGICAL]),
  (R.TIER_CFG, [F.TIER_CFG_ASC, F.TIER_CFG_DESC, F.TIER_CFG_T3W, F.TIER_CFG_LOWM]),
  (R.TIER_CFGNOW, [F.TIER_CFGNOW_ASC, F.TIER_CFGNOW_DESC, F.TIER_CFGNOW_T3W, F.TIER_CFGNOW_LOWM]),
  (R.TIER_EPOCH, [F.TIER_EPOCH_COUNT]),
  (R.TIER_EBYTE, [F.TIER_EBYTE_COUNT]),
  (R.TIER_MCMD0, [F.TIER_MCMD0_OP, F.TIER_MCMD0_ARG, F.TIER_MCMD0_SPACE, F.TIER_MCMD0_GO]),
  (R.TIER_MCMD1, [F.TIER_MCMD1_NPAGE, F.TIER_MCMD1_VPN]),
  (R.TIER_MSTAT, [F.TIER_MSTAT_DONE, F.TIER_MSTAT_ERR, F.TIER_MSTAT_BUSYW, F.TIER_MSTAT_ERRF, F.TIER_MSTAT_BUSY]),
  (R.TIER_LOOKA, [F.TIER_LOOKA_SPACE, F.TIER_LOOKA_VPN]),
  (R.TIER_LOOKD, [F.TIER_LOOKD_PTE]),
  (R.TIER_LOOKN, [F.TIER_LOOKN_NDESC]),
  (R.TIER_FREE, [F.TIER_FREE_UNITS]),
  (R.TIER_NASC, [F.TIER_NASC_COUNT]),
  (R.TIER_NDESC, [F.TIER_NDESC_COUNT]),
  (R.TIER_NFORCE, [F.TIER_NFORCE_COUNT]),
  (R.TIER_NFOLD, [F.TIER_NFOLD_COUNT]),
  (R.TIER_NNEG, [F.TIER_NNEG_COUNT]),
  (R.TIER_NLOST, [F.TIER_NLOST_COUNT]),
  (R.TIER_NCOREAD, [F.TIER_NCOREAD_COUNT]),
  (R.TIER_NT3W, [F.TIER_NT3W_COUNT]),
  (R.TIER_NWCBF, [F.TIER_NWCBF_COUNT]),
  (R.TIER_NASCDROP, [F.TIER_NASCDROP_COUNT]),
  (R.ECC_CFG, [F.ECC_CFG_CETHR])]

/-- The registers of the control space with their fields, part 4. -/
def regTable4 : List (Reg × List Field) := [
  (R.ECC_CFGNOW, [F.ECC_CFGNOW_CETHR]),
  (R.ECC_LAST, [F.ECC_LAST_WHERE, F.ECC_LAST_UNIT, F.ECC_LAST_ADDR]),
  (R.ECC_NCE, [F.ECC_NCE_COUNT]),
  (R.ECC_NUE, [F.ECC_NUE_COUNT]),
  (R.FAB_ID, [F.FAB_ID_VALID, F.FAB_ID_ID]),
  (R.FAB_STAT, [F.FAB_STAT_SREF, F.FAB_STAT_OVF, F.FAB_STAT_HTO, F.FAB_STAT_HOPX, F.FAB_STAT_REJR]),
  (R.FAB_PSTAT, [F.FAB_PSTAT_STATE, F.FAB_PSTAT_TXBAD, F.FAB_PSTAT_RXBAD, F.FAB_PSTAT_PEER]),
  (R.FAB_NWR, [F.FAB_NWR_COUNT]),
  (R.FAB_NHOLD, [F.FAB_NHOLD_COUNT]),
  (R.FAB_NREJ, [F.FAB_NREJ_COUNT]),
  (R.FAB_NREPL, [F.FAB_NREPL_COUNT]),
  (R.FAB_RT, [F.FAB_RT_VALID, F.FAB_RT_UP, F.FAB_RT_ALTV, F.FAB_RT_ALT, F.FAB_RT_PRI]),
  (R.FAB_WIN_0, [F.FAB_WIN_0_EN, F.FAB_WIN_0_KIND, F.FAB_WIN_0_RIG, F.FAB_WIN_0_SPACE]),
  (R.FAB_WIN_1, [F.FAB_WIN_1_LEN, F.FAB_WIN_1_GRP]),
  (R.FAB_WIN_2, [F.FAB_WIN_2_BASE]),
  (R.TWN_CTL, [F.TWN_CTL_PROT, F.TWN_CTL_TKO, F.TWN_CTL_UNPAIR, F.TWN_CTL_PAIR]),
  (R.TWN_STAT, [F.TWN_STAT_STATE, F.TWN_STAT_PARTNER, F.TWN_STAT_HOSTF, F.TWN_STAT_SUSP, F.TWN_STAT_MISM, F.TWN_STAT_RSVF, F.TWN_STAT_SREF, F.TWN_STAT_BADW, F.TWN_STAT_ONEP, F.TWN_STAT_LOSTF]),
  (R.TWN_PEER, [F.TWN_PEER_ID]),
  (R.TWN_RSV, [F.TWN_RSV_TIER, F.TWN_RSV_GIB]),
  (R.TWN_LSTAT, [F.TWN_LSTAT_USEDMB, F.TWN_LSTAT_LUE, F.TWN_LSTAT_HOLDV, F.TWN_LSTAT_RFULL]),
  (R.TWN_LNUM, [F.TWN_LNUM_NEXT]),
  (R.TWN_PLOOK, [F.TWN_PLOOK_COUNT, F.TWN_PLOOK_INDEX]),
  (R.TWN_PLDAT0, [F.TWN_PLDAT0_LOGNO]),
  (R.TWN_PLDAT1, [F.TWN_PLDAT1_USER]),
  (R.TWN_PLDAT2, [F.TWN_PLDAT2_SQID, F.TWN_PLDAT2_RIG, F.TWN_PLDAT2_DONE, F.TWN_PLDAT2_STATUS])]

/-- The registers of the control space with their fields, part 5. -/
def regTable5 : List (Reg × List Field) := [
  (R.TWN_RCMD, [F.TWN_RCMD_OP, F.TWN_RCMD_DST, F.TWN_RCMD_GO]),
  (R.TWN_RSTAT, [F.TWN_RSTAT_ERR, F.TWN_RSTAT_PROG, F.TWN_RSTAT_ERRF, F.TWN_RSTAT_DONE, F.TWN_RSTAT_BUSY]),
  (R.TWN_RSCAL0, [F.TWN_RSCAL0_NCONS, F.TWN_RSCAL0_LOG2, F.TWN_RSCAL0_RIG, F.TWN_RSCAL0_GO]),
  (R.TWN_RSCAL1, [F.TWN_RSCAL1_TNUM]),
  (R.TWN_SPCFG, [F.TWN_SPCFG_AGETHR, F.TWN_SPCFG_REPTHR]),
  (R.TWN_SPCFGNOW, [F.TWN_SPCFGNOW_AGETHR, F.TWN_SPCFGNOW_REPTHR]),
  (R.TWN_PESEL, [F.TWN_PESEL_RIG]),
  (R.TWN_PEND0, [F.TWN_PEND0_NCONS, F.TWN_PEND0_LOG2, F.TWN_PEND0_VALID, F.TWN_PEND0_PRINT]),
  (R.TWN_PEND1, [F.TWN_PEND1_TNUM]),
  (R.TWN_RNEED, [F.TWN_RNEED_GIB]),
  (R.TWN_NMIR, [F.TWN_NMIR_COUNT]),
  (R.TWN_NREPL, [F.TWN_NREPL_COUNT]),
  (R.TWN_NSUB, [F.TWN_NSUB_COUNT]),
  (R.TWN_NHELD, [F.TWN_NHELD_COUNT]),
  (R.TWN_RMAP, [F.TWN_RMAP_VALID, F.TWN_RMAP_WIN]),
  (R.IMG_CTL, [F.IMG_CTL_HOLD, F.IMG_CTL_HOW, F.IMG_CTL_START]),
  (R.IMG_STAT, [F.IMG_STAT_CODE, F.IMG_STAT_BUSYW, F.IMG_STAT_REJ, F.IMG_STAT_ACC, F.IMG_STAT_STATE]),
  (R.IMG_SWIN, [F.IMG_SWIN_OFS]),
  (R.IMG_ID, [F.IMG_ID_ID]),
  (R.IMG_DEV, [F.IMG_DEV_HEATEPOCH, F.IMG_DEV_COMP]),
  (R.IMG_DIG, [F.IMG_DIG_BYTES]),
  (R.IMG_RSTAT, [F.IMG_RSTAT_NLOAD, F.IMG_RSTAT_BADW, F.IMG_RSTAT_SREF, F.IMG_RSTAT_STATE]),
  (R.IMG_RCTL, [F.IMG_RCTL_KILL, F.IMG_RCTL_STOP, F.IMG_RCTL_GO]),
  (R.IMG_RMODE, [F.IMG_RMODE_SPLIT, F.IMG_RMODE_UPDATE, F.IMG_RMODE_FAULT, F.IMG_RMODE_COVF, F.IMG_RMODE_MAXMIN]),
  (R.IMG_RSTC, [F.IMG_RSTC_SEGLEN, F.IMG_RSTC_GRAD, F.IMG_RSTC_SATNF])]

/-- The registers of the control space with their fields, part 6. -/
def regTable6 : List (Reg × List Field) := [
  (R.IMG_RLIVE, [F.IMG_RLIVE_LSGROW, F.IMG_RLIVE_STRAG]),
  (R.IMG_RLNOW, [F.IMG_RLNOW_LSGROW, F.IMG_RLNOW_STRAG]),
  (R.IMG_RHYP, [F.IMG_RHYP_VALUE]),
  (R.IMG_RHNOW, [F.IMG_RHNOW_VALUE]),
  (R.IMG_TSTAT, [F.IMG_TSTAT_CAUSE, F.IMG_TSTAT_TBERR, F.IMG_TSTAT_NONF, F.IMG_TSTAT_SATR, F.IMG_TSTAT_POISR, F.IMG_TSTAT_PROX, F.IMG_TSTAT_LATE, F.IMG_TSTAT_LSMIN, F.IMG_TSTAT_STRK, F.IMG_TSTAT_STATE]),
  (R.IMG_TCTL, [F.IMG_TCTL_STRIKE]),
  (R.IMG_TLS, [F.IMG_TLS_NCONS, F.IMG_TLS_LOG2]),
  (R.IMG_TNUM, [F.IMG_TNUM_NUM]),
  (R.IMG_TSTRG, [F.IMG_TSTRG_TIME]),
  (R.IMG_TSTRGN, [F.IMG_TSTRGN_TIME]),
  (R.IMG_TPTAB, [F.IMG_TPTAB_SPACE, F.IMG_TPTAB_ADDR, F.IMG_TPTAB_VALID]),
  (R.IMG_TPTABN, [F.IMG_TPTABN_SPACE, F.IMG_TPTABN_ADDR, F.IMG_TPTABN_VALID]),
  (R.IMG_TXCMD, [F.IMG_TXCMD_OP, F.IMG_TXCMD_GROUP, F.IMG_TXCMD_GO]),
  (R.IMG_TXSTAT, [F.IMG_TXSTAT_ERR, F.IMG_TXSTAT_BUSYW, F.IMG_TXSTAT_ERRF, F.IMG_TXSTAT_BUSY]),
  (R.IMG_TXADR, [F.IMG_TXADR_SPACE, F.IMG_TXADR_ADDR]),
  (R.IMG_TNPRT, [F.IMG_TNPRT_COUNT]),
  (R.IMG_TNSTR, [F.IMG_TNSTR_COUNT]),
  (R.IMG_TNLATE, [F.IMG_TNLATE_COUNT]),
  (R.QUE_CMD, [F.QUE_CMD_OP, F.QUE_CMD_QNUM, F.QUE_CMD_GO]),
  (R.QUE_CARG0, [F.QUE_CARG0_SPACE, F.QUE_CARG0_ADDR]),
  (R.QUE_CARG1, [F.QUE_CARG1_LOGSZ, F.QUE_CARG1_PRIO, F.QUE_CARG1_VECLO, F.QUE_CARG1_CTHR]),
  (R.QUE_CARG2, [F.QUE_CARG2_CQT]),
  (R.QUE_CSTAT, [F.QUE_CSTAT_ERR, F.QUE_CSTAT_BUSYW, F.QUE_CSTAT_ERRF, F.QUE_CSTAT_BUSY]),
  (R.QUE_LOOK, [F.QUE_LOOK_CQ, F.QUE_LOOK_QNUM]),
  (R.QUE_LOOKD, [F.QUE_LOOKD_HEAD, F.QUE_LOOKD_TAIL, F.QUE_LOOKD_STATE, F.QUE_LOOKD_PRIO, F.QUE_LOOKD_LOGSZ, F.QUE_LOOKD_RIG, F.QUE_LOOKD_LINK])]

/-- The registers of the control space with their fields, part 7. -/
def regTable7 : List (Reg × List Field) := [
  (R.QUE_ARB, [F.QUE_ARB_AGEMAX]),
  (R.QUE_ARBNOW, [F.QUE_ARBNOW_AGEMAX]),
  (R.QUE_STAT, [F.QUE_STAT_SREF, F.QUE_STAT_CQWAIT, F.QUE_STAT_HAF, F.QUE_STAT_PHERR, F.QUE_STAT_DBBAD]),
  (R.QUE_ULINK, [F.QUE_ULINK_U1STATE, F.QUE_ULINK_U1RATE, F.QUE_ULINK_U1REP, F.QUE_ULINK_U0STATE, F.QUE_ULINK_U0RATE, F.QUE_ULINK_U0REP]),
  (R.QUE_HAFA, [F.QUE_HAFA_AP, F.QUE_HAFA_OFS]),
  (R.QUE_NFETCH, [F.QUE_NFETCH_COUNT]),
  (R.QUE_NCOMP, [F.QUE_NCOMP_COUNT]),
  (R.QUE_NIRQ, [F.QUE_NIRQ_COUNT]),
  (R.QUE_NDBX, [F.QUE_NDBX_COUNT]),
  (R.QUE_AP_0, [F.QUE_AP_0_EN, F.QUE_AP_0_WP, F.QUE_AP_0_SPACE]),
  (R.QUE_AP_1, []),
  (R.QUE_AP_2, [F.QUE_AP_2_BASE]),
  (R.QUE_SQDB, [F.QUE_SQDB_INDEX]),
  (R.QUE_CQDB, [F.QUE_CQDB_INDEX]),
  (R.TILE_NFLAG, [F.TILE_NFLAG_FDNZ, F.TILE_NFLAG_FNAN, F.TILE_NFLAG_CINV, F.TILE_NFLAG_COVF, F.TILE_NFLAG_SNV, F.TILE_NFLAG_SDZ, F.TILE_NFLAG_SOF, F.TILE_NFLAG_SUF, F.TILE_NFLAG_SNX]),
  (R.TILE_ARR_CTL, [F.TILE_ARR_CTL_HOLDMAX, F.TILE_ARR_CTL_HALT]),
  (R.TILE_ARR_STAT, [F.TILE_ARR_STAT_HOLDNOW, F.TILE_ARR_STAT_FSHAPE, F.TILE_ARR_STAT_MROW, F.TILE_ARR_STAT_MCOL, F.TILE_ARR_STAT_PERR, F.TILE_ARR_STAT_PBLK, F.TILE_ARR_STAT_W1USE, F.TILE_ARR_STAT_LOADED, F.TILE_ARR_STAT_PHASE, F.TILE_ARR_STAT_BAL, F.TILE_ARR_STAT_HALTED]),
  (R.TILE_ARR_FUSE, [F.TILE_ARR_FUSE_LEAD, F.TILE_ARR_FUSE_NMEM]),
  (R.TILE_ARR_BLKA, [F.TILE_ARR_BLKA_ADDR]),
  (R.TILE_ARR_BLKS, [F.TILE_ARR_BLKS_SPACE, F.TILE_ARR_BLKS_VER]),
  (R.TILE_ARR_NROW, [F.TILE_ARR_NROW_COUNT]),
  (R.TILE_ARR_NBUB, [F.TILE_ARR_NBUB_COUNT]),
  (R.TILE_ARR_NLOAD, [F.TILE_ARR_NLOAD_COUNT]),
  (R.TILE_ARR_NHOLD, [F.TILE_ARR_NHOLD_COUNT]),
  (R.TILE_ARR_NBAL, [F.TILE_ARR_NBAL_COUNT])]

/-- The registers of the control space with their fields, part 8. -/
def regTable8 : List (Reg × List Field) := [
  (R.TILE_ACC_STAT, [F.TILE_ACC_STAT_BSTATE, F.TILE_ACC_STAT_PERR, F.TILE_ACC_STAT_POIS, F.TILE_ACC_STAT_SATF]),
  (R.TILE_ACC_NCHK, [F.TILE_ACC_NCHK_COUNT]),
  (R.TILE_ACC_NSAT, [F.TILE_ACC_NSAT_COUNT]),
  (R.TILE_ACC_NINX, [F.TILE_ACC_NINX_COUNT]),
  (R.TILE_ACC_NDRAW, [F.TILE_ACC_NDRAW_COUNT]),
  (R.VEC_CTL, [F.VEC_CTL_HALT]),
  (R.VEC_STAT, [F.VEC_STAT_ROUT, F.VEC_STAT_PC, F.VEC_STAT_WAIT, F.VEC_STAT_RUN, F.VEC_STAT_LEFT, F.VEC_STAT_QERR, F.VEC_STAT_AERR, F.VEC_STAT_PERR, F.VEC_STAT_ABRT, F.VEC_STAT_LEXH]),
  (R.VEC_FTQ, [F.VEC_FTQ_COUNT, F.VEC_FTQ_HEAD, F.VEC_FTQ_FULL]),
  (R.VEC_NINS, [F.VEC_NINS_COUNT]),
  (R.VEC_NPUSH, [F.VEC_NPUSH_COUNT]),
  (R.VEC_NWAIT, [F.VEC_NWAIT_COUNT]),
  (R.VEC_LMAP, [F.VEC_LMAP_STATE, F.VEC_LMAP_FAILED]),
  (R.VEC_TAG, [F.VEC_TAG_TAG]),
  (R.STRM_CTL, [F.STRM_CTL_CLASS, F.STRM_CTL_TARGET, F.STRM_CTL_RIG, F.STRM_CTL_HALT]),
  (R.STRM_STAT, [F.STRM_STAT_PC, F.STRM_STAT_STATE, F.STRM_STAT_WAIT, F.STRM_STAT_ACODE, F.STRM_STAT_RARM, F.STRM_STAT_ARMF, F.STRM_STAT_DLX, F.STRM_STAT_PROX, F.STRM_STAT_POIS, F.STRM_STAT_ABRT, F.STRM_STAT_AERR, F.STRM_STAT_PERR]),
  (R.STRM_GEN, [F.STRM_GEN_GENSHD, F.STRM_GEN_GENNOW]),
  (R.STRM_NBYTE, [F.STRM_NBYTE_COUNT]),
  (R.STRM_NDL, [F.STRM_NDL_COUNT]),
  (R.STRM_NREF, [F.STRM_NREF_COUNT]),
  (R.STRM_SPLIT, [F.STRM_SPLIT_SPLIT]),
  (R.STRM_EMAP, [F.STRM_EMAP_E7, F.STRM_EMAP_E6, F.STRM_EMAP_E5, F.STRM_EMAP_E4, F.STRM_EMAP_E3, F.STRM_EMAP_E2, F.STRM_EMAP_E1, F.STRM_EMAP_E0]),
  (R.STRM_ESPR, [F.STRM_ESPR_FAILED, F.STRM_ESPR_STATE]),
  (R.TILE_WAKE, [F.TILE_WAKE_SLEEP, F.TILE_WAKE_NWIRE])]

/-- The registers of the control space, each with its fields, high to low. -/
def regTable : List (Reg × List Field) :=
  regTable0 ++ regTable1 ++ regTable2 ++ regTable3 ++ regTable4 ++ regTable5 ++ regTable6 ++ regTable7 ++ regTable8

end Sys2Proof.Machine
end

