-- ==== Sys2Proof/Machine/State.lean ====
section
/-! DEFINITION. The state of the block: the queue of waiting commands, the register file, and every piece of state that no
register word holds (INVENTORY.md, State). Plain data; each field's default is its value after reset. -/

namespace Sys2Proof.Machine

/-- No meaning of the model raises a fault: every fault that the manual names ends in a status bit, an abort, a replay or a
stop of a rig, which are states. -/
inductive Fault where
  /-- Raised by nobody; the type is not empty so that an outcome can be written down. Safe. -/
  | none_
  deriving DecidableEq, Repr

/-- Why a command is refused. -/
inductive Refusal where
  /-- Raised by Dispatch alone, for a command whose meaning is not written yet. Safe: nothing can be proved of it. -/
  | notModelled (mnemonic : String)
  deriving DecidableEq, Repr

/-- The state. -/
structure State where
  /-- commands waiting, first in first out -/
  pending : List Instr := []
  /-- the counter that free values are drawn with (log entry 2) -/
  fresh : Nat := 0
  /-- what the device has driven out, oldest first (log entry 3) -/
  out : List Out := []
  /-- the register file: field number + 1024 × index, each entry the field's value XOR its reset value -/
  regs : FMap Nat := []
  /-- latched high words of 64-bit registers, by the address of the high word (R77) -/
  latch : FMap (Option Nat) := []
  smbAddr : Nat := 0
  tapIr : Nat := 1
  porst : Bool := true
  resetHeld : Bool := true
  fuses : FMap Nat := []
  /-- which seeding the stochastic-rounding generators run on (R88) -/
  srSeed : Nat := 0
  strapHsp : Nat := 1
  strapAsel : Nat := 0
  tiles : FMap Tile := []
  rigs : FMap Rig := []
  /-- call sheets in the continuity log, fetched and not complete, oldest first -/
  sheets : List Sheet := []
  compls : List Compl := []
  sqs : FMap (Option Sq) := []
  cqs : FMap (Option Cq) := []
  /-- MSI-X vectors unmasked, and pending (R340; log entry 10) -/
  msixOpen : FMap Bool := []
  msixPend : FMap Bool := []
  /-- address and data words of the MSI-X table, by word (R320) -/
  msixTab : FMap Nat := []
  /-- a queue command that is BUSY: OP, queue (R325) -/
  queJob : Option (Nat × Nat) := none
  spaces : FMap (Option Space) := []
  pages : FMap (Option Page) := []
  staged : List Version := []
  outVers : List Version := []
  heldVers : List Version := []
  ledgers : FMap (Option Ledger) := []
  stagedLedgers : FMap (Option Ledger) := []
  wc : List WcEntry := []
  /-- requests for the shared part of a buffer of R148, oldest first: buffer, tile, engine key (R149) -/
  bufReqs : List (Nat × Nat × Nat) := []
  ascentQ : List Nat := []
  forcedQ : List Nat := []
  descentQ : List Move := []
  moves : List Move := []
  mcmd : Option MCmd := none
  txs : List TxJob := []
  /-- writes that wait for the frame of a held version: page, LOGNO of an output version that is to become current or 0 (R349) -/
  heldQ : List (Nat × Nat) := []
  /-- lines of which a chunk failed its check on the last read: page, line (R204) -/
  chunkBad : List (Nat × Nat) := []
  negReads : List NegRead := []
  sigs : FMap Nat := []
  waiters : FMap (List Waiter) := []
  /-- arrivals of on-chip barriers by 128 k + physical tile (R305) -/
  obArr : FMap Nat := []
  xbars : FMap Xbar := []
  members : FMap Nat := []
  /-- the stream table's entries, and the streams that share the overflow entry (R288) -/
  streams : List Nat := []
  overflow : List Nat := []
  /-- WRs of a stream that were refused and never become visible: stream, CNT (R287) -/
  rejWrs : List (Nat × Nat) := []
  /-- streams that pass through: CNT of the last WR seen and the last WACK, the route entry followed (R282) -/
  passing : FMap SendStream := []
  wrCount : Nat := 0
  remoteWrs : List RemoteWr := []
  heldSigs : List HeldSig := []
  sendStreams : FMap SendStream := []
  colls : List Coll := []
  exchanges : List Exchange := []
  /-- CDATA frames of collectives that this device has not started (R285) -/
  early : List Frame := []
  collCount : FMap Nat := []
  /-- counters started and not stopped since EN was set (R412) -/
  evStarted : FMap Bool := []
  /-- floors of the image in bytes, by 2^32 × buffer of R148 + 2^16 × its tile + 8 × the user's tile + engine, tiles physical (R149) -/
  floors : FMap Nat := []
  /-- links by port number of R416 -/
  links : FMap Link := []
  t2 : List MemDev := []
  t3 : List MemDev := []
  portReqs : List PortReq := []
  reqCount : Nat := 0
  chans : FMap Chan := []
  acts : List Act := []
  actQ : List Act := []
  actCount : Nat := 0
  /-- scrubbers: 0 tile stores, 1 staging pool, 2 tier 0, 3 tier 1 -/
  scrubs : FMap Scrub := []
  sweeps : FMap Sweep := []
  /-- bytes of descents into tier 3 in this heat epoch (R189) -/
  t3wEpoch : Nat := 0
  /-- controllers being reset, by port number of R416 (R223) -/
  ctlReset : List Nat := []
  /-- tier 0 and the enumerated tiers are online (step 9 of R393) -/
  online : Bool := false
  log : List LogRec := []
  logSeq : Nat := 1
  /-- tiles that need a replacement (R358) -/
  tilesNeed : List Nat := []
  mgmtFailed : List Nat := []
  tether : Tether := {}
  reserve : Option Reserve := none
  ramping : List Nat := []
  rampQ : List Ramp := []
  /-- samples before CAP of an island may change again (R384) -/
  capHold : FMap Nat := []
  /-- by island: the point last commanded; the regulator's target and its present supply, in µV (R381, R442); the part of a beat that has run, in
  10^-13 (R376) -/
  driven : FMap Nat := []
  vtarget : FMap Nat := []
  volts : FMap Nat := []
  beatFrac : FMap Nat := []
  tmaxNext : Bool := false
  tripHold : Bool := false
  keyOp : Option KeyOp := none
  fwOp : Option FwOp := none
  /-- firmware copies written over those delivered, and the one that boots first (R399) -/
  flashImg : FMap (Option (List Byte)) := []
  preferred : Nat := 0
  /-- running firmware: vendor key, identifier, SVN, digest -/
  fwKey : List Byte := []
  fwId : List Byte := []
  fwSvn : Nat := 0
  fwDigest : List Byte := []
  report : Option (List Byte) := none
  reports : Nat := 0
  imgDigest : List Byte := []
  chain : List Byte := []
  imgLoads : Nat := 0
  imgSlot : Nat := 255
  session : Option Session := none
  everOpen : Bool := false
  flog : Flog := {}
  commits : List Commit := []
  staging : Content := {}
  load : Option Load := none
  deriving DecidableEq, Repr

/-- The state right after reset. -/
def State.reset : State := {}

end Sys2Proof.Machine
end

