-- ==== Sys2Proof/Machine/Ops.lean ====
section
/-! DEFINITION. The operations every family uses: register fields, tiles, rigs, sheets, free values, what the device drives
out, the event counters. -/

namespace Sys2Proof.Machine

/-- What a command whose event the state does not enable does: nothing (log entry 1). -/
abbrev Result := Host.Outcome State Fault Refusal

/-- A meaning: the effect where the rule's condition holds, nothing otherwise. -/
def gated (c : Bool) (f : State → State) (s : State) : Result := .next (if c then f s else s)

/-- The place of a field's instance in the register file. -/
def Field.key (f : Field) (i : Nat) : Nat := f.id + 1024 * i

/-- A register field's value. -/
def State.get (s : State) (f : Field) (i : Nat := 0) : Nat := (s.regs.get 0 (f.key i)) ^^^ f.rst

/-- A one-bit field as a Boolean. -/
def State.flag (s : State) (f : Field) (i : Nat := 0) : Bool := s.get f i != 0

/-- Writes a register field, modulo its width. -/
def State.setReg (s : State) (f : Field) (v : Nat) (i : Nat := 0) : State :=
  { s with regs := s.regs.set 0 (f.key i) ((v % 2 ^ f.width) ^^^ f.rst) }

/-- Sets a status bit. -/
def State.raiseFlag (s : State) (f : Field) (i : Nat := 0) : State := s.setReg f 1 i

/-- Sets bit `b` of a field. -/
def State.orReg (s : State) (f : Field) (b : Nat) (i : Nat := 0) : State := s.setReg f (s.get f i ||| 2 ^ b) i

/-- Adds to a counter; a counter wraps at its width. -/
def State.bump (s : State) (f : Field) (n : Nat := 1) (i : Nat := 0) : State := s.setReg f (s.get f i + n) i

/-- Nanoseconds on the local interval timer (R314). -/
def State.now (s : State) : Nat := s.get F.SYN_TIMER_NS

/-- The island of a tile's array (R376): tiles 5i to 5i + 4. -/
def islandOf (p : Nat) : Nat := p / 5

/-- A tile, and a tile changed. -/
def State.tile (s : State) (p : Nat) : Tile := s.tiles.get {} p
def State.modTile (s : State) (p : Nat) (f : Tile → Tile) : State := { s with tiles := s.tiles.upd {} p f }

/-- A rig, and a rig changed. -/
def State.rig (s : State) (n : Nat) : Rig := s.rigs.get {} n
def State.modRig (s : State) (n : Nat) (f : Rig → Rig) : State := { s with rigs := s.rigs.upd {} n f }
def State.modTake (s : State) (n : Nat) (f : Take → Take) : State := s.modRig n fun r => { r with take := f r.take }

/-- A bank of a tile, and a bank changed. -/
def Tile.bank (t : Tile) (b : Nat) : Bank := t.banks.get {} b
def Tile.modBank (t : Tile) (b : Nat) (f : Bank → Bank) : Tile := { t with banks := t.banks.upd {} b f }
def State.modBank (s : State) (p b : Nat) (f : Bank → Bank) : State := s.modTile p fun t => t.modBank b f
def State.modVec (s : State) (p : Nat) (f : Vec → Vec) : State := s.modTile p fun t => { t with vec := f t.vec }
def State.modArr (s : State) (p : Nat) (f : Arr → Arr) : State := s.modTile p fun t => { t with arr := f t.arr }

/-- A logical engine of a tile, and an engine changed. -/
def Tile.eng (t : Tile) (e : Nat) : Eng := t.engs.get {} e
def State.eng (s : State) (p e : Nat) : Eng := (s.tile p).eng e
def State.modEng (s : State) (p e : Nat) (f : Eng → Eng) : State :=
  s.modTile p fun t => { t with engs := t.engs.upd {} e f }

/-- Drives something out of the bump field. -/
def State.emit (s : State) (o : Out) : State := { s with out := s.out ++ [o] }

/-- Lines of traffic on a memory, by scrubber (R245). -/
def State.traffic (s : State) (mem lines : Nat) : State :=
  { s with scrubs := s.scrubs.upd {} mem fun x => { x with traffic := x.traffic + lines } }

/-- The next free value's number, consumed. -/
def State.spend (s : State) : State := { s with fresh := s.fresh + 1 }

/-- Does logical tile `t` have a physical tile (R12, R361)? -/
def State.phys (s : State) (t : Nat) : Nat := s.get F.GLB_TMAP_PHYS t

/-- Is a physical tile enabled (R12, R428)? -/
def State.enabled (s : State) (p : Nat) : Bool := s.get F.GLB_PMAP_STATE p = 0

/-- The logical number of a physical tile (0x7F: none). -/
def State.logical (s : State) (p : Nat) : Nat := s.get F.GLB_PMAP_LOGICAL p

/-- The rig that a logical tile belongs to (R154). -/
def State.rigOfTile (s : State) (t : Nat) : Option Nat :=
  (s.rigs.find? fun r => r.2.exists_ && r.2.tiles.contains t).map Prod.fst

/-- The rig of a physical tile. -/
def State.rigOf (s : State) (p : Nat) : Option Nat := if s.enabled p then s.rigOfTile (s.logical p) else none

/-- The rig that owns a signal (R295). -/
def State.rigOfSig (s : State) (sig : Nat) : Option Nat :=
  (s.rigs.find? fun r => r.2.exists_ && decide (r.2.sigFirst ≤ sig) && decide (sig ≤ r.2.sigLast)).map Prod.fst

/-- The states of IMG_RSTAT.STATE (R164). -/
def rigAbsent : Nat := 0
def rigRunning : Nat := 1
def rigStopping : Nat := 2
def rigStopped : Nat := 3
def rigLoading : Nat := 4
def State.rigState (s : State) (n : Nat) : Nat := s.get F.IMG_RSTAT_STATE n

/-- Running or stopping (R284, R299). -/
def State.rigLive (s : State) (n : Nat) : Bool := s.rigState n = rigRunning || s.rigState n = rigStopping

/-! ### Event counters (R410 to R416) -/

/-- The attributes an offer carries. -/
structure EvAttr where
  rig : Option Nat := none
  tile : Option Nat := none
  tier : Option Nat := none
  port : Option Nat := none
  deriving DecidableEq, Repr

/-- Does a filter admit an attribute (R411)? -/
def filterOk (filter any : Nat) (a : Option Nat) : Bool := filter = any || a = some filter

/-- Is counter `c` counting (R412)? -/
def State.counting (s : State) (c : Nat) : Bool :=
  s.flag F.EVT_CTL_EN c && !s.flag F.EVT_GCTL_FREEZE && (!s.flag F.EVT_CTL_MODE c || s.evStarted.get false c)

/-- The counters whose EN is 1. -/
def State.enabledCounters (s : State) : List Nat :=
  s.regs.filterMap fun e => if e.1 % 1024 = F.EVT_CTL_EN.id then some (e.1 / 1024) else none

/-- Counter `c` takes an offer (R411, R414). -/
def State.countOffer (s : State) (code inc : Nat) (a : EvAttr) (c : Nat) : State :=
  if s.counting c && s.get F.EVT_SEL_CODE c = code && filterOk (s.get F.EVT_SEL_RIG c) 0x7F a.rig
      && filterOk (s.get F.EVT_SEL_TILE c) 0x7F a.tile && filterOk (s.get F.EVT_SEL_TIER c) 7 a.tier
      && filterOk (s.get F.EVT_SEL_PORT c) 0x1F a.port then
    let n := s.get F.EVT_CNT_COUNT c + inc
    when (n ≥ 2 ^ 64) (·.raiseFlag F.EVT_CTL_OVF c) (s.setReg F.EVT_CNT_COUNT n c)
  else s

/-- An event offered to every counter (R410). -/
def State.offer (s : State) (code : Nat) (a : EvAttr := {}) (inc : Nat := 1) : State :=
  each s.enabledCounters (fun s c => s.countOffer code inc a c) s

/-- The attributes of an event of a tile (R411). -/
def State.tileAttr (s : State) (p : Nat) : EvAttr :=
  if s.enabled p then { rig := s.rigOf p, tile := some (s.logical p) } else {}

/-- Do requests on the host link wait: does its only module train (R319)? -/
def State.ucieWaits (s : State) : Bool :=
  let st := [s.get F.QUE_ULINK_U0STATE, s.get F.QUE_ULINK_U1STATE]
  st.contains 1 && !st.contains 3 && !st.contains 4

/-- The step of start-up as SEC_BOOT.STEP reads: 0xF from step 11 on (R393). -/
def State.stepShown (s : State) : Nat := if s.get F.SEC_BOOT_STEP = 11 then 15 else s.get F.SEC_BOOT_STEP

/-- Does the host link carry requests: has step 6 of start-up ended (R394), and is a module up (R319)? -/
def State.linkReached (s : State) : Bool := decide (s.get F.SEC_BOOT_STEP > 6) && !s.ucieWaits

/-- Does a command of the host act? Not where it does not reach the control space (R394), nor after a failed step, when every unit stays quiescent
(R395). One that finds the link retraining changes nothing: it comes again when the link goes on (R319; log entry 163). -/
def State.ioReached (s : State) : Bool := s.linkReached && !s.flag F.SEC_BOOT_FAIL

/-- An event that carries its tile alone (R416). -/
def State.offerTileOnly (s : State) (code p : Nat) : State := s.offer code { s.tileAttr p with rig := none }

/-- An event of a tile. -/
def State.offerTile (s : State) (code p : Nat) (inc : Nat := 1) : State := s.offer code (s.tileAttr p) inc

/-- A raise of a signal as the counters see it: START starts, STOP stops, the same signal toggles (R412, R413). -/
def State.observeRaise (s : State) (sig : Nat) : State :=
  each s.enabledCounters (fun s c =>
    if s.flag F.EVT_CTL_MODE c then
      let a := s.get F.EVT_SIG_START c
      let z := s.get F.EVT_SIG_STOP c
      if a = z then (if a = sig then { s with evStarted := s.evStarted.upd false c (!·) } else s)
      else if z = sig then { s with evStarted := s.evStarted.set false c false }
      else if a = sig then { s with evStarted := s.evStarted.set false c true }
      else s
    else s) s

/-! ### The take record (R251) and the numeric flags (R45) -/

def State.recNonfin (s : State) (n : Nat) : State := s.modTake n fun t => { t with nonfin := true }
def State.recSat (s : State) (n : Nat) : State := s.modTake n fun t => { t with sat := true }
def State.recPois (s : State) (n : Nat) : State := s.modTake n fun t => { t with pois := true }
def State.recProx (s : State) (n : Nat) : State := s.modTake n fun t => { t with prox := true }
def State.recAbort (s : State) (n : Nat) : State := s.modTake n fun t => { t with abort := true }

/-- The sheet with a log number. -/
def State.sheet (s : State) (logno : Nat) : Option Sheet := s.sheets.find? (·.logno = logno)
def State.modSheet (s : State) (logno : Nat) (f : Sheet → Sheet) : State :=
  { s with sheets := s.sheets.map fun x => if x.logno = logno then f x else x }

/-- Is the task's call sheet a member of its rig's take (R250)? -/
def State.inTake (s : State) (logno : Nat) : Option Nat :=
  match s.sheet logno with
  | some h => if h.take.isSome then some h.rig else none
  | none => none

/-- Does something to the record of the take a task belongs to. -/
def State.recOf (s : State) (logno : Nat) (f : State → Nat → State) : State :=
  match s.inTake logno with
  | some n => f s n
  | none => s

/-- A task is marked proxy-derived, in its completion and its take (R114, R144, R264). -/
def State.markProx (s : State) (logno : Nat) : State :=
  (s.modSheet logno fun h => { h with prox := true }).recOf logno State.recProx

/-- A task has delivered poison under the mark policy (R336). -/
def State.markPois (s : State) (logno : Nat) : State := s.modSheet logno fun h => { h with pois := true }

/-- The rig's fault policy: true abort (R145). -/
def State.abortPolicy (s : State) (n : Nat) : Bool := s.get F.IMG_RMODE_FAULT n = 1

/-- The part of a sheet that a lead tile names. -/
def Sheet.part (h : Sheet) (lead : Nat) : Option Part := h.parts.find? (·.lead = lead)
def Sheet.modPart (h : Sheet) (lead : Nat) (f : Part → Part) : Sheet :=
  { h with parts := h.parts.map fun x => if x.lead = lead then f x else x }
def State.modPart (s : State) (logno lead : Nat) (f : Part → Part) : State := s.modSheet logno (·.modPart lead f)

end Sys2Proof.Machine
end

