-- ==== Sys2Proof/Machine/Wire.lean ====
section
/-! DEFINITION. What the links carry, byte by byte: flits of the Svaweurn and fabric links (R233, R278), messages and data units of the
buffers (R233, R236, R237), frames (R280), training sets (R239, R276). -/

namespace Sys2Proof.Machine

/-! ### Flits -/

/-- A flit's bytes: header, 240 bytes of slots or frame stream, CRC-64/ECMA-182 (R233, R278). -/
def flitBytes (header : Nat) (body : List Byte) : List Byte :=
  let h := leBytes 8 header ++ body ++ List.replicate (240 - body.length) 0
  h ++ leBytes 8 (crc64 h)

/-- A payload flit: TYPE 1, its SEQ, SLOTK on a Svaweurn link; acknowledgements and credits go in null flits of their own (log entry 32). -/
def SentFlit.bytes (q : SentFlit) : List Byte := flitBytes (2 ^ 60 + q.seq % 4096 * 2 ^ 48 + q.slotk % 64 * 2 ^ 18) q.body

/-- A null flit that tells the last payload SEQ received in order and asks for a replay or not; on a fabric link it returns `crd` credits of
class `cls`, 2 × CVC + CLVL. -/
def nullFlit (nak : Bool) (seq cls crd : Nat) : List Byte :=
  flitBytes (seq % 4096 * 2 ^ 36 + 2 ^ 35 + b2n nak * 2 ^ 34 + cls / 2 % 4 * 2 ^ 32 + cls % 2 * 2 ^ 31 + crd % 1024 * 2 ^ 21) []

/-- A flit as it arrives: header fields, and whether its CRC is good. `cls`, `lvl`, `crd`: CVC, CLVL and CRD; on a Svaweurn link `crd` is CRDC
and `lvl` CRDD. -/
def readFlit (svaweurn : Bool) (bs : List Byte) : Flit :=
  let h := leNat (bs.take 8)
  { typ := bits h 63 60, seq := bits h 59 48, ackseq := bits h 47 36, ackv := bit h 35, nak := bit h 34
    cls := if svaweurn then 0 else bits h 33 32, lvl := if svaweurn then bits h 29 26 else bits h 31 31
    crd := if svaweurn then bits h 33 30 else bits h 30 21
    crcOk := bs.length = 256 && leNat (bs.drop 248) = crc64 (bs.take 248) }

/-! ### Svaweurn messages (R236, R237) -/

/-- The opcode of a command by its kind: RD, WR, FILL, CFGRD, CFGWR, SYNC. -/
def svOpc : Nat → Nat
  | 1 => 0x01
  | 2 => 0x02
  | 3 => 0x04
  | 4 => 0x08
  | 5 => 0x09
  | _ => 0x0A

/-- A command's 16 bytes; `val` is the VALUE of a CFGWR. -/
def svMsg (c : TagCmd) (tag val : Nat) : List Byte :=
  let data := decide (c.kind = 1) || decide (c.kind = 2)
  let mid := if data || decide (c.kind = 3) then
      leBytes 5 (c.addr / 64 * 64) ++ (if data then [0, 0, 0] else leBytes 3 (c.units - 1))
    else leBytes 2 c.addr ++ [0, 0] ++ leBytes 4 val
  [BitVec.ofNat 8 (svOpc c.kind)] ++ leBytes 2 (tag % 1024)
    ++ [BitVec.ofNat 8 ((if data then (c.units - 1) % 4 else 0) + c.ch % 2 * 4)] ++ mid ++ [0, 0, 0, 0]

/-- A data unit: 64 bytes as eight code words of ten bytes (R233). -/
def svUnit (bs : List (Byte × Bool)) : List Byte :=
  (List.range 8).flatMap fun j =>
    let w := (bs.drop (8 * j)).take 8
    leBytes 10 (encode80 (leNat (w.map Prod.fst)) (w.any Prod.snd))

/-- The slots of a command: kind of slot and 80 bytes; the message first, then a data unit in each (R233). -/
def svSlots (c : TagCmd) (tag val : Nat) (data : List (Byte × Bool)) : List (Nat × List Byte) :=
  (1, svMsg c tag val ++ List.replicate 64 0)
    :: (if c.kind = 2 then (List.range c.units).map fun u => (2, svUnit ((data.drop (64 * u)).take 64)) else [])

/-- Slots in threes, each flit's SLOTK and body. -/
def packSlots : Nat → Nat → List (Nat × List Byte) → List SentFlit
  | 0, _, _ => []
  | n + 1, seq, l =>
    let a := l.take 3
    { seq := seq % 4096, slotk := (a.zipIdx.map fun x => x.1.1 * 4 ^ x.2).sum, body := a.flatMap Prod.snd } :: packSlots n (seq + 1) (l.drop 3)

end Sys2Proof.Machine

namespace Sys2Proof
open Machine

/-- Fields of a message from a buffer (R236). -/
def BufMsg.opc (m : BufMsg) : Nat := leNat (m.bytes.take 1)
def BufMsg.tag (m : BufMsg) : Nat := leNat ((m.bytes.drop 1).take 2) % 1024
def BufMsg.val (m : BufMsg) : Nat := leNat ((m.bytes.drop 8).take 4)
def BufMsg.status (m : BufMsg) : Nat := leNat ((m.bytes.drop 12).take 1)

end Sys2Proof

namespace Sys2Proof.Machine

/-! ### Frames (R280) -/

/-- Payload in 32-byte units. -/
def Frame.len (f : Frame) : Nat := (f.payload.length + 31) / 32

/-- A frame's bytes: header and payload, padded with zeros to a unit. -/
def Frame.bytes (f : Frame) : List Byte :=
  leBytes 1 f.ftype ++ leBytes 1 (f.vc % 4 + f.lvl % 2 * 4 + f.hops % 32 * 8) ++ leBytes 2 f.dst ++ leBytes 2 f.src ++ leBytes 1 f.stile
    ++ leBytes 1 f.seng ++ leBytes 1 f.len ++ [0] ++ leBytes 2 f.cnt ++ leBytes 8 f.arg ++ leBytes 8 f.pmask ++ leBytes 4 f.ofs
    ++ f.payload ++ List.replicate (32 * f.len - f.payload.length) 0

/-- The payload flits, from sequence number `seq` on, of frames that leave together: packed back to back into the frame stream, of which each flit
takes 240 bytes; the last is filled with zeros (R278; log entry 32). -/
def packFrames (fs : List Frame) (seq : Nat) : List SentFlit :=
  let bs := fs.flatMap Frame.bytes
  (List.range ((bs.length + 239) / 240)).map fun i => { seq := (seq + i) % 4096, body := (bs.drop (240 * i)).take 240 }

/-! ### Training sets (R239, R276) -/

/-- CRC-32 of IEEE 802.3: reflected, all ones before and after. -/
def crc32 (bs : List Byte) : Nat :=
  (bs.foldl (fun c b => (List.range 8).foldl (fun c _ => if c % 2 = 1 then (c / 2) ^^^ 0xEDB88320 else c / 2) (c ^^^ b.toNat)) 0xFFFFFFFF)
    ^^^ 0xFFFFFFFF

/-- A training set of 32 bytes; `logical` is 0xFF for the spare and where no lanes are assigned yet. -/
def trainBytes (typ lane link rate preset logical : Nat) (rxok : List Nat) : List Byte :=
  let h := [0x5A, 0x5A, 0xC3, 0x3C] ++ leBytes 1 typ ++ leBytes 1 lane ++ leBytes 1 link ++ leBytes 1 rate ++ leBytes 1 preset ++ leBytes 1 logical
    ++ [0x01] ++ leBytes 2 ((List.range 9).map fun k => if rxok.contains k then 2 ^ k else 0).sum ++ List.replicate 15 0
  h ++ leBytes 4 (crc32 h)

/-- The bytes that an output puts on a link. -/
def Out.bytes : Out → List Byte
  | .sent _ q => q.bytes
  | .replay _ q => q.bytes
  | .flit _ nak seq cls crd => nullFlit nak seq cls crd
  | .idle _ n => (List.replicate n (flitBytes 0 [])).flatten
  | .trainSet _ _ _ bs => bs
  | _ => []

end Sys2Proof.Machine
end

