-- ==== Sys2Proof/Machine/Net.lean ====
section
/-! DEFINITION. Frames leave the device (R280 to R282): the routing table, a frame sent, a frame answered with REJ. -/

namespace Sys2Proof.Machine

/-- The device's identity (FAB_ID). -/
def State.myId (s : State) : Nat := s.get F.FAB_ID_ID

/-- FTYPE codes (R280). -/
def ftWR : Nat := 1
def ftSIG : Nat := 2
def ftREJ : Nat := 3
def ftCDATA : Nat := 4
def ftREADY : Nat := 5
def ftMASK : Nat := 6
def ftBAR : Nat := 7
def ftHELLO : Nat := 8
def ftWACK : Nat := 9

/-- The virtual channel of a frame type (R279). -/
def vcOf (ft : Nat) : Nat :=
  if ft = ftWR then 0 else if ft = ftSIG ∨ ft = ftWACK ∨ ft = ftREJ then 1
  else if ft = ftCDATA ∨ ft = ftREADY ∨ ft = ftMASK then 2 else 3

/-- A routing-table entry packed as its register word (FAB_RT_n). -/
def State.route (s : State) (n : Nat) : Nat :=
  s.get F.FAB_RT_PRI n + s.get F.FAB_RT_ALT n * 2 ^ 3 + s.get F.FAB_RT_ALTV n * 2 ^ 6 + s.get F.FAB_RT_UP n * 2 ^ 7
    + s.get F.FAB_RT_VALID n * 2 ^ 31

def State.portUp (s : State) (p : Nat) : Bool := s.get F.FAB_PSTAT_STATE p = 3

/-- Is a fabric port down: STATE down or failed (R294)? One that trains or retrains is not. -/
def State.portDown (s : State) (p : Nat) : Bool := s.get F.FAB_PSTAT_STATE p = 0 || s.get F.FAB_PSTAT_STATE p = 5

/-- The port by which a frame leaves under a route entry: the alternate where the primary port is down (R281). -/
def State.portFor (s : State) (rt : Nat) : Nat :=
  let pri := bits rt 2 0
  if s.portDown pri && bit rt 6 then bits rt 5 3 else pri

/-- Is every WR of a stream acknowledged? Else it keeps the route entry that it follows (R282). -/
def SendStream.routeOf (st : SendStream) (now : Nat) : Nat := if st.acked = st.seq then now else st.route

/-- The port that a stream's next frame takes: all its frames take one path (R282), so while a WR is unacknowledged it keeps its port unless that
is down. -/
def State.portOf (s : State) (st : SendStream) (rt : Nat) : Nat :=
  if st.acked = st.seq || s.portDown st.port then s.portFor rt else st.port

/-! ### A port's waiting frames (R278, R279, R282) -/

/-- Credits of 32 bytes that a frame takes. -/
def Frame.units (f : Frame) : Nat := 1 + f.len

/-- Bytes of a frame in the frame stream. -/
def Frame.size (f : Frame) : Nat := 32 + 32 * f.len

/-- A frame's class: virtual channel and level. -/
def Frame.cls (f : Frame) : Nat := 2 * f.vc + f.lvl

/-- The stream of a frame (R282). -/
def Frame.stream (f : Frame) : Nat := ((f.src * 128 + f.stile) * 4 + f.seng) * 4096 + f.dst

/-- Is a frame of no stream: an answer, a barrier's frame, HELLO? -/
def Frame.free (f : Frame) : Bool := f.ftype = ftREJ || f.ftype = ftWACK || f.ftype = ftBAR || f.ftype = ftHELLO

/-- The waiting frames that no earlier frame of their stream precedes: the frames of one stream leave in order (R282). -/
def fronts : List Nat → List (Bool × Frame) → List (Bool × Frame)
  | _, [] => []
  | seen, x :: l =>
    if x.2.free then x :: fronts seen l
    else if seen.contains x.2.stream then fronts seen l else x :: fronts (x.2.stream :: seen) l

/-- Does the sender hold credits for the whole frame, and has the replay buffer of 512 flits room for it after the `n` bytes that leave before it
(R278, R279)? -/
def Link.canGo (l : Link) (n : Nat) (f : Frame) : Bool :=
  decide (f.units ≤ l.credits.get 0 f.cls) && decide (l.unacked.length + (n + f.size + 239) / 240 ≤ 512)

/-- The next frame of a virtual channel: of those that can go, transit and local frames alternate strictly (R282). -/
def Link.pick (l : Link) (n v : Nat) : Option (Bool × Frame) :=
  let q := (fronts [] l.queue).filter fun x => x.2.vc = v && l.canGo n x.2
  match q.find? fun x => x.1 != l.lastTransit.get false v with
  | some x => some x
  | none => q.head?

/-- Frames of a virtual channel leave while one can go, after those already on their way out. -/
def Link.drain (v : Nat) : Nat → Link → List Frame → Link × List Frame
  | 0, l, out => (l, out)
  | n + 1, l, out =>
    match l.pick ((out.map Frame.size).sum) v with
    | none => (l, out)
    | some x =>
      Link.drain v n { l with
        queue := l.queue.erase x, lastTransit := l.lastTransit.set false v x.1
        credits := l.credits.upd 0 x.2.cls (· - x.2.units) } (out ++ [x.2])

/-- Each frame with the sequence number of the flit that carries its last byte, `n` bytes of others before it. -/
def lastFlits (seq : Nat) : Nat → List Frame → List (Nat × Frame)
  | _, [] => []
  | n, f :: l => ((seq + (n + f.size + 239) / 240 - 1) % 4096, f) :: lastFlits seq (n + f.size) l

/-- The frames that leave go into flits, which the replay buffer keeps until they are acknowledged (R278). -/
def Link.send (l : Link) (fs : List Frame) : Link :=
  let qs := packFrames fs l.nextSeq
  { l with nextSeq := (l.nextSeq + qs.length) % 4096, unacked := l.unacked ++ qs, flying := l.flying ++ lastFlits l.nextSeq 0 fs }

def State.link (s : State) (p : Nat) : Link := s.links.get {} p
def State.modLink (s : State) (p : Nat) (f : Link → Link) : State := { s with links := s.links.upd {} p f }

/-- Can a fabric or tether port send? -/
def State.portSends (s : State) (p : Nat) : Bool := (s.link p).train = 4 && (decide (p ≥ 8) || s.portUp p)

/-- Whatever can leave by a port leaves, packed back to back. -/
def State.pump (s : State) (p : Nat) : State :=
  if s.portSends p then
    let l := s.link p
    let r := each (List.range 4) (fun (r : Link × List Frame) v => r.1.drain v r.1.queue.length r.2) (l, [])
    let s := each r.2 (fun s f => s.emit (.frame p { f with own := none })) (s.modLink p fun _ => r.1.send r.2)
    each (packFrames r.2 l.nextSeq) (fun s q => s.emit (.sent p q)) s
  else s

/-- Credits of a class go back to the far end of a fabric or tether port in a null flit (R278, R279). -/
def State.giveCredits (s : State) (p cls n : Nat) : State :=
  if p < 10 then s.emit (.flit p false (((s.link p).expSeq + 4095) % 4096) cls n) else s

/-- What a port advertises at link-up: 64 KiB for each virtual channel and level (R279), 1,023 units a flit at most. -/
def State.advertise (s : State) (p : Nat) : State :=
  each (List.range 8) (fun s c => ((s.giveCredits p c 1023).giveCredits p c 1023).giveCredits p c 2) s

/-- A frame that has come on a port has been taken from it. -/
def State.tookFrame (s : State) (p : Nat) (f : Frame) : State := s.giveCredits p f.cls f.units

/-! ### Ports and their training sets (R239, R276) -/

/-- Lanes of a port, and those that it needs. -/
def lanesOf (port : Nat) : Nat := if port < 10 then 5 else 9
def needLanes (port : Nat) : Nat := lanesOf port - 1

def isBuf (port : Nat) : Bool := decide (10 ≤ port) && decide (port < 18)

/-- The link number of a training set: the port within its kind. -/
def linkNo (port : Nat) : Nat := if port < 8 then port else if port < 10 then port - 8 else port - 10

/-- The full rate of a link: 64 or 224 Gb/s PAM4. -/
def rateOf (port : Nat) : Nat := if port < 10 then 2 else 1

/-- The logical lane of a physical lane: the lowest good ones in turn, 0xFF for the spare. -/
def logicalLane (port : Nat) (good : List Nat) (lane : Nat) : Nat :=
  ((((List.range (lanesOf port)).filter good.contains).take (needLanes port)).findIdx? (· = lane)).getD 0xFF

/-- Training sets of a type go out on every lane: TSA at 8 Gb/s with this end's preset, the others at the full rate with the preset that this end
asks of the far transmitter. -/
def State.sendSets (s : State) (port typ : Nat) (logical : Nat → Nat) : State :=
  let l := s.link port
  each (List.range (lanesOf port)) (fun s lane => s.emit (.trainSet port typ lane (trainBytes typ lane (linkNo port)
    (if typ = 1 then 0 else rateOf port) (if typ = 1 then l.presets.1 else l.presets.2) (logical lane) l.rxok))) s

/-- A frame waits at a port. -/
def State.enqueue (s : State) (p : Nat) (transit : Bool) (f : Frame) : State :=
  (s.modLink p fun l => { l with queue := l.queue ++ [(transit, f)] }).pump p

/-! ### Sending streams (R282, R286, R288) -/

/-- Where the counts of a stream of this device are kept. -/
def sendKey (dst tile seng : Nat) : Nat := (dst * 128 + tile) * 4 + seng

/-- A task aborted here: its WR and SIG frames that have not left are dropped, and their numbers are used again (R288). -/
def State.dropUnsent (s : State) (logno : Nat) : State :=
  let mine := fun (x : Bool × Frame) => x.2.own = some logno && (x.2.ftype = ftWR || x.2.ftype = ftSIG)
  let gone := (List.range 8).flatMap fun p => ((s.link p).queue.filter mine).map Prod.snd
  let s := each (List.range 8) (fun s p => s.modLink p fun l => { l with queue := l.queue.filter fun x => !mine x }) s
  each (gone.filter fun f => f.ftype = ftWR) (fun s f =>
    { s with sendStreams := s.sendStreams.upd {} (sendKey f.dst f.stile f.seng) fun st => { st with seq := st.seq - 1 } }) s

/-- A frame leaves by port `p` under a route entry: at level 1 when it arrived at level 1 or UP is set (R281). -/
def State.sendVia (s : State) (p rt : Nat) (f : Frame) (transit : Bool := false) : State :=
  s.enqueue p transit { f with vc := vcOf f.ftype, lvl := if f.lvl = 1 || bit rt 7 then 1 else 0 }

/-- The port that a waiting frame takes now (R281, R282): its stream's, of this device or passing through. -/
def State.waitPort (s : State) (transit : Bool) (f : Frame) : Nat :=
  if f.free then s.portFor (s.route f.dst)
  else
    let st := if transit then s.passing.get {} f.stream else s.sendStreams.get {} (sendKey f.dst f.stile f.seng)
    s.portFor (st.routeOf (s.route f.dst))

/-- The frames that wait at a fabric port that has gone down leave by the alternate where there is one (R281). -/
def State.reroute (s : State) (p : Nat) : State :=
  let q := (s.link p).queue
  each q (fun s x => s.enqueue (s.waitPort x.1 x.2) x.1 x.2) (s.modLink p fun l => { l with queue := [] })

/-- The frames of a tether port that has gone down, those on their way first, wait at the other, which carries the tether alone (R356). -/
def State.moveTether (s : State) (p : Nat) : State :=
  let l := s.link p
  let q := l.flying.map (fun x => (false, x.2)) ++ l.queue
  ((s.modLink p fun l => { l with queue := [], flying := [], unacked := [] }).modLink (17 - p) fun l => { l with queue := q ++ l.queue }).pump (17 - p)

/-- A REJ frame is counted and offered (R294). -/
def State.countRej (s : State) : State := (s.bump F.FAB_NREJ_COUNT).offer (Config.evtCode 4)

/-- A frame of this device's own to another identity; where the entry is not valid, REJ cause 0x01 comes back to this device (R282). -/
def State.sendFrame (s : State) (f : Frame) : State :=
  let rt := s.route f.dst
  if bit rt 31 then s.sendVia (s.portFor rt) rt { f with src := s.myId } else s.countRej.raiseFlag F.FAB_STAT_REJR

/-- Can a frame to `n` leave at all? -/
def State.routed (s : State) (n : Nat) : Bool := bit (s.route n) 31

/-- A frame answered with REJ (R282, R284, R290, R299, R311): ARG [7:0] the cause, [39:8] the COLLID. -/
def State.sendRej (s : State) (f : Frame) (cause collid : Nat) : State :=
  s.countRej.sendFrame
    { ftype := ftREJ, dst := f.src, stile := f.stile, seng := f.seng, cnt := f.cnt, arg := cause + collid * 2 ^ 8 }

/-- The members of a group in ascending identity (R312); none where the entry is not valid or is 4,095. -/
def State.group? (s : State) (g : Nat) : Option (List Nat) :=
  if g ≥ 4095 then none
  else if s.flag F.SYN_GRP_VALID g then
    some ((List.range (s.get F.SYN_GRP_COUNT g)).map fun i => s.members.get 0 (s.get F.SYN_GRP_FIRST g + i))
  else none

/-- Is an identity a member of a group, 4,095 standing for every device (R284, R299, R312)? -/
def State.inGroup (s : State) (g id : Nat) : Bool :=
  g = 4095 || (match s.group? g with
    | some l => l.contains id
    | none => false)

end Sys2Proof.Machine
end

