-- ==== Sys2Proof/Machine/Arbiter.lean ====
section
/-! DEFINITION. The maintenance arbiter (R246, R247), the flight log's working copy (R417 to R422), the continuity log's
records and marks (R344 to R351). -/

namespace Sys2Proof.Machine

/-! ### The arbiter -/

/-- A pair of activity kinds marked Q in the table of R247 (0 SCRUB, 1 EVAC, 2 MOVE, 3 RETRAIN, 4 FLOG, 5 FWUPD, 6 FILL). -/
def queuesWith (a b : Nat) : Bool :=
  match a, b with
  | 2, 3 => true
  | 3, 2 => true
  | 2, _ => false
  | _, 2 => false
  | a, b => decide (a = 4 ∨ a = 5) == decide (b = 4 ∨ b = 5)

/-- Resources: an HBM channel 0–255, a buffer channel 256 + 2b + ch, a tile store 300 + p, a link 400 + port, the RRAM and the
management store 500, a tier 600 + k, a buffer's range 700 + b. -/
def resLess (a b : Nat) : Bool :=
  (a = 600 && decide (b < 256)) || (a = 601 && ((decide (256 ≤ b) && decide (b < 272)) || (decide (410 ≤ b) && decide (b < 418))
    || decide (700 ≤ b))) || (a = 602 && (b = 418 || b = 419)) || (a = 603 && b = 420)
    || (decide (700 ≤ a) && (b = 410 + (a - 700) || b = 256 + 2 * (a - 700) || b = 257 + 2 * (a - 700)))

/-- Do two resources meet? -/
def resMeet (a b : Nat) : Bool := a = b || resLess a b || resLess b a

/-- Must one activity wait for the other (R247)? -/
def Act.bars (a b : Act) : Bool := queuesWith a.kind b.kind && a.res.any fun x => b.res.any fun y => resMeet x y

/-- A link's state as its port's status register shows it; a tether port has none (R239, R276). -/
def State.linkState (s : State) (port st : Nat) : State :=
  if port < 8 then s.setReg F.FAB_PSTAT_STATE st port
  else if 10 ≤ port ∧ port < 18 then s.setReg F.MEM_BSTAT_STATE st (port - 10) else s

/-- An activity starts: a channel leaves service for its evacuation or retrain (R228, R231), a link for its retrain,
which begins at step 4 with the presets last chosen (R240). -/
def State.startAct (s : State) (a : Act) : State :=
  let s := { s with acts := s.acts ++ [a] }
  if a.kind = 1 ∨ (a.kind = 3 ∧ a.arg < 256) then
    ({ s with chans := s.chans.upd {} a.arg fun x => { x with cp := 0 } }.setReg F.MEM_CHMAP_ROLE 3 a.arg).setReg F.MEM_CHSTAT_PCH a.arg
      |> when (a.kind = 1) (·.setReg F.MEM_CHSTAT_CP 0)
  else if a.kind = 3 ∧ a.arg ≥ 400 then ((s.modLink (a.arg - 400) fun l => { l with train := 5 }).linkState (a.arg - 400) 4).sendSets (a.arg - 400) 2 fun _ => 0xFF
  else s

/-- The port of R416 through which a resource of the arbiter is reached: a channel's stack, a buffer's link, a link itself. -/
def resPort (r : Nat) : Option Nat :=
  if r < 256 then some (23 + r / 32)
  else if r < 272 then some (10 + (r - 256) / 2)
  else if 400 ≤ r && r < 431 then some (r - 400)
  else if 700 ≤ r && r < 708 then some (10 + (r - 700)) else none

/-- The port that an event of the arbiter carries (R416). -/
def Act.port (a : Act) : Option Nat := a.res.findSome? resPort

/-- An activity is requested (R246, R247). -/
def State.requestAct (s : State) (a : Act) : State :=
  let a := { a with id := s.actCount }
  let s := { s with actCount := s.actCount + 1 }
  if s.acts.any a.bars || s.actQ.any a.bars then { s with actQ := s.actQ ++ [a] }.offer 0x2D0 { port := a.port }
  else s.startAct a

/-- Starts of queued activities in request order: one starts when nothing running or queued before it bars it. -/
def startQueued : List Act → List Act → State → State
  | [], kept, s => { s with actQ := kept }
  | a :: l, kept, s =>
    if s.acts.any a.bars || kept.any a.bars then startQueued l (kept ++ [a]) s else startQueued l kept (s.startAct a)

/-- An activity's unit ends. -/
def State.endAct (s : State) (id : Nat) : State :=
  let s := { s with acts := s.acts.filter (·.id ≠ id) }
  startQueued s.actQ [] s

/-- The activity of a kind for an argument, running or queued. -/
def State.actFor (s : State) (kind arg : Nat) : Option Act := s.acts.find? fun a => a.kind = kind && a.arg = arg
def State.actWaits (s : State) (kind arg : Nat) : Bool := s.actQ.any fun a => a.kind = kind && a.arg = arg

/-! ### The flight log's working copy -/

/-- A lifetime counter goes up (R419). -/
def State.flCount (s : State) (i : Nat) (n : Nat := 1) : State :=
  { s with flog := { s.flog with counters := s.flog.counters.upd 0 i (· + n) } }

/-- A commit is requested of the arbiter (R419). -/
def State.wantCommit (s : State) (c : Commit) : State :=
  let s := { s with commits := s.commits ++ [c] }
  (s.requestAct { kind := 4, res := [500], cmd := c.cmd }).setReg F.EVT_FLSTAT_BUSY 1

/-- A journal record is formed (R422), to be written in the next FLOG unit. -/
def State.journal (s : State) (typ ukind unit : Nat) (data : List Byte) : State :=
  let f := s.flog
  let r : JRec := { typ := typ, ukind := ukind, unit := unit, boot := f.boots, order := f.order, data := (data ++ List.replicate 40 0).take 40 }
  let s := { s with flog := { f with waiting := f.waiting ++ [r], order := f.order + 1 } }
  if s.commits.isEmpty then s.wantCommit { whole := false } else s

/-- The drives' health log pages are read into the working copy of the flight log: critical warning, temperature, percentage used and data units written
in 1, 2, 1 and 16 bytes, all free (R243, R422; log entry 169). -/
def State.healthLogs (s : State) : State :=
  each s.t3.zipIdx (fun s d =>
    let s := s.emit (.nvme d.2 .getLog 0 0)
    let h := (List.range 20).map fun i => BitVec.ofNat 8 (Config.freeNat s.fresh i)
    { s with flog := { s.flog with health := s.flog.health.set [] d.2 h } }.spend) s

/-- A routine commit (R419), with a journal record of what each drive's health log said last (R422). -/
def State.routineCommit (s : State) : State :=
  each s.flog.health (fun s d => s.journal 6 3 (((s.t3[d.1]?).map (·.port)).getD 20) d.2) (s.wantCommit {})

/-- The journal record of a training of a port (R422, type 0x02): the margins measured are free values, one byte for each lane; of a UCIe module eight,
then the repaired count. -/
def State.journalTraining (s : State) (port : Nat) : State :=
  let free := fun n => (List.range n).map fun i => BitVec.ofNat 8 (Config.freeNat s.fresh i)
  let d := if port = 21 then free 8 ++ leBytes 1 (s.get F.QUE_ULINK_U0REP) else if port = 22 then free 8 ++ leBytes 1 (s.get F.QUE_ULINK_U1REP)
    else if port < 18 then free (lanesOf port) else free 40
  (s.journal 2 3 port d).spend

/-- A recovery of kind `k` (R419, R422): index 716 + k, journal record 0x04. -/
def State.recovery (s : State) (k ukind unit logno part : Nat) : State :=
  (s.flCount (716 + k)).journal 4 ukind unit (leBytes 8 k ++ leBytes 8 logno ++ leBytes 8 part)

/-- A spare brought in (R358, R416, R419, R422): TWN_NSUB, index 732 + kind, journal record 0x03 with the failed unit and the one that replaces it. -/
def State.spareIn (s : State) (kind ukind unit failed by_ : Nat) : State :=
  let s := ((s.bump F.TWN_NSUB_COUNT).flCount (732 + kind)).journal 3 ukind unit (leBytes 8 kind ++ leBytes 8 failed ++ leBytes 8 by_)
  if ukind = 1 then s.offerTileOnly 0x3C2 (if kind = 0 then by_ else unit) else s.offer 0x3C2

/-- DQ lanes of an HBM channel that a training repaired (R358); which they are is left open: free numbers. -/
def State.dqLanes (s : State) (c n : Nat) : State :=
  each (List.range n) (fun s _ => (s.spareIn 5 2 c (Config.freeNat s.fresh 0) (Config.freeNat s.fresh 1)).spend) s

/-! ### The continuity log -/

/-- Bytes of a record (R345). -/
def LogKind.size : LogKind → Nat
  | .sheet _ _ => 192
  | .read _ _ => 16
  | .mark _ _ _ => 32
  | .bank _ _ _ _ => 65536 + 32
  | .done _ _ _ _ => 32
  | .stage _ _ _ => 32
  | .ddone _ _ _ _ _ _ => 64
  | .fin _ _ _ _ _ => 64

/-- Is the record a completion's? -/
def LogKind.isDone : LogKind → Bool
  | .done _ _ _ _ => true
  | _ => false

/-- Is the record one that lives until the rig's next END (R345)? -/
def LogKind.ofTake : LogKind → Bool
  | .done _ _ _ _ => true
  | .stage _ _ _ => true
  | .ddone _ _ _ _ _ _ => true
  | .fin _ _ _ _ _ => true
  | _ => false

/-- What a new record frees (R345): DONE the call sheet's other records, END the rig's DONE, STAGE, DDONE and END records. -/
def logFree (r : LogRec) (l : List LogRec) : List LogRec :=
  match r.kind with
  | .done _ _ _ _ =>
    let l := l.filter fun x => x.logno ≠ r.logno || x.kind.isDone
    let old := l.filter fun x => x.rig = r.rig && x.kind.isDone
    if old.length ≥ 65536 then l.filter fun x => !(x.rig = r.rig && x.kind.isDone && some x.seq = (old.head?).map (·.seq)) else l
  | .fin _ _ _ _ _ => l.filter fun x => !(x.rig = r.rig && x.kind.ofTake)
  | _ => l

/-- Bytes of the ring in use. -/
def State.ringUsed (s : State) : Nat := ((s.log.filter (·.ring)).map (·.kind.size)).sum

/-- Bytes of a copy of the head in use. -/
def State.headUsed (s : State) : Nat := ((s.log.filter (!·.ring)).map (·.kind.size)).sum

def ringSize : Nat := 2 * 2 ^ 30

/-- The stop of R347: set below 64 MiB free, cleared above 128 MiB. -/
def State.ringCheck (s : State) : State :=
  let free := ringSize - s.ringUsed
  if free < 64 * 2 ^ 20 then s.setReg F.TWN_LSTAT_RFULL 1
  else if free > 128 * 2 ^ 20 then s.setReg F.TWN_LSTAT_RFULL 0 else s

/-- Is mirroring in force (R367, R368)? -/
def State.mirrors (s : State) : Bool :=
  (s.get F.TWN_STAT_STATE = 4 || s.get F.TWN_STAT_STATE = 3) && !s.flag F.TWN_STAT_SUSP && s.get F.TWN_CTL_PROT != 0

/-- The frames that mirror: LREC and PAGE. -/
def Frame.mirrors (f : Frame) : Bool := f.ftype = 0x22 || f.ftype = 0x23

/-- The tether port for the next frame (R362): one that still has mirroring frames to deliver keeps the order of them; else one that is up, T0 first;
else one that trains, where the frame waits. -/
def State.tetherPort (s : State) : Nat :=
  let l := fun p => s.links.get {} p
  ((([8, 9].find? fun p => (l p).train != 0 && ((l p).queue.any (·.2.mirrors) || (l p).flying.any (·.2.mirrors))).or
    ([8, 9].find? fun p => (l p).train = 4)).or ([8, 9].find? fun p => (l p).train != 0)).getD 8

/-- A frame leaves on the tether, or waits there. -/
def State.sendTether (s : State) (f : Frame) : State :=
  let p := s.tetherPort
  { (s.enqueue p false { f with src := s.myId, dst := s.get F.TWN_PEER_ID }) with
    tether := { s.tether with lastSent := s.tether.lastSent.put p s.now } }

/-- Nothing more is mirrored to the twin: what waits for it is dropped. -/
def State.dropMirror (s : State) : State :=
  each [8, 9] (fun s p => s.modLink p fun l => { l with queue := l.queue.filter fun x => !x.2.mirrors
                                                        flying := l.flying.filter fun x => !x.2.mirrors }) s

/-- A record is written (R344, R345): to both copies of the head, and to the twin while mirroring is in force. -/
def State.writeLog (s : State) (logno lead rig : Nat) (k : LogKind) : State :=
  let m := s.mirrors
  let r : LogRec := { seq := s.logSeq, logno := logno, lead := lead, rig := rig, kind := k, acked := !(m && s.get F.TWN_STAT_STATE = 4) }
  let s := { s with log := logFree r s.log ++ [r], logSeq := s.logSeq + 1 }
  let s := when m (fun s =>
    let s := s.sendTether { ftype := 0x22, vc := 2, ext := some (.lrec [r]) }
    { (s.bump F.TWN_NMIR_COUNT k.size) with tether := { s.tether with sentSeq := r.seq } }) s
  s.ringCheck

/-- Are mirrored ranges sent (R363, R367)? -/
def State.mirrorsPages (s : State) : Bool := s.mirrors && s.get F.TWN_CTL_PROT = 2

/-- Bytes of a mirrored page leave as PAGE frames of up to 512 bytes (R362). Kind 0 printed, 1 staged, 2 ledger record, 3 staged ledger
record: a record's bytes lie at the page's address (log entry 18). -/
def State.sendPage (s : State) (space addr kind : Nat) (data : List (Byte × Bool)) : State :=
  each (List.range ((data.length + 511) / 512)) (fun s i =>
    let d := (data.drop (512 * i)).take 512
    let words := (List.range ((d.length + 7) / 8)).map fun w => ((d[8 * w]?).map Prod.snd).getD false
    let n := s.tether.pageSent + 1
    let rig := match s.spaces.get none space with
      | some sp => sp.owner
      | none => 0
    let s := s.sendTether { ftype := 0x23, vc := 0, arg := space * 2 ^ 52 + addr + 512 * i, ofs := kind, payload := d.map Prod.fst
                            pmask := (words.zipIdx.map fun w => b2n w.1 * 2 ^ w.2).sum, ext := some (.page n rig) }
    { (s.bump F.TWN_NMIR_COUNT d.length) with tether := { s.tether with pageSent := n } }) s

/-- Does the newest record that `q` names count as written (R367)? -/
def State.written (s : State) (q : LogRec → Bool) : Bool := (s.log.filter q).all (·.acked)

/-! ### Marks (R351) -/

def unitKey (p u : Nat) : Nat := 16 * p + u

/-- The ordinal of a unit's next action in its part. -/
def State.nextOrd (s : State) (logno lead unit : Nat) : Nat :=
  match s.sheet logno with
  | some h => (match h.part lead with
    | some q => q.ords.get 0 unit
    | none => 0)
  | none => 0

/-- Is the unit's next action one that a MARK records? -/
def State.marked (s : State) (logno lead unit : Nat) : Option LogKind :=
  (s.log.find? fun r => r.logno = logno && r.lead = lead && (match r.kind with
    | .mark u o _ => u = unit && o = s.nextOrd logno lead unit
    | _ => false)).map (·.kind)

/-- The unit's action counts, and is recorded where no MARK records it. -/
def State.markDone (s : State) (logno lead unit wr : Nat) : State :=
  let o := s.nextOrd logno lead unit
  let rig := ((s.sheet logno).map (·.rig)).getD 0
  let s := when (s.marked logno lead unit).isNone (·.writeLog logno lead rig (.mark unit o wr)) s
  s.modPart logno lead fun q => { q with ords := q.ords.upd 0 unit (· + 1) }

end Sys2Proof.Machine
end

