-- ==== Sys2Proof/Machine/Task.lean ====
section
/-! DEFINITION. What every unit does to a task: numeric flags raised, the engine slots, a task aborted (R146, R336). -/

namespace Sys2Proof.Machine

/-- A flag of TILE_NFLAG by bit number (R45). -/
def nflagField : Nat → Option Field
  | 0 => some F.TILE_NFLAG_SNX
  | 1 => some F.TILE_NFLAG_SUF
  | 2 => some F.TILE_NFLAG_SOF
  | 3 => some F.TILE_NFLAG_SDZ
  | 4 => some F.TILE_NFLAG_SNV
  | 8 => some F.TILE_NFLAG_COVF
  | 9 => some F.TILE_NFLAG_CINV
  | 10 => some F.TILE_NFLAG_FNAN
  | 11 => some F.TILE_NFLAG_FDNZ
  | _ => none

/-- `n` events of numeric flag `b` in tile `p` (R45, R46): the sticky bit, and the offer of code 0x0C1 + b. -/
def State.raiseNum (s : State) (p b n : Nat) : State :=
  match nflagField b with
  | none => s
  | some f => if n = 0 then s else (s.raiseFlag f p).offerTile (0x0C1 + b) p n

/-- The flags of a list of operations raised in tile `p`, one setting event of a flag for each operation that sets it (R46; log entry 153); a COVF of a task of a take records SAT (R251). -/
def State.raiseNums (s : State) (p logno : Nat) (fs : List NFlags) : State :=
  let s := each [0, 1, 2, 3, 4, 8, 9, 10, 11]
    (fun s b => s.raiseNum p b (fs.filter fun f => f.toList.any fun e => e.1 = b && e.2).length) s
  if fs.any (·.covf) then s.recOf logno State.recSat else s

/-- The rig's numeric settings and a task's conformance (R47). -/
def State.nmode (s : State) (rig : Nat) (strict : Bool) : NMode :=
  { strict := strict, covfInf := s.flag F.IMG_RMODE_COVF rig, propagate := s.flag F.IMG_RMODE_MAXMIN rig }

/-- DETAIL of a completion (R337): tile, unit, engine or unit code. -/
def detailOf (logical : Nat) (unit1 : Bool) (n : Nat) : Nat := logical + n * 2 ^ 8 + b2n unit1 * 2 ^ 11

/-! ### Engine slots (R139 to R141) -/

def engKey (p e : Nat) : Nat := 8 * p + e

/-- Whose task a slot works for. -/
def Slot.logno : Slot → Option Nat
  | .empty => none
  | .checking a => some a.logno
  | .ready g => some g.logno

def Slot.gen? : Slot → Option Gen
  | .ready g => some g
  | _ => none

/-- The physical engine that carries a logical one (STRM_EMAP). -/
def emapField : Nat → Field
  | 0 => F.STRM_EMAP_E0
  | 1 => F.STRM_EMAP_E1
  | 2 => F.STRM_EMAP_E2
  | 3 => F.STRM_EMAP_E3
  | 4 => F.STRM_EMAP_E4
  | 5 => F.STRM_EMAP_E5
  | 6 => F.STRM_EMAP_E6
  | _ => F.STRM_EMAP_E7

/-- At a generation start the spare engine takes a failed engine's logical number (R125). -/
def State.engineSpare (s : State) (p e : Nat) : State :=
  let ph := s.get (emapField e) p
  if (s.tile p).badEngs.contains ph && s.get F.STRM_ESPR_STATE p = 0 then
    (((s.setReg (emapField e) 8 p).setReg F.STRM_ESPR_STATE 1 p).setReg F.STRM_ESPR_FAILED ph p).spareIn 2 1 p ph 8
  else s

/-- A generation starts: GENNOW is its number (R141). -/
def State.startGen (s : State) (p e : Nat) (g : Gen) : State :=
  ((s.engineSpare p e).modEng p e fun x => { x with run := .ready g, stopped := false }).setReg F.STRM_GEN_GENNOW g.num
    (engKey p e)

/-- An arm takes a slot (R139, R141): the running slot of an idle engine, else an empty shadow slot; none where both are
occupied. `ahead`: a replay's arm takes an empty running slot whatever the shadow holds (R141). -/
def Eng.arm (x : Eng) (a : Arm) (ahead : Bool) : Option Eng :=
  match x.run, x.shd with
  | .empty, .empty => some { x with run := .checking a }
  | .empty, _ => if ahead then some { x with run := .checking a } else none
  | _, .empty => some { x with shd := .checking a }
  | _, _ => none

/-- The oldest held arm of a replay takes a slot that is free (R140). -/
def Eng.serve (x : Eng) : Eng :=
  match x.held with
  | [] => x
  | a :: l => ((x.arm a false).map fun y => { y with held := l }).getD x

/-- What follows when a running slot empties (R139, R141): a shadow generation starts unless HALT is 1, a shadow arm being
checked moves to the running slot, a held arm takes the slot that is free. -/
def State.promote (s : State) (p e : Nat) : State :=
  let x := s.eng p e
  let s := match x.run, x.shd with
    | .empty, .ready g =>
      if s.flag F.STRM_CTL_HALT (engKey p e) then s
      else (s.modEng p e fun x => { x with shd := .empty }).startGen p e g
    | .empty, .checking a => s.modEng p e fun x => { x with run := .checking a, shd := .empty }
    | _, _ => s
  s.modEng p e Eng.serve

/-- The running generation of an engine, where it runs. -/
def State.gen? (s : State) (p e : Nat) : Option Gen :=
  let x := s.eng p e
  if x.stopped then none else x.run.gen?

/-- The engine's oldest transfer that stands in outbound staging (R148). -/
def State.staged? (s : State) (p e : Nat) : Option Xfer := (s.gen? p e).bind fun g => g.xfers.find? (·.staged)

def State.modGen (s : State) (p e : Nat) (f : Gen → Gen) : State :=
  s.modEng p e fun x => match x.run with
    | .ready g => { x with run := .ready (f g) }
    | _ => x

/-! ### Abort -/

/-- A unit of tile `p` leaves the waiters of every signal (R297). -/
def State.unwait (s : State) (p u : Nat) : State :=
  { s with waiters := (s.waiters.map fun w => (w.1, w.2.filter fun x => !(x.tile = p && x.unit = u))).filter (·.2 ≠ []) }

/-- An engine drops every generation and arm of the task (R146), and its shadow follows (R141). -/
def State.dropEng (s : State) (logno p e : Nat) : State :=
  let x := s.eng p e
  let hit := x.run.logno = some logno
  let s := s.modEng p e fun x =>
    { x with run := if x.run.logno = some logno then .empty else x.run,
             stopped := x.stopped && !hit,
             shd := if x.shd.logno = some logno then .empty else x.shd,
             held := x.held.filter (·.logno ≠ logno) }
  (when hit (·.unwait p e) s).promote p e

/-- The array, the banks, the feeds and the queue of a tile drop the task. -/
def Tile.dropTask (t : Tile) (logno : Nat) : Tile :=
  let hitRun := (t.arr.run.map (·.task.ref.logno)) = some logno
  let loading := (t.arr.run.map (·.loading)) = some true
  { t with
    arr := { t.arr with list := t.arr.list.filter (·.ref.logno ≠ logno), fly := t.arr.fly.filter (·.task.ref.logno ≠ logno),
                        run := if hitRun then none else t.arr.run,
                        blk := if hitRun && loading then none else t.arr.blk },
    finQ := t.finQ.filter (fun b => (t.bank b).task.logno ≠ logno),
    skipS := t.skipS.set 0 logno 0, lastFeed := (t.lastFeed.set none (2 * logno) none).set none (2 * logno + 1) none,
    banks := t.banks.map fun b => if b.2.task.logno = logno then
        (b.1, { elems := b.2.elems, preProx := b.2.preProx }) else b,
    feedS := t.feedS.filter (·.logno ≠ logno), feedT := t.feedT.filter (·.logno ≠ logno),
    ftq := t.ftq.filter (·.task.logno ≠ logno),
    ftqHead := (t.ftqHead + (t.ftq.takeWhile (·.task.logno = logno)).length) % 8,
    copy := match t.copy with
      | some c => if c.task.logno = logno then none else some c
      | none => none,
    vec := { t.vec with order := t.vec.order.filter (·.logno ≠ logno),
                        running := t.vec.running && t.vec.task.logno ≠ logno,
                        wait := if t.vec.task.logno = logno then 0 else t.vec.wait } }

/-- A tile drops the task. -/
def State.dropTile (s : State) (logno p : Nat) : State :=
  let s := when ((s.tile p).vec.running && (s.tile p).vec.task.logno = logno) (·.unwait p 8) s
  let s := each (List.range 8) (fun s e => s.dropEng logno p e) s
  s.modTile p (·.dropTask logno)

/-- The physical tiles of a rig. -/
def State.rigTiles (s : State) (n : Nat) : List Nat := (s.rig n).tiles.map s.phys

/-- A task is aborted (R146): every unit of the rig drops it; the whole call sheet ends with the cause's status, the first
one detected (R336, R338); its take records ABORT (R251). -/
def State.abortTask (s : State) (logno status detail : Nat) (lead : Option Nat) : State :=
  match s.sheet logno with
  | none => s
  | some h =>
    let s := each (s.rigTiles h.rig) (fun s p => s.dropTile logno p) s
    let idx := match lead with
      | some l => (h.parts.findIdx (·.lead = l))
      | none => 0xFF
    let s := { s with colls := s.colls.filter fun c => !(c.rig.isNone && c.logno = logno) }
    let s := (s.dropUnsent logno).modSheet logno fun h =>
      { h with status := some (h.status.getD status), detail := if h.status.isNone then detail else h.detail,
               fpart := min h.fpart idx, stopped := true,
               parts := h.parts.map fun q => { q with segsLeft := 0, routLeft := 0, rowsLeft := 0, gens := 0 } }
    s.recOf logno State.recAbort

/-! ### Strikes and stops (R164, R257) -/

/-- The take of rig `n` goes to Striking with a cause noted (R257, R264). -/
def State.strikeTake (s : State) (n : Nat) (f : Take → Take) : State :=
  s.modTake n fun t => { f t with state := 8 }

/-- Every dispatched call sheet of the rig that satisfies `q` is aborted with a status. -/
def State.abortSheets (s : State) (n status : Nat) (q : Sheet → Bool) : State :=
  each (s.sheets.filter fun h => h.rig = n && h.dispatched && q h) (fun s h => s.abortTask h.logno status 0 none) s

/-- An immediate stop (R164): every task in progress is aborted with status 0x0A, an open take that has not reached Printing
is struck (one that is being struck too, R257), the rig is stopping (a loading rig stays loading). -/
def State.killRig (s : State) (n : Nat) : State :=
  let s := s.abortSheets n 0x0A fun h => h.status.isNone
  let st := (s.rig n).take.state
  let s := when ((decide (1 ≤ st) && decide (st ≤ 6)) || st = 8) (·.strikeTake n fun t => { t with stop := true }) s
  let s := s.modRig n fun r => { r with killed := true }
  if s.rigState n = rigRunning then s.setReg F.IMG_RSTAT_STATE rigStopping n else s

/-- The logical number of a physical tile, for DETAIL. -/
def State.detailTile (s : State) (p : Nat) (unit1 : Bool) (n : Nat) : Nat := detailOf (s.logical p) unit1 n

/-- A task's abort by a stream engine: the engine's flag, the event, the call sheet's end (R145, R146, R151). -/
def State.engAbort (s : State) (p e logno lead status : Nat) : State :=
  ((s.raiseFlag F.STRM_STAT_ABRT (engKey p e)).offerTile (Config.evtCode 72) p).abortTask logno status (s.detailTile p false e) (some lead)

/-- Poison that an engine meets: under abort (the rig's policy or the generation's POIS) the task is aborted and the transfer comes to
nothing; under mark it is delivered. -/
def State.engPois (s : State) (p e : Nat) (pois : Bool) (f : State → State) : State :=
  if !pois then f s
  else match s.gen? p e with
    | none => s
    | some g =>
      if g.abt || s.abortPolicy ((s.rigOf p).getD 0) then
        s.engAbort p e g.logno g.lead 0x05
      else f ((s.raiseFlag F.STRM_STAT_POIS (engKey p e)).markPois g.logno)

/-- The task of an engine's running generation is aborted for an address fault (R145, R284). -/
def State.engFault (s : State) (p e : Nat) : State :=
  match (s.eng p e).run.gen? with
  | none => s
  | some g =>
    (s.raiseFlag F.STRM_STAT_AERR (engKey p e)).engAbort p e g.logno g.lead 0x06

end Sys2Proof.Machine
end

