-- ==== Sys2Proof/Machine/Mem.lean ====
section
/-! DEFINITION. Memory of the device range as every unit reaches it (spec 08, 09, R177 to R249, R254, R334, R348): pages and
their versions, reads under the word code, writes, write combining, forced ascents, capacities. -/

namespace Sys2Proof.Machine

/-! ### Keys -/

/-- A page's key: space and virtual page number (R177). Where VPN + NPAGE of a mapping command passes 2^36 − 1 it goes on at VPN 0 (log entry 159). -/
def pageKey (space vpn : Nat) : Nat := space * 2 ^ 36 + vpn % 2 ^ 36
def keyOf (space addr : Nat) : Nat := pageKey space (addr / 2 ^ 16)
def spaceOf (key : Nat) : Nat := key / 2 ^ 36
def vpnOf (key : Nat) : Nat := key % 2 ^ 36

def State.page? (s : State) (key : Nat) : Option Page := s.pages.get none key
def State.space? (s : State) (n : Nat) : Option Space := s.spaces.get none n
def State.modPage (s : State) (key : Nat) (f : Page → Page) : State :=
  match s.page? key with
  | some p => { s with pages := s.pages.set none key (some (f p)) }
  | none => s

/-- The rig that owns a page's space, as an event's attribute. -/
def State.ownerOf (s : State) (key : Nat) : Option Nat := (s.space? (spaceOf key)).map (·.owner)

/-! ### Capacities (R179, R183, R217, R227, R243) -/

/-- Units of 4 KiB that are online in a tier. -/
def State.tierUnits (s : State) (k : Nat) : Nat :=
  if !s.online then 0
  else if k = 0 then s.get F.MEM_T0CFG_LIVE * s.get F.MEM_T0CFG_CHMIB * 256
  else if k = 1 then ((List.range 8).map fun b =>
    let l := s.links.get {} (10 + b)
    if s.get F.MEM_BSTAT_STATE b = 0 ∨ s.get F.MEM_BSTAT_STATE b = 5 then 0
    else (l.filled.get 0 0 + l.filled.get 0 1) * 2 ^ 18).sum
  else (((if k = 2 then s.t2 else s.t3).filter (·.online)).map (·.units)).sum

/-- The spaces and page numbers mapped. -/
def State.mapped (s : State) : List Nat := (s.pages.filter (·.2.isSome)).map Prod.fst

/-- Units of the page tables (R179): four levels, a leaf table of a read-only space two units. -/
def State.tableUnits (s : State) (keys : List Nat) : Nat :=
  let lvl := fun n => ((keys.map (· / 2 ^ n)).eraseDups)
  (lvl 36).length + (lvl 27).length + (lvl 18).length
    + ((lvl 9).map fun t => if ((s.space? (t / 2 ^ 27)).map (·.ro)).getD false then 2 else 1).sum

/-- Units of tier `k` in use: homes, negatives beside their home and the one being written, versions, tables, the log ring, the image staging
area (R152), ledger regions, the reserve hosted for a twin (log entry 20). -/
def State.usedUnits (s : State) (k : Nat) : Nat :=
  let pages := s.pages.filterMap (·.2)
  let homes := ((pages.filter fun p => p.tier = k && !p.zero && !(p.neg && p.tier = 3 && p.frame = p.negFrame)).map (·.len + 1)).sum
  let negs := if k = 3 then ((pages.filter (·.neg)).map (·.negLen + 1)).sum + (s.mcmd.map (·.held)).getD 0 else 0
  let rsv := match s.reserve with
    | some r => if r.tier = k then r.gib * 2 ^ 18 else 0
    | none => 0
  let top := if k = 0 then
      16 * (s.staged.length + s.outVers.length + s.heldVers.length) + s.tableUnits s.mapped + 2 ^ 19 + 2 ^ 14
        + ((s.spaces.filterMap (·.2)).map fun x => x.ledger * 256).sum
    else 0
  let going := ((s.moves.filter fun m => m.dest = k).map (·.units)).sum
  homes + negs + top + rsv + going

def State.freeUnits (s : State) (k : Nat) : Nat := s.tierUnits k - s.usedUnits k

/-- Reservations of mapped pages without a frame (R183). -/
def State.reservedUnits (s : State) : Nat := ((s.pages.filterMap (·.2)).map fun p => if p.zero then p.resv else 0).sum

/-- Is a frame of `n` units free in a tier? -/
def State.frameFree (s : State) (k frame n : Nat) : Bool :=
  decide (frame + n ≤ 2 ^ 36) && (s.moves.all fun m => !(m.dest = k && overlaps m.frame m.units frame n)) && (s.pages.all fun e => match e.2 with
    | some p => !(p.tier = k && !p.zero && overlaps p.frame (p.len + 1) frame n)
        && !(k = 3 && p.neg && overlaps p.negFrame (p.negLen + 1) frame n)
    | none => true)

/-! ### Tier attributes -/

/-- A free frame of `n` units in a tier, which one is not given: the free value, or the place after every frame where that one is
taken. -/
def State.newFrame (s : State) (k n : Nat) : Nat :=
  let f := Config.freeNat s.fresh 0 % 2 ^ 36
  if s.frameFree k f n then f
  else each (s.pages.filterMap (·.2)) (fun m p => max m (max (p.frame + p.len + 1) (p.negFrame + p.negLen + 1)))
    (s.moves.foldl (fun m x => max m (x.frame + x.units)) 0)

/-- Does a tier keep pages in the stored format (R199)? -/
def State.compressed (s : State) (k : Nat) : Bool := k != 0 && bit (s.get F.IMG_DEV_COMP) (k - 1)

/-- Does a tier accept writes in place (R194)? -/
def State.inPlace (s : State) (k : Nat) : Bool := k = 0 || (k = 1 && !s.compressed 1)

/-- Units of a page's home in a tier. -/
def State.homeUnits (s : State) (k : Nat) (p : Page) : Nat := if s.compressed k then storedUnits p.kind p.data else 16

/-! ### Channels and the word code (R220 to R229) -/

/-- The physical channel of a tier 0 byte address (R227), and the byte address within it; a position below the pointer of an evacuation lies in the
spare (R228). -/
def State.channelOf (s : State) (a : Nat) : Nat × Nat :=
  let n := a / 256
  let l := s.get F.MEM_T0CFG_LIVE
  let lg := n % l
  let c := ((List.range 256).find? fun c => s.get F.MEM_CHMAP_LOGICAL c = lg && (s.get F.MEM_CHMAP_ROLE c = 0
    || s.get F.MEM_CHMAP_ROLE c = 3)).getD 0
  let x := s.chans.get {} c
  (if n / l * 2 ^ 16 < x.cp * (s.get F.MEM_T0CFG_CHMIB * 2 ^ 20) then x.dst else c, n / l * 256 + a % 256)

/-- The spare channels of a stack. -/
def State.sparesOf (s : State) (stack : Nat) : List Nat :=
  ((List.range 32).map (32 * stack + ·)).filter fun c => s.get F.MEM_CHMAP_ROLE c = 1 && !(s.acts ++ s.actQ).any fun a => a.res.contains c

def State.chan (s : State) (c : Nat) : Chan := s.chans.get {} c
def State.modChan (s : State) (c : Nat) (f : Chan → Chan) : State := { s with chans := s.chans.upd {} c f }

/-- An evacuation of channel `c` is requested, to a spare of its stack (R228); with no spare a retrain in place, once an epoch
when corrected words ask for it. -/
def State.wantEvac (s : State) (c : Nat) (byCount : Bool) : State :=
  if s.get F.MEM_CHMAP_ROLE c ≠ 0 ∨ (s.chan c).op ≠ 0 then s
  else
    match (s.sparesOf (c / 32)) with
    | [] =>
      if byCount && (s.chan c).once then s
      else (s.modChan c fun x => { x with op := 2, once := x.once || byCount }).requestAct { kind := 3, res := [c], arg := c }
    | l =>
      let d := l.getD (Config.freeNat s.fresh 0 % l.length) 0
      (s.spend.modChan c fun x => { x with op := 1, dst := d }).requestAct { kind := 1, res := [c, d], arg := c }

/-- Where a word was read: 0 tile store, 1 staging pool, 2 tier 0, 3 tier 1, with ECC_LAST.UNIT and ADDR. -/
structure Where where
  w : Nat := 0
  unit : Nat := 0
  addr : Nat := 0
  deriving DecidableEq, Repr

/-- The port and tier that an event of a word carries (R416). -/
def Where.attr (x : Where) : EvAttr :=
  if x.w = 2 then { tier := some 0, port := some (23 + x.unit / 32) }
  else if x.w = 3 then { tier := some 1, port := some (10 + x.unit / 2) } else {}

/-- Index of a lifetime counter (R419): corrected, or uncorrectable words. -/
def Where.counter (x : Where) (ue : Bool) : Nat :=
  match x.w with
  | 0 => 544 + x.unit + 80 * b2n ue
  | 1 => 704 + b2n ue
  | 2 => x.unit + 256 * b2n ue
  | _ => 512 + x.unit + 16 * b2n ue

/-- A corrected word is counted (R220, R228). -/
def State.noteCorrected (s : State) (x : Where) : State :=
  let s := ((s.bump F.ECC_NCE_COUNT 1 x.w).offer 0x2C1 x.attr).flCount (x.counter false)
  if x.w = 2 then
    let s := s.modChan x.unit fun c => { c with ce := c.ce + 1 }
    let t := s.get F.ECC_CFGNOW_CETHR
    when (t ≠ 0 && decide ((s.chan x.unit).ce ≥ t)) (·.wantEvac x.unit true) s
  else s

/-- An uncorrectable word is counted and recorded (R220, R419, R422). -/
def State.noteUncorrectable (s : State) (x : Where) : State :=
  let s := ((s.bump F.ECC_NUE_COUNT 1 x.w).offer 0x2C2 x.attr).flCount (x.counter true)
  let s := ((s.setReg F.ECC_LAST_WHERE x.w).setReg F.ECC_LAST_UNIT x.unit).setReg F.ECC_LAST_ADDR x.addr
  s.journal 5 (if x.w = 2 then 2 else if x.w = 0 then 1 else if x.w = 3 then 3 else 0) (if x.w = 3 then 10 + x.unit / 2 else x.unit)
    (leBytes 8 (x.w * 2 ^ 60 + x.unit * 2 ^ 52 + x.addr))

/-- Everything a read under the code found is counted. -/
def State.noteEcc (s : State) (o : EccOut) (at_ : Nat → Where) : State :=
  each o.uncorrectable (fun s w => s.noteUncorrectable (at_ w)) (each o.corrected (fun s w => s.noteCorrected (at_ w)) s)

/-- Where word `w` of a page's home lies. Tier 1: buffer and channel follow from the frame (log entry 21). -/
def State.wordAt (s : State) (tier frame : Nat) (w : Nat) : Where :=
  if tier = 0 then
    let c := s.channelOf (frame * 4096 + 8 * w)
    { w := 2, unit := c.1, addr := c.2 }
  else { w := 3, unit := frame / 2 ^ 32, addr := (frame % 2 ^ 32) * 4096 + 8 * w }

/-- The online device of tier 2 or 3 that holds a frame. -/
def State.memDev (s : State) (tier frame : Nat) : Option (Nat × MemDev) :=
  ((if tier = 2 then s.t2 else s.t3).zipIdx.find? fun d => d.1.online && decide (d.1.base ≤ frame) && decide (frame < d.1.base + d.1.units)).map
    fun d => (d.2, d.1)

/-- A command to the drive that holds a tier 3 frame, for `n` blocks from it on (R243). -/
def State.nvme (s : State) (c : NvmeCmd) (frame n : Nat) : State :=
  match s.memDev 3 frame with
  | some d => s.emit (.nvme d.1 c (frame - d.2.base) n)
  | none => s

/-- The tier 3 frames of a page's own home, if it has any: not those of its negative. -/
def Page.ownT3 (p : Page) : Option (Nat × Nat) :=
  if p.tier = 3 && !p.zero && !(p.neg && p.frame = p.negFrame) then some (p.frame, p.len + 1) else none

/-- Freed frames of tier 3 are deallocated on their drive (R243). -/
def State.deallocate (s : State) (f : Option (Nat × Nat)) : State :=
  match f with
  | some x => s.nvme .deallocate x.1 x.2
  | none => s

/-- The move controller's number among the controllers that a parity error resets: no port of R416 (log entry 162). -/
def moveCtl : Nat := 31

/-- The port of R416 whose controller serves a line of a home: the stack of its channel, its buffer, its device's. -/
def State.portAt (s : State) (tier frame line : Nat) : Option Nat :=
  if tier = 0 then some (23 + (s.channelOf (frame * 4096 + 256 * line)).1 / 32)
  else if tier = 1 then some (10 + frame / 2 ^ 32 / 2 % 8)
  else (s.memDev tier frame).map (·.2.port)

/-- Does an access to a line of a home wait: is its tier 0 channel being retrained in place, is its buffer's link retraining, or does its controller
reset (R223, R231, R240)? -/
def State.homeWaits (s : State) (tier frame line : Nat) : Bool :=
  (!s.ctlReset.isEmpty || s.acts.any fun a => a.kind = 3) && ((s.portAt tier frame line).any s.ctlReset.contains ||
  (if tier = 0 then
    let c := (s.channelOf (frame * 4096 + 256 * line)).1
    (s.chan c).op = 2 && s.get F.MEM_CHMAP_ROLE c = 3
  else if tier = 1 then
    let l := s.links.get {} (10 + frame / 2 ^ 32 / 2 % 8)
    l.train = 5 || (l.full && (l.train = 1 || l.train = 3))
  else false))

/-! ### Is a home reachable? -/

/-- Is a frame of a buffer offline: the link has failed, or, at a link that starts afresh, its GiB is not filled yet (R239, R240)? -/
def State.bufGone (s : State) (frame : Nat) : Bool :=
  let b := frame / 2 ^ 32 / 2 % 8
  let st := s.get F.MEM_BSTAT_STATE b
  let l := s.links.get {} (10 + b)
  st = 0 || st = 5 || ((st = 1 || st = 2) && !l.full && decide (l.filled.get 0 (frame / 2 ^ 32 % 2) ≤ frame % 2 ^ 32 / 2 ^ 18))

/-- Does a page's home lie where nothing answers: an offline device or buffer? -/
def State.homeGone (s : State) (key : Nat) : Bool :=
  match s.page? key with
  | some p => !p.zero && ((p.tier = 1 && s.bufGone p.frame) || (decide (p.tier ≥ 2) && (s.memDev p.tier p.frame).isNone))
  | none => false

/-! ### The checks of a stored page (R202) -/

/-- Chunks of a stored page's header and proxy. -/
def headChunks (kind : Nat) : Nat := (512 + proxyLen kind + 4095) / 4096

/-- The chunks of a stored page that hold a line's records, beyond those of header and proxy (R199, R201, R202). -/
def Page.chunksOf (p : Page) (line : Nat) : List Nat :=
  let recs := (pageRecords p.kind p.data).map List.length
  let per := recs.length / 256
  let verbatim := decide (recs.sum > 65536)
  let a := 512 + proxyLen p.kind + (if verbatim then 256 * line else (recs.take (per * line)).sum)
  let n := if verbatim then 256 else ((recs.drop (per * line)).take per).sum
  ((List.range ((a + n - 1) / 4096 + 1 - a / 4096)).map (a / 4096 + ·)).filter fun c => decide (headChunks p.kind ≤ c)

/-- The bytes of a chunk from which its check is formed: the CHK bytes taken as zero (R202). -/
def Page.chunk (p : Page) (c : Nat) : List Byte :=
  let b := storedBytes p.kind p.data p.linePois
  ((b.take 256 ++ List.replicate 256 0 ++ b.drop 512).drop (4096 * c)).take 4096

/-- A word of 8 bytes with wrong bits. -/
def flipWord (bs : List Byte) (e : Nat × Nat) : List Byte :=
  bs.zipIdx.map fun b => if b.2 / 8 = e.1 then b.1 ^^^ BitVec.ofNat 8 (e.2 / 2 ^ (8 * (b.2 % 8))) else b.1

/-- Does a chunk received with wrong bits fail its check against CHK (R202)? `flips` by word of the chunk. -/
def Page.chunkFails (p : Page) (c : Nat) (flips : List (Nat × Nat)) : Bool :=
  crc64 (each flips flipWord (p.chunk c)) != crc64 (p.chunk c)

/-- The chunk that holds a word of the page. -/
def Page.chunkOfWord (p : Page) (w : Nat) : Nat := (p.chunksOf (w / 32)).headD 0

/-- The lines among `ls` of which a chunk fails its check: `flips` names words of the page with wrong bits in what was received. -/
def Page.failLines (p : Page) (flips : List (Nat × Nat)) (ls : List Nat) : List Nat :=
  let bad := ((flips.map fun e => p.chunkOfWord e.1).eraseDups).filter fun c =>
    p.chunkFails c ((flips.filter fun e => p.chunkOfWord e.1 = c).map fun e => (e.1 % 512, e.2))
  ls.filter fun l => bad.any fun c => decide (c < headChunks p.kind) || (p.chunksOf l).contains c

/-! ### Versions (R254, R334, R348, R349) -/

def State.stagedVer? (s : State) (key rig : Nat) : Option Version := s.staged.find? fun v => v.page = key && v.rig = rig
def State.outVer? (s : State) (key : Nat) : Option Version := s.outVers.find? (·.page = key)

/-- The content of a version as its home holds it. -/
def State.verData (s : State) (key : Nat) : Which → Content
  | .current => ((s.page? key).map (·.data)).getD {}
  | .staged r => ((s.stagedVer? key r).map (·.data)).getD {}
  | .out l => ((s.outVers.find? fun v => v.page = key && v.logno = l).map (·.data)).getD {}
  | .held n => ((s.heldVers.find? fun v => v.page = key && v.ver = n).map (·.data)).getD {}

def modVersions (l : List Version) (q : Version → Bool) (f : Content → Content) : List Version :=
  l.map fun v => if q v then { v with data := f v.data } else v

def State.modVer (s : State) (key : Nat) (w : Which) (f : Content → Content) : State :=
  match w with
  | .current => s.modPage key fun p => { p with data := f p.data }
  | .staged r => { s with staged := modVersions s.staged (fun v => v.page = key && v.rig = r) f }
  | .out l => { s with outVers := modVersions s.outVers (fun v => v.page = key && v.logno = l) f }
  | .held n => { s with heldVers := modVersions s.heldVers (fun v => v.page = key && v.ver = n) f }

/-- Home tier and frame of a version: a version beside the current one lies in tier 0 (R254, R334, R349). -/
def State.verHome (s : State) (key : Nat) : Which → Nat × Nat
  | .current => ((s.page? key).map fun p => (p.tier, p.frame)).getD (0, 0)
  | _ => (0, 0)

/-- The write-combining entries of a version's line, oldest first. -/
def State.wcOf (s : State) (key : Nat) (w : Which) : List WcEntry := s.wc.filter fun e => e.page = key && e.which = w

/-- A content with an entry merged over it (R213, R215): a partly written word keeps its poison. -/
def Content.mergeEntry (c : Content) (e : WcEntry) : Content :=
  let a := 256 * e.line
  let c := each e.bytes (fun c b => match b.2 with
    | some v => c.setByte (a + b.1) v
    | none => c) c
  each (List.range 32) (fun c k =>
    let have_ := (List.range 8).filter fun i => (e.bytes.get none (8 * k + i)).isSome
    let w := a / 8 + k
    if have_.isEmpty then c
    else c.setPois w (e.pois.get false k || (c.pois.get false w && have_.length < 8))) c

/-- Every word of some lines poisoned (R206). -/
def Content.poisLines (c : Content) (ls : List Nat) : Content :=
  each ls (fun c l => each (List.range 32) (fun c k => c.setPois (32 * l + k) true) c) c

/-- What the home of a version holds, a line marked poisoned as poisoned words (R206). -/
def State.homeData (s : State) (key : Nat) (w : Which) : Content :=
  match w with
  | .current => (s.verData key w).poisLines (((s.page? key).map (·.linePois)).getD [])
  | _ => s.verData key w

/-- The value of a version: its home merged with the buffer (R191, R206, R213). -/
def State.merged (s : State) (key : Nat) (w : Which) : Content := each (s.wcOf key w) Content.mergeEntry (s.homeData key w)

/-- The version of a page that a task's part reads (R254, R334, R348): staged, output, or the one its READ record names. -/
def State.readVer (s : State) (logno lead key : Nat) : Which :=
  let staged := match s.inTake logno with
    | some r => (s.stagedVer? key r).map fun _ => Which.staged r
    | none => none
  match staged with
  | some w => w
  | none =>
    if s.outVers.any fun v => v.page = key && v.logno = logno then .out logno
    else match s.log.find? fun r => r.logno = logno && r.lead = lead && (match r.kind with
        | .read p _ => p = key
        | _ => false) with
      | some r => (match r.kind with
        | .read _ v => if ((s.page? key).map (·.ver)) = some v then .current
                       else if s.heldVers.any fun x => x.page = key && x.ver = v then .held v else .current
        | _ => .current)
      | none => .current

/-- The READ record of a part's first read of a page (R348); a sealed page needs none. -/
def State.noteRead (s : State) (logno lead key : Nat) : State :=
  match s.page? key, s.sheet logno with
  | some p, some h =>
    if p.ro || (s.log.any fun r => r.logno = logno && r.lead = lead && (match r.kind with
        | .read q _ => q = key
        | _ => false)) then s
    else match s.readVer logno lead key with
      | .current => s.writeLog logno lead h.rig (.read key p.ver)
      | _ => s
  | _, _ => s

/-- Does a READ record of an incomplete call sheet name a version (R349)? -/
def State.verNamed (s : State) (key ver : Nat) : Bool :=
  s.log.any fun r => match r.kind with
    | .read p v => p = key && v = ver && (s.sheet r.logno).isSome
    | _ => false

/-- Held versions that no incomplete call sheet names are freed (R349). -/
def State.dropHeld (s : State) : State := { s with heldVers := s.heldVers.filter fun v => s.verNamed v.page v.ver }

/-- A new content is about to become current: the present one is kept where a READ record names it, and the version number
goes up (R348, R349). -/
def State.newVersion (s : State) (key : Nat) : State :=
  match s.page? key with
  | none => s
  | some p =>
    let v : Version := { page := key, rig := (s.ownerOf key).getD 0, data := s.merged key .current, ver := p.ver, zero := p.zero }
    let s := if s.verNamed key p.ver then
        ({ s with heldVers := s.heldVers ++ [v] }.bump F.TWN_NHELD_COUNT).offer (Config.evtCode 62) { rig := s.ownerOf key }
      else s
    { s with heldQ := s.heldQ.filter (·.1 ≠ key) }.modPage key fun p => { p with ver := p.ver + 1 }

/-- Does a write that makes a new version have to wait for a held version's frame (R349)? -/
def State.heldWaits (s : State) (key : Nat) : Bool :=
  match s.page? key with
  | some p => s.verNamed key p.ver && decide (s.freeUnits 0 < 16)
  | none => false

/-- Must new versions of several pages, made in one step, wait: tier 0 has no frame for every version that is to be held (R349)? -/
def State.heldShort (s : State) (keys : List Nat) : Bool :=
  let n := (keys.filter fun k => match s.page? k with
    | some p => s.verNamed k p.ver
    | none => false).length
  decide (n > 0) && decide (s.freeUnits 0 < 16 * n)

/-- Writes wait for held versions' frames (R349). -/
def State.holdWrites (s : State) (l : List (Nat × Nat)) : State := { s with heldQ := (s.heldQ ++ l).eraseDups }

/-- Does a write wait for a held version's frame (TWN_LSTAT.HOLDV)? -/
def State.holdsWrite (s : State) : Bool :=
  s.heldShort ((s.heldQ.filter fun e => e.2 = 0 || s.outVers.any fun v => v.page = e.1 && v.logno = e.2).map (·.1)).eraseDups

/-! ### Heat, ascents (R185 to R187, R194) -/

/-- Bytes that cross the tier 0 interfaces, whole lines (R186; log entry 19). -/
def State.tier0Bytes (s : State) (lines : Nat) : State := (s.bump F.TIER_EBYTE_COUNT (256 * lines)).traffic 2 lines

/-- A line of a page's home is read or written: in tier 0 its bytes cross the interfaces (R186). -/
def State.countLine (s : State) (key : Nat) : State :=
  match s.page? key with
  | some p => if p.zero then s else if p.tier = 0 then s.tier0Bytes 1 else if p.tier = 1 then s.traffic 3 1 else s
  | none => s

/-- A page is to ascend ahead of every candidate (R194, R210). -/
def State.forceAscent (s : State) (key : Nat) : State :=
  if s.forcedQ.contains key || s.moves.any (fun m => m.page = key && m.kind = .forced) then s
  else { s with forcedQ := s.forcedQ ++ [key], ascentQ := s.ascentQ.filter (· ≠ key) }

/-- A transfer to or from a page: heat (R185) and the candidate for ascent (R187). -/
def State.touch (s : State) (key : Nat) : State :=
  match s.page? key with
  | none => s
  | some p =>
    let heat := min 255 (p.heat + 1)
    let s := s.modPage key fun p => { p with heat := heat }
    if p.tier ≥ 1 && !p.zero && !p.pin && !p.mov && (decide (heat ≥ s.get F.TIER_CFGNOW_ASC) || p.hint = 1)
        && !s.ascentQ.contains key && !s.forcedQ.contains key then
      if s.ascentQ.length + s.forcedQ.length < 256 then { s with ascentQ := s.ascentQ ++ [key] } else s.bump F.TIER_NASCDROP_COUNT
    else s

/-! ### Reading -/

/-- What a read of a page's bytes gives: each with its poison; the lines that must be reread from the negative. -/
structure PageRead where
  s : State
  data : List (Byte × Bool) := []
  reread : List Nat := []
  /-- lines of a writable tier 1 home with an uncorrectable word (R204) -/
  bad : List Nat := []
  /-- lines of which a chunk failed its check for the first time: they are read again (R202, R204) -/
  again : List Nat := []
  /-- lines of a writable home beyond tier 1 that this read found lost (R204) -/
  lost : List Nat := []
  deriving DecidableEq, Repr

/-- The lines of a page below the move pointer, which the move buffer or the destination serves (R192, R193). -/
def State.landed (s : State) (key : Nat) : Nat :=
  match s.moves.find? (·.page = key) with
  | some m => m.mp
  | none => 0

/-- The lines of a page with a pending update that are folded: those landed in a home that takes writes in place (R210, R211). -/
def State.foldedTo (s : State) (key : Nat) : Nat :=
  match s.moves.find? (·.page = key) with
  | some m => if s.inPlace m.dest then m.mp else 0
  | none => 0

/-- Does a read of `n` bytes at `ofs` meet a line whose pending update is not folded (R211)? -/
def State.foldWaits (s : State) (key ofs n : Nat) : Bool :=
  ((s.page? key).map (·.ldg)).getD false && decide (s.foldedTo key < (ofs + n + 255) / 256)

/-- Is a line of `n` bytes at `ofs` in transit in a move of the page (R192)? -/
def State.inTransit (s : State) (key ofs n : Nat) : Bool :=
  s.moves.any fun m => m.page = key && m.asked && decide (ofs / 256 ≤ m.mp) && decide (256 * m.mp < ofs + n)

/-- The lines of `n` bytes at `ofs` that are being reread from the page's negative: who reads them waits too (R22, R197). -/
def State.rereading (s : State) (key ofs n : Nat) : List Nat :=
  (s.negReads.filter fun x => x.page = key && decide (ofs / 256 ≤ x.line) && decide (256 * x.line < ofs + n)).map (·.line)

/-- A line is to be reread from its negative for a transfer or a task; a line that is being reread serves them too (R22, R197). -/
def State.wantReread (s : State) (key line : Nat) (readers : List (Nat × Nat × Nat)) (tasks : List (Nat × Nat)) : State :=
  if s.negReads.any fun n => n.page = key && n.line = line then
    { s with negReads := s.negReads.map fun n => if n.page = key && n.line = line then
        { n with readers := (n.readers ++ readers).eraseDups, tasks := (n.tasks ++ tasks).eraseDups } else n }
  else { s with negReads := s.negReads ++ [{ page := key, line := line, readers := readers, tasks := tasks }] }

/-- Reports lines of a page lost (R204). -/
def State.noteLost (s : State) (key : Nat) (n : Nat := 1) : State :=
  (s.bump F.TIER_NLOST_COUNT n).offer (Config.evtCode 1) { rig := s.ownerOf key, tier := (s.page? key).map (·.tier) } n

/-- The lines of `n` bytes at `ofs`. -/
def linesIn (ofs n : Nat) : List Nat := (List.range ((ofs + n + 255) / 256 - ofs / 256)).map (ofs / 256 + ·)

/-- What the checks of the chunks of a stored page find (R202, R204): lines that fail for the first time, and those that fail again. `o`: what the
word code gave in tier 1; beyond it `errs` names words with wrong bits in what came. -/
def State.checkChunks (s : State) (key : Nat) (p : Page) (ofs n : Nat) (errs : List (Nat × Nat)) (o : EccOut) : State × List Nat × List Nat :=
  let w0 := ofs / 8
  let mis := o.corrected.filterMap fun w =>
    let d := leNat (o.c.bytesAt (8 * w) 8) ^^^ leNat (p.data.bytesAt (8 * w) 8)
    if d = 0 then none else some (w, d)
  let flips := if p.tier ≥ 2 then errs.map fun e => (w0 + e.1, e.2) else mis
  let ls := (linesIn ofs n).filter fun l => decide (s.landed key ≤ l)
  let fails := if flips.isEmpty then [] else p.failLines flips ls
  let twice := fails.filter fun l => s.chunkBad.contains (key, l)
  let once := fails.filter fun l => !s.chunkBad.contains (key, l)
  ({ s with chunkBad := (s.chunkBad.filter fun x => !(x.1 = key && ls.contains x.2)) ++ once.map fun l => (key, l) }, once, twice)

/-- A read of `n` bytes at `ofs` of a page's version (R216, R220, R221, R204, R206). `errs` names words of the access with wrong bits, in tiers 2 and 3
of what came of a stored page, or poison that the device reported of a plain one; `lost` lines of the page that the tier reports lost. A page whose
home is gone was reported when it went. -/
def State.readPage (s : State) (key : Nat) (w : Which) (ofs n : Nat) (errs : List (Nat × Nat)) (lost : List Nat) : PageRead :=
  match s.page? key with
  | none => { s := s }
  | some p =>
    let zero : Bool := match w with
      | Which.current => p.zero
      | Which.held v => ((s.heldVers.find? fun x => x.page = key && x.ver = v).map (·.zero)).getD false
      | _ => false
    if zero then
      { s := s, data := (each (s.wcOf key w) Content.mergeEntry {}).read ofs n }
    else
      let (tier, frame) := s.verHome key w
      let sealed_ := p.ro && w = .current
      let coded := w = .current && p.cmp
      let direct := (tier = 0 || tier = 1) && !coded
      let w0 := ofs / 8
      let nw := (ofs + n + 7) / 8 - w0
      let mp := if w = .current then s.landed key else 0
      let here := errs.filter fun e => decide (e.1 < nw) && decide (mp ≤ (w0 + e.1) / 32)
      let o := (s.verData key w).ecc w0 nw (if tier ≤ 1 then here else []) (Config.freeNat s.fresh)
      let chk := if coded then s.checkChunks key p ofs n here o else (s, [], [])
      if !chk.2.1.isEmpty then { s := if errs.isEmpty then chk.1 else chk.1.spend, again := chk.2.1 }
      else
        let s := chk.1
        let s := if errs.isEmpty then s else s.spend
        let s := s.noteEcc o (s.wordAt tier frame)
        let lines := (ofs + n + 255) / 256 - max mp (ofs / 256)
        let s := if tier = 0 then s.tier0Bytes lines else if tier = 1 then s.traffic 3 lines else s
        let badLines := (o.uncorrectable.map (· / 32)).eraseDups
        let told := if tier ≥ 2 && !coded then here.map fun e => (w0 + e.1) / 32 else []
        let gone := ((lost.filter fun l => decide (mp ≤ l)) ++ told ++ chk.2.2).eraseDups
        let lost := if tier = 1 && (coded || sealed_) then (gone ++ badLines).eraseDups else gone
        let s := if w = .current && s.homeGone key then s
          else each (((if tier = 1 then gone ++ badLines else gone).eraseDups).filter (linesIn ofs n).contains) (fun s _ => s.noteLost key) s
        if sealed_ then
          { s := s, data := p.data.read ofs n
            reread := ((badLines ++ lost).filter (linesIn ofs n).contains ++ s.rereading key ofs n).eraseDups }
        else
          let s := if direct then s.modVer key w fun _ => o.c else s
          let s := if w = .current && !lost.isEmpty then s.modPage key fun p =>
              { p with linePois := if direct then p.linePois else (p.linePois ++ lost).eraseDups,
                       data := if direct then each (lost.flatMap fun l => (List.range 32).map (32 * l + ·)) (fun c k => c.setPois k true) p.data
                         else p.data } else s
          { s := s, data := (s.merged key w).read ofs n, bad := if tier = 1 then badLines else []
            lost := (told ++ chk.2.2).eraseDups }

/-! ### Access rights (R178, R216) -/

/-- May a rig's engines read a page (R178, R196, R216)? -/
def State.mayRead (s : State) (rig key : Nat) : Bool :=
  match s.space? (spaceOf key), s.page? key with
  | some sp, some p => sp.owner = rig || (sp.readers.contains rig && p.ro)
  | _, _ => false

/-- May a rig's engines write a page? -/
def State.mayWrite (s : State) (rig key : Nat) : Bool :=
  match s.space? (spaceOf key), s.page? key with
  | some sp, some p => sp.owner = rig && !p.ro
  | _, _ => false

/-! ### Taking part in takes: the staged ranges (R252 to R255) -/

/-- The ranges of a group that a take stages: start and bytes. -/
def Group.staged (g : Group) : List (Nat × Nat) :=
  (g.maddr, 4 * g.nelem) :: (if g.kind = 1 then
    (if bit g.flags 0 then [(g.waddr, 4 * g.nelem)] else []) ++ [(g.eaddr, 2 * g.nelem)] else [])

/-- Every range a group names, scratch gradient included. -/
def Group.ranges (g : Group) : List (Nat × Nat) := g.staged ++ (if g.kind = 1 then [(g.gaddr, 4 * g.nelem)] else [])

/-- Is a byte address of a space in a staged range of a rig's open take? -/
def State.inStaged (s : State) (rig space addr : Nat) : Bool :=
  let t := (s.rig rig).take
  t.state ≠ 0 && t.groups.any fun g => g.space = space && g.staged.any fun r => decide (r.1 ≤ addr) && decide (addr < r.1 + r.2)

/-- Does a page hold bytes of a staged range of a rig's open take (R254)? -/
def State.pageStaged (s : State) (rig key : Nat) : Bool :=
  let t := (s.rig rig).take
  t.state ≠ 0 && t.groups.any fun g => g.space = spaceOf key && g.staged.any fun r => overlaps r.1 r.2 (vpnOf key * 65536) 65536

/-- The rig whose open take stages an address. -/
def State.stagingRig (s : State) (space addr : Nat) : Option Nat :=
  (s.rigs.find? fun r => s.inStaged r.1 space addr).map Prod.fst

/-! ### A version is created -/

/-- A version's frame is taken from tier 0 with the page's present value (R254, R334). -/
def State.copyVersion (s : State) (key : Nat) : Version :=
  { page := key, data := s.merged key .current, ver := ((s.page? key).map (·.ver)).getD 0 }

/-- Does the page's home take a write to a line in place now (R192, R194)? -/
def State.homeTakes (s : State) (key line : Nat) : Bool :=
  match s.page? key with
  | some p => p.zero || (match s.moves.find? (·.page = key) with
      | some m => if line < m.mp then s.inPlace m.dest else decide (line > m.mp) && s.inPlace p.tier && !p.ldg
      | none => s.inPlace p.tier && !p.ldg)
  | none => true

/-- A write that the page's home does not take forces its ascent; while the page moves it waits for the move (R194, R195, R211). -/
def State.askAscent (s : State) (key line : Nat) : State :=
  if s.homeTakes key line || s.moves.any (·.page = key) then s else s.forceAscent key

/-- Is a page about to become current: its print is recorded, and the page has not become current yet (R268)? -/
def State.pageChanging (s : State) (key : Nat) : Bool :=
  s.rigs.any fun r => r.2.take.state = 7 && r.2.take.recorded
    && ((s.stagedVer? key r.1).isSome || ((s.stagedLedgers.get none key).isSome && s.ownerOf key = some r.1))

/-- Must a version wait: the home takes no write in place or is to be folded first, another call sheet's output version is in the way,
a print is making the page current, or tier 0 has no frame (R194, R210, R254, R256, R268, R334)? -/
def State.versionWaits (s : State) (key logno line : Nat) : Bool :=
  match s.page? key with
  | some p => p.ldg || !s.homeTakes key line || s.pageChanging key || (match s.outVer? key with
      | some v => v.logno ≠ logno
      | none => false) || decide (s.freeUnits 0 < 16)
  | none => false

/-- Tier 0 traffic of a version's creation: the page is read where it lies in tier 0, and written (R186). -/
def State.countCopy (s : State) (key : Nat) : State :=
  s.tier0Bytes (match s.page? key with
    | some p => if p.tier = 0 && !p.zero then 512 else 256
    | none => 256)

/-- Where a task's write goes: an address fault (R255), it waits, or the version. -/
inductive WriteTo where
  | fault
  | waits (s : State)
  | to (s : State) (w : Which)
  deriving DecidableEq, Repr

/-- The output version of a call sheet, created at its first write of the page (R334). -/
def State.outVer (s : State) (logno rig key line : Nat) : WriteTo :=
  if s.outVers.any fun v => v.page = key && v.logno = logno then .to s (.out logno)
  else if s.versionWaits key logno line then .waits (s.askAscent key line)
  else .to ({ s with outVers := s.outVers ++ [{ s.copyVersion key with rig := rig, logno := logno }] }.countCopy key) (.out logno)

/-- The version a task writes (R254, R255, R334): a task of a take writes a page of a staged range in its staged frame, bytes beyond the range too. -/
def State.writeVer (s : State) (logno rig space addr : Nat) : WriteTo :=
  let key := keyOf space addr
  let line := addr / 256 % 256
  match s.inTake logno with
  | none => if s.inStaged rig space addr then .fault else s.outVer logno rig key line
  | some r =>
    if !s.pageStaged rig key then s.outVer logno rig key line
    else if (s.stagedVer? key r).isSome then .to s (.staged r)
    else if s.versionWaits key logno line then .waits ((s.askAscent key line).offer (Config.evtCode 20) { rig := some r })
    else .to ({ s with staged := s.staged ++ [{ s.copyVersion key with rig := r, logno := logno }] }.countCopy key) (.staged r)

/-! ### Write combining (R213 to R215) -/

/-- The entry with bytes written into it: a whole word takes the poison written, a part keeps it. -/
def WcEntry.put (e : WcEntry) (ofs : Nat) (bs : List (Byte × Bool)) : WcEntry :=
  let e' := { e with bytes := each bs.zipIdx (fun m b => m.set none (ofs + b.2) (some b.1.1)) e.bytes }
  { e' with pois := each (List.range 32) (fun m k =>
      let hit := (List.range 8).filter fun i => decide (ofs ≤ 8 * k + i) && decide (8 * k + i < ofs + bs.length)
      let p := hit.any fun i => ((bs[8 * k + i - ofs]?).map Prod.snd).getD false
      if hit.isEmpty then m else m.set false k (p || (m.get false k && hit.length < 8))) e.pois }

/-- An engine's floor in a buffer of R148 (0 stationary feed, 1 streamed feed, 2 mesh inbound, 3 outbound staging, 4 write
combining, 5 remote inbound) of a tile. -/
def State.floor (s : State) (buf tile user : Nat) : Nat := s.floors.get 0 (2 ^ 32 * buf + 2 ^ 16 * tile + user)

/-- The sum of the floors of buffer 4. -/
def State.wcFloors (s : State) : Nat := ((s.floors.filter fun f => f.1 / 2 ^ 32 = 4).map (·.2)).sum

/-- Does a request for the shared part of a buffer stand before engine `u`'s (R149)? A request stands while its engine waits. -/
def State.bufAhead (s : State) (buf tile u : Nat) (waiting : Nat → Bool) : Bool :=
  (s.bufReqs.takeWhile fun r => r ≠ (buf, tile, u)).any fun r => r.1 = buf && r.2.1 = tile && r.2.2 ≠ u && waiting r.2.2

/-- An engine asks for the shared part of a buffer, and has what it asked for. -/
def State.bufAsk (s : State) (buf tile u : Nat) : State :=
  if s.bufReqs.contains (buf, tile, u) then s else { s with bufReqs := s.bufReqs ++ [(buf, tile, u)] }
def State.bufGot (s : State) (q : Nat → Bool) (u : Nat) : State := { s with bufReqs := s.bufReqs.filter fun r => !(r.2.2 = u && q r.1) }

/-- Has an engine a write to the device range that has not been accepted? -/
def State.wcWaiting (s : State) (u : Nat) : Bool :=
  match (s.eng (u / 8) (u % 8)).run with
  | .ready g => g.xfers.any fun x => x.write && x.base.cls = 0
  | _ => false

/-- The entries that an engine holds, and how many lie above its floor. -/
def State.wcHeld (s : State) (user : Nat) : Nat := (s.wc.filter (·.user = user)).length

/-- May an engine take a new entry (R149)? Its floor first, then the shared part. -/
def State.wcRoom (s : State) (user : Nat) : Bool :=
  let ovr := ((s.wc.map (·.user)).eraseDups.map fun u => s.wcHeld u - s.floor 4 0 u / 256).sum
  decide (s.wcHeld user < s.floor 4 0 user / 256)
    || (decide (ovr < (2 ^ 22 - s.wcFloors) / 256) && !s.bufAhead 4 0 user s.wcWaiting)

/-- Does a write to a version's line find or get an entry? -/
def State.wcAccepts (s : State) (key line : Nat) (w : Which) (user : Nat) : Bool :=
  (s.wc.any fun e => e.page = key && e.line = line && e.which = w) || s.wcRoom user

/-- Bytes accepted by the buffer for a line of a version. -/
def State.wcWrite (s : State) (key line : Nat) (w : Which) (ofs : Nat) (bs : List (Byte × Bool)) (user : Nat) : State :=
  let s := s.traffic 1 1
  if s.wc.any fun e => e.page = key && e.line = line && e.which = w then
    { s with wc := s.wc.map fun e => if e.page = key && e.line = line && e.which = w then e.put ofs bs else e }
  else { s with wc := s.wc ++ [({ page := key, line := line, which := w, user := user } : WcEntry).put ofs bs] }

/-- An entry is flushed to its home (R214, R215): the line is read, merged and written back. -/
def State.flushEntry (s : State) (e : WcEntry) (errs : List (Nat × Nat)) : State :=
  let (tier, frame) := s.verHome e.page e.which
  let full := (List.range 256).all fun i => (e.bytes.get none i).isSome
  let o := (s.verData e.page e.which).ecc (32 * e.line) 32 (if full then [] else errs) (Config.freeNat s.fresh)
  let s := if errs.isEmpty then s else s.spend
  let s := s.noteEcc o (s.wordAt tier frame)
  let s := when (tier = 1 && !o.uncorrectable.isEmpty) (·.noteLost e.page) s
  let s := s.modVer e.page e.which fun _ => o.c.mergeEntry e
  let s := { ((s.bump F.TIER_NWCBF_COUNT).traffic 1 1) with wc := s.wc.filter fun x => !(x.page = e.page && x.line = e.line && x.which = e.which) }
  let n := if full then 1 else 2
  if tier = 0 then s.tier0Bytes n else if tier = 1 then s.traffic 3 n else s

/-- The entries of a page's line are flushed (R192, R213). -/
def State.flushLine (s : State) (key line : Nat) (w : Which) : State :=
  each (s.wc.filter fun e => e.page = key && e.line = line && e.which = w) (fun s e => s.flushEntry e []) s

/-! ### Outside writes: the host window and the fabric (R213, R255, R284, R335, R349) -/

/-- May an outside write land on a line now? A ZERO page finds a frame in tier 0 (R184, R216); another has no pending update, its home accepts
writes in place, it is not moving past the line, and no print is making it current (R192, R194, R211, R268). -/
def State.outsideReady (s : State) (key line : Nat) : Bool :=
  match s.page? key with
  | none => true
  | some p =>
    !s.heldWaits key && !s.pageChanging key && (!p.zero || decide (16 ≤ s.freeUnits 0)) && (p.zero || !s.homeWaits p.tier p.frame line)
      && s.homeTakes key line

/-- The home of a page's current version moves to tier 0 with a content, whose frame is taken now (R184, R266, R336); what was queued to move it from its former home is moot. -/
def State.rehome (s : State) (key : Nat) (c : Content) : State :=
  let f := s.newFrame 0 16
  let s := s.deallocate ((s.page? key).bind Page.ownT3)
  let s := { s with forcedQ := s.forcedQ.filter (· ≠ key), ascentQ := s.ascentQ.filter (· ≠ key), descentQ := s.descentQ.filter (·.page ≠ key) }
  (s.modPage key fun p => { p with zero := false, tier := 0, cmp := false, len := 15, frame := f, data := c, linePois := [],
                                   resv := 0 }).spend

/-- A version of a page becomes current (R266, R336, R348, R349): the former content is kept where a READ record names it, the
buffer's entries of the version become entries of the current one. -/
def State.becomeCurrent (s : State) (v : Version) (w : Which) : State :=
  let s := s.newVersion v.page
  let wc : List WcEntry := (s.wc.filter fun e => !(e.page = v.page && e.which = .current)).map fun e =>
    if e.page = v.page && e.which = w then { e with which := .current } else e
  { s with wc := wc }.rehome v.page v.data

/-- Bytes of an outside write land in a page's current version, and go to the twin where it mirrors the page (R367). -/
def State.landBytes (s : State) (key ofs : Nat) (bs : List (Byte × Bool)) : State :=
  (when (s.mirrorsPages && s.tether.mirrored.contains key) (·.sendPage (spaceOf key) (vpnOf key * 2 ^ 16 + ofs) 0 bs) s).modVer key .current
    fun c => c.writeP ofs bs

/-- An outside write of bytes to a line of the printed or current version (R206, R216, R255, R335), where the page's version number has gone up. -/
def State.outsideLand (s : State) (key ofs : Nat) (bs : List (Byte × Bool)) : State :=
  let space := spaceOf key
  let addr := vpnOf key * 2 ^ 16 + ofs
  let line := ofs / 256
  let s := match s.stagingRig space addr with
    | some r => if (s.stagedVer? key r).isSome then s.recAbort r else s
    | none => s
  let s := match s.outVer? key with
    | some v => s.abortTask v.logno 0x0F 0 none
    | none => s
  let s := s.flushLine key line .current
  (when (((s.page? key).map (·.zero)).getD false) (·.rehome key {}) s).landBytes key ofs bs

/-- An outside write makes a new version of its page (R348). -/
def State.outsideWrite (s : State) (key ofs : Nat) (bs : List (Byte × Bool)) : State := (s.newVersion key).outsideLand key ofs bs

/-- An outside write of a page that cannot be made now waits: for a held version's frame (R349), or for the page's ascent, which it forces (R194). -/
def State.outsideWait (s : State) (key : Nat) : State :=
  let s := when (s.heldWaits key) (·.holdWrites [(key, 0)]) s
  match s.page? key with
  | some p => if !(s.moves.any (·.page = key)) && !p.zero && (p.ldg || !s.inPlace p.tier) then s.forceAscent key else s
  | none => s

/-- What a read of the device for a task gives: what it read; that it cannot be used (R139, R333); that a line of a sealed page is being
reread from its negative; that the negative is lost (R197). -/
inductive Fetched (α : Type) where
  | got (a : α)
  | unusable
  | waits
  | negLost
  deriving DecidableEq, Repr

def Fetched.map {α β : Type} (f : α → β) : Fetched α → Fetched β
  | .got a => .got (f a)
  | .unusable => .unusable
  | .waits => .waits
  | .negLost => .negLost

/-- Two reads together: the first that gives nothing decides. -/
def Fetched.both {α β : Type} : Fetched α → Fetched β → Fetched (α × β)
  | .got a, .got b => .got (a, b)
  | .got _, .unusable => .unusable
  | .got _, .waits => .waits
  | .got _, .negLost => .negLost
  | .unusable, _ => .unusable
  | .waits, _ => .waits
  | .negLost, _ => .negLost

def Fetched.got? {α : Type} : Fetched α → Option α
  | .got a => some a
  | _ => none

/-- Does an access to one of `n` bytes from `ofs` on of a page's version wait? -/
def State.rangeWaits (s : State) (key : Nat) (w : Which) (ofs n : Nat) : Bool :=
  let h := s.verHome key w
  !((s.page? key).map (·.zero)).getD true
    && (List.range ((min 65536 (ofs + n) + 255) / 256 - ofs / 256)).any fun i => s.homeWaits h.1 h.2 (ofs / 256 + i)

/-- What the pages of a read by the device gave so far: bytes, lines to reread, whether a chunk is to be read again. -/
structure FetchAcc where
  s : State
  data : List (Byte × Bool) := []
  reread : List (Nat × Nat) := []
  again : Bool := false
  deriving DecidableEq, Repr

/-- What a read that waits leaves: the rereads, ascents and second reads that it has asked for (R197, R204, R210). -/
def State.waitsAs (s t : State) : State :=
  { s with negReads := t.negReads, forcedQ := t.forcedQ, ascentQ := t.ascentQ, chunkBad := t.chunkBad, fresh := t.fresh }

/-- A read by the device for a rig (R139, R331, R333): unusable where it is not allowed or a word is poisoned. It waits where its line is in transit or
a print makes its page current (R192, R268); a page with LDG set is forced to ascend and folded first (R210, R211). A line of a sealed page with an
uncorrectable word, or lost, is reread from its negative, and `tasks` wait for it (R22, R197). -/
def State.fetch (s : State) (rig space addr n : Nat) (errs : List (Nat × Nat)) (w : Nat → Which) (tasks : List (Nat × Nat)) :
    State × Fetched (List Byte) :=
  let pieces := (List.range ((addr % 2 ^ 16 + n + 65535) / 65536)).map fun i =>
    let a := if i = 0 then addr else (addr / 65536 + i) * 65536
    (keyOf space a, a % 65536, min (addr + n - a) (65536 - a % 65536), a - addr)
  let folds := pieces.filter fun x => w x.1 = .current && s.foldWaits x.1 x.2.1 x.2.2.1
  if !(pieces.all fun x => s.mayRead rig x.1) then (s, .unusable)
  else if pieces.any fun x => s.rangeWaits x.1 (w x.1) x.2.1 x.2.2.1
      || (w x.1 = .current && (s.pageChanging x.1 || s.inTransit x.1 x.2.1 x.2.2.1)) then (s, .waits)
  else if !folds.isEmpty then (each folds (fun s x => s.forceAscent x.1) s, .waits)
  else
    let step := fun (acc : FetchAcc) (x : Nat × Nat × Nat × Nat) =>
      let e := (errs.filter fun e => decide (8 * e.1 ≥ x.2.2.2) && decide (8 * e.1 < x.2.2.2 + x.2.2.1)).map fun e => (e.1 - x.2.2.2 / 8, e.2)
      let r := acc.s.readPage x.1 (w x.1) x.2.1 x.2.2.1 e (if w x.1 = .current && s.homeGone x.1 then linesIn x.2.1 x.2.2.1 else [])
      ({ s := r.s.touch x.1, data := acc.data ++ r.data, reread := acc.reread ++ r.reread.map fun l => (x.1, l)
         again := acc.again || !r.again.isEmpty } : FetchAcc)
    let r := each pieces step { s := s }
    if r.again then (s.waitsAs r.s, .waits)
    else if r.reread.any fun x => !((s.page? x.1).map (·.neg)).getD false then (r.s, .negLost)
    else if !r.reread.isEmpty then (each r.reread (fun s x => s.wantReread x.1 x.2 [] tasks) r.s, .waits)
    else (r.s, if r.data.any Prod.snd then .unusable else .got (r.data.map Prod.fst))

/-- The bytes that such a read gives, where it gives them. -/
def State.fetchBytes (s : State) (rig space addr n : Nat) (errs : List (Nat × Nat)) (w : Nat → Which) : State × Option (List Byte) :=
  let r := s.fetch rig space addr n errs w []
  (r.1, r.2.got?)

end Sys2Proof.Machine
end

