-- ==== Sys2Proof/Machine/Store.lean ====
section
/-! DEFINITION. A tile's store under the word code (R13, R220, R221, R358). -/

namespace Sys2Proof.Machine

/-- Bytes of a tile store (R13). -/
def storeSize : Nat := 6 * 2 ^ 20

/-- A failing tile-store row is replaced by one of the 128 spares (R358): its words are copied. -/
def State.spareRow (s : State) (p row : Nat) : State :=
  let t := s.tile p
  if t.rowSpares.length < 128 then
    (s.modTile p fun t => { t with rowSpares := t.rowSpares ++ [row], rowCes := t.rowCes.set 0 row 0 }).spareIn 3 1 p row
      (6144 - 128 + t.rowSpares.length)
  else s

/-- What the word code found in words of a tile store: counts, row spares. -/
def State.noteStore (s : State) (p : Nat) (o : EccOut) : State :=
  let s := s.noteEcc o fun w => { w := 0, unit := p, addr := 8 * w }
  let s := s.modTile p fun t => { t with rowCes := each o.corrected (fun m w => m.upd 0 (w / 128) (· + 1)) t.rowCes }
  let rows := ((o.uncorrectable.map (· / 128)) ++
    (o.corrected.map (· / 128)).filter fun r => (s.tile p).rowCes.get 0 r ≥ 16).eraseDups
  each rows (fun s r => s.spareRow p r) s

/-- Words of a tile store that the code found in error: counted, written back corrected or poisoned (R220, R221). -/
def State.storeErrs (s : State) (p w nw : Nat) (errs : List (Nat × Nat)) : State :=
  if errs.isEmpty then s
  else
    let o := (s.tile p).store.ecc w nw errs (Config.freeNat s.fresh)
    (s.spend.modTile p fun t => { t with store := o.c }).noteStore p o

/-- A read of `n` bytes of a tile store: what the code corrects or poisons is written back; traffic of the tile stores (R245). -/
def State.storeRead (s : State) (p a n : Nat) (errs : List (Nat × Nat)) : State × List (Byte × Bool) :=
  let s := s.traffic 0 ((n + 255) / 256)
  if errs.isEmpty then (s, (s.tile p).store.read a n)
  else
    let o := (s.tile p).store.ecc (a / 8) ((a + n + 7) / 8 - a / 8) errs (Config.freeNat s.fresh)
    let s := (s.spend.modTile p fun t => { t with store := o.c }).noteStore p o
    (s, o.c.read a n)

/-- A write of bytes with poison to a tile store. -/
def State.storeWrite (s : State) (p a : Nat) (bs : List (Byte × Bool)) : State :=
  (s.modTile p fun t => { t with store := t.store.writeP a bs }).traffic 0 ((bs.length + 255) / 256)

end Sys2Proof.Machine
end

