-- ==== Sys2Proof/Machine/Part.lean ====
section
/-! DEFINITION. Call sheets and their parts (R330 to R333, R139, R270, R350): decoding, a part started, a part replayed. -/

namespace Sys2Proof.Machine

/-! ### The call sheet (R330) -/

/-- A little-endian field of a byte string. -/
def field (b : List Byte) (at_ n : Nat) : Nat := leNat ((b.drop at_).take n)

/-- Are bytes `a` to `z - 1` zero? -/
def zeros (b : List Byte) (a z : Nat) : Bool := field b a (z - a) = 0

/-- A call sheet decoded; `reserved` says that a byte or bit with no field is not zero. -/
def decodeSheet (b : List Byte) : CallSheet :=
  { kind := field b 0 1, ctl := field b 1 1, num := field b 2 1, rout := field b 3 1, bank := field b 4 1
    tmask := field b 8 9, dspace := field b 18 2, nrow := field b 20 4, klen := field b 24 4, sbspace := field b 28 2
    xdaddr := field b 32 8, dtab := field b 40 8, user := field b 48 8
    args := (List.range 8).map fun k => field b (64 + 4 * k) 4
    reserved := !(decide (field b 1 1 < 64) && decide (field b 2 1 < 32) && decide (field b 3 1 < 128) && !bit (field b 4 1) 3
      && zeros b 5 8 && zeros b 17 18 && decide (field b 18 2 < 4096) && decide (field b 28 2 < 4096) && zeros b 30 32
      && decide (field b 32 8 < 2 ^ 52) && decide (field b 40 8 < 2 ^ 52) && zeros b 56 64 && zeros b 96 128) }

def CallSheet.take (c : CallSheet) : Nat := bits c.ctl 1 0
def CallSheet.lsarg (c : CallSheet) : Bool := bit c.ctl 2
def CallSheet.fence (c : CallSheet) : Bool := bit c.ctl 3
def CallSheet.noirq (c : CallSheet) : Bool := bit c.ctl 4
def CallSheet.pass (c : CallSheet) : Nat := bits c.num 1 0
def CallSheet.strict (c : CallSheet) : Bool := bit c.num 2
def CallSheet.f19tr (c : CallSheet) : Bool := bit c.num 3
def CallSheet.accn (c : CallSheet) : Bool := bit c.num 4
def CallSheet.rvalid (c : CallSheet) : Bool := bit c.rout 6
def CallSheet.fbank (c : CallSheet) : Nat := bits c.bank 1 0
def CallSheet.clear (c : CallSheet) : Bool := bit c.bank 2
def CallSheet.drainq (c : CallSheet) : Nat := bits c.bank 7 4
def CallSheet.tiles (c : CallSheet) : List Nat := (List.range 72).filter (bit c.tmask)

/-! ### Fused arrays (R52, R53) -/

/-- Row groups and column groups. -/
def Fused.rg (f : Fused) : Nat := 2 ^ (f.shape / 4 % 4)
def Fused.cg (f : Fused) : Nat := 2 ^ (f.shape % 4)

/-- The logical members whose banks receive outputs, by column group. -/
def Fused.bottoms (f : Fused) : List Nat := f.members.drop ((f.rg - 1) * f.cg)

/-- The array that logical tile `t` belongs to; an unfused tile is its own. -/
def State.fusedAt (s : State) (rig t : Nat) : Fused :=
  ((s.rig rig).fused.find? fun f => f.members.contains t).getD { members := [t] }

/-- The lead of the array of a logical tile. -/
def Fused.lead (f : Fused) : Nat := f.members.headD 0

/-! ### A part's work -/

/-- The parts of a call sheet (R333): for an array task unfused tiles and fused arrays, else single tiles, by lead. -/
def State.partsOf (s : State) (rig : Nat) (c : CallSheet) : List (List Nat) :=
  if c.kind = 1 then
    ((c.tiles.filter fun t => (s.fusedAt rig t).lead = t).map fun t => (s.fusedAt rig t).members)
  else c.tiles.map fun t => [t]

/-- Segments of an array task (R270). -/
def State.segments (s : State) (rig : Nat) (c : CallSheet) : Nat :=
  let l := s.get F.IMG_RSTC_SEGLEN rig
  if l = 0 ∨ c.nrow ≤ l then 1 else (c.nrow + l - 1) / l

/-- Source rows of a segment. -/
def State.segRows (s : State) (rig : Nat) (c : CallSheet) (seg : Nat) : Nat :=
  let l := s.get F.IMG_RSTC_SEGLEN rig
  if l = 0 ∨ c.nrow ≤ l then c.nrow else min l (c.nrow - seg * l)

/-- The form of the stationary block a task needs (R65). -/
def CallSheet.form (c : CallSheet) : Nat := if c.strict then 2 else if c.pass = 3 then 1 else 0

/-- The version of a page that a part's READ record holds, else the present one (R65, R348), and its low 16 bits (R349). -/
def State.recVer (s : State) (logno lead key : Nat) : Nat :=
  ((s.log.filterMap fun r => if r.logno = logno && r.lead = lead then (match r.kind with
    | .read p v => if p = key then some v else none
    | _ => none) else none).head?.getD (((s.page? key).map (·.ver)).getD 0)) % 2 ^ 16

/-- The task that segment `seg` of a part enters in the array's list (R65, R270). Of a block that spans pages the operand version is that of
the page of its first stationary element (log entry 114). -/
def State.arrTask (s : State) (h : Sheet) (q : Part) (seg : Nat) : ArrTask :=
  let c := h.cs
  let l := s.get F.IMG_RSTC_SEGLEN h.rig
  { ref := { logno := h.logno, lead := q.lead, seg := seg }, rig := h.rig, space := c.sbspace
    row0 := seg * l, rows := s.segRows h.rig c seg, totalRows := c.nrow, klen := c.klen, pass := c.pass, strict := c.strict
    f19tr := c.f19tr, accn := c.accn, clear := c.clear, fbank := c.fbank, drainq := c.drainq, xd := h.xd
    id := { space := c.sbspace, addr := q.saddr, ver := s.recVer h.logno q.lead (keyOf c.sbspace q.saddr), xd := c.xdaddr
            shape := (s.fusedAt h.rig q.lead).shape, form := c.form, f19tr := c.f19tr } }

/-- A task enters an array's list (R66). -/
def State.enterTask (s : State) (t : ArrTask) : State :=
  s.modArr (s.phys t.ref.lead) fun a => { a with list := a.list ++ [t] }

/-- The arms that the descriptor table names for a part: logical tile, engine, descriptor address (R331). -/
def Part.arms (q : Part) : List (Nat × Nat × Nat) :=
  q.tiles.zipIdx.flatMap fun t => (List.range 8).filterMap fun e =>
    let a := q.descs.get 0 (8 * t.2 + e)
    if a = 0 then none else some (t.1, e, a)

/-- The tile controller arms an engine (R139, R140): where both slots are occupied the arm is held. -/
def State.tileArm (s : State) (p e : Nat) (a : Arm) (ahead : Bool) : State :=
  s.modEng p e fun x => (x.arm a ahead).getD { x with held := x.held ++ [a] }

/-- Routine runs of a part: one for each segment and bottom member, or one for each tile (R119, R271). -/
def State.routineRuns (s : State) (h : Sheet) (q : Part) : Nat :=
  if !h.cs.rvalid then 0
  else if h.cs.kind = 1 then s.segments h.rig h.cs * (s.fusedAt h.rig q.lead).bottoms.length else q.tiles.length

/-- A part starts from its beginning: engines armed, first segment or routine entered (R119, R139, R270, R350). -/
def State.startPart (s : State) (logno lead : Nat) (ahead : Bool) : State :=
  match s.sheet logno with
  | none => s
  | some h => match h.part lead with
    | none => s
    | some q =>
      let arms := q.arms
      let array := decide (h.cs.kind = 1)
      let s := s.modPart logno lead fun q => { q with
        gens := arms.length, ords := [], done := false
        segsLeft := if array then s.segments h.rig h.cs - 1 else 0
        rowsLeft := if array then h.cs.nrow else 0
        routLeft := s.routineRuns h q }
      let s := each arms (fun s a =>
        s.tileArm (s.phys a.1) a.2.1 { logno := logno, lead := lead, space := h.cs.dspace, addr := a.2.2 } ahead) s
      if array then s.enterTask (s.arrTask h q 0)
      else if h.cs.rvalid then
        each q.tiles (fun s t => s.modVec (s.phys t) fun v => { v with order := v.order ++ [{ logno := logno, lead := lead }] }) s
      else s

/-! ### Replay (R350) -/

/-- Is a slot the part's? -/
def Slot.ofPart (logno lead : Nat) : Slot → Bool
  | .empty => false
  | .checking a => a.logno = logno && a.lead = lead
  | .ready g => g.logno = logno && g.lead = lead

/-- An engine drops what it holds of a part; nothing is promoted yet, and a stopped engine stays stopped (R141). -/
def Eng.dropPart (x : Eng) (logno lead : Nat) : Eng :=
  let hit := x.run.ofPart logno lead
  { x with run := if hit then .empty else x.run,
           shd := if x.shd.ofPart logno lead then .empty else x.shd,
           held := x.held.filter fun a => !(a.logno = logno && a.lead = lead) }

/-- A stopped engine that no replay arms again is idle. -/
def Eng.unstop (x : Eng) : Eng := { x with stopped := x.stopped && x.run != .empty }

/-- The rows of a bank that its task has reserved in this block. -/
def Bank.reserved (b : Bank) : List Nat := (List.range b.done ++ b.resv).eraseDups

/-- A bank of a tile before a replay (R350, R94): restored from its BANK record where there is one, else the rows that the part
reserved are cleared; a bank that another task holds is left. -/
def State.resetBank (s : State) (logno lead p b : Nat) : State :=
  let bk := (s.tile p).bank b
  let mine := bk.task.logno = logno && bk.task.lead = lead
  let saved := s.log.find? fun r => r.logno = logno && r.lead = lead && (match r.kind with
    | .bank t b' _ _ => t = p && b' = b
    | _ => false)
  if mine || bk.task.logno = 0 then
    match saved with
    | some r => (match r.kind with
      | .bank _ _ elems prox => s.modBank p b fun _ => { elems := elems, preProx := prox }
      | _ => s)
    | none => if mine then s.modBank p b fun x =>
        { elems := x.elems.keep fun k _ => !x.reserved.contains (k / 128), preProx := x.preProx } else s
  else s

/-- A part's work on one of its tiles is dropped. -/
def State.dropPartTile (s : State) (logno lead p : Nat) : State :=
  let t := s.tile p
  let vecMine := t.vec.running && t.vec.task.logno = logno && t.vec.task.lead = lead
  let s := each (List.range 8) (fun s e => when (((s.eng p e).run.ofPart logno lead)) (·.unwait p e) s) s
  let s := when vecMine (·.unwait p 8) s
  let s := each (List.range 8) (fun s e => s.modEng p e fun x => x.dropPart logno lead) s
  let mine : TaskRef → Bool := fun r => r.logno = logno && r.lead = lead
  let s := s.modTile p fun t => { t with finQ := t.finQ.filter fun b => !mine (t.bank b).task }
  let s := each (List.range 4) (fun s b => s.resetBank logno lead p b) s
  s.modTile p fun t => { t with
    arr := { t.arr with list := t.arr.list.filter fun x => !mine x.ref, fly := t.arr.fly.filter fun x => !mine x.task.ref,
                        run := (match t.arr.run with
                          | some r => if mine r.task.ref then none else some r
                          | none => none),
                        blk := (match t.arr.run with
                          | some r => if mine r.task.ref && r.loading then none else t.arr.blk
                          | none => t.arr.blk) },
    skipS := t.skipS.set 0 logno 0, lastFeed := (t.lastFeed.set none (2 * logno) none).set none (2 * logno + 1) none,
    feedS := t.feedS.filter (·.logno ≠ logno), feedT := t.feedT.filter (·.logno ≠ logno),
    ftq := t.ftq.map fun x => if mine x.task then { x with old := true } else x,
    copy := (match t.copy with
      | some c => if mine c.task then none else some c
      | none => none),
    vec := { t.vec with order := t.vec.order.filter fun x => !mine x, running := t.vec.running && !vecMine,
                        wait := if vecMine then 0 else t.vec.wait } }

/-- A tile needs a replacement (R358). -/
def State.needTile (s : State) (p : Nat) : State :=
  if s.tilesNeed.contains p then s else { s with tilesNeed := s.tilesNeed ++ [p] }

/-- The part of a call sheet in progress that a replay concerns: not complete, its sheet without a cause. -/
def State.livePart (s : State) (logno lead : Nat) : Option Part :=
  match s.sheet logno with
  | none => none
  | some h => if h.status.isSome then none else (h.part lead).filter fun q => !q.done

/-- The read of the log for a replay finds copies of records unreadable (R346). -/
def State.noteUnread (s : State) (l : List (Nat × Nat)) : State :=
  { s with log := s.log.map fun (r : LogRec) => { r with bad := min 2 (r.bad + ((l.filter (·.1 = r.seq)).map (·.2)).sum) } }

/-- Can no copy of a record be read: neither of the two in the head, neither the ring's nor, where mirroring is in force, the twin's (R346)? -/
def State.recLost (s : State) (r : LogRec) : Bool :=
  decide (r.bad ≥ (if r.ring then 1 + b2n (s.mirrors && s.get F.TWN_STAT_STATE = 4) else 2))

/-- The records that a replay of a part reads: those of the part and its call sheet's own. -/
def State.partRecs (s : State) (logno lead : Nat) : List LogRec :=
  s.log.filter fun r => r.logno = logno && (r.lead = lead || (match r.kind with
    | .sheet _ _ => true
    | _ => false))

/-- A part restarts from its beginning (R336, R350); a third time it ends the call sheet, and so does a record that no copy gives (R346). `p`: the tile
that the record names. -/
def State.restartPart (s : State) (logno lead p : Nat) : State :=
  match s.livePart logno lead with
  | none => s
  | some q =>
    if q.replays ≥ 2 then s.abortTask logno 0x09 0 (some lead)
    else if (s.partRecs logno lead).any s.recLost then (s.raiseFlag F.TWN_LSTAT_LUE).abortTask logno 0x09 0 (some lead)
    else
      let s := when ((s.partRecs logno lead).any fun r => decide (r.bad > 0)) (·.recovery 9 0 0 logno 0) s
      let part := ((s.sheet logno).map fun h => h.parts.findIdx (·.lead = lead)).getD 0xFF
      let tiles := q.tiles.map s.phys
      let s := each tiles (fun s x => s.dropPartTile logno lead x) s
      let s := s.modSheet logno fun h => ({ h with repl := true, fpart := min h.fpart part } : Sheet).modPart lead fun q =>
        { q with replays := q.replays + 1 }
      let s := ((s.bump F.TWN_NREPL_COUNT).offerTile 0x3C1 p).recovery 0 1 p logno part
      let s := s.startPart logno lead true
      each tiles (fun s x => each (List.range 8) (fun s e => (s.modEng x e Eng.unstop).promote x e) s) s

/-- A part is replayed after a fault in physical tile `p`, whose replays count (R358); `hard`: an array or bank fault, which makes the
tile need a replacement when it recurs. -/
def State.replayPart (s : State) (logno lead p : Nat) (hard : Bool) : State :=
  match s.livePart logno lead with
  | none => s
  | some q =>
    let s := when (hard && decide (q.replays ≥ 1)) (·.needTile p) s
    let s := if q.replays ≥ 2 then s else s.modTile p fun t => { t with replays := t.replays + 1 }
    let s := when (decide (q.replays < 2) && decide ((s.tile p).replays ≥ s.get F.TWN_SPCFGNOW_REPTHR)) (·.needTile p) s
    s.restartPart logno lead p

/-- A fault hands a part to replay (R70, R94, R122, R147, R346, R350). -/
def State.faultPart (s : State) (logno lead p : Nat) (hard : Bool) (unread : Unread) : State := (s.noteUnread unread).replayPart logno lead p hard

/-- A parity error of a unit counts in the heat epoch (R358); true: it is the second. -/
def State.parityOf (s : State) (p unit : Nat) : Bool × State :=
  let n := (s.tile p).perrs.get 0 unit + 1
  (decide (n ≥ 2), s.modTile p fun t => { t with perrs := t.perrs.set 0 unit n })

end Sys2Proof.Machine
end

