-- ==== Sys2Proof/Machine/Sync.lean ====
section
/-! DEFINITION. Signals, barriers, groups (spec 12, R295 to R316): raise and wait, and the commands of the sync block. -/

namespace Sys2Proof.Machine

/-! ### Waking -/

/-- The loop stack after the word at `pc` has issued, and the next word (R109): a finished body runs again or is left. -/
def loopNext (pc : Nat) : List VLoop → List VLoop × Nat
  | [] => ([], pc + 1)
  | l :: ls =>
    if l.last = pc then
      if l.left > 0 then ({ l with left := l.left - 1 } :: ls, l.first) else loopNext pc ls
    else (l :: ls, pc + 1)

/-- The routine goes on after the word at its PC. -/
def Vec.advance (v : Vec) : Vec :=
  let n := loopNext v.pc v.loops
  { v with pc := n.2, loops := n.1, wait := 0 }

/-- The engine's shot list goes on after its PC. -/
def State.shotNext (s : State) (p e : Nat) : State := s.modGen p e fun g => { g with pc := g.pc + 1, wait := 0 }

/-- A sleeping unit wakes: SYN_NWAKE counts it and it is offered (R303, R315, R316). -/
def State.noteWake (s : State) (p : Nat) : State := (s.bump F.SYN_NWAKE_COUNT).offerTile (Config.evtCode 74) p

/-- A stream engine that sleeps with a wait code wakes and tests its condition again (R303). -/
def State.wakeEng (s : State) (p e code : Nat) : State :=
  match s.gen? p e with
  | some g => if g.wait = code then (s.modGen p e fun g => { g with wait := 0 }).noteWake p else s
  | none => s

/-- The vector engine that sleeps for a queue entry wakes and tests its condition again (R104, R303). -/
def State.wakeVec (s : State) (p : Nat) : State :=
  if (s.tile p).vec.running && (s.tile p).vec.wait = 1 then (s.modVec p fun v => { v with wait := 0 }).noteWake p else s

/-- A waiter has consumed a raise and goes on (R296, R303); the wait is marked in the log (R351). -/
def State.wake (s : State) (w : Waiter) : State :=
  let s := s.noteWake w.tile
  if w.unit = 8 then
    let t := (s.tile w.tile).vec.task
    ((s.markDone t.logno t.lead (unitKey w.tile 8) 0).modVec w.tile (·.advance)).bump F.VEC_NINS_COUNT 1 w.tile
  else
    let s := match s.gen? w.tile w.unit with
      | some g => s.markDone g.logno g.lead (unitKey w.tile w.unit) 0
      | none => s
    s.shotNext w.tile w.unit

/-! ### Raises (R296 to R298) -/

/-- A raise that reaches a signal's count: the oldest waiter consumes it, else the count goes up, saturating. -/
def State.raiseCount (s : State) (sig : Nat) : State :=
  match s.waiters.get [] sig with
  | w :: ws => ({ s with waiters := s.waiters.set [] sig ws }).wake w
  | [] =>
    let c := s.sigs.get 0 sig
    if c < 65535 then { s with sigs := s.sigs.set 0 sig (c + 1) }
    else ((s.raiseFlag F.SYN_STAT_SSAT).setReg F.SYN_SLAST_SIG sig).bump F.SYN_NSAT_COUNT
      |>.offer 0x383 { rig := s.rigOfSig sig }

/-- The enabled on-chip barrier whose ARRS is a signal. -/
def State.obOf (s : State) (sig : Nat) : Option Nat :=
  (s.regs.filterMap fun e => if e.1 % 1024 = F.SYN_OB_0_EN.id then some (e.1 / 1024) else none).find? fun k =>
    s.flag F.SYN_OB_0_EN k && s.get F.SYN_OB_0_ARRS k = sig

/-- The enabled cross-device barriers. -/
def State.xbOn (s : State) : List Nat :=
  (s.regs.filterMap fun e => if e.1 % 1024 = F.SYN_XB_0_EN.id then some (e.1 / 1024) else none).filter fun k =>
    s.flag F.SYN_XB_0_EN k

def State.xbOf (s : State) (sig : Nat) : Option Nat := s.xbOn.find? fun k => s.get F.SYN_XB_0_ARRS k = sig

def obKey (k p : Nat) : Nat := 128 * k + p

/-- An arrival at on-chip barrier `k` (R305): of a tile in the mask; any other raise of ARRS is dropped. -/
def State.obArrive (s : State) (k : Nat) (src : Option Nat) : State :=
  match src with
  | some p =>
    if bit (s.get F.SYN_OB_PM_PMASK k) p then
      let c := s.obArr.get 0 (obKey k p)
      if c < 255 then { s with obArr := s.obArr.set 0 (obKey k p) (c + 1) } else s.raiseFlag F.SYN_OB_ST_BSAT k
    else s.raiseFlag F.SYN_OB_ST_BNM k
  | none => s.raiseFlag F.SYN_OB_ST_BNM k

def State.xbar (s : State) (k : Nat) : Xbar := s.xbars.get {} k
def State.modXbar (s : State) (k : Nat) (f : Xbar → Xbar) : State := { s with xbars := s.xbars.upd {} k f }

/-- The members of barrier `k`'s group and this device's position (R309). -/
def State.xbTree (s : State) (k : Nat) : List Nat × Nat :=
  let ms := (s.group? (s.get F.SYN_XB_0_GRP k)).getD []
  (ms, ms.findIdx (· = s.myId))

/-- The positions of a member's children in the tree of fan-out 8. -/
def childrenOf (n pos : Nat) : List Nat := (List.range 8).map (8 * pos + 1 + ·) |>.filter (· < n)

/-- A BAR frame of barrier `k` (R309); CNT names the sender's barrier, so that a REJ does (log entry 33). -/
def State.barFrame (s : State) (k : Nat) (rel : Bool) (dst : Nat) : Frame :=
  { ftype := ftBAR, dst := dst, cnt := k,
    arg := s.get F.SYN_XB_4_TAG k + s.get F.SYN_XB_0_GRP k * 2 ^ 16 + b2n rel * 2 ^ 28 + s.get F.SYN_XB_PH_PHASE k * 2 ^ 32 }

/-- A BAR frame sent, and kept in case it is rejected (R311). -/
def State.sendBar (s : State) (k : Nat) (rel : Bool) (dst : Nat) : State :=
  let f := s.barFrame k rel dst
  (s.sendFrame f).modXbar k fun x => { x with lastSent := x.lastSent.filter (·.dst ≠ dst) ++ [f] }

/-- The phase of barrier `k` is released here (R309): the release goes to the children, one arrival of each is taken, RELS is
raised by NREL and PHASE goes up. -/
def State.xbRelease (raise : State → Nat → State) (s : State) (k : Nat) : State :=
  let (ms, pos) := s.xbTree k
  let kids := childrenOf ms.length pos
  let s := each kids (fun s j => s.sendBar k true (ms.getD j 0)) s
  let s := s.modXbar k fun x =>
    { x with arr := x.arr - 1, child := each kids (fun c j => c.upd 0 j (· - 1)) x.child, sent := false, timedOut := false,
             arrAt := x.arrAt.drop 1 }
  let s := ((s.bump F.SYN_XB_PH_PHASE 1 k).bump F.SYN_NXBC_COUNT).offer (Config.evtCode 76)
    { rig := s.rigOfSig (s.get F.SYN_XB_0_ARRS k) }
  each (List.range (s.get F.SYN_XB_8_NREL k)) (fun s _ => raise s (s.get F.SYN_XB_4_RELS k)) s

/-- What barrier `k` does once its own arrival and its children's are in: the root completes phases while it can, another
member sends its arrive frame. -/
def State.xbStep (raise : State → Nat → State) (k : Nat) : Nat → State → State
  | 0, s => s
  | n + 1, s =>
    let (ms, pos) := s.xbTree k
    let x := s.xbar k
    if x.arr ≥ 1 && !x.sent && (childrenOf ms.length pos).all fun j => x.child.get 0 j ≥ 1 then
      if pos = 0 then State.xbStep raise k n (s.xbRelease raise k)
      else (s.sendBar k false (ms.getD ((pos - 1) / 8) 0)).modXbar k fun x => { x with sent := true }
    else s

/-- A local arrival at barrier `k` (R308): an 8-bit count, saturating. -/
def State.xbArrive (raise : State → Nat → State) (s : State) (k : Nat) : State :=
  let x := s.xbar k
  let s := if x.arr < 255 then
      s.modXbar k fun x => { x with arr := x.arr + 1, arrAt := x.arrAt ++ [s.now] }
    else s.raiseFlag F.SYN_XB_ST_BSAT k
  s.xbStep raise k 256

/-- A raise of a signal by tile `src` (none: the host, the fabric, a barrier). A chain of cross-device barriers that release one
another is followed 18 deep (log entry 17). -/
def State.raiseDeep : Nat → Option Nat → State → Nat → State
  | 0, _, s, _ => s
  | n + 1, src, s, sig =>
    let s := ((s.bump F.SYN_NRAISE_COUNT).observeRaise sig).offer (Config.evtCode 73) { rig := s.rigOfSig sig }
    match s.obOf sig with
    | some k => s.obArrive k src
    | none =>
      match s.xbOf sig with
      | some k => s.xbArrive (State.raiseDeep n none) k
      | none => s.raiseCount sig

/-- A raise (R296). -/
def State.raiseSig (s : State) (src : Option Nat) (sig : Nat) : State := State.raiseDeep 18 src s sig

/-- A wait of a unit (R296): a count is consumed, or the unit joins the waiters. The Boolean says that it goes on. -/
def State.waitSig (s : State) (w : Waiter) (sig : Nat) : Bool × State :=
  let c := s.sigs.get 0 sig
  if c ≥ 1 then (true, { s with sigs := s.sigs.set 0 sig (c - 1) })
  else if (s.waiters.get [] sig).contains w then (false, s)
  else (false, { s with waiters := s.waiters.upd [] sig (· ++ [w]) })

/-! ### Commands -/

/-- HOST_RAISE (R296, R299). -/
def execHostRaise (data : Word) (s : State) : Result :=
  let sig := bits data.toNat 13 0
  gated s.ioReached (fun s => if (s.rigOfSig sig).isSome then s.raiseSig none sig else s.raiseFlag F.SYN_STAT_BADW) s

/-- Where the signal region of the staging pool begins, the regions in the order of R14 (log entry 128). -/
def signalBase : Nat := (16 + 4) * 2 ^ 20 + 2176 * 2 ^ 10

/-- A word of the signal region is uncorrectable (R301): the owners of its four signals stop, the signals become zero. -/
def State.signalUe (s : State) (word : Nat) : State :=
  let four := (List.range 4).map (4 * word + ·)
  let owners := s.rigs.filterMap fun r =>
    if four.any fun g => s.rigOfSig g = some r.1 then some r.1 else none
  let s := each owners (fun s n => s.killRig n) (s.raiseFlag F.SYN_STAT_SUE)
  { s with sigs := each four (fun m g => m.set 0 g 0) s.sigs }

/-- The physical members of on-chip barrier `k`. -/
def State.obMembers (s : State) (k : Nat) : List Nat :=
  (List.range 80).filter fun p => bit (s.get F.SYN_OB_PM_PMASK k) p

/-- OB_PHASE_COMPLETE (R306). -/
def execObPhaseComplete (k : Nat) (s : State) : Result :=
  let ms := s.obMembers k
  gated (s.flag F.SYN_OB_0_EN k && !ms.isEmpty && ms.all fun p => s.obArr.get 0 (obKey k p) ≥ 1) (fun s =>
    let s := { s with obArr := each ms (fun m p => m.upd 0 (obKey k p) (· - 1)) s.obArr }
    let nrel := s.get F.SYN_OB_4_NREL k
    let s := ((s.bump F.SYN_OB_PH_PHASE 1 k).bump F.SYN_NOBC_COUNT).offer (Config.evtCode 75)
      { rig := s.rigOfSig (s.get F.SYN_OB_0_ARRS k) }
    each (List.range (if nrel = 0 then ms.length else nrel)) (fun s _ => s.raiseSig none (s.get F.SYN_OB_4_RELS k)) s) s

/-- A write to a WS field of a running unit is refused (R169): the field keeps its value, the refusal bit is set and the
block's static-write event is offered, with no rig, tile or port (log entry 165); a write of the present value is no refusal. -/
def State.staticWrite (s : State) (f : Field) (i v : Nat) (stopped : Bool) (sref : Field) (srefI ev : Nat) : State :=
  if s.get f i = v % 2 ^ f.width then s
  else if stopped then s.setReg f v i
  else (s.raiseFlag sref srefI).offer ev

/-- Is a signal one of a rig's? -/
def Rig.owns (r : Rig) (sig : Nat) : Bool := decide (r.sigFirst ≤ sig) && decide (sig ≤ r.sigLast)

/-- Is a signal the ARRS of an enabled barrier other than on-chip `ob` or cross-device `xb` (R307)? -/
def State.arrsTaken (s : State) (sig : Nat) (ob xb : Option Nat) : Bool :=
  ((s.obOf sig).isSome && s.obOf sig ≠ ob) || ((s.xbOf sig).isSome && s.xbOf sig ≠ xb)

/-- The rig whose barrier range holds `k`. -/
def State.obRig (s : State) (k : Nat) : Option Rig :=
  (s.rigs.find? fun r => r.2.exists_ && decide (r.2.obFirst ≤ k) && decide (k < r.2.obFirst + r.2.obCount)).map Prod.snd
def State.xbRig (s : State) (k : Nat) : Option Rig :=
  (s.rigs.find? fun r => r.2.exists_ && decide (r.2.xbFirst ≤ k) && decide (k < r.2.xbFirst + r.2.xbCount)).map Prod.snd

/-- May on-chip barrier `k` be enabled (R307)? -/
def State.obOk (s : State) (k : Nat) : Bool :=
  let arrs := s.get F.SYN_OB_0_ARRS k
  let rels := s.get F.SYN_OB_4_RELS k
  let mask := s.get F.SYN_OB_LM_LMASK k
  match s.obRig k with
  | none => false
  | some r => mask != 0 && ((List.range 72).all fun t => !bit mask t || r.tiles.contains t) && r.owns arrs && r.owns rels
      && arrs != rels && !s.arrsTaken arrs (some k) none

/-- PMASK from LMASK through GLB_TMAP (R304). -/
def State.pmaskOf (s : State) (lmask : Nat) : Nat :=
  each ((List.range 72).filter (bit lmask)) (fun m t => m ||| 2 ^ s.phys t) 0

/-- The word of SYN_OB_k that holds EN is written (R169, R307). -/
def State.obEnable (s : State) (k d : Nat) : State :=
  let on := s.flag F.SYN_OB_0_EN k
  let arrs := bits d 13 0
  if bit d 31 then
    let s := s.staticWrite F.SYN_OB_0_ARRS k arrs (!on) F.SYN_STAT_SREF 0 0x380
    if on then s
    else if s.obOk k then
      ((s.setReg F.SYN_OB_PM_PMASK (s.pmaskOf (s.get F.SYN_OB_LM_LMASK k)) k).setReg F.SYN_OB_PH_PHASE 0 k).setReg
        F.SYN_OB_0_EN 1 k
    else s.raiseFlag F.SYN_OB_ST_BBAD k
  else
    let s := { s.setReg F.SYN_OB_0_EN 0 k with obArr := s.obArr.keep fun q _ => q / 128 ≠ k }
    s.staticWrite F.SYN_OB_0_ARRS k arrs true F.SYN_STAT_SREF 0 0x380

/-- OB_ENABLE_WRITE (R307). -/
def execObEnableWrite (k : Nat) (data : Word) (s : State) : Result := gated s.ioReached (·.obEnable k data.toNat) s

/-- May cross-device barrier `k` be enabled (R308)? -/
def State.xbOk (s : State) (k : Nat) : Bool :=
  let arrs := s.get F.SYN_XB_0_ARRS k
  let rels := s.get F.SYN_XB_4_RELS k
  let g := s.get F.SYN_XB_0_GRP k
  match s.xbRig k, s.group? g with
  | some r, some ms => ms.contains s.myId && s.get F.SYN_XB_8_NREL k != 0 && r.owns arrs && r.owns rels && arrs != rels
      && !s.arrsTaken arrs none (some k)
      && s.xbOn.all fun j => j = k || s.get F.SYN_XB_0_GRP j ≠ g || s.get F.SYN_XB_4_TAG j ≠ s.get F.SYN_XB_4_TAG k
  | _, _ => false

/-- The word of SYN_XB_k that holds EN is written (R169, R308). -/
def State.xbEnable (s : State) (k d : Nat) : State :=
  let on := s.flag F.SYN_XB_0_EN k
  let put := fun (s : State) (stop : Bool) =>
    (s.staticWrite F.SYN_XB_0_ARRS k (bits d 13 0) stop F.SYN_STAT_SREF 0 0x380).staticWrite F.SYN_XB_0_GRP k (bits d 27 16) stop
      F.SYN_STAT_SREF 0 0x380
  if bit d 31 then
    let s := put s (!on)
    if on then s
    else if s.xbOk k then ((s.modXbar k fun _ => {}).setReg F.SYN_XB_PH_PHASE 0 k).setReg F.SYN_XB_0_EN 1 k
    else s.raiseFlag F.SYN_XB_ST_BBAD k
  else put ((s.modXbar k fun _ => {}).setReg F.SYN_XB_0_EN 0 k) true

/-- XB_ENABLE_WRITE (R308). -/
def execXbEnableWrite (k : Nat) (data : Word) (s : State) : Result := gated s.ioReached (·.xbEnable k data.toNat) s

/-- The enabled barrier that a BAR frame names. -/
def State.xbNamed (s : State) (f : Frame) : Option Nat :=
  s.xbOn.find? fun k => s.get F.SYN_XB_0_GRP k = bits f.arg 27 16 && s.get F.SYN_XB_4_TAG k = bits f.arg 15 0

/-- BAR_ARRIVE (R309, R311): an arrival of a child is recorded, of a later phase too; a frame that matches no enabled barrier
is answered with REJ cause 0x05. -/
def execBarArrive (port : Nat) (f : Frame) (s : State) : Result :=
  gated (f.ftype = ftBAR && f.dst = s.myId && !bit f.arg 28 && s.portUp port) (fun s =>
    let s := s.tookFrame port f
    match s.xbNamed f with
    | none => s.sendRej f 5 0
    | some k =>
      let (ms, pos) := s.xbTree k
      let j := ms.findIdx (· = f.src)
      if (childrenOf ms.length pos).contains j then
        (s.modXbar k fun x => { x with child := x.child.upd 0 j (· + 1) }).xbStep (fun s g => s.raiseSig none g) k 256
      else s) s

/-- BAR_RELEASE (R309). -/
def execBarRelease (port : Nat) (f : Frame) (s : State) : Result :=
  gated (f.ftype = ftBAR && f.dst = s.myId && bit f.arg 28 && s.portUp port) (fun s =>
    let s := s.tookFrame port f
    match s.xbNamed f with
    | none => s.sendRej f 5 0
    | some k =>
      if bits f.arg 63 32 = s.get F.SYN_XB_PH_PHASE k && (s.xbar k).sent then
        (s.xbRelease (fun s g => s.raiseSig none g) k).xbStep (fun s g => s.raiseSig none g) k 256
      else s) s

/-- BAR_RESEND (R311): a rejected frame goes again 10 µs later. -/
def execBarResend (k : Nat) (s : State) : Result :=
  let x := s.xbar k
  let due := fun (r : Nat × Frame) => decide (r.1 + 10000 ≤ s.now)
  gated (s.flag F.SYN_XB_0_EN k && x.rej.any due) (fun s =>
    (each (x.rej.filter due) (fun s f => s.sendFrame f.2) s).modXbar k fun x => { x with rej := x.rej.filter fun r => !due r }) s

/-- XB_TIMEOUT (R311). -/
def execXbTimeout (k : Nat) (s : State) : Result :=
  let x := s.xbar k
  let t := s.get F.SYN_XB_8_TIMEOUT k
  gated (s.flag F.SYN_XB_0_EN k && t != 0 && !x.timedOut && (match x.arrAt.head? with
      | some a => decide (a + 1000 * t < s.now)
      | none => false)) (fun s =>
    ((s.modXbar k fun x => { x with timedOut := true }).raiseFlag F.SYN_XB_ST_XTO k).offer 0x386
      { rig := (s.rigs.find? fun r => decide (r.2.xbFirst ≤ k) && decide (k < r.2.xbFirst + r.2.xbCount)).map Prod.fst }) s

/-- Does a group's range name members in strictly ascending order (R313)? -/
def ascending : List Nat → Bool
  | a :: b :: l => decide (a < b) && ascending (b :: l)
  | _ => true

/-- Is the group in use (R313)? -/
def State.groupBusy (s : State) (n : Nat) : Bool :=
  (s.xbOn.any fun k => s.get F.SYN_XB_0_GRP k = n) || s.colls.any (·.grp = n)
    || s.exchanges.any fun x => (((s.rig x.rig).take.groups[x.group]?).map (·.xgrp)) = some n

/-- A write of SYN_GRP_n (R169, R313). -/
def State.groupWrite (s : State) (n d : Nat) : State :=
  if n ≥ 4095 then s
  else
    let on := s.flag F.SYN_GRP_VALID n
    let put := fun (s : State) (stop : Bool) =>
      (s.staticWrite F.SYN_GRP_COUNT n (bits d 27 15) stop F.SYN_STAT_SREF 0 0x380).staticWrite F.SYN_GRP_FIRST n (bits d 14 0)
        stop F.SYN_STAT_SREF 0 0x380
    if bit d 31 then
      let s := put s (!on)
      let c := s.get F.SYN_GRP_COUNT n
      let a := s.get F.SYN_GRP_FIRST n
      if on then s
      else if c = 0 || decide (a + c > 32768) || !ascending ((List.range c).map fun i => s.members.get 0 (a + i)) then
        s.raiseFlag F.SYN_STAT_GBAD
      else s.setReg F.SYN_GRP_VALID 1 n
    else if on && s.groupBusy n then (put s false).raiseFlag F.SYN_STAT_GBUSY
    else put (s.setReg F.SYN_GRP_VALID 0 n) true

/-- GROUP_VALID_WRITE (R313). -/
def execGroupValidWrite (n : Nat) (data : Word) (s : State) : Result := gated s.ioReached (·.groupWrite n data.toNat) s

end Sys2Proof.Machine
end

