-- ==== Sys2Proof/Machine/Vector.lean ====
section
/-! DEFINITION. The vector engine and the finished-tile queue (spec 05, R97 to R123): every instruction, routine starts, queue
pushes, parity errors. -/

namespace Sys2Proof

/-! ### Encodings (R105) -/

def VOp.word (op : Nat) (o : VOp) : Nat :=
  op * 2 ^ 26 + o.d * 2 ^ 20 + o.a * 2 ^ 14 + o.b * 2 ^ 8 + o.bm * 2 ^ 6 + o.msk * 2 ^ 3 + o.mz * 2 ^ 2 + o.sub
def SOp.word (op : Nat) (o : SOp) : Nat := op * 2 ^ 26 + o.sd * 2 ^ 21 + o.sa * 2 ^ 16 + o.imm
def TOp.word (op : Nat) (o : TOp) : Nat := op * 2 ^ 26 + o.d * 2 ^ 20 + o.e * 2 ^ 17 + o.sub * 2 ^ 14 + o.imm
def MOp.word (op : Nat) (o : MOp) : Nat := op * 2 ^ 26 + o.d * 2 ^ 20 + o.sa * 2 ^ 15 + o.fmt * 2 ^ 11 + o.imm
def cWord (op cnt len : Nat) : Nat := op * 2 ^ 26 + cnt * 2 ^ 16 + len * 2 ^ 8

namespace Machine

/-- Is the word at a routine's PC one of opcode `op` (R105)? An instruction that names no further field is issued whatever its unused
fields hold. -/
def State.issuesOp (s : State) (p op : Nat) : Bool :=
  let v := (s.tile p).vec
  v.running && bits (v.words.get 0 v.pc).toNat 31 26 = op

/-- Is the word the next instruction of the routine that runs in tile `p` (R101, R102)? -/
def State.issues (s : State) (p w : Nat) : Bool :=
  let v := (s.tile p).vec
  v.running && (v.words.get 0 v.pc).toNat = w

/-! ### Registers (R99, R100) -/

/-- A lane of a vector register; before a routine has written it, what it held at routine start. -/
def Vec.lane (v : Vec) (r l : Nat) : Elem :=
  match v.v.get none (256 * r + l), v.seed with
  | some e, _ => e
  | none, none => {}
  | none, some n => { v := BitVec.ofNat 32 (Config.freeNat n (256 * r + l)), p := Config.freeNat n (2 ^ 20 + 256 * r + l) % 2 = 1 }

/-- A whole register written. -/
def Vec.putReg (v : Vec) (r : Nat) (f : Nat → Elem) : Vec :=
  { v with v := (v.v.keep fun k _ => decide (k < 256 * r)) ++ ((List.range 256).map fun l => (256 * r + l, some (f l)))
      ++ (v.v.keep fun k _ => decide (256 * r + 256 ≤ k)) }

/-- m0 reads all ones. -/
def Vec.maskAt (v : Vec) (i : Nat) : BitVec 256 := if i % 8 = 0 then BitVec.allOnes 256 else v.m.get 0 (i % 8)

/-- A write to m0 is discarded. -/
def Vec.putMask (v : Vec) (i : Nat) (f : Nat → Bool) : Vec :=
  if i % 8 = 0 then v
  else { v with m := v.m.set 0 (i % 8) (BitVec.ofNat 256 (((List.range 256).map fun l => if f l then 2 ^ l else 0).sum)) }

def Vec.scalar (v : Vec) (i : Nat) : Nat := (v.sr.get 0 (i % 32)).toNat
def Vec.putScalar (v : Vec) (i n : Nat) : Vec := { v with sr := v.sr.set 0 (i % 32) (BitVec.ofNat 32 n) }

/-- A lane's flags in FLGM order (R115). -/
def NFlags.lane (f : NFlags) : Nat :=
  b2n f.fnan + b2n f.fdnz * 2 + b2n f.cinv * 4 + b2n f.covf * 8 + b2n f.snv * 16 + b2n f.sdz * 32 + b2n f.sof * 64
    + b2n f.suf * 128 + b2n f.snx * 256

/-- Flags become sticky in a lane. -/
def Vec.flagLane (v : Vec) (l : Nat) (f : NFlags) : Vec := { v with lf := v.lf.upd 0 l (· ||| f.lane) }

/-- The lanes active under a mask (R106). -/
def Vec.active (v : Vec) (msk : Nat) (l : Nat) : Bool := (v.maskAt msk).getLsbD l
def Vec.actives (v : Vec) (msk : Nat) : List Nat := (List.range 256).filter (v.active msk)

/-- The second operand as lane `l` sees it (R106). -/
def Vec.opB (v : Vec) (o : VOp) (l : Nat) : Elem :=
  match o.bm with
  | 0 => v.lane o.b l
  | 1 => v.lane o.b (l % 128)
  | 2 => v.lane o.b (2 * v.q + l / 128)
  | _ => { v := BitVec.ofNat 32 (v.scalar o.b) }

/-! ### Issue and stops -/

/-- The instruction has issued and the routine goes on (R102, R109). -/
def State.vecDone (s : State) (p : Nat) : State := (s.modVec p (·.advance)).bump F.VEC_NINS_COUNT 1 p

/-- A cause stops the routine and its task (R111, R114, R120). -/
def State.vecStop (s : State) (p : Nat) (f : Field) (status : Nat) : State :=
  let t := (s.tile p).vec.task
  let s := ((s.raiseFlag f p).bump F.VEC_NINS_COUNT 1 p).modVec p fun v => { v with running := false, wait := 0 }
  s.abortTask t.logno status (s.detailTile p true 1) (some t.lead)

/-- Poison read by active lanes: under the abort policy the task is aborted (R111), else the instruction has its effect. -/
def State.guardPois (s : State) (p : Nat) (pois : Bool) (f : State → State) : State :=
  if pois && s.abortPolicy (s.tile p).vec.rig then s.vecStop p F.VEC_STAT_ABRT 0x05 else f s

/-- The numeric settings of the routine (R116). -/
def State.vmode (s : State) (p : Nat) : NMode := s.nmode (s.tile p).vec.rig (s.tile p).vec.strict

/-- The per-lane flag events under the vector codes (R123; log entry 22): `n` lanes for each flag. -/
def State.laneEvents (s : State) (p : Nat) (fs : List NFlags) : State :=
  each [0, 1, 2, 3, 4, 8, 9, 10, 11] (fun s b =>
    let n := (fs.filter fun f => f.toList.any fun e => e.1 = b && e.2).length
    if n = 0 then s else s.offerTile (Config.evtCode (80 + b)) p n) s

/-- Flags of lanes: in the lanes, in TILE_NFLAG and the counters (R115, R123). -/
def State.vecFlags (s : State) (p : Nat) (fs : List (Nat × NFlags)) : State :=
  ((s.modVec p fun v => each fs (fun v f => v.flagLane f.1 f.2) v).raiseNums p (s.tile p).vec.task.logno (fs.map Prod.snd)).laneEvents p
    (fs.map Prod.snd)

/-- An instruction whose destination is vD (R106, R107, R111): the value, flags and poison of each active lane. -/
def State.vecLanes (s : State) (p : Nat) (o : VOp) (pois : Nat → Bool) (f : Nat → Nat × NFlags) : State :=
  let v := (s.tile p).vec
  let act := v.actives o.msk
  s.guardPois p (act.any pois) fun s =>
    let rs := act.map fun l => (l, f l)
    let m : FMap (Nat × NFlags) := rs
    let s := s.modVec p fun v => v.putReg o.d fun l => match m.lookup l with
      | some r => { v := BitVec.ofNat 32 r.1, p := pois l }
      | none => if o.mz = 1 then {} else v.lane o.d l
    (s.vecFlags p (rs.map fun r => (r.1, r.2.2))).vecDone p

/-- An instruction whose destination is a mask (R107). -/
def State.vecMask (s : State) (p : Nat) (o : VOp) (pois : Nat → Bool) (f : Nat → Bool × NFlags) : State :=
  let v := (s.tile p).vec
  let act := v.actives o.msk
  s.guardPois p (act.any pois) fun s =>
    let m : FMap (Bool × NFlags) := act.map fun l => (l, f l)
    let s := s.modVec p fun v => v.putMask o.d fun l => match m.lookup l with
      | some r => r.1
      | none => o.mz = 0 && (v.maskAt o.d).getLsbD l
    (s.vecFlags p (m.map fun r => (r.1, r.2.2))).vecDone p

/-- A two-operand lane operation on vA and b. -/
def State.vecBin (s : State) (p : Nat) (o : VOp) (f : Nat → Nat → Nat → Nat × NFlags) : State :=
  let v := (s.tile p).vec
  s.vecLanes p o (fun l => (v.lane o.a l).p || (v.opB o l).p) fun l => f l (v.lane o.a l).v.toNat (v.opB o l).v.toNat

/-- A one-operand lane operation on vA. -/
def State.vecUn (s : State) (p : Nat) (o : VOp) (f : Nat → Nat → Nat × NFlags) : State :=
  let v := (s.tile p).vec
  s.vecLanes p o (fun l => (v.lane o.a l).p) fun l => f l (v.lane o.a l).v.toNat

/-! ### Arithmetic -/

def execNop (p : Nat) (s : State) : Result := gated (s.issues p 0) (·.vecDone p) s

def execFadd (p : Nat) (o : VOp) (s : State) : Result :=
  gated (s.issues p (o.word 0x01)) (fun s => s.vecBin p o fun _ x y => fAdd (s.vmode p) x y) s

def execFsub (p : Nat) (o : VOp) (s : State) : Result :=
  gated (s.issues p (o.word 0x02)) (fun s => s.vecBin p o fun _ x y => fSub (s.vmode p) x y) s

def execFmul (p : Nat) (o : VOp) (s : State) : Result :=
  gated (s.issues p (o.word 0x03)) (fun s => s.vecBin p o fun _ x y => fMul (s.vmode p) x y) s

/-- x × y + z: one rounding on a fast task, two on a strict one (R116). -/
def fmaLane (md : NMode) (x y z : Nat) : Nat × NFlags :=
  if md.strict then
    let m := fMul md x y
    let a := fAdd md m.1 z
    (a.1, m.2.or a.2)
  else fMA md x y z

def execFma (p : Nat) (o : VOp) (s : State) : Result :=
  gated (s.issues p (o.word 0x04)) (fun s =>
    let v := (s.tile p).vec
    s.vecLanes p o (fun l => (v.lane o.a l).p || (v.opB o l).p || (v.lane o.d l).p)
      fun l => fmaLane (s.vmode p) (v.lane o.a l).v.toNat (v.opB o l).v.toNat (v.lane o.d l).v.toNat) s

/-- FDIV: within the bound of R116 the result is free. -/
def execFdiv (p : Nat) (o : VOp) (s : State) : Result :=
  gated (s.issues p (o.word 0x05)) (fun s =>
    s.spend.vecBin p o fun l x y => fDiv (s.vmode p) (Config.freeNat s.fresh l) x y) s

def execFmax (p : Nat) (o : VOp) (s : State) : Result :=
  gated (s.issues p (o.word 0x06)) (fun s => s.vecBin p o fun _ x y => fMaxMin (s.vmode p) true x y) s

def execFmin (p : Nat) (o : VOp) (s : State) : Result :=
  gated (s.issues p (o.word 0x07)) (fun s => s.vecBin p o fun _ x y => fMaxMin (s.vmode p) false x y) s

/-- A one-operand function whose result is free within the bound of R116. -/
def State.vecFun (s : State) (p : Nat) (o : VOp) (f : NMode → Nat → Nat → Nat × NFlags) : State :=
  s.spend.vecUn p o fun l x => f (s.vmode p) (Config.freeNat s.fresh l) x

def execFsqrt (p : Nat) (o : VOp) (s : State) : Result := gated (s.issues p (o.word 0x08)) (fun s => s.vecFun p o fSqrt) s
def execFrsq (p : Nat) (o : VOp) (s : State) : Result := gated (s.issues p (o.word 0x09)) (fun s => s.vecFun p o fRsq) s
def execFrcp (p : Nat) (o : VOp) (s : State) : Result := gated (s.issues p (o.word 0x0A)) (fun s => s.vecFun p o fRcp) s
def execFexp (p : Nat) (o : VOp) (s : State) : Result := gated (s.issues p (o.word 0x0B)) (fun s => s.vecFun p o fExp) s
def execFlog (p : Nat) (o : VOp) (s : State) : Result := gated (s.issues p (o.word 0x0C)) (fun s => s.vecFun p o fLog) s
def execFtanh (p : Nat) (o : VOp) (s : State) : Result := gated (s.issues p (o.word 0x0D)) (fun s => s.vecFun p o fTanh) s

/-- The sign-bit operations of FSGN (R109). -/
def fsgnLane (sub x y : Nat) : Nat :=
  let m := x % 2 ^ 31
  let sg := x - m
  match sub with
  | 0 => m
  | 1 => fNeg x
  | 2 => if m = 0 || fp32.isNaN x then x else sg + 0x3F800000
  | _ => m + (if bit y 31 then 2 ^ 31 else 0)

def execFsgn (p : Nat) (o : VOp) (s : State) : Result :=
  gated (s.issues p (o.word 0x0E)) (fun s =>
    if o.sub = 3 then s.vecBin p o fun _ x y => (fsgnLane 3 x y, {})
    else s.vecUn p o fun _ x => (fsgnLane o.sub x 0, {})) s

/-! ### Compare, class, masks -/

/-- FCMP's test; zeros of either sign are equal. -/
def fcmpLane (md : NMode) (sub x y : Nat) : Bool × NFlags :=
  let (a, fa) := flushIn md x
  let (b, fb) := flushIn md y
  let nan := fp32.isNaN a || fp32.isNaN b
  let key := fun (z : Nat) => if z % 2 ^ 31 = 0 then (0 : Int) else if bit z 31 then -(z % 2 ^ 31 : Nat) else (z % 2 ^ 31 : Nat)
  ((match sub with
    | 0 => !nan && decide (key a = key b)
    | 1 => !nan && decide (key a < key b)
    | 2 => !nan && decide (key a ≤ key b)
    | _ => nan), fa.or fb)

def execFcmp (p : Nat) (o : VOp) (s : State) : Result :=
  gated (s.issues p (o.word 0x10)) (fun s =>
    let v := (s.tile p).vec
    s.vecMask p o (fun l => (v.lane o.a l).p || (v.opB o l).p)
      fun l => fcmpLane (s.vmode p) o.sub (v.lane o.a l).v.toNat (v.opB o l).v.toNat) s

/-- FCLS's test; a subnormal reads as zero on a fast task (R39). -/
def fclsLane (md : NMode) (sub x : Nat) : Bool × NFlags :=
  let a := if !md.strict && fp32.subnormal x then x / 2 ^ 31 * 2 ^ 31 else x
  ((match sub with
    | 0 => !fp32.isFinite a
    | 1 => fp32.isNaN a
    | 2 => a % 2 ^ 31 = 0
    | _ => bit a 31), { fdnz := !md.strict && fp32.subnormal x })

def execFcls (p : Nat) (o : VOp) (s : State) : Result :=
  gated (s.issues p (o.word 0x11)) (fun s =>
    let v := (s.tile p).vec
    s.vecMask p o (fun l => (v.lane o.a l).p) fun l => fclsLane (s.vmode p) o.sub (v.lane o.a l).v.toNat) s

def execMlog (p : Nat) (o : VOp) (s : State) : Result :=
  gated (s.issues p (o.word 0x12)) (fun s =>
    (s.modVec p fun v =>
      let a := v.maskAt o.a
      let b := v.maskAt o.b
      let r := match o.sub with
        | 0 => a &&& b
        | 1 => a ||| b
        | 2 => a ^^^ b
        | _ => a &&& ~~~b
      v.putMask o.d fun l => r.getLsbD l).vecDone p) s

def execMfirst (p : Nat) (o : VOp) (s : State) : Result :=
  gated (s.issues p (o.word 0x13)) (fun s =>
    (s.modVec p fun v => v.putMask o.d fun l => decide (l < v.scalar o.a)).vecDone p) s

def execMpop (p : Nat) (o : VOp) (s : State) : Result :=
  gated (s.issues p (o.word 0x14)) (fun s =>
    (s.modVec p fun v => v.putScalar o.d (((List.range 256).filter fun l => v.active o.msk l && (v.maskAt o.a).getLsbD l).length)).vecDone p) s

/-! ### Moves -/

def execMov (p : Nat) (o : VOp) (s : State) : Result :=
  gated (s.issues p (o.word 0x15)) (fun s =>
    let v := (s.tile p).vec
    s.vecLanes p o (fun l => (v.opB o l).p) fun l => ((v.opB o l).v.toNat, {})) s

/-- SEL reads every lane, of vA or of b. -/
def execSel (p : Nat) (o : VOp) (s : State) : Result :=
  gated (s.issues p (o.word 0x16)) (fun s =>
    let v := (s.tile p).vec
    let r := fun l => if v.active o.msk l then v.lane o.a l else v.opB o l
    s.guardPois p ((List.range 256).any fun l => (r l).p) fun s => (s.modVec p fun v => v.putReg o.d r).vecDone p) s

def execCmpr (p : Nat) (o : VOp) (s : State) : Result :=
  gated (s.issues p (o.word 0x17)) (fun s =>
    let v := (s.tile p).vec
    let l := (v.actives o.msk).map (v.lane o.a)
    s.guardPois p (l.any (·.p)) fun s =>
      (s.modVec p fun v => (v.putReg o.d fun i => l.getD i {}).putScalar o.b l.length).vecDone p) s

def execExpd (p : Nat) (o : VOp) (s : State) : Result :=
  gated (s.issues p (o.word 0x18)) (fun s =>
    let v := (s.tile p).vec
    let rank := fun l => ((List.range l).filter (v.active o.msk)).length
    s.vecLanes p o (fun l => (v.lane o.a (rank l)).p) fun l => ((v.lane o.a (rank l)).v.toNat, {})) s

/-- The operation of FOLD and of RED's nodes. -/
def foldOp (md : NMode) (sub x y : Nat) : Nat × NFlags :=
  match sub with
  | 0 => fAdd md x y
  | 1 => fMaxMin md true x y
  | _ => fMaxMin md false x y

def execFold (p : Nat) (o : VOp) (s : State) : Result :=
  gated (s.issues p (o.word 0x19)) (fun s =>
    let v := (s.tile p).vec
    s.vecLanes p o (fun l => (v.lane o.a (l % 128)).p || (v.lane o.a (128 + l % 128)).p)
      fun l => foldOp (s.vmode p) o.sub (v.lane o.a (l % 128)).v.toNat (v.lane o.a (128 + l % 128)).v.toNat) s

/-! ### Reduction (R113) -/

abbrev RedNode := Option (Nat × NFlags)

/-- Two neighbours combined; an inactive one leaves the other. -/
def redJoin (op : Nat → Nat → Nat × NFlags) : RedNode → RedNode → RedNode
  | none, y => y
  | x, none => x
  | some x, some y => let r := op x.1 y.1; some (r.1, (x.2.or y.2).or r.2)

def redPairs (op : Nat → Nat → Nat × NFlags) : List RedNode → List RedNode
  | x :: y :: l => redJoin op x y :: redPairs op l
  | l => l

def redTree (op : Nat → Nat → Nat × NFlags) : Nat → List RedNode → RedNode
  | 0, l => l.headD none
  | n + 1, l => redTree op n (redPairs op l)

/-- The reduction of lanes in ascending order, `none` where inactive; a single lane passes through the result's rule (log entry 145). -/
def reduce (md : NMode) (sub : Nat) (xs : List (Option Nat)) : Nat × NFlags :=
  let op := foldOp md (if sub = 3 then 0 else sub)
  let leaf := fun (x : Nat) => if sub = 3 then fMul md x x
    else let r := flushIn md x; (if !md.strict && fp32.isNaN r.1 then fp32.nan else r.1, r.2)
  let l := xs.map (·.map leaf)
  let r := if md.strict then l.foldl (redJoin op) none else redTree op 8 l
  r.getD ((match sub with
    | 1 => fp32.signed true fp32.infBits
    | 2 => fp32.infBits
    | _ => 0), {})

def execRed (p : Nat) (o : VOp) (s : State) : Result :=
  gated (s.issues p (o.word 0x1A)) (fun s =>
    let v := (s.tile p).vec
    let md := s.vmode p
    let part := fun (a n : Nat) => (List.range n).map fun i =>
      if v.active o.msk (a + i) then some (v.lane o.a (a + i)).v.toNat else none
    let pois := fun (a n : Nat) => (List.range n).any fun i => v.active o.msk (a + i) && (v.lane o.a (a + i)).p
    s.guardPois p (pois 0 256) fun s =>
      if o.bm = 0 then
        let r := reduce md o.sub (part 0 256)
        let s := s.modVec p fun v => v.putScalar o.d (if pois 0 256 then fp32.nan else r.1)
        let s := if pois 0 256 then (s.markPois v.task.logno).recOf v.task.logno State.recPois else s
        (s.vecFlags p [(0, r.2)]).vecDone p
      else
        let e := reduce md o.sub (part 0 128)
        let d := reduce md o.sub (part 128 128)
        let s := s.modVec p fun v => v.putReg o.d fun l =>
          if l = 2 * v.q then { v := BitVec.ofNat 32 e.1, p := pois 0 128 }
          else if l = 2 * v.q + 1 then { v := BitVec.ofNat 32 d.1, p := pois 128 128 } else v.lane o.d l
        (s.vecFlags p [(2 * v.q, e.2), (2 * v.q + 1, d.2)]).vecDone p) s

/-! ### Conversions -/

/-- CVT's rounding of a lane, held as FP32. -/
def cvtLane (md : NMode) (sub x : Nat) : Nat × NFlags :=
  match sub with
  | 0 => toF19 md false x
  | 1 => toF19 md true x
  | 2 => let r := convert md fp32 fp16 false x; (fp16ToFp32 r.1, r.2)
  | _ => let r := convert md fp32 s16 false x; (r.1 * 2 ^ 16, r.2)

def execCvt (p : Nat) (o : VOp) (s : State) : Result :=
  gated (s.issues p (o.word 0x1C)) (fun s => s.vecUn p o fun _ x => cvtLane (s.vmode p) o.sub x) s

/-- The lanes of block `b`. -/
def block32 (b : Nat) : List Nat := (List.range 32).map (32 * b + ·)

/-- QDQ: a block's exponent reads every lane of the block, so one poisoned lane poisons the block (log entry 25); a non-finite lane gives
NaN without FNAN (log entry 143). -/
def execQdq (p : Nat) (o : VOp) (s : State) : Result :=
  gated (s.issues p (o.word 0x1D)) (fun s =>
    let v := (s.tile p).vec
    let md := s.vmode p
    let x := fun l => (v.lane o.a l).v.toNat
    let blk := fun b => g8Quant md ((block32 b).map x)
    s.vecLanes p o (fun l => (block32 (l / 32)).any fun i => (v.lane o.a i).p) fun l =>
      let q := blk (l / 32)
      let r := g8Value md q.1 (q.2.1.getD (l % 32) 0)
      (r.1, (flushIn md (x l)).2.or r.2)) s

def execChkf (p : Nat) (o : VOp) (s : State) : Result :=
  gated (s.issues p (o.word 0x1E)) (fun s =>
    let v := (s.tile p).vec
    let act := v.actives o.msk
    s.guardPois p (act.any fun l => (v.lane o.a l).p) fun s =>
      let s := if act.any fun l => !fp32.isFinite (v.lane o.a l).v.toNat then s.recOf v.task.logno State.recNonfin else s
      (s.vecFlags p (act.map fun l => (l, { fdnz := !v.strict && fp32.subnormal (v.lane o.a l).v.toNat }))).vecDone p) s

/-- FLGM: the flag of the lanes, or with D bit 5 set every flag of the active lanes cleared (R109; log entry 115). A flag number
9 to 15, which no flag has, gives a mask of zeros (log entry 154). -/
def execFlgm (p : Nat) (o : VOp) (s : State) : Result :=
  gated (s.issues p (o.word 0x1F)) (fun s =>
    let n := 4 * o.bm + o.sub
    let v := (s.tile p).vec
    if o.d ≥ 32 then
      (s.modVec p fun v => { v with lf := each (v.actives o.msk) (fun m l => m.set 0 l 0) v.lf }).vecDone p
    else s.vecMask p o (fun _ => false) fun l => (bit (v.lf.get 0 l) n, {})) s

/-! ### Scalars -/

def execSli (p : Nat) (o : SOp) (s : State) : Result :=
  gated (s.issues p (o.word 0x20)) (fun s => (s.modVec p fun v => v.putScalar o.sd (o.imm * 2 ^ 16)).vecDone p) s

def execSori (p : Nat) (o : SOp) (s : State) : Result :=
  gated (s.issues p (o.word 0x21)) (fun s => (s.modVec p fun v => v.putScalar o.sd (v.scalar o.sa ||| o.imm)).vecDone p) s

def execSadd (p : Nat) (o : SOp) (s : State) : Result :=
  gated (s.issues p (o.word 0x22)) (fun s =>
    (s.modVec p fun v => v.putScalar o.sd (wrap 32 ((v.scalar o.sa : Int) + sext 16 o.imm))).vecDone p) s

/-- SFOP's operation; the division is free within its bound. -/
def sfop (md : NMode) (pick op x y : Nat) : Nat × NFlags :=
  match op with
  | 0 => fAdd md x y
  | 1 => fSub md x y
  | 2 => fMul md x y
  | 3 => fDiv md pick x y
  | 4 => fMaxMin md true x y
  | _ => fMaxMin md false x y

/-- SFOP touches no lane: its flags are set in TILE_NFLAG alone (log entry 25). -/
def execSfop (p : Nat) (o : SOp) (s : State) : Result :=
  gated (s.issues p (o.word 0x23)) (fun s =>
    let v := (s.tile p).vec
    let r := sfop (s.vmode p) (Config.freeNat s.fresh 0) (bits o.imm 7 5) (v.scalar o.sa) (v.scalar (bits o.imm 4 0))
    ((s.spend.modVec p fun v => v.putScalar o.sd r.1).raiseNums p v.task.logno [r.2]).vecDone p) s

/-! ### The queue (R117 to R121) -/

/-- One attempt of a queue instruction that finds no entry is one beat of waiting (R120, R123; log entry 26). -/
def State.queueWait (s : State) (p : Nat) : State :=
  ((s.modVec p fun v => { v with wait := 1 }).bump F.VEC_NWAIT_COUNT 1 p).offerTile 0x111 p

/-- A queue instruction on entry `e`: waits, stops the routine on an entry that is not its own, or goes on (R120). -/
def State.onEntry (s : State) (p e : Nat) (f : FtqEntry → State) : State :=
  let t := s.tile p
  match t.ftq[e]? with
  | none => s.queueWait p
  | some x => if x.task = t.vec.task then f x else s.vecStop p F.VEC_STAT_QERR 0x04

/-- Lane `l` of row pair `q` in an entry (R100). -/
def pairIdx (q l : Nat) : Nat := 256 * q + l

def execLdt (p : Nat) (o : TOp) (s : State) : Result :=
  gated (s.issues p (o.word 0x28)) (fun s =>
    s.onEntry p o.e fun x =>
      let q := (s.tile p).vec.q
      let r := fun l => x.vals.get {} (pairIdx q l)
      s.guardPois p ((List.range 256).any fun l => (r l).p) fun s => (s.modVec p fun v => v.putReg o.d r).vecDone p) s

/-- Poison that reaches a destination under the mark policy is delivered (R111, R336; log entry 25). -/
def execStt (p : Nat) (o : TOp) (s : State) : Result :=
  gated (s.issues p (o.word 0x29)) (fun s =>
    s.onEntry p o.e fun _ =>
      let v := (s.tile p).vec
      let pois := (List.range 256).any fun l => (v.lane o.d l).p
      s.guardPois p pois fun s =>
        let s := s.modTile p fun t => { t with ftq := modAt t.ftq o.e fun x =>
          { x with vals := each (List.range 256) (fun m l => m.set {} (pairIdx v.q l) (v.lane o.d l)) x.vals } }
        (when pois (·.markPois v.task.logno) s).vecDone p) s

/-- The head entry is freed. -/
def Tile.popEntry (t : Tile) : Tile := { t with ftq := t.ftq.tail, ftqHead := (t.ftqHead + 1) % 8 }

/-- Has a task still rows to come that go to a bank drained through the queue (R92, R332)? -/
def ArrTask.pushes (t : ArrTask) (from_ : Nat) : Bool :=
  decide (from_ < t.row0 + t.rows) &&
    (List.range ((t.row0 + t.rows - 1) / 128 - from_ / 128 + 1)).any fun k => bit t.drainq ((t.fbank + from_ / 128 + k) % 4)

/-- Has a routine's task or segment still an entry to push (R120)? -/
def State.toPush (s : State) (p : Nat) (r : TaskRef) : Bool :=
  let t := s.tile p
  let a := (s.tile (s.phys r.lead)).arr
  (t.banks.any fun b => b.2.task = r && b.2.drainQ) || (t.copy.map (·.task)) = some r
    || (a.list.any fun x => x.ref = r && x.pushes x.row0)
    || (match a.run with
      | some x => x.task.ref = r && x.task.pushes x.nextRow
      | none => false)

def execPopt (p : Nat) (s : State) : Result :=
  gated (s.issues p (({} : TOp).word 0x2A)) (fun s =>
    let t := s.tile p
    if t.ftq.isEmpty && !s.toPush p t.vec.task then s.vecStop p F.VEC_STAT_QERR 0x04
    else s.onEntry p 0 fun _ => (s.modTile p (·.popEntry)).vecDone p) s

def execTag (p : Nat) (o : TOp) (s : State) : Result :=
  gated (s.issues p (o.word 0x2B)) (fun s =>
    s.onEntry p o.e fun x =>
      (s.modVec p fun v => v.putScalar o.d (if o.sub = 0 then x.tag % 2 ^ 32 else x.tag / 2 ^ 32)).vecDone p) s

def execSetq (p : Nat) (o : TOp) (s : State) : Result :=
  gated (s.issues p (o.word 0x2C)) (fun s =>
    (s.modVec p fun v => { v with q := if o.sub = 0 then o.imm % 64 else (v.q + 1) % 64 }).vecDone p) s

/-! ### The tile store (R114) -/

/-- Bytes of an element under FMT. -/
def mfmtBytes : Nat → Nat
  | 0 => 4
  | 1 => 4
  | 2 => 2
  | 3 => 2
  | 4 => 1
  | 5 => 1
  | 6 => 1
  | 7 => 2
  | _ => 4

/-- An element read from the store, as FP32; a signalling FP16 NaN is invalid in a strict task (R42; log entry 106). -/
def loadElem (md : NMode) (fmt x e : Nat) : Nat × NFlags :=
  match fmt with
  | 0 => (x, {})
  | 1 => (x / 2 ^ 13 * 2 ^ 13, {})
  | 2 => (fp16ToFp32 x, { snv := md.strict && fp16.isSNaN x })
  | 3 => s16ToFp32 md x
  | 4 => g8Value md e x
  | 5 => intToFp32 md (sext 8 x)
  | 6 => intToFp32 md x
  | 7 => intToFp32 md (sext 16 x)
  | _ => intToFp32 md (sext 32 x)

/-- An FP32 value as it is stored; FP32 itself passes unchanged, subnormals too (log entry 142). -/
def storeElem (md : NMode) (fmt x : Nat) : Nat × NFlags :=
  match fmt with
  | 0 => (x, {})
  | 1 => toF19 md false x
  | 2 => convert md fp32 fp16 false x
  | 3 => convert md fp32 s16 false x
  | 5 => toIntFmt md 8 true x
  | 6 => toIntFmt md 8 false x
  | 7 => toIntFmt md 16 true x
  | _ => toIntFmt md 32 true x

/-- The address of an access and of its G8 exponents. -/
def Vec.memAddr (v : Vec) (o : MOp) : Nat := v.scalar o.sa + 64 * o.imm
def Vec.expAddr (v : Vec) (o : MOp) : Nat := v.scalar (o.sa + 1) + 2 * o.imm

/-- Does the access lie inside the store? -/
def Vec.memOk (v : Vec) (o : MOp) : Bool :=
  decide (v.memAddr o + 256 * mfmtBytes o.fmt ≤ storeSize) && (o.fmt != 4 || decide (v.expAddr o + 8 ≤ storeSize))

/-- Does a range of the store meet a slot whose data is marked proxy-derived (R114, R144)? -/
def Tile.proxIn (t : Tile) (a n : Nat) : Bool :=
  t.slots.any fun r => (t.slotProx.get false (8 * r.1) && overlaps r.2.s0 r.2.size a n)
    || (t.slotProx.get false (8 * r.1 + 1) && overlaps r.2.s1 r.2.size a n)

/-! ### Control -/

def execLoop (p : Nat) (cnt len : Nat) (s : State) : Result :=
  gated (s.issues p (cWord 0x38 cnt len)) (fun s =>
    (s.modVec p fun v => { v with loops := { first := v.pc + 1, last := v.pc + len, left := cnt } :: v.loops }).vecDone p) s

/-- SIGR: a raise that a MARK records is not repeated (R351). -/
def execSigr (p : Nat) (sig : Nat) (s : State) : Result :=
  gated (s.issuesOp p 0x39 && bits ((s.tile p).vec.words.get 0 (s.tile p).vec.pc).toNat 13 0 = sig) (fun s =>
    let t := (s.tile p).vec.task
    let m := s.marked t.logno t.lead (unitKey p 8)
    let s := s.vecDone p
    let s := if m.isSome then s else s.raiseSig (some p) sig
    s.markDone t.logno t.lead (unitKey p 8) 0) s

def execSigw (p : Nat) (sig : Nat) (s : State) : Result :=
  gated (s.issuesOp p 0x3A && bits ((s.tile p).vec.words.get 0 (s.tile p).vec.pc).toNat 13 0 = sig) (fun s =>
    let t := (s.tile p).vec.task
    if (s.marked t.logno t.lead (unitKey p 8)).isSome then (s.markDone t.logno t.lead (unitKey p 8) 0).vecDone p
    else
      let r := s.waitSig { tile := p, unit := 8 } sig
      if r.1 then (r.2.markDone t.logno t.lead (unitKey p 8) 0).vecDone p
      else r.2.modVec p fun v => { v with wait := 2 }) s

/-- The own entries at the head are popped. -/
def popOwn (r : TaskRef) : Nat → Tile → Tile
  | 0, t => t
  | n + 1, t => match t.ftq with
    | x :: _ => if x.task = r then popOwn r n t.popEntry else t
    | [] => t

def execEndRoutine (p : Nat) (s : State) : Result :=
  gated (s.issuesOp p 0x3F) (fun s =>
    let t := s.tile p
    let r := t.vec.task
    let left := (t.ftq.head?.map (·.task)) = some r
    let s := s.modTile p fun t => popOwn r 8 t
    let s := when left (·.raiseFlag F.VEC_STAT_LEFT p) s
    let s := (s.modVec p fun v => { v with running := false, wait := 0 }).bump F.VEC_NINS_COUNT 1 p
    s.modPart r.logno r.lead fun q => { q with routLeft := q.routLeft - 1 }) s

/-! ### Pushes (R118, R121) -/

/-- The tag of a bank's entry (R121). -/
def Bank.tag (b : Bank) (n : Nat) : Nat :=
  b.task.logno % 2 ^ 16 * 2 ^ 48 + b.blockIdx * 2 ^ 32 + b.expect * 2 ^ 24 + b.rig * 2 ^ 16 + n * 2 ^ 10 + b2n b.last * 2 ^ 9
    + b2n (b.prox || b.preProx) * 2 ^ 8 + b2n (b.elems.any fun e => decide (e.1 < 128 * b.expect) && e.2.p) * 2 ^ 7 + b2n b.sat * 2 ^ 6

/-- The entries that a replayed part pushed before the error keep their contents (R122) until the tile's next push or routine starts: they are
then free (log entry 117). -/
def Tile.dropOld (t : Tile) : Tile :=
  { t with ftq := t.ftq.filter (!·.old), ftqHead := (t.ftqHead + (t.ftq.takeWhile (·.old)).length) % 8 }

def execFtqPushStart (p : Nat) (s : State) : Result :=
  let t := (s.tile p).dropOld
  gated (t.copy.isNone && !t.finQ.isEmpty && decide (t.ftq.length < 8)) (fun s =>
    s.modTile p fun t => match t.finQ with
      | b :: l => { t.dropOld with copy := some { bank := b, task := (t.bank b).task }, finQ := l }
      | [] => t) s

/-- Has the routine of a task or segment ended already (R120)? -/
def State.routineOver (s : State) (p : Nat) (r : TaskRef) : Bool :=
  match s.sheet r.logno with
  | some h => h.cs.rvalid && !(s.tile p).vec.order.contains r && !((s.tile p).vec.running && (s.tile p).vec.task = r)
  | none => true

/-- A bank is free again (R92): its content stays. -/
def Bank.release (b : Bank) : Bank := { elems := b.elems, preProx := b.preProx }

/-- FTQ_PUSH_COMPLETE (R117, R118, R120): an entry of a routine that is over is discarded and never takes a slot (log entry 146). -/
def execFtqPushComplete (p : Nat) (s : State) : Result :=
  gated (s.tile p).copy.isSome (fun s =>
    match (s.tile p).copy with
    | none => s
    | some c =>
      let b := (s.tile p).bank c.bank
      let e : FtqEntry := { vals := b.elems.keep fun k _ => decide (k < 128 * b.expect), tag := b.tag c.bank, task := b.task }
      let ovr := s.routineOver p b.task
      let s := s.modTile p fun t => { t with copy := none, banks := t.banks.upd {} c.bank fun b => { b.release with preProx := false },
                                             ftq := if ovr then t.ftq else t.ftq ++ [e] }
      ((when ovr (·.raiseFlag F.VEC_STAT_LEFT p) s).bump F.VEC_NPUSH_COUNT 1 p).offerTile (Config.evtCode 71) p |>.wakeVec p) s

/-! ### Routine starts and faults (R97, R99, R119, R122) -/

/-- The lane spare of each group takes a failed lane's place at a routine boundary (R97, R358). -/
def State.laneSpares (s : State) (p : Nat) : State :=
  let s := each (s.tile p).badLanes (fun s l =>
    let i := 16 * p + l / 32
    ((s.setReg F.VEC_LMAP_STATE 1 i).setReg F.VEC_LMAP_FAILED (l % 32) i).spareIn 1 1 p l (l / 32 * 32 + 16)) s
  s.modTile p fun t => { t with badLanes := [] }

/-- Physical lane `l` (32 × group + place) fails: the spare is to take its place; a group without one is exhausted and the tile is
to be replaced (R97, R358). -/
def State.laneFails (s : State) (p l : Nat) : State :=
  let i := 16 * p + l / 32
  if s.get F.VEC_LMAP_STATE i = 0 && !((s.tile p).badLanes.any fun x => x / 32 = l / 32) then
    s.modTile p fun t => { t with badLanes := t.badLanes ++ [l] }
  else ((s.setReg F.VEC_LMAP_STATE 2 i).modTile p fun t =>
    { t with badLanes := t.badLanes.filter fun x => x / 32 ≠ l / 32 }).needTile p

/-- The scalars of a routine start (R99). -/
def State.startScalars (s : State) (h : Sheet) : FMap Word :=
  each (List.range 8) (fun m k => m.set 0 (8 + k) (BitVec.ofNat 32 (s.get F.IMG_RHNOW_VALUE (8 * h.rig + k))))
    (each (List.range 8) (fun m k => m.set 0 k (BitVec.ofNat 32 (h.cs.args.getD k 0))) [])

def execRoutineStart (p : Nat) (s : State) : Result :=
  let v := (s.tile p).vec
  gated (!v.running && !v.order.isEmpty && !s.flag F.VEC_CTL_HALT p) (fun s =>
    match v.order with
    | [] => s
    | r :: rest => match s.sheet r.logno with
      | none => s.modVec p fun v => { v with order := rest }
      | some h =>
        let n := h.cs.rout % 64
        let sr := s.startScalars h
        ((s.spend.laneSpares p).modTile p (·.dropOld)).modVec p fun v => { v with
          running := true, rout := n, pc := v.entries.get 0xFFFF n, wait := 0, portWait := 0, task := r, rig := h.rig, strict := h.cs.strict
          seed := some s.fresh, v := [], m := [], sr := sr, q := 0, lf := [], loops := [], order := rest }) s

/-- VECTOR_PARITY_ERROR (R122, R350, R358): `lane` is the physical lane at fault, where it is a lane's register. -/
def execVectorParityError (p : Nat) (lane : Option Nat) (unread : Unread) (s : State) : Result :=
  gated (s.tile p).vec.running (fun s =>
    let r := (s.tile p).vec.task
    let s := (s.raiseFlag F.VEC_STAT_PERR p).modVec p fun v => { v with running := false, wait := 0 }
    let s := match lane with
      | some l => let x := s.parityOf p (16 + l)
        if x.1 then State.laneFails x.2 p l else x.2
      | none => s
    (s.unwait p 8).faultPart r.logno r.lead p false unread) s

/-- VEC_HALT_WRITE (R123). -/
def execVecHaltWrite (p : Nat) (data : Word) (s : State) : Result :=
  gated s.ioReached (·.setReg F.VEC_CTL_HALT (bits data.toNat 0 0) p) s

end Machine
end Sys2Proof
end

