-- ==== Sys2Proof/Machine/Array.lean ====
section
/-! DEFINITION. The array (spec 03, 04: R49 to R96): task starts, loads, rows admitted and completed, bubbles and ballast, parity
errors. `p` is the physical tile of the lead member. -/

namespace Sys2Proof.Machine

/-! ### Geometry (R50 to R53) -/

/-- The array whose lead is physical tile `p`. -/
def State.geo (s : State) (p : Nat) : Option Fused :=
  match s.rigOf p with
  | none => none
  | some n => let f := s.fusedAt n (s.logical p)
    if f.lead = s.logical p then some f else none

/-- The lead's physical tile of the array that physical tile `p` belongs to. -/
def State.leadOf (s : State) (p : Nat) : Nat :=
  match s.rigOf p with
  | some n => s.phys (s.fusedAt n (s.logical p)).lead
  | none => p

/-- The physical tile of member (gr, gc). -/
def State.mem (s : State) (f : Fused) (gr gc : Nat) : Nat := s.phys (f.members.getD (gr * f.cg + gc) 0)

def Fused.rows (f : Fused) : Nat := 128 * f.rg
def Fused.cols (f : Fused) : Nat := 128 * f.cg

/-- Stationary blocks of a task (R58). -/
def ArrTask.blocks (t : ArrTask) (f : Fused) : Nat := (t.klen + f.rows - 1) / f.rows

/-- Values of block `b` that row group `gr` takes from its feed for each source row (R449). -/
def sliceLen (f : Fused) (t : ArrTask) (b gr : Nat) : Nat := min 128 (t.klen - b * f.rows - 128 * gr)

/-! ### Feeds -/

/-- The elements of a task waiting in a feed. -/
def feedOf (l : List FeedElem) (logno : Nat) : List FeedElem := l.filter (·.logno = logno)

/-- The feed without the first `n` elements of a task. -/
def feedDrop (logno : Nat) : Nat → List FeedElem → List FeedElem
  | 0, l => l
  | _, [] => []
  | n + 1, x :: l => if x.logno = logno then feedDrop logno n l else x :: feedDrop logno (n + 1) l

/-- Has the streamed feed the next source row of a task for block `b`? -/
def State.rowFed (s : State) (f : Fused) (t : ArrTask) (b : Nat) : Bool :=
  (List.range f.rg).all fun gr => decide (sliceLen f t b gr ≤ (feedOf (s.tile (s.mem f gr 0)).feedT t.ref.logno).length)

/-- Has the load path row `i` of block `b` to move (R56, R58)? -/
def State.loadFed (s : State) (f : Fused) (t : ArrTask) (b i : Nat) : Bool :=
  decide (i ≥ f.rows) || decide (b * f.rows + i ≥ t.klen) ||
    (List.range f.cg).all fun gc => decide (128 ≤ (feedOf (s.tile (s.mem f (i / 128) gc)).feedS t.ref.logno).length)

/-! ### Gaps and ballast (R71 to R75) -/

/-- Slots of full current under a ballast mode. -/
def fullSlots (mode : Nat) : Nat := if mode = 2 then 65280 else 1792

/-- A gap slot of one tile (R71 to R73): the gap starts with the mode requested, which is then in force (R75, R170). -/
def State.gapSlot (s : State) (p : Nat) : State :=
  let a := (s.tile p).arr
  let s := if a.inGap then s else
    let i := islandOf p
    let m := s.get F.PWR_BAL_MODE i
    (s.setReg F.PWR_BAL_MODENOW m i).modArr p fun a => { a with inGap := true, gap := 0, gapMode := m, step := if m = 0 then 5 else 0 }
  let a := (s.tile p).arr
  let s := s.modArr p fun a => { a with gap := a.gap + 1 }
  if a.gapMode ≠ 0 ∧ a.step < 4 ∧ a.gap < fullSlots a.gapMode + 192 then
    (s.bump F.TILE_ARR_NBAL_COUNT 1 p).offerTileOnly 0x045 p
  else s

/-- A gap slot of every member. -/
def State.gapAll (s : State) (f : Fused) : State := each f.members (fun s t => s.gapSlot (s.phys t)) s

/-- A slot in which no row enters, of the array that physical tile `p` leads: one of the 15 that follow a strict entry, or a gap slot of every
member (R61, R71, R391; log entry 149). -/
def State.emptySlot (s : State) (p : Nat) (f : Fused) : State :=
  if (s.tile p).arr.after = 0 then s.gapAll f else s.modArr p fun a => { a with after := a.after - 1 }

/-- A row enters: the gap ends (R73). -/
def State.endGap (s : State) (f : Fused) : State :=
  each f.members (fun s t => s.modArr (s.phys t) fun a => { a with inGap := false, gap := 0, step := 0 }) s

/-! ### Task starts (R66, R142, R270) -/

/-- Does a task name the loaded block (R65, R69)? Never one after a task's first (R76; log entry 144). -/
def Arr.names (a : Arr) (t : ArrTask) : Bool :=
  match a.blk with
  | some b => b.id = t.id && b.index = 0 && b.poisCols.isEmpty
  | none => false

/-- Is a task ready to start (R142)? -/
def State.taskReady (s : State) (f : Fused) (a : Arr) (t : ArrTask) : Bool :=
  if a.names t then s.rowFed f t 0 else s.loadFed f t 0 0

/-- An array's list with the operand versions that its tasks would read now (R65, R348). -/
def State.freshArr (s : State) (a : Arr) : Arr :=
  { a with list := a.list.map fun t =>
      { t with id := { t.id with ver := s.recVer t.ref.logno t.ref.lead (keyOf t.id.space t.id.addr) } } }

/-- The place in the list of the task that R66 selects. -/
def Arr.select (a : Arr) (holdMax : Nat) : Nat :=
  match a.list with
  | [] => 0
  | o :: _ => if a.names o || decide (o.passOver ≥ holdMax) then 0
    else let i := a.list.findIdx a.names
         if i < a.list.length then i else 0

/-- The place of the task that starts (R142), and the places of those it passes over. -/
def State.choose (s : State) (f : Fused) (a : Arr) (holdMax : Nat) : Option (Nat × List Nat) :=
  match a.list[a.select holdMax]? with
  | none => none
  | some t =>
    let i := a.select holdMax
    if s.taskReady f a t then some (i, if i = 0 then [] else [0])
    else if t.passOver ≥ holdMax then none
    else
      let j := a.list.findIdx fun x => a.names x && s.taskReady f a x
      if j < a.list.length then some (j, if i = 0 then [0] else [0, i]) else none

/-! ### Element counts (R449) -/

/-- Elements of row group `gr` that a load of block `b` takes from each stationary feed of the group, and that a source row takes from the
streamed feed. -/
def loadElems (f : Fused) (t : ArrTask) (b gr : Nat) : Nat := 128 * sliceLen f t b gr
def sumBlocks (n : Nat) (g : Nat → Nat) : Nat := ((List.range n).map g).sum

/-- The row groups of R58: with one block the task is one group. -/
def ArrTask.groups (t : ArrTask) (f : Fused) : Nat := if t.blocks f ≤ 1 then 1 else (t.rows + 511) / 512

/-- What a task that has not started needs: streamed elements, stationary elements, and those of block 0 among them. -/
def ArrTask.needs (t : ArrTask) (f : Fused) (gr : Nat) : Nat × Nat × Nat :=
  let n := t.blocks f
  (t.rows * sumBlocks n (sliceLen f t · gr), t.groups f * sumBlocks n (loadElems f t · gr), loadElems f t 0 gr)

/-- What the task in progress still needs. -/
def ArrRun.needs (r : ArrRun) (f : Fused) (gr : Nat) : Nat × Nat :=
  let t := r.task
  let n := t.blocks f
  let start := if n ≤ 1 then t.row0 else t.row0 + 512 * r.grp
  let end_ := if n ≤ 1 then t.row0 + t.rows else min (t.row0 + 512 * (r.grp + 1)) (t.row0 + t.rows)
  let later := sumBlocks (n - r.blk - 1) fun i => sliceLen f t (r.blk + 1 + i) gr
  let strm := (end_ - r.nextRow) * sliceLen f t r.blk gr + (end_ - start) * later
    + (t.row0 + t.rows - end_) * sumBlocks n (sliceLen f t · gr)
  let now := if r.loading then
      128 * ((List.range (f.rows - r.loaded)).filter fun i => decide ((r.loaded + i) / 128 = gr) && decide (r.blk * f.rows + r.loaded + i < t.klen)).length
    else 0
  (strm, now + 128 * later + (t.groups f - 1 - r.grp) * sumBlocks n (loadElems f t · gr))

/-- Has every generation of a task in a tile completed? -/
def Tile.gensOver (t : Tile) (logno : Nat) : Bool :=
  t.engs.all fun e => e.2.run.logno ≠ some logno && e.2.shd.logno ≠ some logno && e.2.held.all (·.logno ≠ logno)

/-- R449: once a task's generations in a tile are over, its feeds hold exactly what the array still needs, which is nothing for a task that is no
array task; a task that has not started may find its first block loaded, where that block is loaded now or a task before it has the same one. Else the task is aborted as an address fault of the engine that last
delivered (or of `e`). -/
def State.feedCheck (s : State) (p logno e : Nat) : State :=
  match s.sheet logno, s.geo (s.leadOf p) with
  | some h, some f =>
    let x := s.tile p
    match h.parts.find? fun q => q.tiles.contains (s.logical p) with
    | none => s
    | some q =>
      if h.status.isSome ∨ !x.gensOver logno then s
      else
        let i := f.members.findIdx (· = s.logical p)
        let gr := i / f.cg
        let a := s.freshArr (s.tile (s.leadOf p)).arr
        let total := s.segments h.rig h.cs
        let waiting := if h.cs.kind ≠ 1 then [] else
          a.list.filter (·.ref.logno = logno) ++ (List.range q.segsLeft).map fun k => s.arrTask h q (total - q.segsLeft + k)
        let run := match a.run with
          | some r => if r.task.ref.logno = logno then r.needs f gr else (0, 0)
          | none => (0, 0)
        let w := waiting.map fun t => t.needs f gr
        let mayHold := fun (t : ArrTask) (k : Nat) => a.names t || (a.run.any fun r => r.task.id = t.id)
          || (a.list.any fun x => x.ref ≠ t.ref && x.id = t.id) || (waiting.take k).any fun x => x.id = t.id
        let strm := run.1 + (w.map (·.1)).sum
        let most := run.2 + (w.map (·.2.1)).sum
        let least := most - (waiting.zipIdx.map fun x => if mayHold x.1 x.2 then (x.1.needs f gr).2.2 else 0).sum
        let haveT := (feedOf x.feedT logno).length
        let haveS := (feedOf x.feedS logno).length
        let bad := fun (s : State) (feed : Nat) =>
          let e := ((s.tile p).lastFeed.get none (2 * logno + feed)).getD e
          (s.raiseFlag F.STRM_STAT_AERR (engKey p e)).engAbort p e logno q.lead 0x06
        if i % f.cg = 0 && haveT ≠ strm || (i % f.cg ≠ 0 && haveT ≠ 0) then bad s 1
        else if decide (haveS < least) || decide (haveS > most) then bad s 0
        else s
  | _, _ => s

/-- The stationary elements of a block that is loaded already are not used (R66; log entry 31): those in the feed go, the others are
discarded as they come. -/
def State.skipLoaded (s : State) (f : Fused) (t : ArrTask) : State :=
  each f.members.zipIdx (fun s m =>
    s.modTile (s.phys m.1) fun x =>
      let n := loadElems f t 0 (m.2 / f.cg)
      let k := min n (feedOf x.feedS t.ref.logno).length
      { x with feedS := feedDrop t.ref.logno k x.feedS
               skipS := if x.gensOver t.ref.logno then x.skipS else x.skipS.upd 0 t.ref.logno (· + (n - k)) }) s

/-- ARRAY_TASK_START: the part begins to read its stationary operand, and the version it reads is recorded (R65, R348; log entry 114); HOLDMAX takes effect here (R66, R76); the next segment enters the list (R270); the routine enters the order of
R119 in each bottom member's tile. -/
def execArrayTaskStart (p : Nat) (s : State) : Result :=
  match s.geo p with
  | none => .next s
  | some f =>
    let a := s.freshArr (s.tile p).arr
    let hm := s.get F.TILE_ARR_CTL_HOLDMAX p
    match s.choose f a hm with
    | none => .next s
    | some c =>
      gated (a.run.isNone && !s.flag F.TILE_ARR_CTL_HALT p) (fun s =>
        match a.list[c.1]? with
        | none => s
        | some t =>
          let l := each c.2 (fun l i => modAt l i fun x => { x with passOver := x.passOver + 1 }) a.list
          let named := a.names t
          let s := s.noteRead t.ref.logno t.ref.lead (keyOf t.id.space t.id.addr)
          let s := (s.setReg F.TILE_ARR_STAT_HOLDNOW hm p).modArr p fun a =>
            { a with list := l.eraseIdx c.1, blk := if named then a.blk else none,
                     run := some { task := t, loading := !named, nextRow := t.row0 } }
          let s := when named (fun s => (s.bump F.TILE_ARR_NHOLD_COUNT 1 p).skipLoaded f t) s
          match s.sheet t.ref.logno with
          | none => s
          | some h =>
            let s := match h.part t.ref.lead with
              | some q => if q.segsLeft > 0 then
                  (s.modPart t.ref.logno t.ref.lead fun q => { q with segsLeft := q.segsLeft - 1 }).enterTask (s.arrTask h q (t.ref.seg + 1))
                  |>.offer (Config.evtCode 19) { rig := some t.rig }
                else s
              | none => s
            let s := if h.cs.rvalid then each f.bottoms (fun s b => s.modVec (s.phys b) fun v => { v with order := v.order ++ [t.ref] }) s
              else s
            each f.members (fun s m => s.feedCheck (s.phys m) t.ref.logno 0) s) s

/-! ### Loads (R28 to R31, R35, R41, R56, R58, R69) -/

/-- The size code that an element of the stationary feed must have (R31). -/
def stationarySize : Option XDesc → Nat
  | none => 3
  | some x => match x.kind with
    | 0x01 => 2
    | 0x10 => 0
    | 0x11 => 1
    | 0x20 => 0
    | 0x21 => 1
    | _ => 3

/-- A stationary element as the cells take it, W0 and W1: `tab` is the table or the scales, `zp` the zero points, `x` the index
of the element's row or channel in them. -/
def stationary (md : NMode) (t : ArrTask) (tab zp : List Byte) (x raw : Nat) : Nat × Nat × NFlags :=
  let word := fun i => leNat ((tab.drop (4 * i)).take 4)
  match t.xd with
  | none => (raw / 2 ^ 13 * 2 ^ 13, 0, {})
  | some d => match d.kind with
    | 0x01 => let r := fp16Read md raw; (r.1, 0, r.2)
    | 0x02 => if t.strict then (raw, 0, {})
      else if t.pass = 1 then let r := toF19 md t.f19tr raw; (r.1, 0, r.2)
      else splitRead raw
    | 0x10 => (word (raw % 16) / 2 ^ 13 * 2 ^ 13, 0, {})
    | 0x11 => (word (raw % 256) / 2 ^ 13 * 2 ^ 13, 0, {})
    | 0x20 => let r := affine md false (bit d.flags 0) raw (leNat ((zp.drop x).take 1)) (word x); (r.1, 0, r.2)
    | 0x21 => let r := affine md true (bit d.flags 0) raw (leNat ((zp.drop x).take 1)) (word x); (r.1, 0, r.2)
    | _ => (raw / 2 ^ 13 * 2 ^ 13, 0, {})

/-- What the load path reads for row `k` (R29, R30): addresses and lengths of the table or scales, and of the zero points. -/
def XDesc.reads (d : XDesc) (k cols : Nat) : List (Nat × Nat) :=
  let per := fun (a : Nat) (n : Nat) => if bit d.flags 1 then (a, n * cols) else (a + n * k, n)
  match d.kind with
  | 0x10 => [(d.taddr, 64)]
  | 0x11 => [(d.taddr, 1024)]
  | 0x20 => per d.taddr 4 :: (if bit d.flags 2 then [] else [per d.zaddr 1])
  | 0x21 => per d.taddr 4 :: (if bit d.flags 2 then [] else [per d.zaddr 1])
  | _ => []

/-- A read of bytes for a part, at the version its READ record holds (R348, R350); the first read that gives bytes writes that record. -/
def State.partRead (s : State) (logno lead rig space addr n : Nat) (errs : List (Nat × Nat)) : State × Fetched (List Byte) :=
  let keys := (List.range ((addr % 2 ^ 16 + n + 65535) / 65536)).map fun i => keyOf space (addr + 65536 * i)
  let r := s.fetch rig space addr n errs (s.readVer logno lead) [(logno, lead)]
  match r.2 with
  | .waits => r
  | x => (each keys (fun s k => if s.mayRead rig k then s.noteRead logno lead k else s) r.1, x)

/-- A read on the load path for a task (R29, R333). -/
def State.loadRead (s : State) (t : ArrTask) (r : Nat × Nat) (errs : List (Nat × Nat)) : State × Fetched (List Byte) :=
  s.partRead t.ref.logno t.ref.lead t.rig t.space r.1 r.2 errs

/-- The table or scales, then the zero points; `errs` counts words through the first read and on through the second. -/
def State.loadReads (s : State) (t : ArrTask) (k cols : Nat) (errs : List (Nat × Nat)) : State × Fetched (List Byte × List Byte) :=
  match (t.xd.map fun d => d.reads k cols).getD [] with
  | [] => (s, .got ([], []))
  | [a] => let r := s.loadRead t a errs; (r.1, r.2.map fun b => (b, []))
  | a :: z :: _ =>
    let n := (a.2 + 7) / 8
    let r := s.loadRead t a (errs.filter fun e => decide (e.1 < n))
    let q := r.1.loadRead t z ((errs.filter fun e => decide (n ≤ e.1)).map fun e => (e.1 - n, e.2))
    (q.1, r.2.both q.2)

/-- Rows that a load moves (R56). -/
def loadRows (f : Fused) (t : ArrTask) : Nat := if t.pass = 3 && !t.strict then 2 * f.rows else f.rows

/-- The row that the load has moved counts; after the last the block is ready and the load is over. -/
def State.loadStep (s : State) (p : Nat) (f : Fused) (r : ArrRun) : State :=
  let done := decide (r.loaded + 1 = loadRows f r.task)
  let s := s.modArr p fun a => { a with run := some { r with loaded := r.loaded + 1, loading := !done } }
  when done (·.bump F.TILE_ARR_NLOAD_COUNT 1 p) s

/-- The block that a load fills. -/
def Arr.filling (a : Arr) (r : ArrRun) : Block :=
  if r.loaded = 0 then { id := r.task.id, index := r.blk } else a.blk.getD { id := r.task.id, index := r.blk }

/-- STATIONARY_ROW_LOAD: a row whose table or scales wait for a negative does not move (R197). -/
def execStationaryRowLoad (p : Nat) (errs : List (Nat × Nat)) (s : State) : Result :=
  match s.geo p, (s.tile p).arr.run with
  | some f, some r =>
    let t := r.task
    let i := r.loaded
    gated (r.loading && s.loadFed f t r.blk i) (fun s =>
      let k := r.blk * f.rows + i
      if i ≥ f.rows ∨ k ≥ t.klen then
        ((s.emptySlot p f).modArr p fun a => { a with blk := some (a.filling r) }).loadStep p f r
      else
        let mems := (List.range f.cg).map fun gc => s.mem f (i / 128) gc
        let els := mems.flatMap fun m => (feedOf (s.tile m).feedS t.ref.logno).take 128
        let used := fun (s : State) =>
          each mems (fun s m => s.modTile m fun x => { x with feedS := feedDrop t.ref.logno 128 x.feedS }) (s.emptySlot p f)
        let lead := some t.ref.lead
        let det := s.detailTile p true 0
        if els.any fun x => x.esz ≠ stationarySize t.xd then (used s).abortTask t.ref.logno 0x02 0 lead
        else
          let rd := s.loadReads t k f.cols errs
          match rd.2 with
          | .waits => rd.1
          | .negLost => rd.1.abortTask t.ref.logno 0x07 det lead
          | .unusable => rd.1.abortTask t.ref.logno 0x01 det lead
          | .got b =>
            let s := used rd.1
            if (els.any (·.p)) && s.abortPolicy t.rig then s.abortTask t.ref.logno 0x05 det lead
            else
              let md := s.nmode t.rig t.strict
              let ax := (t.xd.map fun d => bit d.flags 1).getD false
              let vs := els.zipIdx.map fun x => (x.2, stationary md t b.1 b.2 (if ax then x.2 else 0) x.1.v.toNat)
              let bad := (els.zipIdx.filter (·.1.p)).map Prod.snd
              let s := s.modArr p fun a =>
                let q := a.filling r
                { a with blk := some { q with
                    w0 := each vs (fun m v => m.set 0 (512 * i + v.1) (BitVec.ofNat 32 v.2.1)) q.w0
                    w1 := if t.pass = 3 && !t.strict then each vs (fun m v => m.set 0 (512 * i + v.1) (BitVec.ofNat 32 v.2.2.1)) q.w1 else q.w1
                    poisCols := (q.poisCols ++ bad).eraseDups, prox := q.prox || els.any (·.prox) } }
              let s := each mems.zipIdx (fun s m => s.raiseNums m.1 t.ref.logno
                ((vs.filter fun v => v.1 / 128 = m.2).map fun v => v.2.2.2)) s
              s.loadStep p f r) s
  | _, _ => .next s

/-! ### Rows admitted (R60, R64, R89 to R92) -/

/-- The bank, bank row and output block of a source row (R332). -/
def ArrTask.bankOf (t : ArrTask) (r : Nat) : Nat := (t.fbank + r / 128) % 4
def blockOf (r : Nat) : Nat := r / 128 % 65536

/-- The bank rows of a range of elements of the bank region: bank and row. -/
def rowsAt (a n : Nat) : List (Nat × Nat) := (List.range ((a + n + 127) / 128 - a / 128)).map fun i => ((a / 128 + i) / 128, (a / 128 + i) % 128)

/-- The bank rows that a transfer of a bank target moves. -/
def Xfer.rows (x : Xfer) : List (Nat × Nat) := if x.near = 3 then rowsAt x.nearAt x.span else []

/-- The rows of bank `b` that stream transfers of a tile have outstanding (R92). -/
def Tile.strmRows (t : Tile) (b : Nat) : List Nat :=
  t.engs.flatMap fun e => (match e.2.run with
    | .ready g => ((g.xfers.flatMap Xfer.rows).filter fun r => r.1 = b).map Prod.snd
    | _ => [])

/-- May a row be reserved in a bank (R64, R92)? -/
def State.mayReserve (s : State) (p : Nat) (t : ArrTask) (r : Nat) : Bool :=
  let b := t.bankOf r
  let k := (s.tile p).bank b
  (k.task.logno = 0 || (k.task = t.ref && k.blockIdx = blockOf r && !k.fin)) && !k.resv.contains (r % 128)
    && !((s.tile p).strmRows b).contains (r % 128)

/-- A bank row reserved (R64, R91, R345): the bank's first row opens the output block. -/
def State.reserveRow (s : State) (p : Nat) (t : ArrTask) (r : Nat) : State :=
  let b := t.bankOf r
  let k := (s.tile p).bank b
  let s := if k.task.logno ≠ 0 then s else
    let saved := s.log.any fun x => x.logno = t.ref.logno && x.lead = t.ref.lead && (match x.kind with
      | .bank q b' _ _ => q = p && b' = b
      | _ => false)
    let s := if t.clear || saved then s else s.writeLog t.ref.logno t.ref.lead t.rig (.bank p b k.elems k.preProx)
    s.modBank p b fun k => { k with
      task := t.ref, rig := t.rig, blockIdx := blockOf r, expect := min 128 (t.totalRows - r / 128 * 128)
      last := decide (r / 128 = (t.totalRows - 1) / 128), drainQ := bit t.drainq b, fin := false, done := 0, resv := [], sat := false
      prox := false }
  s.modBank p b fun k => { k with
    resv := k.resv ++ [r % 128]
    elems := if t.clear then k.elems.keep fun i _ => decide (i / 128 ≠ r % 128) else k.elems }

/-- The last source row, plus one, of the group in progress: groups count from the segment's first row (R58; log entry 150). -/
def ArrRun.groupEnd (r : ArrRun) (f : Fused) : Nat :=
  let t := r.task
  if t.blocks f ≤ 1 then t.row0 + t.rows else min (t.row0 + 512 * (r.grp + 1)) (t.row0 + t.rows)

/-- What the task does after a row has entered: the next row, the next block or group, or its end (R58). -/
def ArrRun.next (r : ArrRun) (f : Fused) : Option ArrRun :=
  let t := r.task
  if r.nextRow + 1 < r.groupEnd f then some { r with nextRow := r.nextRow + 1 }
  else if r.blk + 1 < t.blocks f then
    some { r with blk := r.blk + 1, loading := true, loaded := 0, nextRow := t.row0 + 512 * r.grp }
  else if r.groupEnd f < t.row0 + t.rows then
    some { r with grp := r.grp + 1, blk := 0, loading := true, loaded := 0, nextRow := t.row0 + 512 * (r.grp + 1) }
  else none

/-- Can the array admit a row now (R64)? -/
def State.admits (s : State) (f : Fused) (r : ArrRun) : Bool :=
  !r.loading && s.rowFed f r.task r.blk
    && (decide (r.blk > 0) || f.bottoms.all fun t => s.mayReserve (s.phys t) r.task r.nextRow)

/-- A streamed element as it enters: b_hi, b_lo, flags (R35, R41, R60). -/
def streamed (md : NMode) (t : ArrTask) (x : FeedElem) : Nat × Nat × NFlags :=
  let raw := x.v.toNat
  if x.esz = 2 then let r := fp16Read md raw; (r.1, 0, r.2)
  else if t.strict then (raw, 0, {})
  else if t.pass = 1 then let r := toF19 md t.f19tr raw; (r.1, 0, r.2)
  else splitRead raw

/-- ROW_ADMIT. -/
def execRowAdmit (p : Nat) (s : State) : Result :=
  match s.geo p, (s.tile p).arr.run with
  | some f, some r =>
    let t := r.task
    gated (s.admits f r) (fun s =>
      let mems := (List.range f.rg).map fun gr => (s.mem f gr 0, sliceLen f t r.blk gr)
      let els := mems.flatMap fun m =>
        let l := (feedOf (s.tile m.1).feedT t.ref.logno).take m.2
        l.map some ++ List.replicate (128 - m.2) none
      let s := each mems (fun s m => s.modTile m.1 fun x => { x with feedT := feedDrop t.ref.logno m.2 x.feedT }) s
      let got := els.filterMap id
      if got.any fun x => !(x.esz = 3 || x.esz = 2) then s.abortTask t.ref.logno 0x02 0 (some t.ref.lead)
      else if got.any (·.p) && s.abortPolicy t.rig then
        s.abortTask t.ref.logno 0x05 (s.detailTile p true 0) (some t.ref.lead)
      else
        let md := s.nmode t.rig t.strict
        let vs := els.map fun x => match x with
          | some y => streamed md t y
          | none => (0, 0, {})
        let s := each mems.zipIdx (fun s m => s.raiseNums m.1.1 t.ref.logno (((vs.drop (128 * m.2)).take 128).map fun v => v.2.2)) s
        let s := if r.blk = 0 then each f.bottoms (fun s b => s.reserveRow (s.phys b) t r.nextRow) s else s
        let row : RowFly := { task := t, srcRow := r.nextRow, lastBlk := decide (r.blk + 1 = t.blocks f)
                              vals := (vs.map fun v => BitVec.ofNat 32 v.1) ++ vs.map fun v => BitVec.ofNat 32 v.2.1
                              block := (s.tile p).arr.blk.getD {}, pois := got.any (·.p), prox := got.any (·.prox) }
        let s := (s.endGap f).modArr p fun a => { a with fly := a.fly ++ [row], run := r.next f, after := if t.strict then 15 else 0 }
        (s.bump F.TILE_ARR_NROW_COUNT 1 p).offerTile 0x041 p) s
  | _, _ => .next s

/-- BUBBLE: a slot in which no row can enter and no stationary row moves (R63, R64, R71). An enabled tile of no rig heads no array: each of its
slots is a gap slot (R73). -/
def execBubble (p : Nat) (s : State) : Result :=
  match s.geo p with
  | none => gated (s.enabled p && (s.rigOf p).isNone) (·.gapSlot p) s
  | some f =>
    gated (match (s.tile p).arr.run with
      | some r => !s.admits f r && !(r.loading && s.loadFed f r.task r.blk r.loaded)
      | none => true) (fun s =>
        ((s.bump F.TILE_ARR_NBUB_COUNT 1 p).offerTile 0x042 p).emptySlot p f) s

/-- BALLAST_TAPER_STEP (R73): after the full-current slots, then after 64 slots of each step. -/
def execBallastTaperStep (p : Nat) (s : State) : Result :=
  let a := (s.tile p).arr
  gated (a.inGap && a.gapMode != 0 && decide (a.step < 4) && decide (fullSlots a.gapMode + 64 * a.step ≤ a.gap)) (fun s =>
    s.modArr p fun a => { a with step := a.step + 1 }) s

/-- BALLAST_END (R73, R74). -/
def execBallastEnd (p : Nat) (s : State) : Result :=
  let a := (s.tile p).arr
  gated (a.inGap && a.step = 4 && decide (fullSlots a.gapMode + 256 ≤ a.gap)) (fun s =>
    s.modArr p fun a => { a with step := 5 }) s

/-! ### Rows complete (R59, R78 to R86, R92) -/

/-- What one output element becomes. -/
structure ElemOut where
  e : Elem
  flags : List NFlags := []
  /-- flags of the chunk sums by row group; chunks not exact by row group -/
  chunkFlags : List (Nat × NFlags) := []
  inexact : List Nat := []
  sats : Nat := 0
  draws : Nat := 0
  deriving DecidableEq, Repr

/-- The values that column `n` meets, rows `k` of a chunk. -/
def Block.column (w : FMap Word) (n k0 len : Nat) : List Nat := (List.range len).map fun i => (w.get 0 (512 * (k0 + i) + n)).toNat

/-- One column of a fast row: every chunk added in ascending c (R82). `draw` gives the tile's draws from the next on. -/
def fastColumn (row : RowFly) (f : Fused) (n : Nat) (start : Elem) (draw : Nat → Nat) : ElemOut :=
  let xs := row.vals.map (·.toNat)
  each (List.range (f.rows / 32)) (fun o c =>
    let w0 := Block.column row.block.w0 n (32 * c) 32
    let w1 := Block.column row.block.w1 n (32 * c) 32
    let ch := chunkSum (chunkProducts row.task.pass w0 w1 ((xs.drop (32 * c)).take 32) ((xs.drop (f.rows + 32 * c)).take 32))
    let u := if row.task.accn then none else some (draw o.draws)
    let a := addChunk u o.e.v.toNat ch.sum
    { o with e := { o.e with v := BitVec.ofNat 32 a.val }, flags := o.flags ++ [a.flags]
             chunkFlags := o.chunkFlags ++ [(c / 4, ch.flags)], inexact := if ch.inexact then o.inexact ++ [c / 4] else o.inexact
             sats := o.sats + b2n a.sat, draws := o.draws + b2n a.drew }) { e := start }

/-- One column of a strict row (R41, R61): the loop ends at K, so the +0 rows of R58 beyond it take no part (log entry 113). -/
def strictColumn (md : NMode) (row : RowFly) (f : Fused) (n : Nat) (start : Elem) : ElemOut :=
  let k := min f.rows (row.task.klen - row.block.index * f.rows)
  let r := strictDot md start.v.toNat ((Block.column row.block.w0 n 0 k).zip ((row.vals.take k).map (·.toNat)))
  { e := { start with v := BitVec.ofNat 32 r.1 }, flags := r.2 }

/-- The output column `n` of a row is written to its bank; flags, counts and records follow (R79, R84, R88, R93, R95). -/
def State.completeColumn (s : State) (f : Fused) (row : RowFly) (n : Nat) : State :=
  let t := row.task
  let pb := s.mem f (f.rg - 1) (n / 128)
  let b := t.bankOf row.srcRow
  let key := 128 * (row.srcRow % 128) + n % 128
  let start := ((s.tile pb).bank b).elems.get {} key
  let d0 := (s.tile pb).draws
  let o := if t.strict then strictColumn (s.nmode t.rig true) row f n start
    else fastColumn row f n start fun i => (Config.srDraw s.srSeed pb (d0 + i)).toNat
  let pois := o.e.p || row.pois || row.block.poisCols.contains n
  let s := s.modTile pb fun x => ({ x with draws := x.draws + o.draws }).modBank b fun k =>
    { k with elems := k.elems.set {} key { o.e with p := pois }, sat := k.sat || decide (o.sats > 0), prox := k.prox || row.prox || row.block.prox }
  let s := s.raiseNums pb t.ref.logno o.flags
  let s := each o.chunkFlags (fun s c => s.raiseNums (s.mem f c.1 (n / 128)) t.ref.logno [c.2]) s
  let s := each o.inexact (fun s g => let m := s.mem f g (n / 128)
    (s.bump F.TILE_ACC_NINX_COUNT 1 m).offerTile 0x061 m) s
  let s := if t.strict then s else s.bump F.TILE_ACC_NCHK_COUNT (f.rows / 32) pb
  let s := s.bump F.TILE_ACC_NDRAW_COUNT o.draws pb
  if o.sats = 0 then s
  else (((s.bump F.TILE_ACC_NSAT_COUNT o.sats pb).orReg F.TILE_ACC_STAT_SATF b pb).offerTile 0x060 pb o.sats).recOf t.ref.logno
    State.recSat

/-- A bank's row is complete: after the last row assigned to it the bank is finished (R92, R118). -/
def State.rowDone (s : State) (p b r : Nat) : State :=
  let s := s.modBank p b fun k =>
    let d := k.done + 1
    { k with resv := k.resv.filter (· ≠ r), done := d, fin := decide (d ≥ k.expect) }
  let k := (s.tile p).bank b
  when (k.fin && k.drainQ) (fun s => s.modTile p fun t => { t with finQ := t.finQ ++ [b] }) s

/-- ROW_COMPLETE: the oldest row in flight (R59). -/
def execRowComplete (p : Nat) (s : State) : Result :=
  match s.geo p, (s.tile p).arr.fly with
  | some f, row :: rest =>
    .next (
      let s := s.modArr p fun a => { a with fly := rest }
      let s := each (List.range f.cols) (fun s n => s.completeColumn f row n) s
      if row.lastBlk then
        let s := each f.bottoms (fun s b => s.rowDone (s.phys b) (row.task.bankOf row.srcRow) (row.srcRow % 128)) s
        s.modPart row.task.ref.logno row.task.ref.lead fun q => { q with rowsLeft := q.rowsLeft - 1 }
      else s)
  | _, _ => .next s

/-! ### Parity errors (R70, R94), controls -/

/-- ARRAY_PARITY_ERROR in tile `p`: every task with rows in the array, or a load, is handed to replay. -/
def execArrayParityError (p : Nat) (unread : Unread) (s : State) : Result :=
  gated (s.enabled p) (fun s =>
    let pl := s.leadOf p
    let a := (s.tile pl).arr
    let ts := ((a.run.toList.map (·.task.ref)) ++ a.fly.map (·.task.ref)).map (fun r => (r.logno, r.lead)) |>.eraseDups
    let f := (s.geo pl).getD { members := [s.logical pl] }
    let s := each a.fly (fun s x => each f.bottoms (fun s b =>
      s.modBank (s.phys b) (x.task.bankOf x.srcRow) fun k => { k with resv := k.resv.filter (· ≠ x.srcRow % 128) }) s) s
    let s := (s.raiseFlag F.TILE_ARR_STAT_PERR p).modArr pl fun a => { a with blk := none, run := none, fly := [] }
    each ts (fun s r => s.faultPart r.1 r.2 p true unread) s) s

/-- Elements of a block, without the exponents of a G8 read-out. -/
def Blk.elems (b : Blk) : Nat := if b.conv = 4 then b.total * 32 / 33 else b.total

/-- The parts that a bank's parity error stops (R94): the one whose rows fill it, and those whose streams move rows of it. -/
def Tile.bankParts (t : Tile) (b : Nat) : List (Nat × Nat) :=
  let r := (t.bank b).task
  ((if r.logno = 0 then [] else [(r.logno, r.lead)]) ++ t.engs.filterMap fun e => match e.2.run with
    | .ready g => if g.xfers.any (fun x => x.rows.any fun y => y.1 = b) || g.blks.any (fun k => k.near = 3 && decide (k.nearAt / 16384 ≤ b)
        && decide (16384 * b < k.nearAt + k.elems)) then some (g.logno, g.lead) else none
    | _ => none).eraseDups

/-- BANK_PARITY_ERROR: every task that the bank serves is handed to replay (R94). -/
def execBankParityError (p : Nat) (b : Nat) (unread : Unread) (s : State) : Result :=
  gated (s.enabled p) (fun s =>
    each ((s.tile p).bankParts b) (fun s r => s.faultPart r.1 r.2 p true unread)
      ((s.raiseFlag F.TILE_ACC_STAT_PERR p).offerTile (Config.evtCode 70) p)) s

/-- Is the array idle: no task in the list, in progress or in flight? -/
def Arr.idle (a : Arr) : Bool := a.list.isEmpty && a.run.isNone && a.fly.isEmpty

/-- A write of TILE_ARR_CTL (R76, R170): of the lead alone; HOLDMAX is in force at once where the array is idle. -/
def State.arrCtl (s : State) (p d : Nat) : State :=
  if s.leadOf p = p then
    let s := s.setReg F.TILE_ARR_CTL_HALT (bits d 0 0) p
    let s := s.setReg F.TILE_ARR_CTL_HOLDMAX (bits d 15 8) p
    if (s.tile p).arr.idle then s.setReg F.TILE_ARR_STAT_HOLDNOW (bits d 15 8) p else s
  else s

def execArrayHaltWrite (p : Nat) (data : Word) (s : State) : Result := gated s.ioReached (·.arrCtl p data.toNat) s

/-- A write of PWR_BAL_i (R75, R170): 0b11 is ignored and sets BADW; the mode is in force at once where no enabled tile of the
island is in a gap; BADW is cleared by writing 1. -/
def State.balMode (s : State) (i d : Nat) : State :=
  let m := bits d 1 0
  let s := when (bit d 8) (·.setReg F.PWR_BAL_BADW 0 i) s
  if m = 3 then s.raiseFlag F.PWR_BAL_BADW i
  else
    let s := s.setReg F.PWR_BAL_MODE m i
    if (List.range 80).any fun p => islandOf p = i && s.enabled p && (s.tile p).arr.inGap then s
    else s.setReg F.PWR_BAL_MODENOW m i

def execBallastModeWrite (i : Nat) (data : Word) (s : State) : Result := gated s.ioReached (·.balMode i data.toNat) s

end Sys2Proof.Machine
end

