-- ==== Sys2Proof/Machine/SecOps.lean ====
section
/-! DEFINITION. What start-up, keys, attestation and the loader share (R397 to R405): the fuses, firmware images, the owner key
slots, digests and signatures, registers read as words. -/

namespace Sys2Proof.Machine

/-! ### The fuses (R397) -/

/-- The fuse fields by number, in table order. -/
def fuIDSEED : Nat := 0
def fuIDCERT : Nat := 1
def fuTMAP : Nat := 2
def fuTRIM : Nat := 3
def fuT0SPARE : Nat := 4
def fuOKEY (k : Nat) : Nat := 5 + k
def fuOKST (k : Nat) : Nat := 9 + k
def fuFWSVN : Nat := 13
def fuDBGLOCK : Nat := 14
def fuDBGKILL : Nat := 15

/-- The serial number, 16 bytes: never all zeros or all ones (R406). -/
def shipSerial (i : Nat) : Nat :=
  let l := (List.range 16).map fun k => Config.factoryFuse fuIDCERT (16 + k) % 256
  if (l.all (· = 0) || l.all (· = 255)) && i = 0 then 1 else l.getD i 0

/-- Bytes 0 to 127 of the identity certificate (R406): MAGIC, VENDOR, PART, STEP, SERIAL, IDKEY, VKID. -/
def certBody : List Byte :=
  [0x43, 0x52, 0x54, 0x01] ++ leBytes 2 0x7D0A ++ leBytes 2 0x0C18 ++ leBytes 1 0xA0 ++ List.replicate 7 0
    ++ (List.range 16).map (fun i => BitVec.ofNat 8 (shipSerial i))
    ++ (List.range 57).map (fun i => BitVec.ofNat 8 (Config.factoryFuse fuIDCERT (32 + i))) ++ List.replicate 7 0
    ++ (Config.shake256 Config.certifyingKey 64).take 8 ++ List.replicate 24 0

/-- Byte `i` of the identity certificate, with its signature by the vendor certifying key. -/
def certByte (i : Nat) : Nat :=
  if i < 128 then ((certBody[i]?).map (·.toNat)).getD 0
  else if i < 242 then (Config.ed448Byte Config.certifyingSeed (Config.shake256 certBody 64) (i - 128)).toNat else 0

/-- Byte `i` of a fuse field as shipped (log entry 6): TMAP makes eight tiles spares and the others enabled (R9), IDCERT has the layout of R406, FWSVN
is a thermometer code, DBGLOCK is set (R397). -/
def shipFuse (which i : Nat) : Nat :=
  if which = fuTMAP then ((List.range 4).map fun k => b2n (Config.shipSpares.contains (4 * i + k)) * 4 ^ k).sum
  else if which = fuIDCERT then certByte i
  else if which = fuFWSVN then (2 ^ (Config.factoryFuse fuFWSVN 0 % 64) - 1) / 256 ^ i % 256
  else if which = fuDBGLOCK then 1
  else Config.factoryFuse which i

/-- A byte of copy 0 or 1 of a fuse field, as programmed since, else as shipped: every field is programmed twice (R397). -/
def State.fuseCopy (s : State) (copy which i : Nat) : Nat :=
  if i < 512 ∧ which < 2048 then (s.fuses.lookup (copy * 2 ^ 20 + which * 512 + i)).getD (shipFuse which i) else shipFuse which i

/-- A byte of a fuse field: the two copies are taken bit by bit, and a fuse that is 1 in either is 1 (R397; log entry 168). -/
def State.fuse (s : State) (which i : Nat) : Nat := s.fuseCopy 0 which i ||| s.fuseCopy 1 which i

/-- Does every field pass its redundancy check: do its copies agree (R395, R397; log entry 168)? -/
def State.fusesAgree (s : State) : Bool :=
  s.fuses.all fun x => let k := x.1 % 2 ^ 20; s.fuseCopy 0 (k / 512) (k % 512) = s.fuseCopy 1 (k / 512) (k % 512)

/-- A fuse field of `n` bytes. -/
def State.fuseBytes (s : State) (which n : Nat) : List Byte := (List.range n).map fun i => BitVec.ofNat 8 (s.fuse which i)

/-- Cell `i` of a field is programmed, in both copies: a fuse that is 1 stays 1. -/
def State.burn (s : State) (which i v : Nat) : State :=
  let b := s.fuse which i ||| v
  if 512 ≤ i ∨ 2048 ≤ which then s else { s with fuses := (s.fuses.put (which * 512 + i) b).put (2 ^ 20 + which * 512 + i) b }

/-- Bytes are programmed from cell 0 on. -/
def State.burnBytes (s : State) (which : Nat) (bs : List Byte) : State :=
  each bs.zipIdx (fun s b => s.burn which b.2 b.1.toNat) s

/-- Key slots enrolled, and revoked. -/
def State.enrolled (s : State) (k : Nat) : Bool := s.fuse (fuOKST k) 0 % 2 = 1
def State.revoked (s : State) (k : Nat) : Bool := s.fuse (fuOKST k) 1 % 2 = 1

/-- Four bits, one for each slot. -/
def slotBits (f : Nat → Bool) : Nat := b2n (f 0) + 2 * b2n (f 1) + 4 * b2n (f 2) + 8 * b2n (f 3)

/-- A slot's public key. -/
def State.ownerKey (s : State) (k : Nat) : List Byte := s.fuseBytes (fuOKEY k) 57

/-- Ones in a byte. -/
def ones8 (n : Nat) : Nat := ((List.range 8).filter fun i => bit n i).length

/-- The lowest firmware SVN accepted: the ones of the thermometer code. -/
def State.fuseSvn (s : State) : Nat := ((List.range 8).map fun i => ones8 (s.fuse fuFWSVN i)).sum

def State.dbgLock (s : State) : Bool := s.fuse fuDBGLOCK 0 % 2 = 1
def State.dbgKill (s : State) : Bool := s.fuse fuDBGKILL 0 % 2 = 1

/-- The identity public key, as the certificate has it (R406), and its digest. -/
def State.idKey (s : State) : List Byte := ((s.fuseBytes fuIDCERT 256).drop 32).take 57
def State.devDig (s : State) : List Byte := Config.shake256 s.idKey 64

/-- Bytes `a` to `a + n` of a list. -/
def slice (bs : List Byte) (a n : Nat) : List Byte := (bs.drop a).take n

/-- Are they all zero? -/
def allZero (bs : List Byte) : Bool := bs.all (· = 0)

/-- An Ed448 signature over the 64-byte SHAKE256 output of a message. -/
def signedBy (key msg sig : List Byte) : Bool := Config.ed448Verify key (Config.shake256 msg 64) sig

/-! ### Firmware images (R398) -/

def fwMagic : List Byte := [0x46, 0x57, 0x4C, 0x01]

/-- The length field of an image. -/
def fwLen (head : List Byte) : Nat := leNat (slice head 4 4)

/-- Every condition of R398 but the SVN. -/
def fwVerifies (img : List Byte) : Bool :=
  let len := fwLen img
  slice img 0 4 = fwMagic && len = img.length && decide (256 ≤ len) && len % 64 = 0 && decide (len ≤ 2 * 2 ^ 20)
    && allZero (slice img 9 7) && allZero (slice img 81 47) && allZero (slice img (len - 14) 14)
    && Config.shake256 (slice img 24 57) 32 = Config.vendorKeyDigest
    && signedBy (slice img 24 57) (img.take (len - 128)) (slice img (len - 128) 114)

def fwSvnOf (img : List Byte) : Nat := ((img[8]?).map (·.toNat)).getD 0

/-- A length that a copy can be taken of. -/
def fwTake (len : Nat) : Nat := if len ≤ 2 * 2 ^ 20 then len else 0

/-- A firmware copy in the boot flash (0 A, 1 B). -/
def State.flashCopy (s : State) (copy : Nat) : List Byte :=
  match s.flashImg.get none copy with
  | some img => img
  | none =>
    let b := fun i => Config.factoryFlash copy i
    (List.range (fwTake (fwLen ((List.range 8).map b)))).map b

/-! ### Registers as words -/

/-- The fields of a register put together. -/
def State.packed (s : State) (fs : List Field) (i : Nat := 0) : Nat := (fs.map fun f => s.get f i * 2 ^ f.lo).sum

/-- A byte-window register as bytes. -/
def State.wide (s : State) (f : Field) (i : Nat := 0) : List Byte := leBytes ((f.width + 7) / 8) (s.get f i)

/-- A byte-window register written with bytes. -/
def State.setWide (s : State) (f : Field) (bs : List Byte) (i : Nat := 0) : State := s.setReg f (leNat bs) i

/-- The certificate and the owner keys as their registers show them; an owner key is zero when not enrolled (R409). -/
def State.certWord (s : State) : Nat := leNat (s.fuseBytes fuIDCERT 256)
def State.okeyWord (s : State) (k : Nat) : Nat := if s.enrolled k then leNat (s.ownerKey k) else 0

/-! ### Digests of an attestation (R403 to R405) -/

/-- 64 bytes of zero where a digest has not been formed. -/
def digest64 (bs : List Byte) : List Byte := (bs ++ List.replicate 64 0).take 64

/-- Every fuse field but IDSEED, in table order. -/
def State.fuseRecord (s : State) : List Byte :=
  s.fuseBytes fuIDCERT 256 ++ s.fuseBytes fuTMAP 20 ++ s.fuseBytes fuTRIM 36 ++ s.fuseBytes fuT0SPARE 1
    ++ (List.range 4).flatMap (fun k => s.ownerKey k)
    ++ (List.range 4).map (fun k => BitVec.ofNat 8 (b2n (s.enrolled k) + 2 * b2n (s.revoked k)))
    ++ s.fuseBytes fuFWSVN 8 ++ s.fuseBytes fuDBGLOCK 1 ++ s.fuseBytes fuDBGKILL 1

/-- The mode record of R405. -/
def State.modeRecord (s : State) : List Byte :=
  leBytes 4 (s.packed [F.IMG_DEV_HEATEPOCH, F.IMG_DEV_COMP]) ++ leBytes 1 (s.get F.MEM_T0CFG_SPARES)
    ++ leBytes 1 (s.get F.TWN_CTL_PROT) ++ List.replicate 26 0
    ++ (List.range 72).flatMap fun n =>
      if s.rigState n = rigAbsent then List.replicate 12 0
      else leBytes 4 (s.packed [F.IMG_RMODE_SPLIT, F.IMG_RMODE_UPDATE, F.IMG_RMODE_FAULT, F.IMG_RMODE_COVF, F.IMG_RMODE_MAXMIN] n)
        ++ leBytes 4 (s.packed [F.IMG_RSTC_SEGLEN, F.IMG_RSTC_GRAD, F.IMG_RSTC_SATNF] n)
        ++ leBytes 4 (s.packed [F.IMG_RLNOW_LSGROW, F.IMG_RLNOW_STRAG] n)

/-- Byte 470 of a report. -/
def State.debugByte (s : State) : Nat :=
  b2n s.session.isSome + 2 * b2n s.everOpen + 4 * b2n s.dbgLock + 8 * b2n s.dbgKill
    + 16 * ((s.session.map (·.scope)).getD 0)

/-- Bytes 0 to 511 of a report (R403); RSEQ counts this report. -/
def State.reportBody (s : State) : List Byte :=
  [0x41, 0x54, 0x54, 0x01] ++ leBytes 2 0x7D0A ++ leBytes 2 0x0C18 ++ leBytes 1 0xA0
    ++ leBytes 1 (s.get F.SEC_BOOT_FWCOPY) ++ leBytes 1 s.fwSvn ++ leBytes 1 s.fuseSvn ++ leBytes 4 (s.reports + 1)
    ++ s.wide F.SEC_ANONCE_BYTES ++ s.devDig ++ digest64 s.fwDigest ++ Config.shake256 s.fuseRecord 64
    ++ digest64 s.imgDigest ++ digest64 s.chain ++ Config.shake256 s.modeRecord 64 ++ leBytes 4 s.imgLoads
    ++ leBytes 1 (slotBits s.enrolled + 16 * slotBits s.revoked) ++ leBytes 1 s.imgSlot ++ leBytes 1 s.debugByte
    ++ leBytes 1 (s.get F.SEC_BOOT_STEP) ++ List.replicate 40 0

/-- The whole report, signed by the identity key. -/
def State.reportBytes (s : State) : List Byte :=
  let b := s.reportBody
  b ++ Config.ed448Sign (s.fuseBytes fuIDSEED 57) (Config.shake256 b 64) ++ List.replicate 14 0

/-- SEC_DNONCE takes a new value from the entropy source (R408): a free value. -/
def State.newNonce (s : State) : State := (s.setReg F.SEC_DNONCE_BYTES (Config.freeNat s.fresh 0)).spend

/-- A firmware command ends with an error. -/
def State.fwFail (s : State) (e : Nat) : State := (s.setReg F.SEC_FWSTAT_ERR e).raiseFlag F.SEC_FWSTAT_ERRF

end Sys2Proof.Machine
end

