-- ==== Sys2Proof/Machine/FlogOps.lean ====
section
/-! DEFINITION. The flight log's regions: what the working copy says, what is in force, commit and restore (R417, R418, R422,
R423). -/

namespace Sys2Proof.Machine

/-- The register fields that the spare maps keep (R417). -/
def mapIds : List Nat :=
  [F.GLB_TMAP_VALID.id, F.GLB_TMAP_PHYS.id, F.GLB_PMAP_STATE.id, F.GLB_PMAP_LOGICAL.id, F.VEC_LMAP_STATE.id, F.VEC_LMAP_FAILED.id,
   F.STRM_EMAP_E0.id, F.STRM_EMAP_E1.id, F.STRM_EMAP_E2.id, F.STRM_EMAP_E3.id, F.STRM_EMAP_E4.id, F.STRM_EMAP_E5.id, F.STRM_EMAP_E6.id,
   F.STRM_EMAP_E7.id, F.STRM_ESPR_STATE.id, F.STRM_ESPR_FAILED.id, F.MEM_CHMAP_ROLE.id, F.MEM_BSTAT_TXBAD.id, F.MEM_BSTAT_RXBAD.id,
   F.FAB_PSTAT_TXBAD.id, F.FAB_PSTAT_RXBAD.id]

/-- The spare maps as they stand. -/
def State.mapsNow (s : State) : FlData :=
  .maps (s.regs.filter fun e => mapIds.contains (e.1 % 1024))
    ((s.tiles.map fun (t : Nat × Tile) => (t.1, ({ lanes := t.2.badLanes, engs := t.2.badEngs, rows := t.2.rowSpares } : TileMap))).filter
      fun t => t.2 != {}) s.mgmtFailed s.tether.bad

/-- The middle of a list in ascending order; `d` of an empty one. -/
def medianOf (d : Nat) (l : List Nat) : Nat := ((l.mergeSort (· ≤ ·))[l.length / 2]?).getD d

/-- The median of a stage's samples: of the last 2^16, or as the flight log had it (R420). -/
def Hist.medianAt (h : Hist) (stage : Nat) : Nat := medianOf (h.median.get 0 stage) (h.window.get [] stage)

/-- What the histogram's record holds. -/
def Hist.record (h : Hist) : Hist :=
  { median := each (List.range 16) (fun (m : FMap Nat) k => m.set 0 k (h.medianAt k)) [], bins := h.bins }

/-- The content of a region in the working copy. The vendor's diagnostics are a free number. -/
def State.regionNow (s : State) : Nat → FlData
  | 0 => .header (slice (s.fuseBytes fuIDCERT 32) 16 16) s.flog.boots s.flog.jhead s.flog.jwrap
  | 1 => .counters s.flog.counters
  | 2 => s.mapsNow
  | 3 => .hists (s.flog.hists.map fun (h : Nat × Hist) => (h.1, h.2.record))
  | 4 => .resid s.flog.resid
  | _ => .vendor (Config.freeNat s.fresh 0)

def Flog.slot (f : Flog) (region k : Nat) : FlSlot := f.slots.get {} (2 * region + k)

/-- The slot of a region that is in force, where one is valid: the higher SEQ. -/
def Flog.inForce (f : Flog) (region : Nat) : Option Nat :=
  let a := f.slot region 0
  let b := f.slot region 1
  if a.valid && (!b.valid || decide (a.seq > b.seq)) then some 0 else if b.valid then some 1 else none

/-- The content in force. -/
def Flog.committed (f : Flog) (region : Nat) : FlData :=
  match f.inForce region with
  | some k => (f.slot region k).data
  | none => .none_

/-- A region is written into the other slot; it comes into force when the slot verifies (R418). -/
def State.commitRegion (s : State) (ok : Bool) (region : Nat) : State :=
  let f := s.flog
  let d := s.regionNow region
  if f.committed region = d then s
  else
    let cur := f.inForce region
    let k := match cur with
      | some k => 1 - k
      | none => 0
    let seq := match cur with
      | some k => (f.slot region k).seq + 1
      | none => 1
    { s with flog := { f with slots := f.slots.set {} (2 * region + k) { seq := seq, data := d, valid := ok } } }

/-- The journal's records. -/
def journalSize : Nat := 30208

/-- A journal record is written in place (R418, R422). The journal has wrapped once more where the ring is full and a new pass over it overwrites the
oldest record (log entry 170). -/
def Flog.writeRec (f : Flog) (r : JRec) : Flog :=
  { f with journal := f.journal.set none f.jhead (some r), jhead := (f.jhead + 1) % journalSize
           jwrap := if f.jhead = 0 ∧ (f.journal.get none 0).isSome then f.jwrap + 1 else f.jwrap }

/-- The waiting journal records are written. -/
def State.writeJournal (s : State) : State :=
  { s with flog := each s.flog.waiting Flog.writeRec { s.flog with waiting := [] } }

/-- The changed regions of a commit. -/
def State.changed (s : State) (whole : Bool) : List Nat :=
  (if whole then [0, 1, 2, 3, 4, 5] else [2]).filter fun r => s.flog.committed r ≠ s.regionNow r

/-- A FLOG unit's work: the waiting journal records, then the changed regions of the commit; `failed` names those whose slot does not verify, and then
WERR is set (R418). -/
def State.commitNow (s : State) (failed : List Nat) (whole : Bool) : State :=
  let s := s.writeJournal
  let rs := s.changed whole
  let s := each rs (fun s r => s.commitRegion (!failed.contains r) r) s
  (when (rs.any failed.contains) (·.raiseFlag F.EVT_FLSTAT_WERR) s).spend

/-- The spare maps are restored (R423). -/
def State.restoreMaps (s : State) : State :=
  match s.flog.committed 2 with
  | .maps regs tiles mgmt bad =>
    let base : FMap Nat := s.regs.filter fun e => !mapIds.contains (e.1 % 1024)
    let s := { s with regs := each regs (fun (m : FMap Nat) e => m.set 0 e.1 e.2) base, mgmtFailed := mgmt, tether := { s.tether with bad := bad } }
    each tiles (fun s t => s.modTile t.1 fun x => { x with badLanes := t.2.lanes, badEngs := t.2.engs, rowSpares := t.2.rows }) s
  | _ => s.raiseFlag F.EVT_FLSTAT_RDERR

/-- The newest record of the journal: its index and order. -/
def Flog.newest (f : Flog) : Option (Nat × Nat) :=
  f.journal.foldl (fun m e => match e.2 with
    | none => m
    | some r => (match m with
      | some x => if x.2 < r.order then some (e.1, r.order) else m
      | none => some (e.1, r.order))) none

/-- The flight log is read; a region without a valid slot starts from zero (R423). The journal goes on after its newest record, or from index 0 where the
header starts again (log entry 90). -/
def State.readFlog (s : State) : State :=
  let f := s.flog
  let hdr : Nat × Nat × Nat := match f.committed 0 with
    | .header _ b h w => (b, (f.newest.map fun (x : Nat × Nat) => (x.1 + 1) % journalSize).getD h, w)
    | _ => (0, 0, 0)
  { s with flog := { f with
    counters := match f.committed 1 with
      | .counters c => c
      | _ => []
    hists := match f.committed 3 with
      | .hists h => h
      | _ => []
    resid := match f.committed 4 with
      | .resid r => r
      | _ => []
    boots := hdr.1 + 1, jhead := hdr.2.1, jwrap := hdr.2.2, waiting := []
    order := (f.newest.map fun x => x.2 + 1).getD 0 } }

/-- Step 4 of R393 reads the flight log and restores the spare maps; the boot is counted (R419). -/
def State.restoreFlog (s : State) : State := s.readFlog.restoreMaps.flCount 741

end Sys2Proof.Machine
end

