-- ==== Sys2Proof/Machine/FabricOps.lean ====
section
/-! DEFINITION. What the fabric does (R281 to R293): streams, remote writes and their acknowledgement, signals from afar, collectives,
the take exchange. -/

namespace Sys2Proof.Machine

/-! ### Sending streams (R282, R286) -/

/-- A frame of a stream of this device leaves (R282): by a changed route entry, or by another port, only once every earlier WR is acknowledged. -/
def State.sendOn (s : State) (f : Frame) : State :=
  let k := sendKey f.dst f.stile f.seng
  let st := s.sendStreams.get {} k
  let rt := st.routeOf (s.route f.dst)
  let p := s.portOf st rt
  let s := { s with sendStreams := s.sendStreams.set {} k { st with route := rt, port := p } }
  if bit rt 31 then s.sendVia p rt { f with src := s.myId } else s.countRej.raiseFlag F.FAB_STAT_REJR

/-- The class that owns a slot of the vertical port's round (R136): 0 read, 1 write, 2 remote. -/
def slotClass (split slot : Nat) : Nat :=
  (match split with
   | 0 => [0, 1, 0, 2, 0, 1, 0, 2]
   | 1 => [0, 0, 0, 1, 0, 0, 0, 2]
   | 2 => [0, 1, 0, 1, 0, 1, 0, 2]
   | _ => [0, 2, 1, 2, 0, 2, 1, 2]).getD (slot % 8) 0

/-- A frame of a collective that leaves a tile, and a WR or CDATA frame for its store, takes the next slot of the vertical port that the remote
class owns (R136, R292; log entry 116). -/
def State.remoteSlot (s : State) (p : Nat) : State :=
  let split := s.get F.STRM_SPLIT_SPLIT p
  s.modTile p fun t =>
    { t with portSlot := ((((List.range 8).map fun i => (t.portSlot + i) % 8).find? fun k => slotClass split k = 2).getD t.portSlot + 1) % 8 }

/-- Is a transfer a remote write of the stream to `dst` that a count covers (R286)? -/
def Xfer.covered (x : Xfer) (dst acked : Nat) : Bool :=
  x.write && !x.staged && x.base.cls = 4 && bits x.base.addr 51 40 = dst && decide (x.seq ≤ acked)

/-- A WACK received (R286): the remote writes that it covers are complete. -/
def State.receiveWack (s : State) (f : Frame) : State :=
  let k := sendKey f.src f.stile f.seng
  let st := s.sendStreams.get {} k
  let acked := max st.acked (st.seq - (st.seq + 65536 - f.cnt % 65536) % 65536)
  let s := { s with sendStreams := s.sendStreams.set {} k { st with acked := acked } }
  let p := s.phys f.stile
  let e := 6 + f.seng % 2
  if f.seng / 2 % 2 = 1 then s
  else match (s.eng p e).run.gen? with
  | none => s
  | some g =>
    let done := g.xfers.filter (·.covered f.src acked)
    (s.modGen p e fun g => { g with xfers := g.xfers.filter fun x => !x.covered f.src acked }).bump F.STRM_NBYTE_COUNT
      ((done.map (·.len)).sum) (engKey p e)

/-! ### The take exchange ends (R257, R260, R293) -/

/-- The combined verdict is not ok: the take goes to Striking, and its exchanges end. -/
def State.exchangeFail (s : State) (n verdict : Nat) : State :=
  let s := { s with exchanges := s.exchanges.filter (·.rig ≠ n), colls := s.colls.filter (·.rig ≠ some n) }
  if (s.rig n).take.state = 4 then s.strikeTake n fun t => if verdict = 2 then { t with peer := true } else { t with nonfin := true }
  else s

/-- A collective fails (R290): the member's task ends with the collective error; an exchange's verdict is void. -/
def State.collFail (s : State) (c : Coll) : State :=
  match c.rig with
  | some n => s.exchangeFail n 2
  | none =>
    let s := { s with colls := s.colls.filter (· ≠ c) }
    s.engAbort c.tile c.eng c.logno c.lead 0x08

/-- Does a frame of a collective belong to it? STILE and SENG name the engine, or the update unit with the rig in STILE and the group in
CNT (log entry 30). -/
def State.collOf (s : State) (f : Frame) (collid : Nat) (c : Coll) : Bool :=
  c.collid = collid && (match c.rig with
    | some n => f.seng / 2 % 2 = 1 && f.stile = n && f.cnt = c.group && bit f.arg 47 == c.second
    | none => f.seng / 2 % 2 = 0 && f.stile = s.logical c.tile && c.eng = 6 + f.seng % 2)

/-- A restore command ends with an error (R371). -/
def State.restoreErr (s : State) (code : Nat) : State :=
  { ((s.setReg F.TWN_RSTAT_ERR code).raiseFlag F.TWN_RSTAT_ERRF).setReg F.TWN_RSTAT_BUSY 0 with tether := { s.tether with restore := none } }

/-- A REJ received (R282, R284, R290, R299, R311). -/
def State.receiveRej (s : State) (f : Frame) : State :=
  let s := s.raiseFlag F.FAB_STAT_REJR
  let cause := bits f.arg 7 0
  if f.seng / 2 % 2 = 1 && f.stile = 0x7F then (if s.tether.restore.isSome then s.restoreErr 3 else s)
  else if cause = 2 then (if f.seng / 2 % 2 = 0 then s.engFault (s.phys f.stile) (6 + f.seng % 2) else s)
  else if cause = 3 then
    each (s.colls.filter fun c => s.collOf { f with arg := 0 } (bits f.arg 39 8) { c with second := false }) State.collFail s
  else if cause = 5 then
    let x := s.xbars.get {} f.cnt
    if s.flag F.SYN_XB_0_EN f.cnt then
      { s with xbars := s.xbars.set {} f.cnt { x with
          rej := x.rej.filter (·.2.dst ≠ f.src) ++ (x.lastSent.filter (·.dst = f.src)).map fun g => (s.now, g) } }
    else s
  else s

/-- An answer to the sender of a frame: to this device itself, or by the fabric. -/
def State.answerRej (s : State) (f : Frame) (cause collid : Nat) : State :=
  if f.src = s.myId then
    s.countRej.receiveRej { f with ftype := ftREJ, dst := f.src, src := s.myId, arg := cause + collid * 2 ^ 8, payload := [] }
  else s.sendRej f cause collid

def State.answerWack (s : State) (f : Frame) : State :=
  let a : Frame := { ftype := ftWACK, dst := f.src, src := s.myId, stile := f.stile, seng := f.seng, cnt := f.cnt }
  if f.src = s.myId then s.receiveWack a else s.sendFrame a

/-! ### Remote writes received (R283 to R288) -/

def streamId (f : Frame) : Nat := (f.src * 128 + f.stile) * 4 + f.seng

def winOf (f : Frame) : Nat := bits f.arg 39 32
def offOf (f : Frame) : Nat := bits f.arg 31 0

/-- The four conditions of R284; a tile-store window names a tile of its rig. -/
def State.wrAllowed (s : State) (f : Frame) : Bool :=
  let w := winOf f
  let n := s.get F.FAB_WIN_0_RIG w
  s.flag F.FAB_WIN_0_EN w && s.inGroup (s.get F.FAB_WIN_1_GRP w) f.src
    && decide (offOf f + f.payload.length ≤ s.get F.FAB_WIN_1_LEN w * 65536) && s.rigLive n
    && (s.get F.FAB_WIN_0_KIND w = 0 || ((s.rig n).tiles.contains (bits (s.get F.FAB_WIN_2_BASE w) 29 23)
      && decide (bits (s.get F.FAB_WIN_2_BASE w) 22 0 + offOf f + f.payload.length ≤ storeSize)))

/-- The physical tile that a WR to a tile-store window writes. -/
def State.wrTile (s : State) (f : Frame) : Option Nat :=
  if s.get F.FAB_WIN_0_KIND (winOf f) = 1 then some (s.phys (bits (s.get F.FAB_WIN_2_BASE (winOf f)) 29 23)) else none

/-- The first byte that a WR writes: tile-store offset, or address in the window's space. -/
def State.wrAddr (s : State) (f : Frame) : Nat :=
  let b := s.get F.FAB_WIN_2_BASE (winOf f)
  if s.get F.FAB_WIN_0_KIND (winOf f) = 1 then bits b 22 0 + offOf f else bits b 51 0 + offOf f

/-- The sum of the floors of a tile's remote inbound buffer. -/
def State.inboundFloors (s : State) (p : Nat) : Nat :=
  ((s.floors.filter fun f => f.1 / 2 ^ 32 = 5 && f.1 / 2 ^ 16 % 2 ^ 16 = p).map (·.2)).sum

/-- Has the shared part of remote inbound room for a WR (R285)? -/
def State.wrRoom (s : State) (f : Frame) : Bool :=
  match s.wrTile f with
  | none => true
  | some p =>
    let held := ((s.remoteWrs.filter fun r => s.wrTile r.frame = some p).map fun r => r.frame.payload.length).sum
    decide (held + f.payload.length ≤ 65536 - s.inboundFloors p)

/-- A stream's entry of the table, allocated at its first WR; with the table full the stream shares the overflow entry (R288). -/
def State.openStream (s : State) (sid : Nat) : State :=
  if s.streams.contains sid || s.overflow.contains sid then s
  else if s.streams.length < 4096 then { s with streams := s.streams ++ [sid] } else { s with overflow := s.overflow ++ [sid] }

/-- A WR arrives (R284, R288); one that is refused never becomes visible. -/
def State.receiveWr (s : State) (port : Nat) (f : Frame) : State :=
  let sid := streamId f
  let s := s.openStream sid
  if s.wrAllowed f then
    let s := (s.bump F.FAB_NWR_COUNT).offer (Config.evtCode 2) { rig := some (s.get F.FAB_WIN_0_RIG (winOf f)), port := some port }
    { s with wrCount := s.wrCount + 1,
             remoteWrs := s.remoteWrs ++ [{ stream := sid, seq := s.wrCount, win := winOf f, frame := f, port := port }] }
  else { s with rejWrs := s.rejWrs ++ [(sid, f.cnt)] }.answerRej f 2 0

/-- WRs that have come on a fabric port and wait for room (R285). -/
def State.waitingWrs (s : State) : List Frame := (List.range 8).flatMap fun p => (s.link p).inbox

/-- Does a count cover a sequence number, modulo 2^16 (R287)? -/
def covers (cnt seq : Nat) : Bool := decide ((cnt + 65536 - seq % 65536) % 65536 < 32768)

/-- Is a held SIG's hold over (R287, R288): are all writes that it waits for visible? -/
def State.sigFree (s : State) (h : HeldSig) : Bool :=
  if h.overflow then
    (s.remoteWrs.all fun r => decide (r.seq > h.upTo) || !s.overflow.contains r.stream)
      && (s.waitingWrs.all fun f => !s.overflow.contains (streamId f)) && s.rejWrs.all fun r => !s.overflow.contains r.1
  else
    (s.remoteWrs.all fun r => r.stream ≠ h.stream || !covers h.cnt r.frame.cnt)
      && (s.waitingWrs.all fun f => streamId f ≠ h.stream || !covers h.cnt f.cnt) && s.rejWrs.all fun r => r.1 ≠ h.stream || !covers h.cnt r.2

/-- A signal from afar is raised, if a rig still owns it. -/
def State.raiseFar (s : State) (sig : Nat) : State := if (s.rigOfSig sig).isSome then s.raiseSig none sig else s

/-- Stream entries whose writes are all visible and of which no SIG is held are freed; the overflow entry as one (R288). -/
def State.freeStreams (s : State) : State :=
  let busy := fun i => (s.remoteWrs.any (·.stream = i)) || s.heldSigs.any (·.stream = i) || (s.waitingWrs.any fun f => streamId f = i)
    || s.rejWrs.any fun r => r.1 = i
  { s with streams := s.streams.filter busy, overflow := if s.overflow.any busy then s.overflow else [] }

/-- Held SIGs whose hold is over are raised, in arrival order (R287). -/
def State.releaseSigs (s : State) : State :=
  let free := s.heldSigs.filter s.sigFree
  let s := { s with heldSigs := s.heldSigs.filter fun h => !s.sigFree h }
  (each free (fun s h => s.raiseFar h.sig) s).freeStreams

/-- A SIG is rejected (R299): REJ goes back, RREJ is set and the synchronization block offers its event (R316). -/
def State.rejectSig (s : State) (port : Nat) (f : Frame) : State :=
  ((s.answerRej f 4 0).raiseFlag F.SYN_STAT_RREJ).offer (Config.evtCode 92) { port := some port }

/-- A SIG arrives (R287, R299): held until every write of its stream up to CNT is visible. -/
def State.receiveSig (s : State) (port : Nat) (f : Frame) : State :=
  let sig := bits f.arg 13 0
  match s.rigOfSig sig with
  | some n =>
    if s.rigLive n && s.inGroup (s.get F.SYN_RIG_RSGRP n) f.src then
      let sid := streamId f
      let h : HeldSig :=
        { stream := sid, cnt := f.cnt, upTo := s.wrCount, overflow := s.overflow.contains sid, sig := sig, at_ := s.now, port := port }
      if s.sigFree h then s.raiseSig none sig
      else
        { (s.bump F.FAB_NHOLD_COUNT).offer (Config.evtCode 3) { rig := some n, port := some port } with heldSigs := s.heldSigs ++ [h] }
    else s.rejectSig port f
  | none => s.rejectSig port f

/-- Bytes cut where their destination crosses a boundary of 512 (R283). -/
def cut512 (addr : Nat) (bs : List (Byte × Bool)) : List (Nat × List (Byte × Bool)) :=
  if bs.isEmpty then []
  else (List.range ((addr + bs.length - 1) / 512 + 1 - addr / 512)).map fun i =>
    let a := max addr ((addr / 512 + i) * 512)
    (a, (bs.drop (a - addr)).take ((addr / 512 + i + 1) * 512 - a))

/-- A WR of an engine leaves (R286): numbered in its stream. -/
def State.sendOneWr (s : State) (p e addr : Nat) (bs : List (Byte × Bool)) : State :=
  let dst := bits addr 51 40
  let k := sendKey dst (s.logical p) (e - 6)
  let n := (s.sendStreams.get {} k).seq + 1
  let pm := each (List.range ((bs.length + 7) / 8)) (fun m w => if poisOf 0 bs w then m + 2 ^ w else m) 0
  let f : Frame := { ftype := ftWR, dst := dst, src := s.myId, stile := s.logical p, seng := e - 6, cnt := n % 65536, arg := addr,
                     pmask := pm, payload := bs.map Prod.fst, own := (s.eng p e).run.logno }
  let s := if dst = s.myId then s.receiveWr 31 f else s.sendOn f
  { s with sendStreams := s.sendStreams.upd {} k fun st => { st with seq := n } }

/-- A transfer of an engine leaves as WRs none of which crosses 512 bytes (R283); and the number of the last. -/
def State.sendWr (s : State) (p e addr : Nat) (bs : List (Byte × Bool)) : State × Nat :=
  let s := each (cut512 addr bs) (fun s x => s.sendOneWr p e x.1 x.2) s
  (s, (s.sendStreams.get {} (sendKey (bits addr 51 40) (s.logical p) (e - 6))).seq)

/-- May a WR of this device to itself land in its inbound buffer? A WR to another device waits at the port instead. -/
def State.sendRoom (s : State) (addr : Nat) (n : Nat) : Bool :=
  bits addr 51 40 ≠ s.myId || s.wrRoom { arg := addr, payload := List.replicate n 0 }

/-- The bytes of a WR with their poison. -/
def Frame.data (f : Frame) : List (Byte × Bool) := f.payload.zipIdx.map fun b => (b.1, bit f.pmask (b.2 / 8))

/-- The lines that an outside write of `bs` at `addr` of a space covers: key, offset in the page, bytes. -/
def linesOf (space addr : Nat) (bs : List (Byte × Bool)) : List (Nat × Nat × List (Byte × Bool)) :=
  if bs.isEmpty then []
  else (List.range ((addr + bs.length - 1) / 256 + 1 - addr / 256)).map fun i =>
    let a := if i = 0 then addr else (addr / 256 + i) * 256
    let z := min (addr + bs.length) ((addr / 256 + i + 1) * 256)
    (keyOf space a, a % 65536, (bs.drop (a - addr)).take (z - a))

/-- The read of a read-modify-write of a line of the current version (R213, R220): what the word code finds is written back. -/
def State.readForModify (s : State) (key line : Nat) (errs : List (Nat × Nat)) : State :=
  match s.page? key with
  | none => s
  | some p =>
    if p.zero || p.cmp || decide (p.tier > 1) then s
    else if errs.isEmpty then s.countLine key
    else
      let o := p.data.ecc (32 * line) 32 errs (Config.freeNat s.fresh)
      let s := when (p.tier = 1 && !o.uncorrectable.isEmpty) (·.noteLost key) (s.spend.noteEcc o (s.wordAt p.tier p.frame))
      (s.modPage key fun p => { p with data := o.c }).countLine key

/-- An outside write of a line (R213, R284, R335): errors of `errs` are words of the line, counted on from line to line. A whole line is not read first. -/
def State.outsideLine (s : State) (l : Nat × Nat × List (Byte × Bool)) (errs : List (Nat × Nat)) : State :=
  let s := if l.2.2.length = 256 then s else s.readForModify l.1 (l.2.1 / 256) errs
  (s.outsideWrite l.1 l.2.1 l.2.2).countLine l.1

/-- Do two pending WRs meet in a byte? -/
def State.wrsMeet (s : State) (a b : Frame) : Bool :=
  s.wrTile a = s.wrTile b && ((s.wrTile a).isSome || s.get F.FAB_WIN_0_SPACE (winOf a) = s.get F.FAB_WIN_0_SPACE (winOf b))
    && overlaps (s.wrAddr a) a.payload.length (s.wrAddr b) b.payload.length

/-- May a pending WR become visible: earlier WRs of its stream have, and earlier ones of other streams to the same bytes (R284)? -/
def State.wrTurn (s : State) (r : RemoteWr) : Bool :=
  s.remoteWrs.all fun q => decide (q.seq ≥ r.seq) || (q.stream ≠ r.stream && !s.wrsMeet q.frame r.frame)

/-- WRs that wait at a port are taken in turn while there is room, and their credits go back (R285). -/
def State.takeInbox (s : State) (port : Nat) : Nat → State
  | 0 => s
  | n + 1 =>
    match (s.link port).inbox with
    | [] => s
    | f :: l =>
      if s.wrAllowed f && !s.wrRoom f then s
      else (((s.modLink port fun x => { x with inbox := l }).receiveWr port f).tookFrame port f).takeInbox port n

def State.takeInboxes (s : State) : State := each (List.range 8) (fun s p => s.takeInbox p (s.link p).inbox.length) s

/-- A pending WR leaves the list; a WACK goes back after every 32 writes of the stream and when none is left pending (R286). -/
def State.wrGone (s : State) (r : RemoteWr) : State :=
  let s := { s with remoteWrs := s.remoteWrs.filter (·.seq ≠ r.seq) }
  let s := if r.frame.cnt % 32 = 0 || !(s.remoteWrs.any (·.stream = r.stream)) then s.answerWack r.frame else s
  s.takeInboxes.releaseSigs

/-- A pending WR lands (R284). A write to a page that is unmapped, sealed or not of the window's rig is an address fault at the issuing
engine (log entry 35). -/
def State.wrLand (s : State) (r : RemoteWr) (errs : List (Nat × Nat)) : State :=
  let f := r.frame
  match s.wrTile f with
  | some p => ((s.remoteSlot p).storeWrite p (s.wrAddr f) f.data).wrGone r
  | none =>
    let sp := s.get F.FAB_WIN_0_SPACE r.win
    let ls := linesOf sp (s.wrAddr f) f.data
    if !(ls.all fun l => s.mayWrite (s.get F.FAB_WIN_0_RIG r.win) l.1) then
      ({ s with remoteWrs := s.remoteWrs.filter (·.seq ≠ r.seq), rejWrs := s.rejWrs ++ [(r.stream, f.cnt)] }.answerRej f 2 0).takeInboxes.releaseSigs
    else if ls.all fun l => s.outsideReady l.1 (l.2.1 / 256) then
      let s := each ls.zipIdx (fun s l => s.outsideLine l.1 ((errs.filter fun e => e.1 / 32 = l.2).map fun e => (e.1 % 32, e.2))) s
      (each (ls.map Prod.fst).eraseDups State.touch s).wrGone r
    else each ls (fun s l => if s.outsideReady l.1 (l.2.1 / 256) then s else s.outsideWait l.1) s

/-! ### Collectives (R290, R291): blocks of 32 elements -/

/-- Bytes of a block as carried: G8, F19, FP32 (R280). -/
def blkBytes : Nat → Nat
  | 0 => 33
  | 1 => 96
  | _ => 128

/-- The FP32 values of a block with their poison. -/
def blkVals (md : NMode) (fmt : Nat) (bs : List (Byte × Bool)) : List (Nat × Bool) :=
  let raw := bs.map Prod.fst
  if fmt = 0 then
    let e := (raw.getD 32 0).toNat
    (raw.take 32).map fun c => ((g8Value md e c.toNat).1, bs.any Prod.snd)
  else
    let n := if fmt = 1 then 3 else 4
    (List.range 32).map fun i =>
      (leNat ((raw.drop (n * i)).take n) * (if fmt = 1 then 256 else 1), ((bs.drop (n * i)).take n).any Prod.snd)

/-- A block of FP32 values in the format carried. -/
def blkOf (md : NMode) (fmt : Nat) (vs : List (Nat × Bool)) : List (Byte × Bool) × NFlags :=
  if fmt = 0 then
    let q := g8Quant md (vs.map Prod.fst)
    let p := vs.any Prod.snd
    ((q.2.1.map fun c => (BitVec.ofNat 8 c, p)) ++ [(BitVec.ofNat 8 q.1, p)], q.2.2.2)
  else if fmt = 1 then
    let r := vs.map fun v => (toF19 md false v.1, v.2)
    (r.flatMap fun v => (leBytes 3 (v.1.1 / 256)).map fun b => (b, v.2), (r.map fun v => v.1.2).foldl NFlags.or {})
  else (vs.flatMap fun v => (leBytes 4 v.1).map fun b => (b, v.2), {})

/-- Two partial sums combined (R291). -/
def blkSum (md : NMode) (fmt : Nat) (a b : List (Byte × Bool)) : List (Byte × Bool) × NFlags :=
  let r := (List.zip (blkVals md fmt a) (blkVals md fmt b)).map fun x => (fAdd md x.1.1 x.2.1, x.1.2 || x.2.2)
  let o := blkOf md fmt (r.map fun x => (x.1.1, x.2))
  (o.1, (r.map fun x => x.1.2).foldl NFlags.or o.2)

/-- The blocks of part `p`, and of slice `j` of it among `m` (R291; log entry 30). -/
def partBlocks (n p : Nat) : Nat × Nat := (p * n / 8, (p + 1) * n / 8)
def sliceBlocks (n p m j : Nat) : Nat × Nat :=
  let r := partBlocks n p
  (r.1 + j * (r.2 - r.1) / m, r.1 + (j + 1) * (r.2 - r.1) / m)

/-- A range of blocks cut into what one frame carries. -/
def cutFrames (fmt a z : Nat) : List (List Nat) :=
  let k := 512 / blkBytes fmt
  (List.range ((z - a + k - 1) / k)).map fun i => (List.range (min k (z - a - k * i))).map (a + k * i + ·)

def State.collMode (s : State) (c : Coll) : NMode :=
  match c.rig with
  | some n => s.nmode n false
  | none => s.nmode ((s.rigOf c.tile).getD 0) false

/-- Where a block of a COLL lies in the tile store (log entry 30): G8 packed, F19 in containers, FP32. -/
def storeBlk (fmt b : Nat) : Nat := if fmt = 0 then 33 * b else 128 * b

/-- This member's contribution to a block. -/
def State.collOwn (s : State) (c : Coll) (b : Nat) : List (Byte × Bool) :=
  match c.rig with
  | some n =>
    let t := (s.rig n).take
    let src := if c.second then t.lateG.get [] c.group else t.packed.get [] c.group
    let k := blkBytes c.fmt
    let l := (src.drop (k * b)).take k
    (l ++ List.replicate (k - l.length) 0).map fun x => (x, false)
  | none =>
    let st := (s.tile c.tile).store
    if c.fmt = 1 then (List.range 32).flatMap fun i => st.read (c.src + 128 * b + 4 * i + 1) 3
    else st.read (c.src + storeBlk c.fmt b) (blkBytes c.fmt)

/-- A collective changed. -/
def State.modColl (s : State) (c : Coll) (f : Coll → Coll) : State :=
  { s with colls := s.colls.map fun x => if x.tile = c.tile && x.eng = c.eng && x.rig = c.rig && x.group = c.group && x.second = c.second
      then f x else x }

/-- The collective as it stands. -/
def State.coll? (s : State) (c : Coll) : Option Coll :=
  s.colls.find? fun x => x.tile = c.tile && x.eng = c.eng && x.rig = c.rig && x.group = c.group && x.second = c.second

/-- A result block is put in place. -/
def State.collPut (s : State) (c : Coll) (b : Nat) (bs : List (Byte × Bool)) : State :=
  let s := s.modColl c fun c => { c with have_ := c.have_ ++ [b], part := if c.rig.isSome then c.part.put b bs else c.part }
  match c.rig with
  | some _ => s
  | none =>
    if c.fmt = 1 then
      s.storeWrite c.tile (c.dst + 128 * b) ((List.range 32).flatMap fun i =>
        (0, (bs[3 * i]?.map Prod.snd).getD false) :: (bs.drop (3 * i)).take 3)
    else s.storeWrite c.tile (c.dst + storeBlk c.fmt b) bs

/-- The tile of a COLL uses its vertical port; the update unit has none. -/
def State.collSlot (s : State) (c : Coll) : State := if c.rig.isNone then s.remoteSlot c.tile else s

/-- A CDATA frame of blocks that follow one another leaves. -/
def State.sendCdata (s : State) (c : Coll) (dst step part : Nat) (bl : List (Nat × List (Byte × Bool))) : State :=
  match bl with
  | [] => s
  | x :: _ =>
    let bs := bl.flatMap Prod.snd
    let pm := each (List.range ((bs.length + 7) / 8)) (fun m w => if poisOf 0 bs w then m + 2 ^ w else m) 0
    let s := s.collSlot c
    s.sendOn { ftype := ftCDATA, dst := dst, stile := c.rig.getD (s.logical c.tile), seng := if c.rig.isSome then 2 else c.eng - 6
               cnt := if c.rig.isSome then c.group else 0
               arg := c.collid % 2 ^ 32 + (step + (if c.second then 2 ^ 15 else 0)) * 2 ^ 32 + part * 2 ^ 48
               pmask := pm, ofs := 32 * (x.1 - (partBlocks c.nblk part).1), payload := bs.map Prod.fst }

/-- This member's position in a list. -/
def State.myPos (s : State) (l : List Nat) : Nat := l.findIdx (· = s.myId)
def nextIn (l : List Nat) (pos : Nat) : Nat := l.getD ((pos + 1) % l.length) 0

/-- Numeric flags of a collective of an engine. -/
def State.collFlags (s : State) (c : Coll) (fs : List NFlags) : State :=
  if c.rig.isNone then s.raiseNums c.tile c.logno fs else s

/-- Blocks whose final value this member has, at step `step` of the all-gather (0: its own): put in place and sent on (R291). -/
def State.gatherOn (s : State) (c : Coll) (u part : Nat) (bl : List (Nat × List (Byte × Bool))) : State :=
  let s := each bl (fun s b => s.collPut c b.1 b.2) s
  if c.op ≠ 1 && decide (u + 1 < c.members.length) then
    s.sendCdata c (nextIn c.members (s.myPos c.members)) ((if c.op = 2 then 0 else c.incl.length - 1) + u) part bl
  else s

/-- Ring form: a frame of blocks arrives at step `step` (R291). -/
def State.ringFrame (s : State) (c : Coll) (step part : Nat) (bl : List (Nat × List (Byte × Bool))) : State :=
  let m := c.incl.length
  let red := if c.op = 2 then 0 else m - 1
  if step < red then
    let md := s.collMode c
    let r := bl.map fun b => (b.1, blkSum md c.fmt b.2 (s.collOwn c b.1))
    let s := s.collFlags c (r.map fun b => b.2.2)
    let out := r.map fun b => (b.1, b.2.1)
    let s := s.modColl c fun c => { c with got := each bl (fun g b => g.set 0 b.1 1) c.got }
    if step + 1 < red then s.sendCdata c (nextIn c.incl (s.myPos c.incl)) (step + 1) part out
    else s.gatherOn c 0 part out
  else s.gatherOn c (step - red + 1) part bl

/-- Rounds of the tree. -/
def rounds (n : Nat) : Nat := if n ≤ 1 then 0 else Nat.log2 (n - 1) + 1

/-- The rounds in which a position receives from a child: those below the round in which it sends. -/
def childRounds (n pos : Nat) : List Nat :=
  ((List.range (rounds n)).takeWhile fun r => pos % 2 ^ (r + 1) = 0).filter fun r => decide (pos + 2 ^ r < n)

/-- The round in which a position sends to its parent. -/
def upRound (n pos : Nat) : Nat := ((List.range (rounds n)).find? fun r => pos % 2 ^ (r + 1) ≠ 0).getD 0

/-- Tree form: a block's final value goes down (R291). -/
def State.treeDown (s : State) (c : Coll) (part : Nat) (b : Nat) (bs : List (Byte × Bool)) : State :=
  let n := c.members.length
  let pos := s.myPos c.members
  each (childRounds n pos).reverse (fun s r => s.sendCdata c (c.members.getD (pos + 2 ^ r) 0) (rounds n + (rounds n - 1 - r)) part [(b, bs)])
    (s.collPut c b bs)

/-- Tree form: a block's children are combined in round order as they come; complete, it goes up or, at the root, down. -/
def State.treeUp (s : State) (c : Coll) (part b : Nat) : Nat → State
  | 0 => s
  | k + 1 =>
    match s.coll? c with
    | none => s
    | some c =>
      let n := c.members.length
      let pos := s.myPos c.members
      let i := c.got.get 0 b
      let cur := if i = 0 then s.collOwn c b else c.part.get [] b
      match (childRounds n pos)[i]? with
      | some r => (match c.recv.lookup (16 * b + r) with
        | none => s
        | some bs =>
          let o := blkSum (s.collMode c) c.fmt cur bs
          ((s.collFlags c [o.2]).modColl c fun c => { c with
            got := c.got.set 0 b (i + 1), part := c.part.put b o.1, recv := c.recv.erase (16 * b + r) }).treeUp c part b k)
      | none =>
        if pos = 0 then s.treeDown c part b cur
        else s.sendCdata c (c.members.getD (pos - 2 ^ upRound n pos) 0) (upRound n pos) part [(b, cur)]

def State.treeFrame (s : State) (c : Coll) (step part : Nat) (bl : List (Nat × List (Byte × Bool))) : State :=
  let n := c.members.length
  if step < rounds n then
    each bl (fun s b => (s.modColl c fun c => { c with recv := c.recv.put (16 * b.1 + step) b.2 }).treeUp c part b.1 13) s
  else each bl (fun s b => s.treeDown c part b.1 b.2) s

/-- Has a collective everything in place, and has it passed on all that goes through it (R289)? -/
def State.collDone (s : State) (c : Coll) : Bool :=
  let all := fun (q : Nat → Bool) => (List.range c.nblk).all q
  if c.op = 1 && c.form = 0 then
    let m := c.incl.length
    let pos := s.myPos c.incl
    (List.range 8).all fun p => (List.range m).all fun j =>
      let r := sliceBlocks c.nblk p m j
      (List.range (r.2 - r.1)).all fun i => j = (pos + m - 1) % m && decide (m > 1) || c.got.get 0 (r.1 + i) = 1
        || (m = 1 && c.have_.contains (r.1 + i))
  else all fun b => c.have_.contains b

/-- What the exchange makes of its sums (R269): each element times N / n, and ω times the late sum. -/
def exchangeValue (md : NMode) (total n omega : Nat) (sum : Nat) (late : Option Nat) : Nat :=
  let one := if total = n then sum
    else (fMul md (fDivK { md with strict := true } 1 0 (intToFp32 md total).1 (intToFp32 md n).1).1 sum).1
  match late with
  | none => one
  | some l => (fAdd md one (fMul md omega l).1).1

/-- The weight of late contributions: word 7 of the lead's rig (R269), free at another member (log entry 71). -/
def State.omega (s : State) (n g : Nat) : Nat :=
  let t := (s.rig n).take
  let lead := ((s.group? (((t.groups[g]?).map (·.xgrp)).getD 4095)).getD []).headD 0
  if lead = s.myId then t.hyper.getD 7 0 else (Config.leadOmega lead g t.num).toNat

/-- An exchange goes on (R257, R260, R293): once this member takes part and MASK has come, a verdict that is not ok strikes the take; else,
with every block in place, the combined result is formed, and the last group's result opens Apply. -/
def State.exchangeStep (s : State) (n g : Nat) : State :=
  match s.exchanges.find? fun x => x.rig = n && x.group = g with
  | none => s
  | some x =>
    if !(x.started && x.masked) then s
    else if x.verdict ≠ 0 then s.exchangeFail n x.verdict
    else
      let cs := s.colls.filter fun c => c.rig = some n && c.group = g
      if !(cs.all fun c => s.collDone c) then s
      else
        let t := (s.rig n).take
        let md := s.nmode n false
        let vals := fun (sec : Bool) (b : Nat) => ((cs.find? (·.second = sec)).map fun c => (blkVals md c.fmt (c.part.get [] b)).map Prod.fst)
        let nel := ((t.groups[g]?).map (·.nelem)).getD 0
        let out := (List.range (nel / 32)).flatMap fun b =>
          let m := (vals false b).getD []
          let l := vals true b
          m.zipIdx.map fun v => (32 * b + v.2, exchangeValue md x.members.length x.incl.length (s.omega n g) v.1
            (l.map fun l => l.getD v.2 0))
        let s := { s with exchanges := s.exchanges.filter fun y => !(y.rig = n && y.group = g),
                          colls := s.colls.filter fun c => !(c.rig = some n && c.group = g) }
        if out.any fun v => !fp32.isFinite v.2 then s.exchangeFail n 1
        else
          let lg := fun (t : Take) => if x.late && x.incl.contains s.myId then t.lateG.erase g else t.lateG
          let s := s.modTake n fun t => { t with gc := each out (fun m v => m.set 0 (2 ^ 32 * g + v.1) v.2) t.gc, xdone := t.xdone ++ [g], lateG := lg t }
          let t := (s.rig n).take
          let left := t.groups.zipIdx.any fun x => bit x.1.flags 1 && !t.xdone.contains x.2
          if t.state = 4 && !left then s.modTake n fun t => { t with state := 5 } else s

/-- Where the COLLs that an engine has issued on a group are counted (R290). -/
def State.collKey (s : State) (grp p e : Nat) : Nat := grp * 2 ^ 10 + s.logical p * 8 + e

/-- What a collective that is complete does: a COLL is marked in the log and the shot list goes on (R289, R351); an exchange goes on. -/
def State.collEnd (s : State) (c : Coll) : State :=
  match s.coll? c with
  | none => s
  | some c =>
    match c.rig with
    | some n => s.exchangeStep n c.group
    | none =>
      match s.gen? c.tile c.eng with
      | some g =>
        if g.coll && s.collDone c then
          let s := { s with colls := s.colls.filter (· ≠ c) }
          ((s.markDone g.logno g.lead (unitKey c.tile c.eng) 0).modGen c.tile c.eng fun g => { g with coll := false }).shotNext
            c.tile c.eng
        else s
      | none => s

/-- The blocks that a CDATA frame carries, where they fit the member's own COLL (R290). -/
def State.cdataBlocks (c : Coll) (f : Frame) : Option (List (Nat × List (Byte × Bool))) :=
  let k := blkBytes c.fmt
  let part := bits f.arg 50 48
  let r := partBlocks c.nblk part
  let a := r.1 + f.ofs / 32
  let n := f.payload.length / k
  if f.payload.length % k = 0 && f.ofs % 32 = 0 && decide (1 ≤ n) && decide (a + n ≤ r.2) then
    some ((List.range n).map fun i => (a + i, (f.data.drop (k * i)).take k))
  else none

/-- The member that sends at a step, and the blocks of a part that it sends then; none where no frame is due at that step (R290, R291). Ring: in
step t of the reduction position r gets slice r − 2 − t, the slice that ends at position r is slice r; u + 1 hops on, the gathering brings
the slice of the member u + 1 before. Tree: a child's partial blocks, then the parent's final ones. -/
def State.cdataDue (s : State) (c : Coll) (step part : Nat) : Option (Nat × Nat × Nat) :=
  if c.form = 1 then
    let n := c.members.length
    let pos := s.myPos c.members
    let up := upRound n pos
    let r := partBlocks c.nblk part
    if (childRounds n pos).contains step then some (c.members.getD (pos + 2 ^ step) 0, r.1, r.2)
    else if 0 < pos ∧ step = rounds n + (rounds n - 1 - up) then some (c.members.getD (pos - 2 ^ up) 0, r.1, r.2)
    else none
  else
    let m := c.incl.length
    let n := c.members.length
    let red := if c.op = 2 then 0 else m - 1
    if step < red then
      let pos := s.myPos c.incl
      let z := sliceBlocks c.nblk part m ((pos + 2 * m - 2 - step) % m)
      if pos < m then some (c.incl.getD ((pos + m - 1) % m) 0, z.1, z.2) else none
    else if c.op = 1 ∨ n ≤ step - red + 1 then none
    else
      let pos := s.myPos c.members
      let own := c.members.getD ((pos + 2 * n - (step - red + 1)) % n) 0
      if c.incl.contains own then
        let z := sliceBlocks c.nblk part m (c.incl.findIdx (· = own))
        some (c.members.getD ((pos + n - 1) % n) 0, z.1, z.2)
      else none

/-- A CDATA frame of a collective in progress (R290, R291): one that its sender does not send at that step, or with blocks that are not those of the
step, disagrees with the member's own COLL. -/
def State.cdataFor (s : State) (c : Coll) (f : Frame) : State :=
  let step := bits f.arg 46 32
  let part := bits f.arg 50 48
  match State.cdataBlocks c f, s.cdataDue c step part with
  | some bl, some (src, a, z) =>
    if f.src = src ∧ bl.all (fun b => decide (a ≤ b.1) && decide (b.1 < z)) = true then
      let s := s.collSlot c
      (if c.form = 1 then s.treeFrame c step part bl else s.ringFrame c step part bl).collEnd c
    else (s.answerRej f 3 c.collid).collFail c
  | _, _ => (s.answerRej f 3 c.collid).collFail c

/-- CDATA that came before the collective is taken (R285). -/
def State.takeEarly (s : State) (c : Coll) : State :=
  let mine := fun (f : Frame) => f.ftype = ftCDATA && s.collOf f (bits f.arg 31 0) c && c.members.contains f.src
  let fs := s.early.filter mine
  each fs (fun s f => match s.coll? c with
    | some c => s.cdataFor c f
    | none => s) { s with early := s.early.filter fun f => !mine f }

/-- A collective starts (R289 to R291): this member sends what it starts. -/
def State.startColl (s : State) (c : Coll) : State :=
  let s := { s with colls := s.colls ++ [c] }
  let m := c.incl.length
  let s :=
    if c.form = 1 then
      each (List.range 8) (fun s p => let r := partBlocks c.nblk p
        each (List.range (r.2 - r.1)) (fun s i => s.treeUp c p (r.1 + i) 13) s) s
    else if !c.incl.contains s.myId then s
    else
      let pos := s.myPos c.incl
      each (List.range 8) (fun s p =>
        let own := sliceBlocks c.nblk p m (if c.op = 2 then pos else (pos + m - 1) % m)
        each (cutFrames c.fmt own.1 own.2) (fun s bl =>
          let data := bl.map fun b => (b, s.collOwn c b)
          if c.op = 2 ∨ m = 1 then s.gatherOn c 0 p data
          else s.sendCdata c (nextIn c.incl pos) 0 p data) s) s
  (s.takeEarly c).collEnd c

/-! ### The exchange of a take (R269, R293) -/

def State.exch? (s : State) (n g : Nat) : Option Exchange := s.exchanges.find? fun x => x.rig = n && x.group = g
def State.modExch (s : State) (n g : Nat) (f : Exchange → Exchange) : State :=
  { s with exchanges := s.exchanges.map fun x => if x.rig = n && x.group = g then f x else x }

/-- The exchange of a group of the open take, created where it does not exist. -/
def State.openExch (s : State) (n g : Nat) : State :=
  if (s.exch? n g).isSome then s
  else
    let x : Exchange := { rig := n, group := g, members := (s.group? ((((s.rig n).take.groups[g]?).map (·.xgrp)).getD 4095)).getD [] }
    { s with exchanges := s.exchanges ++ [x] }

/-- Does a frame of the update unit concern the take that rig `n` has open? `none`: a later take, or none. -/
def State.exchNow (s : State) (n g num : Nat) : Bool :=
  let t := (s.rig n).take
  decide (1 ≤ t.state) && decide (t.state ≤ 4) && t.num % 2 ^ 32 = num && !t.xdone.contains g && (match t.groups[g]? with
    | some x => bit x.flags 1 && ((s.group? x.xgrp).getD []).contains s.myId
    | none => false)

/-- The collective that moves an exchange's data: G8 blocks, or with GRAD 1 the FP16 values as F19 (R391). -/
def State.exchColl (s : State) (x : Exchange) (second : Bool) : Coll :=
  let t := (s.rig x.rig).take
  { rig := some x.rig, group := x.group, collid := t.num % 2 ^ 32, op := 0, form := 0
    fmt := if s.get F.IMG_RSTC_GRAD x.rig = 1 then 1 else 0, grp := ((t.groups[x.group]?).map (·.xgrp)).getD 0
    members := x.members, incl := x.incl, nblk := (((t.groups[x.group]?).map (·.nelem)).getD 0) / 32, second := second }

/-- A contribution discarded late is counted and offered (R269, R274). -/
def State.noteLate (s : State) (n : Nat) : State :=
  (s.bump F.IMG_TNLATE_COUNT 1 n).offer (Config.evtCode 18) { rig := some n }

/-- A take of rig `n` ends: a late contribution that the exchange of this take should have used and did not is discarded and counted; it is never more
than one take stale (R269). -/
def State.ageLate (s : State) (n : Nat) : State :=
  let t := (s.rig n).take
  let stale := fun (k : Nat) => decide (t.lateAge.get 0 k ≥ 1)
  let s := each (t.lateG.filter fun g => stale (2 * g.1)) (fun s _ => s.noteLate n) s
  s.modTake n fun t => { t with
    lateG := t.lateG.filter fun g => !stale (2 * g.1), lateOf := t.lateOf.filter fun g => !stale (2 * g.1 + 1)
    lateAge := each (t.lateG.map (2 * ·.1) ++ t.lateOf.map (2 * ·.1 + 1)) (fun m k => if stale k then m.set 0 k 0 else m.set 0 k 1) t.lateAge }

/-- What becomes of late contributions once a member is ready and MASK has come (R269): an earlier one that does not take part is
discarded and counted; an excluded member keeps its contribution under add later and discards it otherwise. -/
def State.settleLate (s : State) (n g : Nat) : State :=
  match s.exch? n g with
  | none => s
  | some x =>
    let t := (s.rig n).take
    let mine := x.incl.contains s.myId
    if mine && x.late then s
    else
      let s := when (t.lateG.lookup g).isSome (·.noteLate n) s
      if !mine && decide (t.strag = 0) then s.modTake n fun t => { t with lateG := t.lateG.put g (t.packed.get [] g), lateAge := t.lateAge.set 0 (2 * g) 0 }
      else (when (!mine) (·.noteLate n) s).modTake n fun t => { t with lateG := t.lateG.erase g }

/-- MASK's word reaches this member (R293): with verdict ok the data moves. -/
def State.maskCome (s : State) (n g : Nat) (incl : List Nat) (late : Bool) (verdict : Nat) : State :=
  match s.exch? n g with
  | none => s
  | some x =>
    if x.masked then s
    else
      let x := { x with masked := true, incl := incl, late := late, verdict := verdict }
      let s := s.modExch n g fun _ => x
      let s := when (decide (incl.length < x.members.length)) (·.modTake n fun t => { t with late := true }) s
      let s := when x.started (·.settleLate n g) s
      let s := when (verdict = 0) (·.startColl (s.exchColl x false)) s
      let s := when (verdict = 0 && late) (·.startColl (s.exchColl x true)) s
      s.exchangeStep n g

/-- The lead decides (R269): all contributions are in, or the straggler time is over under drop or add later. -/
def State.exchDecide (s : State) (n g : Nat) (ovr : Bool) : State :=
  match s.exch? n g with
  | none => s
  | some x =>
    let in_ := x.members.filter fun i => (x.verdicts.get none i).isSome
    if x.masked || !x.started || !(x.members.head? = some s.myId) then s
    else if in_.length < x.members.length && !(ovr && (s.rig n).take.strag ≠ 2) then s
    else
      let vs := in_.filterMap (x.verdicts.get none)
      let v := if vs.contains 2 then 2 else if vs.contains 1 then 1 else 0
      let t := (s.rig n).take
      let late := (t.lateOf.get [] g).any in_.contains
      let out := if t.strag = 0 then x.members.filter fun i => !in_.contains i else []
      let s := s.modTake n fun t => { t with lateOf := t.lateOf.set [] g out, lateAge := t.lateAge.set 0 (2 * g + 1) 0 }
      let s := each (x.members.filter fun i => !in_.contains i) (fun s _ => s.offer (Config.evtCode 17) { rig := some n }) s
      let s := each (x.members.filter (· ≠ s.myId)) (fun s i => s.sendOn
        { ftype := ftMASK, dst := i, stile := n, seng := 2, cnt := g, arg := t.num % 2 ^ 32 + v * 2 ^ 60
          payload := packBits (x.members.map in_.contains), ext := some (.mask in_ late) }) s
      s.maskCome n g in_ late v

/-- READY reaches the lead (R293). -/
def State.readyCome (s : State) (n g src verdict : Nat) : State :=
  (s.openExch n g).modExch n g (fun x => { x with verdicts := if x.members.contains src then x.verdicts.put src (some verdict) else x.verdicts })
    |>.exchDecide n g false

/-- Frames of the update unit that came early are taken. -/
def State.takeEarlyExch (s : State) (n g : Nat) : State :=
  let num := (s.rig n).take.num % 2 ^ 32
  let mine := fun (f : Frame) => (f.ftype = ftREADY || f.ftype = ftMASK) && f.seng / 2 % 2 = 1 && f.stile = n && f.cnt = g
    && bits f.arg 31 0 = num
  each (s.early.filter mine) (fun s f =>
    if f.ftype = ftREADY then s.readyCome n g f.src (bits f.arg 61 60)
    else match f.ext with
      | some (.mask incl late) => (s.openExch n g).maskCome n g incl late (bits f.arg 61 60)
      | _ => s) { s with early := s.early.filter fun f => !mine f }

/-- This member reaches Exchange with its contribution and verdict (R260, R293): READY goes to the lead. -/
def State.startExchange (s : State) (n g verdict : Nat) : State :=
  let s := (s.openExch n g).modExch n g fun x => { x with started := true, readyAt := s.now }
  match s.exch? n g with
  | none => s
  | some x =>
    let lead := x.members.headD 0
    let s := if lead = s.myId then s.readyCome n g s.myId verdict
      else s.sendOn { ftype := ftREADY, dst := lead, stile := n, seng := 2, cnt := g
                      arg := (s.rig n).take.num % 2 ^ 32 + verdict * 2 ^ 60 }
    let s := s.takeEarlyExch n g
    match s.exch? n g with
    | some x => if x.masked then (s.settleLate n g).exchangeStep n g else s
    | none => s

end Sys2Proof.Machine
end

