-- ==== Sys2Proof/Machine/LinkOps.lean ====
section
/-! DEFINITION. Requests to the memories beyond tier 0 (R202, R235 to R237, R241 to R243): commands on a Svaweurn link, accesses to CXL and
NVMe devices; what is lost with a link, a buffer or a device (R204, R240, R242). -/

namespace Sys2Proof.Machine

/-! ### Commands to a buffer -/

/-- The lowest free tag of a link; 1,023 may be outstanding (R237). -/
def Link.freeTag (l : Link) : Option Nat :=
  if l.tags.length ≥ 1023 then none else (List.range 1023).find? fun t => (l.tags.lookup t).isNone

/-- Payload flits of a command: a message slot and a slot for each data unit, three slots to a flit (R233; log entry 32). -/
def svFlits (kind units : Nat) : Nat := if kind = 2 then (units + 3) / 3 else 1

/-- A command to buffer `b` (R235, R237): none while a tag, a credit or room for replay is wanting, or the controller
resets (R223). -/
def State.svSend (s : State) (b : Nat) (c : TagCmd) (data : List (Byte × Bool)) : Option State :=
  let port := 10 + b
  let l := s.link port
  let n := svFlits c.kind c.units
  let dc := if c.kind = 2 then c.units else 0
  match l.freeTag with
  | none => none
  | some t =>
    if l.train = 4 ∧ ¬ s.ctlReset.contains port ∧ l.credits.get 0 0 ≥ 1 ∧ l.credits.get 0 1 ≥ dc ∧ l.unacked.length + n ≤ 128 then
      let qs := packSlots n l.nextSeq (svSlots c t (leNat (data.map Prod.fst)) data)
      some (each qs (fun s q => s.emit (.sent port q)) ((s.modLink port fun l => { l with
        tags := l.tags.put t { c with data := data }, credits := (l.credits.upd 0 0 (· - 1)).upd 0 1 (· - dc), nextSeq := (l.nextSeq + n) % 4096
        unacked := l.unacked ++ qs }).emit
        (.svaweurn port c.kind t (c.addr + c.ch * 2 ^ 40) c.units data)))
    else none

/-- May a waiting command go before the others: of a stored page the header and proxy are read first, and the rest once these have come (R202). -/
def Link.readTurn (l : Link) (c : TagCmd) : Bool :=
  c.kind ≠ 1 || c.head || !((l.tags.any fun t => t.2.kind = 1 && t.2.head && t.2.page = c.page) || l.waiting.any fun r => r.head && r.page = c.page)

/-- Waiting commands of a buffer go out while its link takes them. -/
def State.sendReads (s : State) (b : Nat) : Nat → State
  | 0 => s
  | n + 1 =>
    match (s.link (10 + b)).waiting.find? (s.link (10 + b)).readTurn with
    | none => s
    | some c =>
      match s.svSend b c c.data with
      | none => s
      | some t => (t.modLink (10 + b) fun l => { l with waiting := l.waiting.erase c }).sendReads b n

/-- What a link's change lets go. -/
def State.goReads (s : State) (b : Nat) : State := s.sendReads b (s.link (10 + b)).waiting.length

/-! ### Where a line lies in its page's home -/

/-- What a read of a line asks of the home, in order: is it of the header and proxy, the first 256 bytes in pieces, bytes. A page in plain form:
the line. A stored page: header and proxy, then the chunks that hold the line, whole (R202), at tier 1 in commands of 256 bytes (R237). -/
def Page.asks (p : Page) (line : Nat) : List (Bool × Nat × Nat) :=
  if !p.cmp then [(false, line, 256)]
  else
    let cs := (List.range (headChunks p.kind)).map (fun c => (true, c)) ++ (p.chunksOf line).map fun c => (false, c)
    if p.tier = 1 then cs.flatMap fun c => (List.range 16).map fun i => (c.1, 16 * c.2 + i, 256)
    else cs.map fun c => (c.1, 16 * c.2, 4096)

/-- The lines of a page that a piece of its home serves. -/
def Page.linesAt (p : Page) (piece : Nat) : List Nat :=
  if !p.cmp then [piece] else (List.range 256).filter fun l => (p.asks l).any fun a => a.2.1 = piece

/-- The byte of a moving page's new home to which a landed line's part of it goes: of a stored page, the line's share (log entry 39). -/
def Page.lineAt (p : Page) (line : Nat) : Nat := if p.cmp then line * 16 * (p.len + 1) / 64 * 64 else 256 * line

/-! ### A line is asked for -/

/-- Is a piece of a page's home being read, or about to be, at a buffer? -/
def Link.reading (l : Link) (key piece : Nat) : Bool :=
  (l.tags.any fun t => t.2.kind = 1 && t.2.page = key && t.2.line = piece) || l.waiting.any fun r => r.page = key && r.line = piece

/-- A line of a page is asked of its home: nothing to ask for tier 0, a page with no frame and a line that the move buffer holds (R193). -/
def State.lineReq (s : State) (key line : Nat) : State :=
  match s.page? key with
  | none => s
  | some p =>
    if p.zero || p.tier = 0 || (s.moves.any fun m => m.page = key && decide (line < m.mp)) || s.homeGone key then s
    else if p.tier = 1 then
      let u := p.frame / 2 ^ 32
      let b := u / 2 % 8
      (each (p.asks line) (fun s a => s.modLink (10 + b) fun l =>
        if l.reading key a.2.1 then l
        else { l with waiting := l.waiting ++ [{ kind := 1, ch := u % 2, addr := (p.frame % 2 ^ 32) * 4096 + 256 * a.2.1, units := 4, page := key, line := a.2.1, head := a.1 }] })
        s).goReads b
    else match s.memDev p.tier p.frame with
      | none => s
      | some d =>
        each (p.asks line) (fun s a =>
          if s.portReqs.any fun r => r.page = key && r.line = a.2.1 then s
          else
            let r : PortReq := { id := s.reqCount, port := d.2.port, dev := d.1, page := key, line := a.2.1 }
            { s with reqCount := s.reqCount + 1, portReqs := s.portReqs ++ [r] }.emit
              (.portReq d.2.port false ((p.frame - d.2.base) * 4096 + 256 * a.2.1) a.2.2)) s

/-- Is a read of a line outstanding at tier 1? -/
def State.lineOut (s : State) (key line : Nat) : Bool :=
  match s.page? key with
  | some p => p.tier = 1 && (p.asks line).any fun a => (s.link (10 + p.frame / 2 ^ 32 / 2 % 8)).reading key a.2.1
  | none => false

/-- A line has come from a CXL or NVMe device. -/
def State.lineCame (s : State) (key line : Nat) : State :=
  match s.page? key with
  | some p => { s with portReqs := s.portReqs.filter fun r => !(r.page = key && (decide (p.tier ≤ 1) || (p.asks line).any fun a => a.2.1 = r.line)) }
  | none => { s with portReqs := s.portReqs.filter fun r => r.page ≠ key }

/-! ### Lines lost (R204) -/

/-- The lines of an aligned far range: line addresses in units of 256 bytes. -/
def Xfer.lines (x : Xfer) : List Nat := (List.range ((x.base.addr + x.len + 255) / 256 - x.base.addr / 256)).map (x.base.addr / 256 + ·)

/-- A line of a page that a transfer waits for is lost; `head`: with it the page's header or proxy (R205). -/
def State.loseLine (s : State) (page line : Nat) (head : Bool) : State :=
  let l := vpnOf page * 256 + line
  let hit := fun (x : Xfer) => if !x.write && !x.arrived && x.base.cls = 0 && x.base.space = spaceOf page && x.lines.contains l
    then { x with lost := x.lost ++ [l], noProxy := if head then x.noProxy ++ [page] else x.noProxy } else x
  let gen := fun (e : Eng) => match e.run with
    | .ready g => { e with run := .ready { g with xfers := g.xfers.map hit } }
    | _ => e
  { s with tiles := s.tiles.map fun (t : Nat × Tile) => (t.1, { t.2 with engs := t.2.engs.map fun (e : Nat × Eng) => (e.1, gen e.2) }) }

/-- A read of a piece of a page's home is lost: every line that it serves is, for those who wait. -/
def State.losePiece (s : State) (page piece : Nat) : State :=
  match s.page? page with
  | some p => each (p.linesAt piece) (fun s l => s.loseLine page l (p.cmp && decide (piece / 16 < headChunks p.kind))) s
  | none => s

/-- Lines of a page are lost at home: reported, and marked poisoned unless the page is sealed, whose lines are reread from the negative (R204, R206). -/
def State.loseHome (s : State) (key : Nat) (lines : List Nat) : State :=
  let s := if lines.isEmpty then s else s.noteLost key lines.length
  s.modPage key fun p =>
    if p.ro then p
    else if p.tier ≤ 1 && !p.cmp then { p with data := each (lines.flatMap fun l => (List.range 32).map (32 * l + ·)) (fun c w => c.setPois w true) p.data }
    else { p with linePois := (p.linePois ++ lines).eraseDups }

/-- Every line is lost whose home, tier and frame, `gone` names; of a moving page the lines landed lie in its new home (R240, R242). -/
def State.loseRange (s : State) (gone : Nat → Nat → Bool) : State :=
  each s.pages (fun s x => match x.2 with
    | some p =>
      if p.zero then s
      else
        let m := s.moves.find? fun m => m.page = x.1
        let ls := (List.range 256).filter fun l => match m with
          | some m => if l < m.mp then gone m.dest m.frame else gone p.tier p.frame
          | none => gone p.tier p.frame
        if ls.isEmpty then s else s.loseHome x.1 ls
    | none => s) s

end Sys2Proof.Machine
end

