-- ==== Sys2Proof/Machine/Shot.lean ====
section
/-! DEFINITION. The instructions of shot lists (R126 to R134, R289): each is the next instruction of the running generation of
engine `e` of physical tile `p`, once every transfer of the block before it has left. -/

namespace Sys2Proof.Machine

/-! ### Encodings (R130, R289) -/

def encCnt (k lim : Nat) (str : Int) : Nat := 1 * 2 ^ 58 + k * 2 ^ 55 + (lim - 1) * 2 ^ 39 + wrap 24 str * 2 ^ 15
def encBase (b cls addr : Nat) : Nat := 2 * 2 ^ 58 + b * 2 ^ 56 + cls * 2 ^ 53 + addr
def encOfs (b : Nat) (off : Int) : Nat := 3 * 2 ^ 58 + b * 2 ^ 56 + wrap 48 off
def encFmt (esz conv : Nat) : Nat := 4 * 2 ^ 58 + esz * 2 ^ 55 + conv * 2 ^ 51
def encEmit (b d slot near : Nat) : Nat := 8 * 2 ^ 58 + b * 2 ^ 56 + d * 2 ^ 53 + slot * 2 ^ 51 + near * 2 ^ 42
def encWait (sig : Nat) : Nat := 9 * 2 ^ 58 + sig * 2 ^ 44
def encRaise (sig : Nat) : Nat := 0xA * 2 ^ 58 + sig * 2 ^ 44
def encDl (time pol : Nat) : Nat := 0xB * 2 ^ 58 + time * 2 ^ 42 + pol * 2 ^ 40
def encPois (abt : Bool) : Nat := 0xC * 2 ^ 58 + b2n abt * 2 ^ 57
def encLoopc (k tgt : Nat) : Nat := 0x10 * 2 ^ 58 + k * 2 ^ 55 + tgt * 2 ^ 49
def encArm (tgt : Nat) (wt : Bool) (addr : Nat) : Nat := 0x14 * 2 ^ 58 + tgt * 2 ^ 55 + b2n wt * 2 ^ 54 + addr
def encRsig (dev sig : Nat) : Nat := 0x18 * 2 ^ 58 + dev * 2 ^ 46 + sig * 2 ^ 32
def encColl (op form fmt grp count : Nat) : Nat :=
  0x19 * 2 ^ 58 + op * 2 ^ 56 + form * 2 ^ 55 + fmt * 2 ^ 53 + grp * 2 ^ 41 + count * 2 ^ 17
def encEnd : Nat := 0x3F * 2 ^ 58

/-- Is word `w` the instruction that engine `e` executes next? -/
def State.shotAt (s : State) (p e w : Nat) : Bool :=
  match s.gen? p e with
  | some g => !g.ended && g.blks.isEmpty && !g.coll && g.instrs[g.pc]? = some w
  | none => false

/-- The running generation's state changes and the shot list goes on. -/
def State.shotDo (s : State) (p e : Nat) (f : Gen → Gen) : State := (s.modGen p e f).shotNext p e

def Gen.setCtr (g : Gen) (k : Nat) (f : Ctr → Ctr) : Gen := { g with ctrs := modAt g.ctrs k f }
def Gen.setBase (g : Gen) (b : Nat) (f : Base → Base) : Gen := { g with bases := modAt g.bases b f }

/-- What an engine is wired to (R126). -/
def State.engClass (s : State) (p e : Nat) : Nat := s.get F.STRM_CTL_CLASS (engKey p e)
def State.engTarget (s : State) (p e : Nat) : Nat := s.get F.STRM_CTL_TARGET (engKey p e)

/-! ### Instructions without transfers -/

def execShotNop (p e : Nat) (s : State) : Result := gated (s.shotAt p e 0) (·.shotNext p e) s

def execCnt (p e k lim : Nat) (str : Int) (s : State) : Result :=
  gated (s.shotAt p e (encCnt k lim str)) (·.shotDo p e (·.setCtr k fun _ => { val := 0, lim := lim, str := str })) s

def execBase (p e b cls addr : Nat) (s : State) : Result :=
  gated (s.shotAt p e (encBase b cls addr)) (·.shotDo p e (·.setBase b fun x => { x with cls := cls, addr := addr })) s

/-- OFS: the sum wraps modulo 2^52 (log entry 147). -/
def execOfs (p e b : Nat) (off : Int) (s : State) : Result :=
  gated (s.shotAt p e (encOfs b off)) (·.shotDo p e (·.setBase b fun x => { x with addr := wrap 52 (x.addr + off) })) s

def execFmt (p e esz conv : Nat) (s : State) : Result :=
  gated (s.shotAt p e (encFmt esz conv)) (·.shotDo p e fun g => { g with esz := esz, conv := conv }) s

def execDl (p e time pol : Nat) (s : State) : Result :=
  gated (s.shotAt p e (encDl time pol)) (·.shotDo p e fun g => { g with dlTime := time, dlPol := pol }) s

def execPois (p e : Nat) (abt : Bool) (s : State) : Result :=
  gated (s.shotAt p e (encPois abt)) (·.shotDo p e fun g => { g with abt := abt }) s

/-- LOOPC (R130). -/
def Gen.loopc (g : Gen) (k tgt : Nat) : Gen :=
  let c := g.ctrs.getD k {}
  if c.val + 1 < c.lim then { g.setCtr k fun c => { c with val := c.val + 1 } with pc := tgt }
  else { g.setCtr k fun c => { c with val := 0 } with pc := g.pc + 1 }

def execLoopc (p e k tgt : Nat) (s : State) : Result :=
  gated (s.shotAt p e (encLoopc k tgt)) (·.modGen p e (·.loopc k tgt)) s

/-- END (R134): the generation has no further instruction. -/
def execShotEnd (p e : Nat) (s : State) : Result :=
  gated (s.shotAt p e encEnd) (·.modGen p e fun g => { g with ended := true }) s

/-! ### Signals -/

/-- The engine waits for something (STRM_STAT.WAIT). -/
def State.engWait (s : State) (p e code : Nat) : State := s.modGen p e fun g => { g with wait := code }

/-- Does a signal belong to the rig of tile `p` (R299)? -/
def State.ownSig (s : State) (p sig : Nat) : Bool := (s.rigOf p).isSome && s.rigOfSig sig = s.rigOf p

/-- An action of R351 by engine `e`: performed unless a MARK records it; then the shot list goes on. The MARK of a raise records the WR count of
the engine's stream. -/
def State.shotAct (s : State) (p e : Nat) (f : State → State) (raise : Bool := false) : State :=
  match s.gen? p e with
  | none => s
  | some g =>
    let u := unitKey p e
    let wr := match s.sheet g.logno with
      | some h => if raise then ((h.part g.lead).map fun q => q.ords.get 0 (2 ^ 20 + u)).getD 0 else 0
      | none => 0
    let known := (s.marked g.logno g.lead u).isSome
    let s := if known then s else f s
    (s.markDone g.logno g.lead u wr).shotNext p e

/-- Is the engine's next action one that a MARK records (R351)? -/
def State.shotMarked (s : State) (p e : Nat) : Bool :=
  match s.gen? p e with
  | some g => (s.marked g.logno g.lead (unitKey p e)).isSome
  | none => false

/-- WAIT (R133, R296, R299): a count is consumed, or the engine joins the waiters. -/
def execWait (p e sig : Nat) (s : State) : Result :=
  gated (s.shotAt p e (encWait sig)) (fun s =>
    if !s.ownSig p sig then s.engFault p e
    else if s.shotMarked p e then s.shotAct p e id
    else
      let r := s.waitSig { tile := p, unit := e } sig
      if r.1 then r.2.shotAct p e id else r.2.engWait p e 1) s

/-- RAISE (R134, R299): once every transfer of the generation has completed. -/
def execRaise (p e sig : Nat) (s : State) : Result :=
  gated (s.shotAt p e (encRaise sig)) (fun s =>
    if !s.ownSig p sig then s.engFault p e
    else if ((s.gen? p e).map (·.xfers.isEmpty)).getD true then s.shotAct p e (fun s => s.raiseSig (some p) sig) true
    else s.engWait p e 6) s

/-- RSIG (R287, R289): the SIG carries the sequence of the last WR of its stream; it waits until the engine's staged WRs have been sent. -/
def execRsig (p e dev sig : Nat) (s : State) : Result :=
  gated (s.shotAt p e (encRsig dev sig)) (fun s => if (s.staged? p e).isSome then s.engWait p e 3 else s.shotAct p e (raise := true) fun s =>
    let st := s.sendStreams.get {} (sendKey dev (s.logical p) (e - 6))
    let f : Frame := { ftype := ftSIG, dst := dev, src := s.myId, stile := s.logical p, seng := e - 6, cnt := st.seq % 65536, arg := sig
                       own := (s.eng p e).run.logno }
    if dev = s.myId then s.receiveSig 31 f else s.sendOn f) s

/-! ### ARM (R139, R140) -/

/-- An arm refused for want of a slot (R140). -/
def State.armFull (s : State) (p e tgt : Nat) : State :=
  let k := engKey p tgt
  (((((s.setReg F.STRM_STAT_ACODE 3 k).raiseFlag F.STRM_STAT_RARM k).bump F.STRM_NREF_COUNT 1 k).raiseFlag F.STRM_STAT_ARMF
    (engKey p e)).offerTile 0x190 p)

def execArm (p e tgt : Nat) (wt : Bool) (addr : Nat) (s : State) : Result :=
  gated (s.shotAt p e (encArm tgt wt addr)) (fun s =>
    match s.gen? p e with
    | none => s
    | some g =>
      if s.shotMarked p e then s.shotAct p e id
      else
        let a : Arm := { logno := g.logno, lead := g.lead, space := g.slSpace, addr := addr, fromEng := some e }
        match (s.eng p tgt).arm a false with
        | some x => s.shotAct p e fun s => (s.modEng p tgt fun _ => x).modPart g.logno g.lead fun q => { q with gens := q.gens + 1 }
        | none => if wt then s.engWait p e 5 else s.shotAct p e fun s => s.armFull p e tgt) s

/-! ### EMIT (R131, R135) -/

/-- Elements of a block: the product of the limits of the counters that run. -/
def Gen.count (g : Gen) (d : Nat) : Nat := ((g.ctrs.take d).map (·.lim)).foldl (· * ·) 1

/-- Half bytes of an element. -/
def halfBytes : Nat → Nat
  | 0 => 1
  | 1 => 2
  | 2 => 4
  | _ => 8

/-- The block that an EMIT emits; `free` is the near address of a fabric engine (log entry 24). -/
def Gen.block (g : Gen) (target b d slot near free : Nat) : Blk :=
  let n := g.count d
  let sl := if slot = 0 then g.toggle else slot - 1
  { base := g.bases.getD b {}, g8 := g.bases.getD ((b + 1) % 4) {}, g8n := g.g8n.get 0 b, d := d, ctrs := g.ctrs
    total := n + (if g.conv = 4 then n / 32 else 0), esz := g.esz, conv := g.conv
    near := if target ≤ 1 then 0 else if target = 2 ∨ target = 4 then 1 + sl else if target = 6 then 4 else 3
    nearAt := if target = 3 ∨ target = 5 then 128 * near else if target = 6 then free else 0
    dlTime := g.dlTime, dlPol := g.dlPol }

/-- Does the block break a rule of R131 or R135? -/
def State.badBlock (s : State) (p e target : Nat) (b : Blk) (n : Nat) : Bool :=
  if target = 2 ∨ target = 4 then decide (n * halfBytes b.esz > 2 * ((s.tile p).slots.get {} e).size)
  else if target = 3 ∨ target = 5 then
    n % 128 ≠ 0 || decide (b.nearAt + n > 65536) || (target = 3 && b.esz ≠ 3)
  else false

/-- The generation after an EMIT. -/
def Gen.emit (g : Gen) (target b d slot : Nat) (k : Blk) (n : Nat) : Gen :=
  { g with
    blks := [k], ctrs := g.ctrs.zipIdx.map fun c => if c.2 < d then { c.1 with val := 0 } else c.1
    toggle := if (target = 2 || target = 4) && slot = 0 then 1 - g.toggle else g.toggle
    g8n := if g.conv = 4 then g.g8n.upd 0 b (· + n / 32) else g.g8n
    banks := if target = 5 then
        (g.banks ++ (List.range ((k.nearAt + n + 16383) / 16384 - k.nearAt / 16384)).map (k.nearAt / 16384 + ·)).eraseDups
      else g.banks }

def execEmit (p e b d slot near : Nat) (s : State) : Result :=
  gated (s.shotAt p e (encEmit b d slot near)) (fun s =>
    match s.gen? p e with
    | none => s
    | some g =>
      let t := s.engTarget p e
      let k := g.block t b d slot near (Config.freeNat s.fresh 0 % storeSize)
      let n := g.count d
      if s.badBlock p e t k n then s.engFault p e
      else
        let s := if t = 6 then s.spend else s
        s.shotDo p e fun g => g.emit t b d slot k n) s

/-! ### COLL (R289, R290) -/

/-- A COLL over no valid group, or over one that this device is not in, ends with the collective error (R290, R312). -/
def State.collAbort (s : State) (p e : Nat) (g : Gen) : State :=
  s.engAbort p e g.logno g.lead 0x08

/-- COLL (R289, R290): it waits until its engine's staged writes have left the tile (R148); poison in its source is met as a stream engine meets it
(R145). One that a replay issues again goes on where it stood (R351). -/
def execColl (p e op form fmt grp count : Nat) (s : State) : Result :=
  gated (s.shotAt p e (encColl op form fmt grp count)) (fun s =>
    match s.gen? p e with
    | none => s
    | some g =>
      if s.shotMarked p e then s.shotAct p e id
      else
        let a := g.bases.getD 0 {}
        let z := g.bases.getD 1 {}
        let size := storeBlk fmt count
        if a.cls ≠ 1 ∨ z.cls ≠ 1 ∨ a.addr + size > storeSize ∨ z.addr + size > storeSize then s.engFault p e
        else match s.group? grp with
          | none => s.collAbort p e g
          | some ms =>
            if !ms.contains s.myId then s.collAbort p e g
            else if (s.staged? p e).isSome then s.engWait p e 3
            else s.engPois p e (((s.tile p).store.read a.addr size).any Prod.snd) fun s =>
              let k := s.collKey grp p e
              let s := s.modGen p e fun g => { g with coll := true }
              match s.colls.find? fun x => x.rig.isNone && x.tile = p && x.eng = e && x.grp = grp with
              | some c => s.collEnd c
              | none =>
                { s with collCount := s.collCount.upd 0 k (· + 1) }.startColl
                  { tile := p, eng := e, logno := g.logno, lead := g.lead, collid := s.collCount.get 0 k + 1, op := op, form := form, fmt := fmt, grp := grp, members := ms
                    incl := ms, nblk := count, src := a.addr, dst := z.addr }) s

end Sys2Proof.Machine
end

