-- ==== Sys2Proof/Machine/Stream.lean ====
section
/-! DEFINITION. Stream engines (R126 to R147): arms fetched and checked, transfers issued and completed, deadlines, generations that
end, parity errors. `p` is a physical tile, `e` a logical engine of it. -/

namespace Sys2Proof.Machine

/-! ### Checks of a shot list (R132, R289) -/

/-- Bits `hi` to `lo` set. -/
def maskBits (hi lo : Nat) : Nat := 2 ^ (hi + 1) - 2 ^ lo

/-- The bits below OP that an instruction names; none: an undefined opcode for the class. -/
def opMask (remote : Bool) : Nat → Option Nat
  | 0x00 => some 0
  | 0x01 => some (maskBits 57 15)
  | 0x02 => some (maskBits 57 53 + maskBits 51 0)
  | 0x03 => some (maskBits 57 56 + maskBits 47 0)
  | 0x04 => some (maskBits 57 51)
  | 0x08 => some (maskBits 57 42)
  | 0x09 => some (maskBits 57 44)
  | 0x0A => some (maskBits 57 44)
  | 0x0B => some (maskBits 57 40)
  | 0x0C => some (maskBits 57 57)
  | 0x10 => some (maskBits 57 49)
  | 0x14 => some (maskBits 57 54 + maskBits 51 0)
  | 0x18 => if remote then some (maskBits 57 32) else none
  | 0x19 => if remote then some (maskBits 57 17) else none
  | 0x3F => some 0
  | _ => none

def opOf (w : Nat) : Nat := w / 2 ^ 58

/-- The address classes that a target's checked bases and BASE instructions may have (R126, R128, R132; log entry 156). -/
def clsAllowed (target : Nat) (cls : Nat) : Bool :=
  match target with
  | 2 => cls = 0
  | 4 => cls = 0 || cls = 3
  | 5 => cls = 0 || cls = 1 || cls = 3
  | 6 => cls = 4
  | _ => cls = 0 || cls = 1

/-- The element size code of a read-out target (R131). -/
def convSize : Nat → Nat
  | 2 => 2
  | 3 => 2
  | 4 => 1
  | 5 => 1
  | 6 => 1
  | 7 => 2
  | _ => 3

/-- One instruction by itself: encoding, fields, format, deadline (R132). An EMIT of a target without slots has SLOT 0b11, a feed's too (log
entry 157). -/
def wordOk (cls target : Nat) (w : Nat) : Bool :=
  (match opMask (cls = 2) (opOf w) with
   | some m => (w % 2 ^ 58) &&& m = w % 2 ^ 58
   | none => false) &&
  (match opOf w with
   | 0x01 => decide (bits w 57 55 < 6)
   | 0x02 => clsAllowed target (bits w 55 53)
   | 0x04 => decide (bits w 57 55 < 4) && decide (bits w 54 51 < 9) && (bits w 54 51 = 0 || target = 5)
     && (target ≠ 5 || bits w 57 55 = convSize (bits w 54 51))
   | 0x08 => decide (1 ≤ bits w 55 53) && decide (bits w 55 53 ≤ 6) && ((bits w 52 51 = 3) == (target ≠ 2 && target ≠ 4))
     && (bits w 50 42 = 0 || target = 3 || target = 5)
   | 0x0B => bits w 41 40 ≠ 3 && (bits w 41 40 = 0 || cls = 0)
   | 0x10 => decide (bits w 57 55 < 6)
   | 0x19 => bits w 57 56 ≠ 3 && bits w 54 53 ≠ 3 && (!bit w 55 || bits w 57 56 = 0)
   | _ => true)

/-- The loops of a list: first and last index of the body, counter. -/
def loopsOf (ws : List Nat) : List (Nat × Nat × Nat) :=
  ws.zipIdx.filterMap fun x => if opOf x.1 = 0x10 then some (bits x.1 54 49, x.2, bits x.1 57 55) else none

/-- Bodies nested or disjoint, nested ones with different counters. -/
def loopsOk (ls : List (Nat × Nat × Nat)) : Bool :=
  ls.all fun a => decide (a.1 < a.2.1) && ls.all fun b =>
    decide (a.2.1 ≥ b.2.1) || decide (a.2.1 < b.1) || (decide (b.1 ≤ a.1) && a.2.2 ≠ b.2.2)

/-- Within a body on counter K every EMIT has D ≤ K and no CNT names K. -/
def depthOk (ws : List Nat) (ls : List (Nat × Nat × Nat)) : Bool :=
  ls.all fun l => ws.zipIdx.all fun x =>
    decide (x.2 < l.1) || decide (x.2 > l.2.1) ||
      (if opOf x.1 = 0x08 then decide (bits x.1 55 53 ≤ l.2.2) else !(opOf x.1 = 0x01 && bits x.1 57 55 = l.2.2))

/-- CONV in force before instruction `i` in list order. -/
def convAt (ws : List Nat) (i : Nat) : Nat :=
  (((ws.take i).filter fun w => opOf w = 0x04).getLast?.map fun w => bits w 54 51).getD 0

/-- Does a FMT stand in the list from index `a` to before `z`? -/
def fmtIn (ws : List Nat) (a z : Nat) : Bool := ((ws.take z).drop a).any fun w => opOf w = 0x04

/-- The values of CONV that an EMIT at index `i` may meet: in list order, and by a jump back of a body that holds it and sets no format
before it. -/
def convsAt (ws : List Nat) (i : Nat) : List Nat :=
  convAt ws i :: ((loopsOf ws).filter fun l => decide (l.1 ≤ i) && decide (i ≤ l.2.1) && !fmtIn ws l.1 i).map fun l => convAt ws l.2.1

/-- The bases that a descriptor is checked for (R132). -/
def checkedBases (ws : List Nat) : List Nat :=
  (ws.zipIdx.flatMap fun x =>
    if opOf x.1 = 0x08 then
      let b := bits x.1 57 56
      b :: (if (convsAt ws x.2).contains 4 then [(b + 1) % 4] else [])
    else if opOf x.1 = 0x03 then [bits x.1 57 56] else []).eraseDups

/-- A descriptor (R139): SLADDR, NINS, SLSPACE, bases with their spaces; none where a bit outside the bases that is zero by R139 is not. -/
def decodeDesc (b : List Byte) : Option (Nat × Nat × Nat × List Base) :=
  let bases := (List.range 4).map fun i =>
    let w := field b (16 + 8 * i) 8
    ({ cls := bits w 63 61, addr := w % 2 ^ 52, space := field b (48 + 2 * i) 2 } : Base)
  if decide (field b 0 8 < 2 ^ 52) && zeros b 9 12 && decide (field b 12 2 < 4096) && zeros b 14 16 && zeros b 56 64 then
    some (field b 0 8, field b 8 1, field b 12 2, bases)
  else none

/-- Are the reserved bits of descriptor base `i` zero, and its space where it is no device-range base (R139)? Asked of checked bases alone
(R132). -/
def baseClean (b : List Byte) (i : Nat) : Bool :=
  bits (field b (16 + 8 * i) 8) 60 52 = 0 && decide (field b (48 + 2 * i) 2 < 4096)
    && (bits (field b (16 + 8 * i) 8) 63 61 = 0 || field b (48 + 2 * i) 2 = 0)

/-- Is a space one of a rig's: its own, or one that it reads (R132, R178)? -/
def State.spaceOfRig (s : State) (rig space : Nat) : Bool :=
  match s.space? space with
  | some x => x.owner = rig || x.readers.contains rig
  | none => false

/-- The checks of R132 and R289 on a list and its descriptor's bases. -/
def State.listOk (s : State) (rig cls target : Nat) (bases : List Base) (ws : List Nat) : Bool :=
  let coll := ws.any fun w => opOf w = 0x19
  let ls := loopsOf ws
  decide (1 ≤ ws.length) && decide (ws.length ≤ 64) && ws.getLast? = some encEnd && ws.all (wordOk cls target) && loopsOk ls
    && depthOk ws ls
    && ((checkedBases ws).all fun i => let x := bases.getD i {}
      clsAllowed target x.cls && (x.cls ≠ 0 || s.spaceOfRig rig x.space))
    && (!coll || ((bases.getD 0 {}).cls = 1 && (bases.getD 1 {}).cls = 1))

/-- The generation that an arm becomes; unusable: it fails a check or cannot be read (R132, R140). -/
def State.fetchArm (s : State) (p e : Nat) (a : Arm) (errs : List (Nat × Nat)) : State × Fetched Gen :=
  let rig := (s.rigOf p).getD 0
  let cls := s.engClass p e
  if cls = 3 then (s, .unusable)
  else
    let r := s.partRead a.logno a.lead rig a.space a.addr 64 (errs.filter fun x => decide (x.1 < 8))
    match r.2.map fun b => (b, decodeDesc b) with
    | .waits => (r.1, .waits)
    | .negLost => (r.1, .negLost)
    | .got (db, some d) =>
      if d.2.1 = 0 ∨ d.2.1 > 64 then (r.1, .unusable)
      else
        let q := r.1.partRead a.logno a.lead rig d.2.2.1 d.1 (8 * d.2.1) ((errs.filter fun x => decide (8 ≤ x.1)).map fun x => (x.1 - 8, x.2))
        (q.1, match q.2 with
          | .got b =>
            let ws := (List.range d.2.1).map fun i => field b (8 * i) 8
            if (checkedBases ws).all (baseClean db) && q.1.listOk rig cls (s.engTarget p e) d.2.2.2 ws then
              .got { logno := a.logno, lead := a.lead, fromEng := a.fromEng, descSpace := a.space, descAddr := a.addr, instrs := ws
                     slSpace := d.2.2.1, bases := d.2.2.2 }
            else .unusable
          | .unusable => .unusable
          | .waits => .waits
          | .negLost => .negLost)
    | _ => (r.1, .unusable)

/-- May a feed of a task's array be given elements of a size (R31)? -/
def State.feedSizeOk (s : State) (logno target esz : Nat) : Bool :=
  match s.sheet logno with
  | some h => h.cs.kind ≠ 1 || (if target = 0 then decide (esz = stationarySize h.xd) else esz = 3 || esz = 2)
  | none => true

/-- ESZ in force before instruction `i` in list order. -/
def eszAt (ws : List Nat) (i : Nat) : Nat := (((ws.take i).filter fun w => opOf w = 0x04).getLast?.map fun w => bits w 57 55).getD 3

/-- The limit of counter `k` before instruction `i` in list order. -/
def limAt (ws : List Nat) (i k : Nat) : Nat :=
  (((ws.take i).filter fun w => opOf w = 0x01 && bits w 57 55 = k).getLast?.map fun w => bits w 54 39 + 1).getD 1

/-- The element sizes that the EMITs of a list meet: each in list order, and once more after a jump back that is taken. -/
def emitSizes (ws : List Nat) : List Nat :=
  (ws.zipIdx.flatMap fun x => if opOf x.1 ≠ 0x08 then [] else
    eszAt ws x.2 :: ((loopsOf ws).filter fun l => decide (l.1 ≤ x.2) && decide (x.2 ≤ l.2.1) && !fmtIn ws l.1 x.2
      && decide (2 ≤ limAt ws l.2.1 l.2.2)).map fun l => eszAt ws l.2.1).eraseDups

/-- Does a generation of a feed engine deliver elements of a size that the array's operand does not allow (R31; log entry 118)? -/
def State.wrongSize (s : State) (p e : Nat) (g : Gen) : Bool :=
  decide (s.engTarget p e ≤ 1) && (emitSizes g.instrs).any fun z => !s.feedSizeOk g.logno (s.engTarget p e) z

/-- An arm's task is aborted with the negative-lost error (R197). -/
def State.armLost (s : State) (p e : Nat) (a : Arm) : State :=
  (s.promote p e).abortTask a.logno 0x07 (s.detailTile p false e) (some a.lead)

/-- An arm that fails (R140). -/
def State.armFail (s : State) (p e : Nat) (a : Arm) : State :=
  let k := engKey p e
  let s := ((s.setReg F.STRM_STAT_ACODE 4 k).bump F.STRM_NREF_COUNT 1 k).promote p e
  match a.fromEng with
  | none => s.abortTask a.logno 0x01 (s.detailTile p false e) (some a.lead)
  | some i => ((s.raiseFlag F.STRM_STAT_ARMF (engKey p i)).modPart a.logno a.lead fun q => { q with gens := q.gens - 1 }).feedCheck p a.logno i

/-- An arm accepted (R139, R141). A shadow arm accepted while the arm of the running slot is still being checked stays in the shadow slot with ACODE
0b010, and the engine shows Held (log entry 155). -/
def State.armAccept (s : State) (p e : Nat) (shadow : Bool) (g : Gen) : State :=
  let k := engKey p e
  let n := ((s.eng p e).count + 1) % 65536
  let g := { g with num := n }
  let halt := s.flag F.STRM_CTL_HALT k
  let s := s.modEng p e fun x => { x with count := n }
  if shadow || halt then
    let s := s.modEng p e fun x =>
      if shadow then { x with shd := .ready g }
      else { x with run := .empty, stopped := false, shd := .ready g, held := (match x.shd with
        | .checking b => b :: x.held
        | _ => x.held) }
    ((s.setReg F.STRM_GEN_GENSHD n k).setReg F.STRM_STAT_ACODE 2 k).promote p e
  else (s.startGen p e g).setReg F.STRM_STAT_ACODE 1 k

/-- ARM_CHECK_COMPLETE (R31, R139 to R141). -/
def execArmCheckComplete (p e : Nat) (shadow : Bool) (errs : List (Nat × Nat)) (s : State) : Result :=
  let x := s.eng p e
  match (if shadow then x.shd else x.run) with
  | .checking a =>
    gated (shadow || !s.flag F.STRM_CTL_HALT (engKey p e) || x.shd.gen?.isNone) (fun s =>
      let r := s.fetchArm p e a errs
      let free := fun (s : State) => s.modEng p e fun x => if shadow then { x with shd := .empty } else { x with run := .empty, stopped := false }
      match r.2 with
      | .got g => if r.1.wrongSize p e g then r.1.abortTask a.logno 0x02 0 (some a.lead) else r.1.armAccept p e shadow g
      | .unusable => (free r.1).armFail p e a
      | .waits => r.1
      | .negLost => (free r.1).armLost p e a) s
  | _ => .next s

/-- STRM_HALT_WRITE (R141). -/
def State.haltEng (s : State) (p e d : Nat) : State := (s.setReg F.STRM_CTL_HALT (bits d 0 0) (engKey p e)).promote p e
def execStrmHaltWrite (p e : Nat) (data : Word) (s : State) : Result := gated s.ioReached (·.haltEng p e data.toNat) s

/-! ### The far side (R129, R131) -/

/-- The far offset in elements of element `n`: `d` counters run, c0 innermost, the others stay. -/
def strideSum : Nat → List Ctr → Nat → Int
  | 0, cs, _ => (cs.map fun c => (c.val : Int) * c.str).sum
  | _, [], _ => 0
  | d + 1, c :: cs, n => ((n % c.lim : Nat) : Int) * c.str + strideSum d cs (n / c.lim)

/-- Element `n` of a block: is it an exponent, and its far address in half bytes. The exponents come after the codes. -/
def Blk.at_ (b : Blk) (n : Nat) : Bool × Int :=
  if n < b.elems then (false, 2 * b.base.addr + halfBytes b.esz * strideSum b.d b.ctrs n)
  else (true, 2 * (b.g8.addr + b.g8n + (n - b.elems)))

def Blk.half (b : Blk) (exp : Bool) : Nat := if exp then 2 else halfBytes b.esz

/-- How many elements from `n` on follow one another in the far side, `k` at most. -/
def Blk.follow (b : Blk) (n : Nat) (a : Bool × Int) (h : Nat) : Nat → Nat
  | 0 => 0
  | k + 1 => if n < b.total ∧ b.at_ n = a then 1 + Blk.follow b (n + 1) (a.1, a.2 + h) h k else 0

/-- The most elements that a transfer from half byte `a` may carry: 512 bytes, no 4 KiB boundary, for a WR no 512-byte boundary. An element
that straddles a boundary goes alone (log entry 38). -/
def runLimit (h a : Nat) (remote : Bool) : Nat :=
  max 1 (min (1024 / h) (min ((8192 - a % 8192) / h) (if remote then (1024 - a % 1024) / h else 1024)))

/-- A transfer about to issue: base, exponents or not, far byte address, elements, bytes. -/
structure Run where
  base : Base := {}
  exp : Bool := false
  addr : Nat := 0
  cnt : Nat := 0
  len : Nat := 0
  bad : Bool := false
  deriving DecidableEq, Repr

/-- The next transfer of a block. `bad`: a 4-bit run that is not even, or an address below zero. -/
def Blk.run (b : Blk) : Run :=
  let a := b.at_ b.next
  let h := b.half a.1
  let c := Blk.follow b b.next a h (runLimit h a.2.toNat ((if a.1 then b.g8 else b.base).cls = 4))
  let base := if a.1 then b.g8 else b.base
  { base := base, exp := a.1, addr := (a.2 / 2).toNat, cnt := c, len := (c * h + 1) / 2
    bad := decide (a.2 < 0) || (h = 1 && (a.2 % 2 ≠ 0 || c % 2 ≠ 0)) }

/-- Is the far range inside its class (R128, R145)? -/
def State.farOk (s : State) (p : Nat) (r : Run) : Bool :=
  let z := r.addr + r.len
  match r.base.cls with
  | 0 => decide (z ≤ 2 ^ 52)
  | 1 => decide (z ≤ storeSize)
  | 3 => decide (r.addr % 2 ^ 23 + r.len ≤ storeSize) && decide (r.addr < 2 ^ 30) && (match s.rigOf p with
    | some n => (s.rig n).tiles.contains (r.addr / 2 ^ 23)
    | none => false)
  | 4 => decide (z ≤ 2 ^ 52)
  | _ => false

/-- The pages that a range of a space meets: key, offset, bytes. -/
def pagePieces (space addr len : Nat) : List (Nat × Nat × Nat) :=
  (List.range ((addr % 65536 + len + 65535) / 65536)).map fun i =>
    let a := if i = 0 then addr else (addr / 65536 + i) * 65536
    let z := min (addr + len) ((addr / 65536 + i + 1) * 65536)
    (keyOf space a, a % 65536, z - a)

/-! ### Buffers (R148, R149) -/

/-- Has a buffer of `cap` bytes room for `n` more of user `u`: its own floor first, then the part that no floor holds, where no earlier request
for it stands (`ahead`)? -/
def bufRoom (cap : Nat) (floor held : Nat → Nat) (users : List Nat) (u n : Nat) (ahead : Bool) : Bool :=
  let ovr := (users.map fun v => held v + (if v = u then n else 0) - floor v).sum
  decide (held u + n ≤ floor u) || (decide (ovr ≤ cap - (users.map floor).sum) && !ahead)

/-- Does an engine wait for room in a buffer (R149, R151)? -/
def State.roomWaits (s : State) (u : Nat) : Bool := ((s.gen? (u / 8) (u % 8)).map (·.wait)) = some 2

/-- Bytes of engine `e` in a feed of its tile, waiting or on their way. -/
def Tile.feedHeld (t : Tile) (target e : Nat) : Nat :=
  let l := if target = 0 then t.feedS else t.feedT
  (((l.filter (·.eng = e)).map fun x => halfBytes x.esz).sum + 1) / 2
    + (match (t.eng e).run with
      | .ready g => ((g.xfers.filter fun x => !x.write && x.near = 0).map (·.len)).sum
      | _ => 0)

/-- Room in the feed that a read engine is wired to. -/
def State.feedRoom (s : State) (p e target n : Nat) : Bool :=
  let es := (List.range 8).filter fun i => s.engClass p i = 0 && s.engTarget p i = target
  bufRoom 32768 (fun i => s.floor target p (engKey p i)) ((s.tile p).feedHeld target) es e n (s.bufAhead target p (engKey p e) s.roomWaits)

/-- Bytes that engine `u` (engine key) has on the mesh to tile `d`. -/
def State.meshHeld (s : State) (d u : Nat) : Nat :=
  match (s.eng (u / 8) (u % 8)).run with
  | .ready g => ((g.xfers.filter fun x => x.write && x.base.cls = 3 && s.phys (x.base.addr / 2 ^ 23) = d).map (·.len)).sum
  | _ => 0

/-- Room in the mesh inbound buffer of tile `d`. -/
def State.meshRoom (s : State) (p e d n : Nat) : Bool :=
  let us := ((s.rigTiles ((s.rigOf p).getD 0)).flatMap fun q => (List.range 8).map (engKey q)).filter fun u =>
    u = engKey p e || s.meshHeld d u ≠ 0 || s.floor 2 d u ≠ 0
  bufRoom 16384 (s.floor 2 d) (s.meshHeld d) us (engKey p e) n (s.bufAhead 2 d (engKey p e) s.roomWaits)

/-- Bytes of engine `e` in the outbound staging of its tile: what the vertical port has not moved (R148). -/
def State.stagingHeld (s : State) (p e : Nat) : Nat :=
  match (s.eng p e).run with
  | .ready g => ((g.xfers.filter (·.staged)).map (·.len)).sum
  | _ => 0

/-- Room in the outbound staging of a tile (R148, R149). -/
def State.stagingRoom (s : State) (p e n : Nat) : Bool :=
  let es := (List.range 8).filter fun i => s.engClass p i = 1 || s.engClass p i = 2
  bufRoom 16384 (fun i => s.floor 3 p (engKey p i)) (s.stagingHeld p) es e n (s.bufAhead 3 p (engKey p e) s.roomWaits)

/-! ### Banks as the near side (R90, R92, R131) -/

/-- Is row `r` of bank `b` outstanding in a transfer of another engine (R92)? -/
def Tile.rowElsewhere (t : Tile) (e b r : Nat) : Bool :=
  t.engs.any fun x => x.1 ≠ e && (match x.2.run with
    | .ready g => g.xfers.any fun x => x.rows.contains (b, r)
    | _ => false)

/-- May a preload write the rows: none reserved, none finished and not released, none in a bank that is finished (R92)? -/
def Tile.preloadOk (t : Tile) (e a n : Nat) : Bool :=
  (rowsAt a n).all fun r => let k := t.bank r.1
    !k.resv.contains r.2 && !(k.task.logno ≠ 0 && (k.fin || decide (r.2 < k.done))) && !t.rowElsewhere e r.1 r.2

/-- Has an array task's part still to complete an output block in bank `b`? `rows` of its source rows are complete, in order (R332). -/
def CallSheet.blockToCome (cs : CallSheet) (b rows : Nat) : Bool :=
  (List.range ((cs.nrow + 127) / 128)).any fun q => (cs.fbank + q) % 4 = b && decide (rows < min (128 * (q + 1)) cs.nrow)

/-- May a read-out read them (R92)? No row is reserved, no other engine's transfer of it is outstanding. A bank that the reading part's own
array fills and this stream drains waits while one of the part's output blocks is still to complete in it and the row is not yet complete
(log entry 152); any other row, of a free bank too, is read at once. -/
def State.readOutOk (s : State) (p e logno a n : Nat) : Bool :=
  (rowsAt a n).all fun r => let k := (s.tile p).bank r.1
    !k.resv.contains r.2 && !(s.tile p).rowElsewhere e r.1 r.2 && (match s.sheet logno with
      | some h => match h.parts.find? fun q => q.tiles.contains (s.logical p) with
        | some q => h.cs.kind ≠ 1 || bit h.cs.drainq r.1 || !h.cs.blockToCome r.1 (h.cs.nrow - q.rowsLeft)
          || (k.task.logno = logno && (k.fin || decide (r.2 < k.done)))
        | none => true
      | none => true)

/-- A bank value converted for a read-out: to F19 as the task's call sheet says (R27, R90); `trunc` is false for a strict task (R47). -/
def readOutElem (md : NMode) (trunc : Bool) (conv x : Nat) : Nat × NFlags :=
  if conv = 1 then toF19 md trunc x else storeElem md conv x

/-- Bytes that a write engine supplies from bank elements, with their flags (R131). -/
def bankBytes (md : NMode) (trunc : Bool) (t : Tile) (b : Blk) (r : Run) : List (Byte × Bool) × List NFlags :=
  let el := fun i => let k := b.nearAt + i; (t.bank (k / 16384)).elems.get {} (k % 16384)
  if b.conv = 4 then
    let quant := fun g => g8Quant md ((List.range 32).map fun i => (el (32 * g + i)).v.toNat)
    let pois := fun g => (List.range 32).any fun i => (el (32 * g + i)).p
    if r.exp then
      ((List.range r.cnt).map fun i => let g := b.next - b.elems + i; (BitVec.ofNat 8 (quant g).1, pois g), [])
    else
      let n := b.next
      ((List.range r.cnt).map fun i => let k := n + i
          (BitVec.ofNat 8 (g8Code (quant (k / 32)).1 (flushIn md (el k).v.toNat).1), pois (k / 32)),
       (List.range r.cnt).map fun i => (flushIn md (el (n + i)).v.toNat).2)
  else
    let xs := (List.range r.cnt).map fun i => let x := el (b.next + i); (readOutElem md trunc b.conv x.v.toNat, x.p)
    (xs.flatMap fun x => (leBytes (halfBytes b.esz / 2) x.1.1).map fun c => (c, x.2), xs.map fun x => x.1.2)

/-! ### Issue (R131, R136 to R138) -/

/-- What a transfer that an engine wants to issue comes to. -/
inductive Plan where
  | idle
  | fault
  | waits (s : State) (code : Nat)
  | go (s : State)
  deriving DecidableEq, Repr

/-- A transfer enters the generation and the block advances; a block whose last element has left is over. `stage`: it stands in outbound
staging. -/
def State.pushXfer (s : State) (p e : Nat) (b : Blk) (r : Run) (data : List (Byte × Bool)) (seq : Nat) (sent : Bool) (stage : Bool := false) : State :=
  s.modGen p e fun g =>
    let first := b.firstReq.getD s.now
    let x : Xfer := { id := g.nxfer, write := s.engClass p e ≠ 0, base := { r.base with addr := r.addr }, len := r.len, near := b.near
                      nearAt := b.nearAt + (if r.exp then 32 * (b.next - b.elems) else b.next), cnt := r.cnt
                      span := if r.exp then 32 * r.cnt else r.cnt, esz := b.esz, dlTime := b.dlTime
                      dlPol := b.dlPol, firstReq := first, data := data, seq := seq, staged := stage }
    let n := b.next + r.cnt
    { g with nxfer := g.nxfer + 1, wait := 0, xfers := if sent then g.xfers ++ [x] else g.xfers
             blks := if n < b.total then [{ b with next := n, firstReq := some first }] else [] }

def State.modXfer (s : State) (p e i : Nat) (f : Xfer → Xfer) : State :=
  s.modGen p e fun g => { g with xfers := g.xfers.map fun x => if x.id = i then f x else x }

/-- Is a page one that rigs share, sealed in a shared space (R67)? -/
def State.shares (s : State) (key : Nat) : Bool :=
  match s.page? key, s.space? (spaceOf key) with
  | some p, some sp => p.ro && sp.shared
  | _, _ => false

/-- Is a read of a line of a shared page outstanding that a further request for the line attaches to (R67)? -/
def State.lineBusy (s : State) (key line : Nat) : Bool :=
  s.tiles.any fun t => t.2.engs.any fun e => match e.2.run with
    | .ready g => g.xfers.any fun x => !x.write && !x.arrived && x.base.cls = 0
        && decide (x.base.addr / 256 ≤ vpnOf key * 256 + line) && decide (256 * (vpnOf key * 256 + line) < x.base.addr + x.len)
        && spaceOf key = x.base.space
    | _ => false

/-- A read transfer (R131, R216). -/
def State.planRead (s : State) (p e : Nat) (g : Gen) (b : Blk) (r : Run) : Plan :=
  let t := s.engTarget p e
  let rig := (s.rigOf p).getD 0
  if t ≤ 1 ∧ !s.feedRoom p e t r.len then .waits (s.bufAsk t p (engKey p e)) 2
  else if t = 3 ∧ !(s.tile p).preloadOk e (b.nearAt + b.next) r.cnt then .waits s 2
  else if r.base.cls = 1 then .go (s.pushXfer p e b r [] 0 true)
  else
    let ps := pagePieces r.base.space r.addr r.len
    if !(ps.all fun x => s.mayRead rig x.1) then .fault
    else if ps.any fun x => s.inTransit x.1 x.2.1 x.2.2
        || (s.pageChanging x.1 && s.readVer g.logno g.lead x.1 = .current) then .waits s 4
    else
      let folded := ps.filter fun x => s.foldWaits x.1 x.2.1 x.2.2 && s.readVer g.logno g.lead x.1 = .current
      if !folded.isEmpty then .waits (each folded (fun s x => s.forceAscent x.1) s) 4
      else
        let s := each ps (fun s x => s.noteRead g.logno g.lead x.1) s
        let cur := ps.filter fun x => s.readVer g.logno g.lead x.1 = .current
        let co := cur.flatMap fun x => ((linesIn x.2.1 x.2.2).filter fun l => s.shares x.1 && s.lineBusy x.1 l).map fun l =>
          vpnOf x.1 * 256 + l
        let s := each cur (fun s x => each ((linesIn x.2.1 x.2.2).filter fun l => !co.contains (vpnOf x.1 * 256 + l))
          (fun s l => s.lineReq x.1 l) s) s
        .go ((s.pushXfer p e b r [] 0 true).modGen p e fun g => { g with xfers := g.xfers.map fun x =>
          if x.id + 1 = g.nxfer then { x with co := co } else x })

/-- The version that a task's writes to a page go to, where it exists. -/
def State.verOf (s : State) (logno rig space addr : Nat) : Which :=
  if (s.inTake logno).isSome && s.pageStaged rig (keyOf space addr) then .staged rig else .out logno

/-- The version of each page that a write meets, created where needed (R254, R255, R334). -/
def State.writeVers (s : State) (logno rig space : Nat) : List (Nat × Nat × Nat) → WriteTo
  | [] => .to s .current
  | x :: l =>
    match s.writeVer logno rig space (vpnOf x.1 * 65536 + x.2.1) with
    | .fault => .fault
    | .waits s => .waits s
    | .to s _ => s.writeVers logno rig space l

/-- The ordinal of the generation's next WR in its part, and how many the last MARK of a raise says were sent (R351). -/
def State.wrOrd (s : State) (p e : Nat) (g : Gen) : Nat × Nat :=
  let u := unitKey p e
  let n := match s.sheet g.logno with
    | some h => ((h.part g.lead).map fun q => q.ords.get 0 (2 ^ 20 + u)).getD 0
    | none => 0
  (n, (s.log.filterMap fun r => if r.logno = g.logno && r.lead = g.lead then (match r.kind with
    | .mark v _ w => if v = u then some w else none
    | _ => none) else none).foldl max 0)

/-- A write or remote transfer with its data: the far side takes it or makes it wait (R126, R213, R254, R283, R334); with `stage` it goes no
further than outbound staging (R148). -/
def State.planWrite (s : State) (p e : Nat) (g : Gen) (b : Blk) (r : Run) (data : List (Byte × Bool)) (stage : Bool) : Plan :=
  let rig := (s.rigOf p).getD 0
  match r.base.cls with
  | 1 => .go (s.pushXfer p e b r data 0 true)
  | 3 =>
    let d := s.phys (r.addr / 2 ^ 23)
    if s.meshRoom p e d r.len then .go (s.pushXfer p e b r data 0 true) else .waits (s.bufAsk 2 d (engKey p e)) 2
  | 4 =>
    let o := s.wrOrd p e g
    let count := fun (s : State) => s.modPart g.logno g.lead fun q => { q with ords := q.ords.upd 0 (2 ^ 20 + unitKey p e) (· + 1) }
    if o.1 < o.2 then .go ((count s).pushXfer p e b r [] 0 false)
    else if !s.stagingRoom p e r.len then .waits (s.bufAsk 3 p (engKey p e)) 2
    else if stage then .go ((count s).pushXfer p e b r data 0 true true)
    else if s.sendRoom r.addr r.len then
      let q := (count s).sendWr p e r.addr data
      .go (q.1.pushXfer p e b r data q.2 true)
    else .waits s 2
  | _ =>
    let ps := pagePieces r.base.space r.addr r.len
    if !(ps.all fun x => s.mayWrite rig x.1) then .fault
    else if !s.stagingRoom p e r.len then .waits (s.bufAsk 3 p (engKey p e)) 2
    else match s.writeVers g.logno rig r.base.space ps with
      | .fault => .fault
      | .waits s => .waits s 2
      | .to s _ => .go (s.pushXfer p e b r data 0 true stage)

/-- The transfer that engine `e` would issue now, with `stage` into outbound staging; `errs`: words of the near tile store found wrong. -/
def State.plan (s : State) (p e : Nat) (errs : List (Nat × Nat)) (stage : Bool := false) : Plan :=
  match s.gen? p e with
  | none => .idle
  | some g =>
    match g.blks with
    | [] => .idle
    | b :: _ =>
      let r := b.run
      if r.bad || !s.farOk p r then .fault
      else if s.engClass p e = 0 then s.planRead p e g b r
      else if b.near = 3 then
        if s.readOutOk p e g.logno (b.nearAt + (if r.exp then 32 * (b.next - b.elems) else b.next)) (if r.exp then 32 * r.cnt else r.cnt) then
          let cs := ((s.sheet g.logno).map (·.cs)).getD {}
          let d := bankBytes (s.nmode ((s.rigOf p).getD 0) cs.strict) (cs.f19tr && !cs.strict) (s.tile p) b r
          match s.planWrite p e g b r d.1 stage with
          | .go _ =>
            let s := s.raiseNums p g.logno d.2
            let s := s.engPois p e (d.1.any Prod.snd) id
            (match s.gen? p e with
            | some _ => s.planWrite p e g b r d.1 stage
            | none => .go s)
          | x => x
        else .waits s 2
      else
        let at_ := (if b.near = 4 then b.nearAt else let sl := (s.tile p).slots.get {} e; if b.near = 1 then sl.s0 else sl.s1)
          + b.next * halfBytes b.esz / 2
        match s.planWrite p e g b r ((s.tile p).store.read at_ r.len) stage with
        | .go _ =>
          let q := s.storeRead p at_ r.len errs
          let s := q.1.engPois p e (q.2.any Prod.snd) id
          (match s.gen? p e with
          | some _ => s.planWrite p e g b r q.2 stage
          | none => .go s)
        | x => x

/-- Does a plan move data? -/
def Plan.ready : Plan → Bool
  | .go _ => true
  | _ => false

/-- Does engine `e`'s next transfer use the vertical port: a far side beyond the tile and the mesh (R136, R138)? -/
def State.vertical (s : State) (p e : Nat) : Bool :=
  match s.gen? p e with
  | some g => (match g.blks with
    | b :: _ => b.run.base.cls = 0 || b.run.base.cls = 4
    | [] => false)
  | none => false

/-- Does engine `e`'s next transfer use the tile-store port: a far side in the tile's own store, or a slot or the store as the near side that it reads
(R138)? -/
def State.usesStore (s : State) (p e : Nat) : Bool :=
  match s.gen? p e with
  | some g => (match g.blks with
    | b :: _ => b.run.base.cls = 1 || (s.engClass p e ≠ 0 && b.near ≠ 3)
    | [] => false)
  | none => false

/-- May engine `e` place its next transfer in outbound staging (R148)? -/
def State.canStage (s : State) (p e : Nat) : Bool := s.vertical p e && s.engClass p e ≠ 0 && (s.plan p e [] true).ready

/-- Has engine `e` a transfer to take from its near side? -/
def State.issueReady (s : State) (p e : Nat) : Bool := (s.plan p e []).ready || s.canStage p e

/-- Has engine `e` a transfer ready for the vertical port: its oldest in outbound staging, else its next (R136, R137)? -/
def State.portReady (s : State) (p e : Nat) : Bool :=
  match s.staged? p e with
  | some x => x.base.cls ≠ 4 || s.sendRoom x.base.addr x.len
  | none => s.vertical p e && (s.plan p e []).ready

/-- Has a class a transfer ready for the vertical port? -/
def State.classReady (s : State) (p c : Nat) : Bool := (List.range 8).any fun i => s.engClass p i = c && s.portReady p i

/-- The next slot of the round whose class has a transfer ready: the slots before it go unused (R136, R137; log entry 116). -/
def State.nextSlot (s : State) (p : Nat) : Option Nat :=
  ((List.range 8).map fun i => ((s.tile p).portSlot + i) % 8).find? fun k => s.classReady p (slotClass (s.get F.STRM_SPLIT_SPLIT p) k)

/-- Has the vector engine an access to the tile store ready: its next instruction is LDV or STV (R103)? -/
def State.vecReady (s : State) (p : Nat) : Bool :=
  let v := (s.tile p).vec
  let op := bits (v.words.get 0 v.pc).toNat 31 26
  v.running && (op = 0x30 || op = 0x31)

/-- Is it engine `e`'s turn on the vertical port: the next slot is its class's, and no engine of the class with a transfer ready comes before it in
the rotation (R136, R137)? -/
def State.portTurnOf (s : State) (p e : Nat) : Bool :=
  let c := s.engClass p e
  (s.nextSlot p).map (slotClass (s.get F.STRM_SPLIT_SPLIT p)) = some c
    && ((List.range 8).map fun i => ((s.tile p).lastEng.get 7 c + 1 + i) % 8).find? (fun i => i = e || (s.engClass p i = c && s.portReady p i)) = some e

/-- Is it engine `e`'s turn on the tile-store port: the rotation is across all classes (R138), and the beat is not the vector engine's (R103)? -/
def State.storeTurnOf (s : State) (p e : Nat) : Bool :=
  !(s.vecReady p && (s.tile p).vec.portWait = 3)
    && ((List.range 8).map fun i => ((s.tile p).localLast + 1 + i) % 8).find? (fun i => i = e || (s.usesStore p i && s.issueReady p i)) = some e

/-- Is it engine `e`'s turn on the ports that its next transfer uses? A transfer between the banks and another tile's store uses neither. -/
def State.turn (s : State) (p e : Nat) : Bool := (!s.vertical p e || s.portTurnOf p e) && (!s.usesStore p e || s.storeTurnOf p e)

/-- The vertical port has moved a transfer of engine `e`: the round goes on after the slot used. -/
def State.tookPort (s s0 : State) (p e : Nat) : State :=
  s.modTile p fun t => { t with lastEng := t.lastEng.set 7 (s0.engClass p e) e, portSlot := ((s0.nextSlot p).getD t.portSlot + 1) % 8 }

/-- A stream engine has had a beat of the tile-store port: a ready vector access has waited one beat more (R103). -/
def Tile.storeBeat (t : Tile) (vecReady : Bool) : Tile :=
  { t with vec := if vecReady then { t.vec with portWait := min 3 (t.vec.portWait + 1), wait := 3 } else t.vec }

/-- The tile-store port has served engine `e`. -/
def State.tookStore (s s0 : State) (p e : Nat) : State := s.modTile p fun t => { t.storeBeat (s0.vecReady p) with localLast := e }

/-- The vertical port moves the engine's oldest transfer out of outbound staging (R148): a WR leaves then. -/
def State.moveStaged (s : State) (p e : Nat) : State :=
  match s.staged? p e with
  | none => s
  | some x =>
    let q := if x.base.cls = 4 then s.sendWr p e x.base.addr x.data else (s, 0)
    q.1.modXfer p e x.id fun x => { x with staged := false, seq := q.2 }

/-- The engine's next transfer goes into outbound staging and waits there for the vertical port, or waits at the engine. -/
def State.stageNext (s : State) (p e : Nat) (errs : List (Nat × Nat)) : State :=
  if s.canStage p e && (!s.usesStore p e || s.storeTurnOf p e) then
    match s.plan p e errs true with
    | .go t => when (s.usesStore p e) (·.tookStore s p e) (t.bufGot (· ≠ 4) (engKey p e))
    | .waits t code => t.engWait p e code
    | _ => s.engWait p e 3
  else s.engWait p e 3

/-- TRANSFER_ISSUE (R136 to R138, R148; log entry 158): the oldest transfer of outbound staging moves when it is its turn; else the engine's next
transfer leaves at once where it is its turn, and a write or remote one whose turn has not come goes into outbound staging. -/
def execTransferIssue (p e : Nat) (errs : List (Nat × Nat)) (s : State) : Result :=
  if (s.staged? p e).isSome && s.portReady p e && s.portTurnOf p e then .next ((s.moveStaged p e).tookPort s p e)
  else match s.plan p e errs with
  | .idle => .next s
  | .fault => .next (s.engFault p e)
  | .waits t code => .next (if s.canStage p e then s.stageNext p e errs else t.engWait p e code)
  | .go t =>
    .next (if (s.staged? p e).isNone && s.turn p e then
        when (s.usesStore p e) (·.tookStore s p e) (when (s.vertical p e) (·.tookPort s p e) (t.bufGot (· ≠ 4) (engKey p e)))
      else s.stageNext p e errs)

/-! ### Read data arrives (R131, R143, R144) -/

/-- Bytes moved are counted and offered (R151, R416). -/
def State.moved (s : State) (p e n : Nat) (tier : Option Nat) : State :=
  (s.bump F.STRM_NBYTE_COUNT n (engKey p e)).offer 0x181 { s.tileAttr p with tier := tier } n

/-- The raw bits of element `i` of a list of bytes under a size code, and its poison. -/
def elemOf (esz : Nat) (bs : List (Byte × Bool)) (i : Nat) : Nat × Bool :=
  if esz = 0 then
    let b := bs.getD (i / 2) (0, false)
    (if i % 2 = 0 then b.1.toNat % 16 else b.1.toNat / 16, b.2)
  else
    let n := halfBytes esz / 2
    let l := (bs.drop (n * i)).take n
    (leNat (l.map Prod.fst), l.any Prod.snd)

/-- A completed read transfer's elements are placed on the near side (R131, R135, R144, R449). Elements of a size that the array's operand does
not allow abort the task as they come (R31; log entry 118). -/
def State.place (s : State) (p e logno lead : Nat) (x : Xfer) : State :=
  match x.near with
  | 0 =>
    let target := s.engTarget p e
    if !s.feedSizeOk logno target x.esz then s.abortTask logno 0x02 0 (some lead) else
    let els := (List.range x.cnt).map fun i => let v := elemOf x.esz x.data i
      ({ v := BitVec.ofNat 32 v.1, esz := x.esz, p := v.2, prox := x.prox, logno := logno, eng := e } : FeedElem)
    s.modTile p fun t =>
      if target = 0 then
        let k := min (t.skipS.get 0 logno) els.length
        { t with feedS := t.feedS ++ els.drop k, skipS := t.skipS.upd 0 logno (· - k), lastFeed := t.lastFeed.set none (2 * logno) (some e) }
      else { t with feedT := t.feedT ++ els, lastFeed := t.lastFeed.set none (2 * logno + 1) (some e) }
  | 3 =>
    s.modTile p fun t => each (List.range x.cnt) (fun t i =>
      let k := x.nearAt + i
      let v := elemOf 3 x.data i
      t.modBank (k / 16384) fun b => { b with elems := b.elems.set {} (k % 16384) { v := BitVec.ofNat 32 v.1, p := v.2 }
                                              preProx := b.preProx || x.prox }) t
  | n =>
    let sl := (s.tile p).slots.get {} e
    let a := (if n = 1 then sl.s0 else sl.s1) + x.nearAt * halfBytes x.esz / 2
    let beat := s.vecReady p
    let s := s.storeWrite p a x.data
    s.modTile p fun t =>
      let t := t.storeBeat beat
      let was := x.nearAt != 0 && t.slotProx.get false (8 * e + (n - 1))
      { t with slotProx := t.slotProx.set false (8 * e + (n - 1)) (x.prox || was) }

/-- Read transfers whose data has come are placed in the order in which they issued. -/
def State.placeReady (s : State) (p e : Nat) : Nat → State
  | 0 => s
  | n + 1 =>
    match s.gen? p e with
    | none => s
    | some g =>
      match g.xfers with
      | x :: l =>
        if !x.write && x.arrived then
          let tier := if x.base.cls = 0 then (s.page? (keyOf x.base.space x.base.addr)).map (·.tier) else none
          (((s.modGen p e fun g => { g with xfers := l }).place p e g.logno g.lead x).moved p e x.len tier).placeReady p e n
        else s
      | [] => s

def State.xfer? (s : State) (p e i : Nat) : Option Xfer := (s.gen? p e).bind fun g => g.xfers.find? (·.id = i)

/-- The bytes of a transfer with replaced lines in place of what came. -/
def Xfer.mergeRepl (x : Xfer) (d : List (Byte × Bool)) : List (Byte × Bool) :=
  d.zipIdx.map fun b =>
    let a := x.base.addr + b.2
    match x.repl.lookup (a / 256) with
    | some l => l.getD (a % 256) b.1
    | none => b.1

/-- A transfer's data is complete: under the fault policy for what is poisoned it is delivered (R145). -/
def State.arrive (s : State) (p e i : Nat) (d : List (Byte × Bool)) : State :=
  match s.xfer? p e i with
  | none => s
  | some x =>
    let d := x.mergeRepl d
    s.engPois p e (d.any Prod.snd) fun s => (s.modXfer p e i fun x => { x with data := d, arrived := true }).placeReady p e 1024

/-- The proxy-derived bytes of a line of a page (R200); the line of a page with no proxy is zeros. -/
def proxyLine (kind : Nat) (c : Content) (line : Nat) : List Byte :=
  if kind = 0 then List.replicate 256 0
  else let n := kindBits kind / 8
    (List.range (256 / n)).flatMap fun i => leBytes n (proxyElem kind c (line * 256 / n + i))

/-- A line is replaced under the proxy policy (R143, R144). -/
def State.replaceProxy (s : State) (p e i l : Nat) (proxy : Bool) : State :=
  match s.gen? p e, s.xfer? p e i with
  | some g, some x =>
    let pg := s.page? (keyOf x.base.space (256 * l))
    let bytes := match pg with
      | some y => if proxy && y.cmp then proxyLine y.kind y.data (l % 256) else List.replicate 256 0
      | none => List.replicate 256 0
    let k := engKey p e
    let a := { s.tileAttr p with tier := pg.map (·.tier) }
    let s := ((s.raiseFlag F.STRM_STAT_DLX k).raiseFlag F.STRM_STAT_PROX k).bump F.STRM_NDL_COUNT 1 k
    let s := (s.offer 0x191 a).offer 0x192 a
    (s.modXfer p e i fun x => { x with repl := x.repl.put l (bytes.map fun b => (b, false)), late := x.late ++ [l], prox := true }).markProx g.logno
  | _, _ => s

/-- A line is replaced by zeros with poison under the zero policy, or a lost line by poison under the wait policy. -/
def State.replacePois (s : State) (p e i l : Nat) (bytes : List Byte) : State :=
  s.modXfer p e i fun x => { x with repl := x.repl.put l (bytes.map fun b => (b, true)) }

/-- A line counts as late. -/
def State.countLate (s : State) (p e i l : Nat) (tier : Option Nat) : State :=
  let k := engKey p e
  ((((s.raiseFlag F.STRM_STAT_DLX k).bump F.STRM_NDL_COUNT 1 k).offer 0x191 { s.tileAttr p with tier := tier }).modXfer p e i
    fun x => { x with late := x.late ++ [l] })

/-- Lost lines of a writable page under the policy in force (R143). A proxy value is possible only where the page's header and proxy have come (R205). -/
def State.lostLines (s : State) (p e i : Nat) (x : Xfer) (proxy : Bool) (ls : List Nat) : State :=
  each (ls.filter fun l => (x.repl.lookup l).isNone) (fun s l =>
    let pg := s.page? (keyOf x.base.space (256 * l))
    match x.dlPol with
    | 1 => let k := keyOf x.base.space (256 * l)
      s.replaceProxy p e i l (proxy && !s.homeGone k && !x.noProxy.contains k)
    | 2 => (s.countLate p e i l (pg.map (·.tier))).replacePois p e i l (List.replicate 256 0)
    | _ => s.replacePois p e i l ((pg.map fun y => y.data.bytesAt (l % 256 * 256) 256).getD [])) s

/-- What the pages of a transfer gave so far: the state, the data, the lines to reread, tier 1 lines found uncorrectable, lines to ask for again, lines
found lost (key, line), words of the access so far. -/
structure ReadAcc where
  s : State
  data : List (Byte × Bool) := []
  reread : List (Nat × Nat) := []
  bad : List (Nat × Nat) := []
  again : List (Nat × Nat) := []
  lost : List (Nat × Nat) := []
  words : Nat := 0
  deriving DecidableEq, Repr

/-- The lines of a piece that one outstanding read served with others: those that attached to it when they were asked for (R67). -/
def coLines (t : Xfer) (y : Nat × Nat × Nat) : List Nat := (linesIn y.2.1 y.2.2).filter fun l => t.co.contains (vpnOf y.1 * 256 + l)

/-- One page of a transfer is read (R67, R185, R216). -/
def State.readPiece (_ : State) (logno lead : Nat) (t : Xfer) (errs : List (Nat × Nat)) (gone : List Nat) (acc : ReadAcc)
    (y : Nat × Nat × Nat) : ReadAcc :=
  let ls := linesIn y.2.1 y.2.2
  let s1 := each ls (fun s l => s.lineCame y.1 l) acc.s
  let w := s1.readVer logno lead y.1
  let lost := if w = .current then ((gone.filter fun l => keyOf t.base.space (256 * l) = y.1).map (· % 256)) else []
  let nw := (y.2.1 + y.2.2 + 7) / 8 - y.2.1 / 8
  let er := (errs.filter fun q => decide (acc.words ≤ q.1) && decide (q.1 < acc.words + nw)).map fun q => (q.1 - acc.words, q.2)
  let r := s1.readPage y.1 w y.2.1 y.2.2 er lost
  let co := (coLines t y).length
  let s2 := r.s.bump F.TIER_NCOREAD_COUNT co
  { s := if co = ls.length then s2 else s2.touch y.1, data := acc.data ++ r.data, reread := acc.reread ++ r.reread.map fun l => (y.1, l)
    bad := acc.bad ++ r.bad.map fun l => (y.1, l), again := acc.again ++ r.again.map fun l => (y.1, l), lost := acc.lost ++ r.lost.map fun l => (y.1, l), words := acc.words + nw }

/-- READ_TRANSFER_COMPLETE (R131, R134, R143, R145, R202, R220, R221): `lost` lines of the far address in units of 256 bytes; `proxy`: the header and
proxy of its stored pages have come (R205). A line of which a chunk fails its check is asked for again, once. -/
def execReadTransferComplete (p e x : Nat) (errs : List (Nat × Nat)) (lost : List Nat) (proxy : Bool) (s : State) : Result :=
  match s.gen? p e, s.xfer? p e x with
  | some g, some t =>
    let far := if t.base.cls = 0 then pagePieces t.base.space t.base.addr t.len else []
    gated (!t.write && !t.arrived && !t.negWait && far.all fun y => (linesIn y.2.1 y.2.2).all (fun l => !s.lineOut y.1 l)
        && !s.rangeWaits y.1 (s.readVer g.logno g.lead y.1) y.2.1 y.2.2) (fun s =>
      if t.base.cls = 1 then
        let r := s.storeRead p t.base.addr t.len errs
        r.1.arrive p e x r.2
      else
        let gone := (t.lines.filter fun l => s.homeGone (keyOf t.base.space (256 * l)) || lost.contains l || t.lost.contains l).eraseDups
        let r := each far (fun acc y => s.readPiece g.logno g.lead t errs gone acc y) { s := s }
        if !r.again.isEmpty then
          each r.again (fun s y => (s.lineCame y.1 y.2).lineReq y.1 y.2) { s with chunkBad := r.s.chunkBad, fresh := r.s.fresh }
        else
          let s := r.s.wakeEng p e 4
          if !r.reread.isEmpty then
            each r.reread (fun s y => s.wantReread y.1 y.2 [(p, e, x)] []) (s.modXfer p e x fun t => { t with negWait := true })
          else
            let wr := (gone ++ r.lost.map fun y => vpnOf y.1 * 256 + y.2).eraseDups.filter fun l => let k := keyOf t.base.space (256 * l)
              s.readVer g.logno g.lead k = .current && !((s.page? k).map (·.ro)).getD false && !((s.page? k).map (·.zero)).getD false
                && decide (((s.page? k).map (·.tier)).getD 0 ≥ 1)
            let ue := (r.bad.map fun y => vpnOf y.1 * 256 + y.2).filter fun l => t.dlPol ≠ 0 && !wr.contains l
            (s.lostLines p e x t proxy (wr ++ ue)).arrive p e x r.data) s
  | _, _ => .next s

/-- DEADLINE_EXPIRY (R143, R144): only a line of tiers 1 to 3 that is still missing and is not being reread can be late. -/
def execDeadlineExpiry (p e x line : Nat) (proxy : Bool) (s : State) : Result :=
  match s.gen? p e, s.xfer? p e x with
  | some g, some t =>
    let key := keyOf t.base.space (256 * line)
    let home : Option Nat := (s.page? key).map fun y => if y.zero then 0 else y.tier
    gated (!t.write && !t.arrived && !t.negWait && t.base.cls = 0 && t.dlTime ≠ 0 && decide (t.firstReq + 64 * t.dlTime ≤ s.now)
        && t.lines.contains line && !t.late.contains line && (t.repl.lookup line).isNone && decide (home.getD 0 ≥ 1)
        && s.readVer g.logno g.lead key = .current && (s.rereading key (256 * (line % 256)) 256).isEmpty) (fun s =>
      let s := match t.dlPol with
        | 1 => s.replaceProxy p e x line (proxy && !t.noProxy.contains key)
        | 2 => (s.countLate p e x line home).replacePois p e x line (List.replicate 256 0)
        | _ => s.countLate p e x line home
      let s := s.wakeEng p e 4
      match s.xfer? p e x with
      | none => s
      | some t =>
        if t.lines.all fun l => (t.repl.lookup l).isSome then s.arrive p e x (List.replicate t.len (0, false))
        else s.engPois p e (t.dlPol = 2) id) s
  | _, _ => .next s

/-- Engines that wait for a line of a page wake: it has landed, or its page has (R192, R303). -/
def State.wakePage (s : State) (key : Nat) : State :=
  each s.tiles (fun s t => each (List.range 8) (fun s e =>
    match s.gen? t.1 e with
    | some g => (match g.blks with
      | b :: _ => let r := b.run
        when (r.base.cls = 0 && (pagePieces r.base.space r.addr r.len).any fun y => y.1 = key) (·.wakeEng t.1 e 4) s
      | [] => s)
    | none => s) s) s

/-! ### Writes complete (R134, R213) -/

/-- Do two transfers meet in a line? -/
def Xfer.meets (x y : Xfer) : Bool := x.base.cls = y.base.cls && x.base.space = y.base.space && x.lines.any y.lines.contains

/-- The pieces of a write by line: key, line, offset in the line, bytes. -/
def Xfer.wcPieces (x : Xfer) : List (Nat × Nat × Nat × List (Byte × Bool)) :=
  x.lines.map fun l =>
    let a := max x.base.addr (256 * l)
    let z := min (x.base.addr + x.len) (256 * (l + 1))
    (keyOf x.base.space (256 * l), l % 256, a % 256, (x.data.drop (a - x.base.addr)).take (z - a))

/-- The write-combining buffer accepts every line of a write, one after the other; none: it has no entry for one. -/
def State.wcTake (s : State) (p e logno rig : Nat) (x : Xfer) : Option State :=
  each x.wcPieces (fun o y => o.bind fun s =>
    let w := s.verOf logno rig x.base.space (256 * (vpnOf y.1 * 256 + y.2.1))
    if s.wcAccepts y.1 y.2.1 w (engKey p e) then some (s.wcWrite y.1 y.2.1 w y.2.2.1 y.2.2.2 (engKey p e)) else none) (some s)

/-- WRITE_TRANSFER_COMPLETE: a remote write completes by its WACK (R286). Writes of one engine to one line are accepted in issue order. -/
def execWriteTransferComplete (p e x : Nat) (s : State) : Result :=
  match s.gen? p e, s.xfer? p e x with
  | some g, some t =>
    gated (t.write && !t.staged && t.base.cls ≠ 4 && !((g.xfers.takeWhile (·.id ≠ x)).any fun y => y.write && y.meets t)) (fun s =>
      let gone := fun (s : State) => s.modGen p e fun g => { g with xfers := g.xfers.filter (·.id ≠ x) }
      match t.base.cls with
      | 1 => ((gone s).storeWrite p t.base.addr t.data).moved p e t.len none
      | 3 => ((gone s).storeWrite (s.phys (t.base.addr / 2 ^ 23)) (t.base.addr % 2 ^ 23) t.data).moved p e t.len none
      | _ =>
        match s.wcTake p e g.logno ((s.rigOf p).getD 0) t with
        | none => s.bufAsk 4 0 (engKey p e)
        | some s => let s := s.bufGot (· = 4) (engKey p e)
 (each ((pagePieces t.base.space t.base.addr t.len).map (·.1)) State.touch (gone s)).moved p e t.len (some 0)) s
  | _, _ => .next s

/-! ### A generation ends (R92, R134, R141, R351, R449) -/

/-- The finished banks that a read-out has drained are released (R92). -/
def State.releaseBanks (s : State) (p : Nat) (g : Gen) : State :=
  each g.banks (fun s b =>
    let k := (s.tile p).bank b
    if k.task.logno = g.logno && k.fin && !k.drainQ then s.modBank p b Bank.release else s) s

def execGenerationComplete (p e : Nat) (s : State) : Result :=
  match s.gen? p e with
  | none => .next s
  | some g =>
    gated (g.ended && g.blks.isEmpty && g.xfers.isEmpty) (fun s =>
      let s := (s.markDone g.logno g.lead (unitKey p e) 0).modPart g.logno g.lead fun q => { q with gens := q.gens - 1 }
      (((s.releaseBanks p g).modEng p e fun x => { x with run := .empty }).promote p e).feedCheck p g.logno e) s

/-! ### Parity errors (R125, R147, R358) -/

/-- Physical engine `ph` fails: the spare takes its place at the next generation start; with no spare left the tile needs a replacement. -/
def State.engFails (s : State) (p ph : Nat) : State :=
  if s.get F.STRM_ESPR_STATE p = 0 then s.modTile p fun t => { t with badEngs := (t.badEngs ++ [ph]).eraseDups }
  else (s.setReg F.STRM_ESPR_STATE 2 p).needTile p

/-- The second parity error of a physical engine within a heat epoch is a failure. -/
def State.engParity (s : State) (p e : Nat) : State :=
  let ph := s.get (emapField e) p
  let x := s.parityOf p ph
  if x.1 then State.engFails x.2 p ph else x.2

/-- STREAM_PARITY_ERROR: in the running generation, or in the shadow, whose shot list is then fetched again. -/
def execStreamParityError (p e : Nat) (shadow : Bool) (unread : Unread) (s : State) : Result :=
  if shadow then
    match (s.eng p e).shd with
    | .ready g =>
      let a : Arm := { logno := g.logno, lead := g.lead, space := g.descSpace, addr := g.descAddr, fromEng := g.fromEng }
      let r := s.fetchArm p e a []
      .next (match r.2 with
        | .got h => r.1.modEng p e fun x => { x with shd := .ready { h with num := g.num } }
        | .unusable => (r.1.modEng p e fun x => { x with shd := .empty }).armFail p e a
        | .waits => r.1.modEng p e fun x => { x with shd := .checking a, count := (g.num + 65535) % 65536 }
        | .negLost => (r.1.modEng p e fun x => { x with shd := .empty }).armLost p e a)
    | _ => .next s
  else
    match s.gen? p e with
    | none => .next s
    | some g =>
      .next ((((s.raiseFlag F.STRM_STAT_PERR (engKey p e)).engParity p e).unwait p e).modEng p e (fun x => { x with stopped := true })
        |>.faultPart g.logno g.lead p false unread)

/-! ### Negatives (R197) -/

/-- A waiting reader's transfer is served: its data is the sealed content. -/
def State.serveReader (s : State) (r : Nat × Nat × Nat) : State :=
  match s.xfer? r.1 r.2.1 r.2.2 with
  | none => s
  | some t =>
    if s.negReads.any fun n => n.readers.contains r then s
    else
      let d := (pagePieces t.base.space t.base.addr t.len).flatMap fun y => ((s.page? y.1).map fun g => g.data.read y.2.1 y.2.2).getD []
      (s.modXfer r.1 r.2.1 r.2.2 fun t => { t with negWait := false }).arrive r.1 r.2.1 r.2.2 d

/-- The tasks that wait for a negative's line: its transfers' and those whose own reads stand still. -/
def State.negTasks (s : State) (n : NegRead) : List (Nat × Nat) :=
  ((n.readers.filterMap fun r => (s.gen? r.1 r.2.1).map fun g => (g.logno, g.lead)) ++ n.tasks).eraseDups

/-- NEGATIVE_READ_COMPLETE: `ok` false: the negative's own read failed; the second time NEG is cleared and the readers' tasks are aborted
with the negative-lost error. A task whose own read stood still goes on when that read is made again. -/
def execNegativeReadComplete (page line : Nat) (ok : Bool) (s : State) : Result :=
  match s.negReads.find? fun n => n.page = page && n.line = line with
  | none => .next s
  | some n =>
    let drop := fun (s : State) => { s with negReads := s.negReads.filter fun m => !(m.page = page && m.line = line) }
    let hasNeg := ((s.page? page).map (·.neg)).getD false
    if ok && hasNeg then
      let s := ((drop s).countLine page).modPage page fun g => { g with data := each (List.range 256) (fun c i => c.setByte (256 * line + i) (g.negData.byte (256 * line + i))) g.data }
      let s := (s.bump F.TIER_NNEG_COUNT).offer 0x246 { rig := s.ownerOf page, tier := some 3 }
      let who := (s.negTasks n).head?
      let l := (who.map (·.1)).getD 0
      let part := ((s.sheet l).map fun h => h.parts.findIdx (·.lead = (who.map (·.2)).getD 0)).getD 0
      .next (each n.readers State.serveReader (s.recovery 10 0 0 l part))
    else if n.fails = 0 && hasNeg then
      .next { s with negReads := s.negReads.map fun m => if m.page = page && m.line = line then { m with fails := 1 } else m }
    else
      let s := (drop s).modPage page fun g => { g with neg := false }
      let s := each n.readers (fun s r =>
        match s.gen? r.1 r.2.1 with
        | some g => s.engAbort r.1 r.2.1 g.logno g.lead 0x07
        | none => s) s
      .next (each n.tasks (fun s t => s.abortTask t.1 0x07 0 (if (s.sheet t.1).any fun h => (h.part t.2).isSome then some t.2 else none)) s)

end Sys2Proof.Machine
end

