-- ==== Sys2Proof/Machine/QueueOps.lean ====
section
/-! DEFINITION. Queues: slots of a completion queue, completions written and held, interrupts, the end of a call sheet and
what it does to the take (R257, R334 to R341). -/

namespace Sys2Proof.Machine

def State.sq? (s : State) (n : Nat) : Option Sq := s.sqs.get none n
def State.cq? (s : State) (m : Nat) : Option Cq := s.cqs.get none m
def State.modSq (s : State) (n : Nat) (f : Sq → Sq) : State :=
  { s with sqs := s.sqs.set none n ((s.sq? n).map f) }
def State.modCq (s : State) (m : Nat) (f : Cq → Cq) : State :=
  { s with cqs := s.cqs.set none m ((s.cq? m).map f) }

def Cq.size (q : Cq) : Nat := 2 ^ q.logsz
def Sq.size (q : Sq) : Nat := 2 ^ q.logsz

/-- Entries announced and not fetched. -/
def Sq.unfetched (q : Sq) : Nat := (q.tail + q.size - q.head) % q.size

/-- Has a completion queue a slot that is neither occupied nor reserved (R339)? -/
def Cq.hasSlot (q : Cq) : Bool := decide (q.written - q.freed + q.reserved < q.size)

/-- Does a completion without a slot wait for queue `m` (R339)? -/
def State.cqWaits (s : State) (m : Nat) : Bool := s.compls.any fun c => c.cq = m && !c.slot && c.holdTake.isNone

/-- Is a completion of queue `m` still to be written, so that later ones come after it (R339)? -/
def State.cqBehind (s : State) (m : Nat) : Bool := s.compls.any fun c => c.cq = m && c.holdTake.isNone

/-- Can a slot be reserved for a dispatch (R329, R339)? -/
def State.slotOk (s : State) (m : Nat) : Bool := ((s.cq? m).map Cq.hasSlot).getD false && !s.cqWaits m

/-! ### Interrupts (R340) -/

/-- A vector leaves, or sets its pending bit where it is masked. -/
def State.sendVector (s : State) (vec : Nat) (rig : Option Nat) : State :=
  if s.msixOpen.get false vec then
    ((s.emit (.msix vec)).bump F.QUE_NIRQ_COUNT).offer (Config.evtCode 11) { rig := rig }
  else { s with msixPend := s.msixPend.set false vec true }

/-- A completion queue whose vector is due sends it once GO has come for every completion that the message covers. -/
def State.trySend (s : State) (m : Nat) : State :=
  match s.cq? m with
  | some q => if q.due && q.go = q.written && !s.ucieWaits then
      (s.modCq m fun q => { q with due := false, pending := 0 }).sendVector q.vec (some q.rig)
    else s
  | none => s

/-- A completion written counts and may make the vector due (R340). -/
def Cq.counted (q : Cq) (c : Compl) (now : Nat) : Cq :=
  let q := if c.noirq then q else { q with pending := q.pending + 1, oldest := if q.pending = 0 then now else q.oldest }
  { q with due := q.due || c.status != 0 || bit c.flags 5 || (!c.noirq && decide (q.pending ≥ q.cthr)) }

/-! ### Completions (R337, R339) -/

/-- The 32 bytes of a completion. -/
def Compl.bytes (c : Compl) (head : Nat) (phase : Bool) : List Byte :=
  leBytes 8 c.user ++ leBytes 2 c.sq ++ leBytes 2 head ++ leBytes 1 c.status ++ leBytes 1 (c.flags / 2 * 2 + b2n phase)
    ++ leBytes 1 c.cause ++ leBytes 1 c.fpart ++ leBytes 8 c.logno ++ leBytes 4 c.take ++ leBytes 4 c.detail

/-- A completion with a slot leaves for host memory (R337). -/
def State.driveCompl (s : State) (c : Compl) : State :=
  match s.cq? c.cq with
  | none => s
  | some q =>
    let head := ((s.sq? c.sq).map (·.head)).getD 0
    let s := s.emit (.completion (q.addr + 32 * (q.written % q.size)) (c.bytes head ((q.written / q.size) % 2 = 0)))
    let now := s.now
    let s := s.modCq c.cq fun q => Cq.counted { q with written := q.written + 1, reserved := q.reserved - 1 } c now
    ((s.bump F.QUE_NCOMP_COUNT).offer 0x342 { rig := some c.rig }).trySend c.cq

/-- Does the log's record `q` count as written (R367)? -/
def State.recWritten (s : State) (q : Nat) : Bool := s.log.all fun r => r.seq ≠ q || r.acked

/-- A completion with a slot writes its DONE record and leaves once that counts as written and the host link carries it (R319, R339, R345, R367). -/
def State.writeCompl (s : State) (c : Compl) : State :=
  let q := s.logSeq
  let s := s.writeLog c.logno 0 c.rig (.done c.sq c.user c.status c.flags)
  if s.recWritten q && !s.ucieWaits then s.driveCompl c else { s with compls := s.compls ++ [{ c with await := some q }] }

/-- A completion is written, or waits behind those of its queue that wait already or for a slot: completions of one queue are written in the order in
which their call sheets complete (R339). -/
def State.postCompl (s : State) (c : Compl) : State :=
  if c.slot then (if s.cqBehind c.cq then { s with compls := s.compls ++ [c] } else s.writeCompl c)
  else if s.slotOk c.cq && !s.cqBehind c.cq then
    (s.modCq c.cq fun q => { q with reserved := q.reserved + 1 }).writeCompl { c with slot := true }
  else { s with compls := s.compls ++ [c] }.offer (Config.evtCode 14) { rig := some c.rig }

/-- The completions of a queue that wait go on in order: each takes a slot that is free, or has one (R339, R341). -/
def State.serveCq (m : Nat) : Nat → State → State
  | 0, s => s
  | k + 1, s =>
    match s.compls.find? fun c => c.cq = m && c.holdTake.isNone, s.cq? m with
    | some c, some q =>
      if c.await.isSome then s
      else if c.slot then State.serveCq m k ({ s with compls := s.compls.erase c }.writeCompl c)
      else if q.hasSlot then
        State.serveCq m k (({ s with compls := s.compls.erase c }.modCq m fun q => { q with reserved := q.reserved + 1 }).writeCompl
          { c with slot := true })
      else s
    | _, _ => s

/-- The completions whose DONE record now counts as written leave, in order, and those behind them. -/
def State.driveAcked (s : State) : State :=
  each (s.compls.filter fun c => !s.ucieWaits && (match c.await with
    | some q => s.recWritten q
    | none => false)) (fun s c =>
      let s := { s with compls := s.compls.erase c }.driveCompl c
      State.serveCq c.cq s.compls.length s) s

/-! ### The end of a call sheet (R336, R337, R257) -/

/-- Is no call sheet of the rig's take incomplete, `but` left out? -/
def State.takeTasksOver (s : State) (n but : Nat) : Bool :=
  s.sheets.all fun h => !(h.rig = n && h.take.isSome && h.logno ≠ but)

/-- Once every task of a closing take has completed, the take goes to Pack, Derive or Striking (R257). -/
def State.closingEnd (s : State) (n : Nat) : State :=
  if (s.rig n).take.state = 2 && s.takeTasksOver n 0 then
    s.modTake n fun t => { t with state := if t.abort then 8 else if s.get F.IMG_RMODE_UPDATE n = 0 then 6 else 3 }
  else s

/-- Is a call sheet's completion held until the take ends (R265, R337): the close's, or the last one's of a take struck before
its close was dispatched? -/
def State.holdsCompl (s : State) (h : Sheet) : Bool :=
  h.take.isSome && (let t := (s.rig h.rig).take
    t.close = some h.logno || (t.state = 8 && t.close.isNone && s.takeTasksOver h.rig h.logno))

/-- The completion of a call sheet. -/
def State.complOf (s : State) (h : Sheet) : Compl :=
  let status := h.status.getD 0
  { logno := h.logno, sq := h.sq, cq := ((s.sq? h.sq).map (·.cq)).getD 0, rig := h.rig, user := h.cs.user, status := status
    flags := 2 * b2n h.pois + 4 * b2n h.prox + 16 * b2n h.repl, fpart := h.fpart, take := h.take.getD 0
    detail := if [0x01, 0x04, 0x05, 0x06].contains status then h.detail else 0, noirq := h.cs.noirq }

/-- The records of a call sheet that end with it (R345); held versions that none names are freed (R349). -/
def State.dropRecords (s : State) (logno : Nat) : State :=
  { s with log := s.log.filter fun r => !(r.logno = logno && (match r.kind with
    | .read _ _ => true
    | .mark _ _ _ => true
    | .bank _ _ _ _ => true
    | _ => false)) }.dropHeld.ringCheck

/-- A call sheet completes (R336): on an error its output versions are freed; its completion is written or held. -/
def State.finishSheet (s : State) (logno : Nat) : State :=
  match s.sheet logno with
  | none => s
  | some h =>
    let bad := h.status.getD 0 != 0
    let s := when bad (fun s => { (s.recOf logno State.recAbort) with
      outVers := s.outVers.filter (·.logno ≠ logno), wc := s.wc.filter fun e => e.which ≠ .out logno }) s
    let held := s.holdsCompl h
    let c := s.complOf h
    let s := { s with sheets := s.sheets.filter (·.logno ≠ logno) }.dropRecords logno
    let s := if held then { s with compls := s.compls ++ [{ c with holdTake := h.take }] } else s.postCompl c
    s.closingEnd h.rig

/-- A dispatched call sheet ends at its dispatch with a status, running nothing (R333); `part` is the part that failed, if one did. -/
def State.failSheet (s : State) (logno status detail : Nat) (part : Nat := 0xFF) : State :=
  (s.modSheet logno fun h => { h with status := some status, detail := detail, fpart := part, parts := [] }).finishSheet logno

/-- The end of rig `n`'s take releases the completion held for it, with TEND (R265, R337). -/
def State.releaseHeld (s : State) (n : Nat) (print : Bool) (cause : Nat) : State :=
  let t := (s.rig n).take
  match s.compls.find? fun c => c.rig = n && c.holdTake.isSome with
  | none => s
  | some c =>
    let flags := c.flags ||| (4 * b2n t.prox + 8 * b2n t.late + 32 + 64 * b2n print)
    { s with compls := s.compls.erase c }.postCompl { c with holdTake := none, flags := flags, cause := cause }

end Sys2Proof.Machine
end

