-- ==== Sys2Proof/Machine/LedgerOps.lean ====
section
/-! DEFINITION. Ledgers (R207 to R212): records, additions, folds; what a closing stage reads and writes (R254, R256, R262). -/

namespace Sys2Proof.Machine

/-! ### Records (R208, R209) -/

/-- An exact sum of three finite FP32-layout values rounded once; with a value that is not finite, by FP32 sums. -/
def sum3 (md : NMode) (x y z : Nat) : Nat :=
  match (readFP md x).1, (readFP md y).1, (readFP md z).1 with
  | .fin s1 m1 e1, .fin s2 m2 e2, .fin s3 m3 e3 =>
    let a := addExact s1 m1 e1 s2 m2 e2
    let b := addExact a.1 a.2.1 a.2.2 s3 m3 e3
    (fOut md (.fin b.1 b.2.1 b.2.2)).1
  | _, _, _ => (fAdd md (fAdd md x y).1 z).1

/-- The value of an element's code and its residual as FP32 patterns. -/
def Ledger.code (l : Ledger) (md : NMode) (i : Nat) : Nat := (g8Value md (l.exps.get 0 (i / 32)) (l.codes.get 0 i)).1
def Ledger.resid (l : Ledger) (i : Nat) : Nat := l.err.get 0 i * 2 ^ 16

/-- RNE_S16 as a pattern of 16 bits. -/
def toS16 (md : NMode) (x : Nat) : Nat := (convert md fp32 s16 false x).1

/-- A record with one more update (R209); `u` by element of the page. -/
def Ledger.add (l : Ledger) (md : NMode) (u : FMap Nat) : Ledger :=
  let blk := fun (l' : Ledger) (b : Nat) =>
    let idx := (List.range 32).map (32 * b + ·)
    let xs := idx.map fun i => sum3 md (l.code md i) (l.resid i) (u.get 0 i)
    let q := g8Quant md xs
    let r := (xs.zip q.2.1).map fun x => toS16 md (fSub md x.1 (g8Value md q.1 x.2).1).1
    { l' with exps := l'.exps.set 0 b q.1
              codes := each (idx.zip q.2.1) (fun m x => m.set 0 x.1 x.2) l'.codes
              err := each (idx.zip r) (fun m x => m.set 0 x.1 x.2) l'.err }
  each (List.range 512) blk { ntake := l.ntake + 1, born := l.born, pois := l.pois, upd := u }

/-- The bytes of a record (R208). -/
def Ledger.bytes (l : Ledger) (key : Nat) : List Byte :=
  leBytes 2 (spaceOf key) ++ leBytes 6 (vpnOf key) ++ leBytes 4 l.ntake ++ List.replicate 52 0
    ++ (List.range 16384).map (fun i => BitVec.ofNat 8 (l.codes.get 0 i)) ++ (List.range 512).map (fun b => BitVec.ofNat 8 (l.exps.get 0 b))
    ++ (List.range 16384).flatMap (fun i => leBytes 2 (l.err.get 0 i))

/-- A record read back from its bytes. -/
def ledgerOf (c : Content) : Ledger :=
  { ntake := leNat (c.bytesAt 8 4)
    codes := each (List.range 16384) (fun m i => m.set 0 i (c.byte (64 + i)).toNat) []
    exps := each (List.range 512) (fun m b => m.set 0 b (c.byte (16448 + b)).toNat) []
    err := each (List.range 16384) (fun m i => m.set 0 i (leNat (c.bytesAt (16960 + 2 * i) 2))) [] }

/-- Master elements of a line with a record folded into them (R210). -/
def Ledger.foldLine (l : Ledger) (md : NMode) (c : Content) (line : Nat) : Content :=
  each (List.range 64) (fun c k =>
    let i := 64 * line + k
    c.putBytes (4 * i) (leBytes 4 (sum3 md (leNat (c.bytesAt (4 * i) 4)) (l.code md i) (l.resid i)))) c

/-- A whole page folded. -/
def Ledger.foldPage (l : Ledger) (md : NMode) (c : Content) : Content := each (List.range 256) (fun c n => l.foldLine md c n) c

/-- The numeric settings of the rig that owns a page's space. -/
def State.pageMode (s : State) (key : Nat) : NMode := s.nmode ((s.ownerOf key).getD 0) false

/-! ### What is mirrored to the twin (R366, R367) -/

/-- The mapped pages of the staged ranges of every rig's latched parameter table. -/
def State.mirroredKeys (s : State) : List Nat :=
  (s.rigs.flatMap fun r => r.2.take.groups.flatMap fun g => g.staged.flatMap fun x =>
    ((List.range ((x.2 + 65535) / 65536)).map fun i => keyOf g.space (x.1 + 65536 * i)).filter fun k => (s.page? k).isSome).eraseDups

/-- The reserve needed, in GiB (R366): none without protection, 2 GiB for the log. -/
def State.reserveNeed (s : State) : Nat :=
  match s.get F.TWN_CTL_PROT with
  | 0 => 0
  | 1 => 2
  | _ =>
    let ks := s.mirroredKeys
    let led := (s.ledgers.filter fun l => l.2.isSome && ks.contains l.1).length
    2 + (2 * 65536 * ks.length + 49728 * led + 2 ^ 30 - 1) / 2 ^ 30

/-- The printed content of a page is sent. -/
def State.sendPrinted (s : State) (key : Nat) : State :=
  s.sendPage (spaceOf key) (vpnOf key * 2 ^ 16) 0 ((s.merged key .current).read 0 65536)

/-- A page and its ledger record are sent to the twin for the first time. -/
def State.mirrorPage (s : State) (key : Nat) : State :=
  let s := s.sendPrinted key
  let s := match s.ledgers.get none key with
    | some l => s.sendPage (spaceOf key) (vpnOf key * 2 ^ 16) 2 ((l.bytes key).map fun b => (b, false))
    | none => s
  { s with tether := { s.tether with mirrored := s.tether.mirrored ++ [key] } }

/-- Records count as written without acknowledgement, and what waited for that goes on. -/
def State.ackAll (s : State) : State :=
  { s with log := s.log.map fun (r : LogRec) => { r with acked := true } }.driveAcked

/-- Mirroring is suspended (R366, R368). -/
def State.suspendMirror (s : State) : State := ((s.setReg F.TWN_STAT_SUSP 1).offer (Config.evtCode 61)).ackAll

/-- Ranges that a newly latched table names are sent; where they outgrow the twin's reserve mirroring is suspended: what a reserve beyond
that asked for holds is a free value (log entry 53). -/
def State.mirrorNew (s : State) : State :=
  if s.mirrorsPages then
    let free := Config.freeNat s.fresh 0 % 2 = 1
    if decide (s.reserveNeed > s.tether.need) && free then s.spend.suspendMirror
    else each (s.mirroredKeys.filter fun k => !s.tether.mirrored.contains k) State.mirrorPage s.spend
  else s

/-- The print's END record of rig `n`, where it is written. -/
def State.printRecord (s : State) (n : Nat) : Option LogRec :=
  s.log.find? fun r => r.rig = n && (match r.kind with
    | .fin print _ num _ _ => print && num = ((s.rig n).take.num + 1) % 2 ^ 32
    | _ => false)

/-- The staged pages and records of rig `n` are sent to the twin (R367). -/
def State.sendStaged (s : State) (n : Nat) : State :=
  if s.mirrorsPages then
    let s := each (s.staged.filter (·.rig = n)) (fun s v =>
      s.sendPage (spaceOf v.page) (vpnOf v.page * 2 ^ 16) 1 ((s.merged v.page (.staged n)).read 0 65536)) s
    each (s.stagedLedgers.filter fun e => s.ownerOf e.1 = some n) (fun s e => match e.2 with
      | some l => s.sendPage (spaceOf e.1) (vpnOf e.1 * 2 ^ 16) 3 ((l.bytes e.1).map fun b => (b, false))
      | none => s) s
  else s

/-- A record is freed after its fold (R210); the twin is sent the folded page (log entry 52). A staged record that was formed over it holds its own
update alone from now on, so that no update is folded twice (R211; log entry 121). -/
def State.dropLedger (s : State) (key : Nat) : State :=
  let md := s.pageMode key
  let s := { s with ledgers := s.ledgers.set none key none
                    stagedLedgers := s.stagedLedgers.upd none key (Option.map fun (l : Ledger) =>
                      { (({ born := l.born, pois := l.pois } : Ledger).add md l.upd) with ntake := 1 }) }.modPage key fun p => { p with ldg := false }
  when (s.mirrorsPages && s.tether.mirrored.contains key) (·.sendPrinted key) s

/-- Lines that a record takes (R186, R208). -/
def recordLines : Nat := 195

/-- A record folded is counted and offered (R217); it has been read from tier 0. -/
def State.countFold (s : State) (key : Nat) : State :=
  ((s.tier0Bytes recordLines).bump F.TIER_NFOLD_COUNT).offer 0x245 { rig := s.ownerOf key, tier := (s.page? key).map (·.tier) }

/-- A forced ascent is counted and offered. -/
def State.countForce (s : State) (key : Nat) : State :=
  (s.bump F.TIER_NFORCE_COUNT).offer 0x243 { rig := s.ownerOf key, tier := (s.page? key).map (·.tier) }

/-- A fold in place, at a home in tier 0 or uncompressed tier 1 (R210). -/
def State.foldHere (s : State) (key : Nat) (l : Ledger) : State :=
  let c := s.merged key .current
  let s := { s with wc := s.wc.filter fun (e : WcEntry) => !(e.page = key && e.which = Which.current) }
  let s := when (((s.page? key).map (·.tier)).getD 0 = 0) (·.tier0Bytes 512) s
  ((s.modPage key fun p => { p with data := l.foldPage (s.pageMode key) c }).countFold key).dropLedger key

/-- The page's own record is folded in place. -/
def State.foldIn (s : State) (key : Nat) : State :=
  match s.ledgers.get none key with
  | some l => s.foldHere key l
  | none => s

/-- Records that a space's ledger holds (R212), staged ones among them. -/
def State.ledgerRoom (s : State) (space : Nat) : Bool :=
  let n := ((s.space? space).map (·.ledger)).getD 0 * 2 ^ 20 / 49728
  let of := fun (m : FMap (Option Ledger)) => (m.filter fun e => e.2.isSome && spaceOf e.1 = space).length
  decide (of s.ledgers + of s.stagedLedgers < n)

/-- The oldest printed record of a space: the page whose record is folded first (R212). -/
def State.oldestLedger (s : State) (space : Nat) : Option Nat :=
  let l := s.ledgers.filterMap fun e => if spaceOf e.1 = space then e.2.map fun r => (r.born, e.1) else none
  match l with
  | [] => none
  | a :: l => some (each l (fun o x => if x.1 < o.1 then x else o) a).2

/-! ### What a closing stage reads and writes (R254, R256, R262, R263) -/

/-- The pages of a range, each with the bytes of it that the range covers. -/
def rangePages (space addr n : Nat) : List (Nat × Nat) :=
  (List.range ((n + 65535) / 65536)).map fun i => (keyOf space (addr + 65536 * i), min 65536 (n - 65536 * i))

/-- The version of a page that a closing stage of rig `n` reads. -/
def State.stageVer (s : State) (n key : Nat) : Which := if (s.stagedVer? key n).isSome then Which.staged n else Which.current

/-- The content that a closing stage reads, poisoned lines as poisoned words. -/
def State.stageContent (s : State) (n key : Nat) : Content := s.merged key (s.stageVer n key)

/-- Tier 0 traffic of a stage's read of a range (R186). -/
def State.stageRead (s : State) (n space addr bytes : Nat) : State :=
  each (rangePages space addr bytes) (fun s p => if (s.verHome p.1 (s.stageVer n p.1)).1 = 0 then s.tier0Bytes ((p.2 + 255) / 256) else s) s

/-- The elements of `w` bytes of a range, each with its poison. -/
def State.stageElems (s : State) (n space addr w cnt : Nat) : List (Nat × Bool) :=
  (rangePages space addr (w * cnt)).flatMap fun p =>
    let c := s.stageContent n p.1
    (List.range (p.2 / w)).map fun i => (leNat (c.bytesAt (w * i) w), c.poisoned (w * i))

/-- What a stage must wait for before it reads `reads` and writes `writes`: pages with LDG set are folded first, staged frames
need a page that no call sheet outside the take holds and room in tier 0. -/
def State.stageBlocked (s : State) (n : Nat) (reads writes : List Nat) : Bool :=
  let new := writes.filter fun k => (s.stagedVer? k n).isNone
  ((reads ++ new).any fun k => ((s.page? k).map (·.ldg)).getD false && (s.stagedVer? k n).isNone)
  || (new.any fun k => (s.outVer? k).isSome) || decide (s.freeUnits 0 < 16 * new.length)

/-- The forced ascents that the wait asks for. -/
def State.stageForce (s : State) (n : Nat) (pages : List Nat) : State :=
  each (pages.filter fun k => ((s.page? k).map (·.ldg)).getD false && (s.stagedVer? k n).isNone) (fun s k => s.forceAscent k) s

/-- Is a page of a range not mapped: a staging fault (R251)? -/
def State.unmapped (s : State) (l : List Nat) : Bool := l.any fun k => (s.page? k).isNone

/-- A stage writes bytes of one page: into the staged frame, which is created with the page's value. -/
def State.stageWrite (s : State) (n key : Nat) (bs : List Byte) : State :=
  let s := if (s.stagedVer? key n).isSome then s else { s with staged := s.staged ++ [{ s.copyVersion key with rig := n }] }
  let s := each (List.range ((bs.length + 255) / 256)) (fun s l => s.flushLine key l (.staged n)) s
  (s.modVer key (.staged n) fun c => c.write 0 bs).tier0Bytes ((bs.length + 255) / 256)

/-- A stage writes a whole range. -/
def State.stageRange (s : State) (n space addr : Nat) (bs : List Byte) : State :=
  each (rangePages space addr bs.length).zipIdx (fun s p => s.stageWrite n p.1.1 ((bs.drop (65536 * p.2)).take p.1.2)) s

end Sys2Proof.Machine
end

