-- ==== Sys2Proof/Machine/MapOps.lean ====
section
/-! DEFINITION. How a mapping command goes through its pages (R182, R183), used where a move or a fold it waits for ends. -/

namespace Sys2Proof.Machine

def State.moving (s : State) (key : Nat) : Bool := s.moves.any (·.page = key)

/-- What a command's next page comes to. -/
inductive PageStep where
  | done (s : State)
  | waits (s : State)
  | fails (s : State) (err : Nat)
  deriving DecidableEq, Repr

/-- Capacity for a page's reservation and the tables that it needs and does not yet have (R183). -/
def State.mapRoom (s : State) (key : Nat) : Bool :=
  let tables := s.tableUnits (s.mapped ++ [key]) - s.tableUnits s.mapped
  decide (tables + 16 + s.reservedUnits ≤ ((List.range 4).map s.freeUnits).sum)

/-- A page is unmapped: everything held for it goes, and its frames of tier 3 are deallocated (R243). -/
def State.unmapPage (s : State) (key : Nat) : State :=
  let s := match s.page? key with
    | some p => (s.deallocate p.ownT3).deallocate (if p.neg then some (p.negFrame, p.negLen + 1) else none)
    | none => s
  { s with
    pages := s.pages.set none key none, ledgers := s.ledgers.set none key none, stagedLedgers := s.stagedLedgers.set none key none
    wc := s.wc.filter (·.page ≠ key), ascentQ := s.ascentQ.filter (· ≠ key), forcedQ := s.forcedQ.filter (· ≠ key)
    descentQ := s.descentQ.filter (·.page ≠ key), negReads := s.negReads.filter (·.page ≠ key) }

/-- Units of a page's negative (R196). -/
def State.negUnits (s : State) (p : Page) : Nat := if s.compressed 3 then storedUnits p.kind p.data else 16

/-- May a page be sealed now: it neither moves nor has a version that is to become current (log entry 119)? -/
def State.sealable (s : State) (key : Nat) : Bool :=
  !s.moving key && (s.outVer? key).isNone && !s.staged.any fun v => v.page = key

/-- Units that the negative of a page takes when it is written now: none while it waits (R183). -/
def State.sealUnits (s : State) (key : Nat) : Nat :=
  match s.page? key with
  | some p => if s.sealable key then s.negUnits { p with data := s.merged key .current } else 0
  | none => 0

/-- One page under a mapping command. Of two errors of one page, that it is unmapped is reported before a bad argument (log entry 160). -/
def State.mcmdPage (s : State) (c : MCmd) (key : Nat) : PageStep :=
  match c.op, s.page? key with
  | 1, none =>
    if s.mapRoom key then .done { s with pages := s.pages.set none key (some { kind := c.arg }) } else .fails s 4
  | 1, some _ => .fails s 3
  | _, none => .fails s 2
  | 2, some _ => if s.moving key then .waits s else .done (s.unmapPage key)
  | 3, some p =>
    if !((s.space? c.space).map (·.ro)).getD false || p.ro || p.neg then .fails s 5
    else if s.freeUnits 3 + c.held < s.sealUnits key then .fails s 4
    else .waits s
  | 4, some p =>
    if !p.ro && !s.inPlace c.arg then .fails s 6
    else if p.zero || (p.tier = c.arg && !s.moving key) then
      .done ({ s with descentQ := s.descentQ.filter (·.page ≠ key), ascentQ := s.ascentQ.filter (· ≠ key) }.modPage key
        fun p => { p with pin := true })
    else if s.moving key || s.descentQ.any (fun m => m.page = key && m.kind = .pinned) then .waits s
    else .waits { s with
      descentQ := s.descentQ.filter (·.page ≠ key) ++ [{ page := key, kind := .pinned, dest := c.arg }]
      ascentQ := s.ascentQ.filter (· ≠ key) }
  | 5, some _ => .done (s.modPage key fun p => { p with pin := false })
  | 6, some _ => if c.arg = 3 then .fails s 7 else .done (s.modPage key fun p => { p with hint := c.arg })
  | 7, some p => if !p.ldg then .done s else if s.inPlace p.tier && !s.moving key then .done (s.foldIn key) else .waits (s.forceAscent key)
  | _, _ => .fails s 7

/-- The command ends. -/
def State.mcmdEnd (s : State) (done err : Nat) : State :=
  let s := { s with mcmd := none }
  let s := ((s.setReg F.TIER_MSTAT_DONE done).setReg F.TIER_MSTAT_ERR err).setReg F.TIER_MSTAT_BUSY 0
  when (err ≠ 0) (·.raiseFlag F.TIER_MSTAT_ERRF) s

/-- The command goes on over at most `n` pages. -/
def State.mcmdRun : Nat → State → State
  | 0, s => s
  | n + 1, s =>
    match s.mcmd with
    | none => s
    | some c =>
      if c.done ≥ c.npage then s.mcmdEnd c.done 0
      else
        let key := pageKey c.space (c.vpn + c.done)
        match s.mcmdPage c key with
        | .fails s e => s.mcmdEnd c.done e
        | .waits s => { s with mcmd := some { c with waiting := true, held := if c.op = 3 then s.sealUnits key else 0 } }
        | .done s =>
          let s := { s with mcmd := some { c with done := c.done + 1, waiting := false, held := 0 } }
          State.mcmdRun n (s.setReg F.TIER_MSTAT_DONE (c.done + 1))

/-- A command that waits is tried again. -/
def State.mcmdRetry (s : State) : State :=
  match s.mcmd with
  | some c => s.mcmdRun (c.npage - c.done + 1)
  | none => s

end Sys2Proof.Machine
end

