-- ==== Sys2Proof/Machine/Host.lean ====
section
/-! DEFINITION. The host's side of the die (R317 to R323): the window, snoops, the UCIe modules. -/

namespace Sys2Proof.Machine

/-- SNOOP: answered as not holding the line (R321). -/
def execSnoop (addr : Nat) (s : State) : Result := .next (s.emit (.snoopMiss addr))

/-! ### The window (R322, R323) -/

/-- Bytes of the image staging area (R152). -/
def stagingSize : Nat := 64 * 2 ^ 20

/-- A refused access: HAF, QUE_HAFA, the event. -/
def State.refuseHost (s : State) (off : Nat) : State :=
  (((s.raiseFlag F.QUE_STAT_HAF).setReg F.QUE_HAFA_AP (off / 2 ^ 36)).setReg F.QUE_HAFA_OFS off).offer (Config.evtCode 13)

/-- The page and offset that a window offset reaches through an enabled aperture. -/
def State.apertureOf (s : State) (off : Nat) : Option (Nat × Nat) :=
  let a := off / 2 ^ 36
  if s.flag F.QUE_AP_0_EN a then
    let addr := (s.get F.QUE_AP_2_BASE a * 2 ^ 16 + off % 2 ^ 36) % 2 ^ 52
    some (keyOf (s.get F.QUE_AP_0_SPACE a) addr, addr % 2 ^ 16)
  else none

/-- 64 bytes returned, with CXL poison where a word is poisoned. -/
def State.answerWindow (s : State) (off : Nat) (data : List (Byte × Bool)) : State :=
  s.emit (.windowData off (data.map Prod.fst) (data.any Prod.snd))

/-- A refused read returns zero with poison. -/
def State.refuseRead (s : State) (off : Nat) : State := (s.refuseHost off).emit (.windowData off (List.replicate 64 0) true)

/-- A read of the image staging area, which lies in tier 0 (R152), under the word code. -/
def State.stagingRead (s : State) (a n : Nat) (errs : List (Nat × Nat)) : State × List (Byte × Bool) :=
  let o := s.staging.ecc (a / 8) ((n + 7) / 8) errs (Config.freeNat s.fresh)
  let s := if errs.isEmpty then s else s.spend
  ({ s with staging := o.c }.noteEcc o fun w => s.wordAt 0 Config.stagingFrame w, o.c.read a n)

/-- HOST_WINDOW_READ: 64 bytes; refused before step 9 of start-up ends (R394); `errs` by word, `lost`: the home reports the line lost. A page whose line
must move, fold, be read again or be reread first keeps the request waiting: the same command completes it later (log entry 44). It goes on waiting where
the negative is lost, since no reader receives poison for the word (R22, R197; log entry 161). -/
def execHostWindowRead (off : Nat) (errs : List (Nat × Nat)) (lost : Bool) (s : State) : Result :=
  .next (
    if s.ucieWaits then s
    else if !s.online then s.refuseRead off
    else if off < 2 ^ 36 then
      if off < stagingSize then
        let r := s.stagingRead off 64 errs
        (r.1.tier0Bytes 1).answerWindow off r.2
      else s.answerWindow off (List.replicate 64 (0, false))
    else match s.apertureOf off with
      | none => s.refuseRead off
      | some (key, ofs) => match s.page? key with
        | none => s.refuseRead off
        | some p =>
          let line := ofs / 256
          if s.foldWaits key ofs 64 then s.forceAscent key
          else if s.inTransit key ofs 64 || s.pageChanging key || s.rangeWaits key .current ofs 64 || !(s.rereading key ofs 64).isEmpty then s
          else
            let r := s.readPage key .current ofs 64 errs (if lost || s.homeGone key then [line] else [])
            if !r.again.isEmpty then r.s
            else if r.reread.isEmpty then (r.s.touch key).answerWindow off r.data
            else if p.neg then r.s.wantReread key line [] []
            else r.s)

/-- The runs of written bytes: offset in the data, length. -/
def maskRuns (mask : Nat) : Nat → List (Nat × Nat)
  | 0 => []
  | n + 1 =>
    let r := maskRuns mask n
    if bit mask n then
      match r.getLast? with
      | some x => if x.1 + x.2 = n then r.dropLast ++ [(x.1, x.2 + 1)] else r ++ [(n, 1)]
      | none => [(n, 1)]
    else r

/-- HOST_WINDOW_WRITE: the bytes of `mask`, as a read-modify-write of the line (R213, R323). -/
def execHostWindowWrite (off : Nat) (data : List Byte) (mask : Nat) (errs : List (Nat × Nat)) (s : State) : Result :=
  let runs := maskRuns mask 64
  let piece := fun (r : Nat × Nat) => ((data.drop r.1).take r.2).map fun b => (b, false)
  .next (
    if s.ucieWaits then s
    else if !s.online then s.refuseHost off
    else if off < 2 ^ 36 then
      if off < stagingSize then
        { s with staging := each runs (fun c r => c.writeP (off + r.1) (piece r)) s.staging }.tier0Bytes 2
      else s
    else match s.apertureOf off with
      | none => s.refuseHost off
      | some (key, ofs) => match s.page? key with
        | none => s.refuseHost off
        | some p =>
          let line := ofs / 256
          if s.flag F.QUE_AP_0_WP (off / 2 ^ 36) || p.ro then s.refuseHost off
          else if !s.outsideReady key line then s.outsideWait key
          else match runs with
            | [] => s.touch key
            | r :: l =>
              let s := s.readForModify key line errs
              let s := s.outsideWrite key (ofs + r.1) (piece r)
              let s := each l (fun s r => s.landBytes key (ofs + r.1) (piece r)) s
              (s.countLine key).touch key)

/-! ### The UCIe modules (R318, R319) -/

/-- The fields of QUE_ULINK for module `m`. -/
def ulinkState (m : Nat) : Field := if m = 0 then F.QUE_ULINK_U0STATE else F.QUE_ULINK_U1STATE
def ulinkRate (m : Nat) : Field := if m = 0 then F.QUE_ULINK_U0RATE else F.QUE_ULINK_U1RATE
def ulinkRep (m : Nat) : Field := if m = 0 then F.QUE_ULINK_U0REP else F.QUE_ULINK_U1REP

/-- Is a module up: x64 or x32? -/
def State.ucieUp (s : State) (m : Nat) : Bool := s.get (ulinkState m) = 3 || s.get (ulinkState m) = 4

/-- UCIE_MODULE_RETRAIN: the module trains; its traffic moves to the other one, or waits (R319). -/
def execUcieModuleRetrain (m : Nat) (s : State) : Result := gated (s.ucieUp m) (fun s => s.setReg (ulinkState m) 1) s

/-- What a training found is reported; lanes repaired are spares (R318, R419). -/
def State.ucieResult (s : State) (m : Nat) (r : UcieReport) : State :=
  let old := s.get (ulinkRep m)
  let s := ((s.setReg (ulinkState m) r.state).setReg (ulinkRate m) r.rate).setReg (ulinkRep m) r.rep
  each (List.range (r.rep - old)) (fun s i => s.spareIn 7 3 (21 + m) (old + i) (old + i)) s

/-- What waited for the host link leaves: completions, and the vectors that are due (R319). -/
def State.ucieGo (s : State) : State := each (s.cqs.map Prod.fst) (fun s m => s.trySend m) s.driveAcked

/-- UCIE_RETRAIN_COMPLETE: up at x64, up at x32, down or failed; at 32 or 16 GT/s (R318). -/
def execUcieRetrainComplete (m : Nat) (r : UcieReport) (s : State) : Result :=
  gated (s.get (ulinkState m) = 1 && [0, 3, 4, 5].contains r.state && decide (r.rate < 2) && decide (r.rep < 16))
    (fun s => (((s.ucieResult m r).journalTraining (21 + m)).recovery 4 3 (21 + m) 0 0).ucieGo) s

end Sys2Proof.Machine
end

