-- ==== Sys2Proof/Machine/Boot.lean ====
section
/-! DEFINITION. Start-up (R393 to R398, R423, R445): reset, its release, the steps. -/

namespace Sys2Proof.Machine

/-- Power or PORST_L returns the device to step 1 (R394, R445): the fuses, the flight log as the RRAM holds it and the boot flash carry
over, and what lies outside the device: the straps, the waiting commands, what has been driven out. What holds until power is removed outlasts
PORST_L: the timer (R314), the regulators' targets (R442), a trip of i16 or i17 (R385, R438), that a debug session has been open (R408; log entry 136). -/
def State.toStep1 (s : State) (porst : Bool) : State :=
  let s1 : State := { State.reset with
    pending := s.pending, fresh := s.fresh, out := s.out, fuses := s.fuses, flashImg := s.flashImg, preferred := s.preferred
    strapHsp := s.strapHsp, strapAsel := s.strapAsel, porst := porst || s.porst, flog := { journal := s.flog.journal, slots := s.flog.slots }
    everOpen := porst && s.everOpen }
  let s1 := s1.setReg F.SYN_TIMER_NS (if porst then s.now else 0)
  let s1 : State := if porst then { s1 with vtarget := s.vtarget, volts := s.volts } else s1
  if porst && s.tripHold then
    each (List.range 18) (fun t i => each [F.PWR_VP_TRIPPED, F.PWR_VP_CAP, F.PWR_VP_PTNOW] (fun t f => t.setReg f (s.get f i) i) t)
      ({ s1 with tripHold := true, driven := s.driven }.setReg F.PWR_THERM_TRIP 1)
  else s1

/-- PORST_L_ASSERT. -/
def execPorstAssert (s : State) : Result := .next (s.toStep1 true)

/-- SUPPLY_OUT_OF_RANGE: any rail. -/
def execSupplyOutOfRange (_rail : Nat) (s : State) : Result := .next (s.toStep1 false)

/-- RESET_RELEASE: the supply monitor's event, that every rail has been in its window and PORST_L high for 1 ms (R444): step 1 ends. Start-up gives SEC_DNONCE a new value (R408) and seeds the generators of R88. -/
def execResetRelease (s : State) : Result :=
  gated s.resetHeld (fun s =>
    let s := { (s.setReg F.SEC_BOOT_STEP 2).newNonce with resetHeld := false, porst := false }
    { s.spend with srSeed := s.fresh }) s

/-! ### What the steps do -/

/-- The record of a boot's end or failure (R422). -/
def State.journalBoot (s : State) : State :=
  s.journal 1 0 0 (leBytes 4 (s.packed [F.SEC_BOOT_STEP, F.SEC_BOOT_CODE, F.SEC_BOOT_FAIL, F.SEC_BOOT_FWCOPY, F.SEC_BOOT_AFAIL, F.SEC_BOOT_BWARN])
    ++ leBytes 4 (s.fuseSvn * 2 ^ 26 + slotBits s.revoked * 2 ^ 12 + slotBits s.enrolled * 2 ^ 8 + s.get F.SEC_FSTAT_XWARN * 2 ^ 4
      + b2n s.dbgKill * 2 ^ 3 + b2n s.dbgLock * 2 ^ 2 + s.strapHsp) ++ s.fwId)

/-- A step fails (R395): the device stays in it, and no link runs any more. A failure before the flight log has been read reads it for its record (R422;
log entry 167). -/
def State.bootFail (s : State) (code : Nat) : State :=
  let s := if s.get F.SEC_BOOT_STEP ≤ 4 then s.readFlog else s
  let s := each (List.range 18) (fun s p => (s.modLink p fun _ => {}).linkState p 0) s
  ((s.setReg F.SEC_BOOT_CODE code).setReg F.SEC_BOOT_FAIL 1).journalBoot

/-- The next step begins. -/
def State.nextStep (s : State) : State := s.setReg F.SEC_BOOT_STEP (s.get F.SEC_BOOT_STEP + 1)

/-- The fused state of physical tile `p` (R397). -/
def State.fuseTile (s : State) (p : Nat) : Nat := bits (s.fuse fuTMAP (p / 4)) (2 * (p % 4) + 1) (2 * (p % 4))

/-- Step 2: the map of the tiles, the straps (R9, R12, R396, R437). -/
def State.readFuses (s : State) : State :=
  let on := (List.range 80).filter fun p => s.fuseTile p = 0
  let s1 := each (List.range 80) (fun s' p =>
    (s'.setReg F.GLB_PMAP_STATE (s.fuseTile p) p).setReg F.GLB_PMAP_LOGICAL (if s.fuseTile p = 0 then on.idxOf p else 0x7F) p) s
  let s2 := each (List.range 72) (fun s' t =>
    (s'.setReg F.GLB_TMAP_VALID (b2n on[t]?.isSome) t).setReg F.GLB_TMAP_PHYS (on[t]?.getD 0x7F) t) s1
  let f := s.fuse fuT0SPARE 0 % 4
  let spares := if f != 3 then f else if s.strapHsp = 0 then 0 else if s.strapHsp = 2 then 2 else 1
  (s2.setReg F.MEM_T0CFG_SPARES spares).setReg F.SEC_FSTAT_HSP s.strapHsp

/-- Step 3: the stores, banks and staging pool hold zeros (R244). -/
def State.powerFill (s : State) : State :=
  { s with tiles := s.tiles.mapv {} fun t => { t with store := {}, banks := [] }, staging := {} }

/-- A lane, or an engine, of a tile that fails the start-up self-check: 1024 × tile, with 32 × group + place, or 1000 + the engine (R358; log
entry 135). -/
def State.selfCheck (s : State) (x : Nat) : State :=
  if x % 1024 ≥ 1000 then s.engFails (x / 1024) (x % 1024 - 1000) else s.laneFails (x / 1024) (x % 1024)

/-- Step 4: the flight log, the management cores that failed their self-test, a bit each, and the lanes and engines that fail the self-check. -/
def State.coreStep (s : State) (failed : Nat) (units : List Nat) : State :=
  let bad := (List.range 5).filter fun c => bit failed c
  if bad.length > 1 then s.bootFail 0x41
  else
    let s := s.restoreFlog
    let l := (bad ++ s.mgmtFailed).eraseDups
    (each units State.selfCheck { s with mgmtFailed := l }).nextStep

/-- Does a copy boot (R398)? -/
def State.copyBoots (s : State) (c : Nat) : Bool :=
  let img := s.flashCopy c
  fwVerifies img && decide (fwSvnOf img ≥ s.fuseSvn)

/-- Firmware runs. -/
def State.runCopy (s : State) (c : Nat) : State :=
  let img := s.flashCopy c
  { (s.setReg F.SEC_BOOT_FWCOPY c).setReg F.SEC_BOOT_AFAIL (b2n (c != s.preferred)) with
    fwKey := slice img 24 57, fwId := slice img 16 8, fwSvn := fwSvnOf img
    fwDigest := Config.shake256 (img.take (fwLen img - 128)) 64 }

/-- Step 5: the preferred copy first, then the other (R398, R399). -/
def State.firmwareStep (s : State) : State :=
  let a := s.preferred
  let b := 1 - a
  if s.copyBoots a then (s.runCopy a).nextStep
  else if s.copyBoots b then (s.runCopy b).nextStep
  else (s.setReg F.SEC_BOOT_AFAIL 1).bootFail (if fwVerifies (s.flashCopy a) || fwVerifies (s.flashCopy b) then 0x52 else 0x51)

/-- Step 6: state, rate and repaired lanes of each UCIe module (R318). Step 7 begins with the fill of tier 0 and its spares (R244, R246). -/
def State.ucieStep (s : State) (v : Nat → Nat) : State :=
  let s := (s.ucieResult 0 { state := v 0, rate := v 1, rep := v 2 }).ucieResult 1 { state := v 3, rate := v 4, rep := v 5 }
  let s := (s.journalTraining 21).journalTraining 22
  if s.ucieUp 0 || s.ucieUp 1 then s.nextStep.requestAct { kind := 6, res := [600], arg := 600 } else s.bootFail 0x61

/-- The fill of tier 0 that step 7 began ends with the step (R244, R246). -/
def State.endFill (s : State) : State :=
  match s.actFor 6 600 with
  | some a => s.endAct a.id
  | none => s

/-- GiB of a stack: height code 0 to 2, density code 0 or 1 (R224). -/
def stackGib (height dens : Nat) : Nat := (8 + 4 * height) * (if dens = 0 then 3 else 4)

/-- Step 7: height, density and rate codes found, the channels that pass, a bit each (R224 to R227, R244), and the channel of each DQ lane repaired
(R358). Height 3 stands for stacks absent, mixed or unsupported. A channel retired before stays retired. -/
def State.hbmStep (s : State) (v : Nat → Nat) (dq : List Nat) : State :=
  let s := each dq (fun s c => s.dqLanes c 1) s.endFill
  let n := 32 - s.get F.MEM_T0CFG_SPARES
  let good := fun (k : Nat) => (List.range 32).map (32 * k + ·) |>.filter fun c => bit (v 3) c && s.get F.MEM_CHMAP_ROLE c != 2
  let live := (List.range 8).flatMap fun k => (good k).take n
  if decide (v 0 > 2) || decide (v 1 > 1) || decide (v 2 > 2) then s.bootFail 0x71
  else if (List.range 8).any fun k => decide ((good k).length < n) then s.bootFail 0x72
  else
    let s := ((s.setReg F.MEM_T0CFG_HEIGHT (v 0)).setReg F.MEM_T0CFG_DENS (v 1)).setReg F.MEM_T0CFG_RATE (v 2)
    let s := (s.setReg F.MEM_T0CFG_CHMIB (32 * stackGib (v 0) (v 1))).setReg F.MEM_T0CFG_LIVE (8 * n)
    let s := each (List.range 256) (fun s c => s.setReg F.MEM_CHMAP_ROLE (if live.contains c then 0
      else if (good (c / 32)).contains c then 1 else 2) c) s
    let s := each (List.range 256) (fun s c => s.setReg F.MEM_CHMAP_LOGICAL (if live.contains c then live.idxOf c else 0x1FF) c) s
    s.nextStep

/-- The devices found at step 8: tier, port, 4 KiB units, three numbers each (R242, R243). -/
def devicesOf : List Nat → List (Nat × MemDev)
  | t :: p :: u :: l => (t, { port := p, units := u }) :: devicesOf l
  | _ => []

/-- The devices used of those found: up to 16, up to `lim` frames in all (R242, R243; log entry 122). -/
def usedDevs : Nat → Nat → List MemDev → List MemDev
  | 0, _, _ => []
  | _, _, [] => []
  | n + 1, lim, d :: l => if d.units ≤ lim then d :: usedDevs n (lim - d.units) l else usedDevs (n + 1) lim l

/-- A CXL device's HDM decoder is programmed (R242). -/
def State.setHdm (s : State) : State := each s.t2.zipIdx (fun s d => s.emit (.hdm d.1.port d.2 d.1.base d.1.units)) s

/-- A drive is set up: identified, its features set, its 16 I/O queue pairs created; its health log read (R243). -/
def State.setDrives (s : State) : State :=
  (each s.t3.zipIdx (fun s d => each (.identify :: .setFeatures :: (List.range 16).map fun q => .createQueue (q + 1))
    (fun s c => s.emit (.nvme d.2 c 0 0)) s) s).healthLogs

/-- The devices of a tier, each at the frames after those before it. -/
def placeDevs : Nat → List MemDev → List MemDev
  | _, [] => []
  | b, d :: l => { d with base := b } :: placeDevs (b + d.units) l

/-- Step 8: the ports X0 to X2 that came up, a bit each, and from bit 3 on those behind which a device failed, then the devices found; the Svaweurn
links stand as their training left them (R239, R393, R395). -/
def State.portStep (s : State) (vals : List Nat) : State :=
  let x := vals.headD 0
  let bad := ((List.range 8).map fun b => b2n ((s.links.get {} (10 + b)).train != 4) * 2 ^ b).sum
  let behind := x / 8 % 8
  let ds : List (Nat × MemDev) := (devicesOf (vals.drop 1)).filter fun d => decide (18 ≤ d.2.port) && decide (d.2.port ≤ 20) && bit x (d.2.port - 18)
  let s := (s.setReg F.SEC_BOOT_BWARN bad).setReg F.SEC_FSTAT_XWARN ((7 - x % 8) ||| behind)
  let of := fun (t lim : Nat) => placeDevs 0 (usedDevs 16 lim ((ds.filter fun (d : Nat × MemDev) => d.1 = t).map Prod.snd))
  { s with t2 := of 2 (2 ^ 33), t3 := of 3 (2 ^ 36) }.setHdm.setDrives.nextStep

/-- BOOT_STEP_COMPLETE: `r` is what the step found; `r.fail` a failure that only the world shows (0x21, 0x22, 0x31). Step 2 finds the levels of the strap
bumps, HSP and ASEL; where it names none they are as before. Step 10 ends when the
loader has applied a whole image; step 11 ends start-up. -/
def execBootStepComplete (r : BootReport) (s : State) : Result :=
  let v := fun i => r.vals[i]?.getD 0
  gated (!s.resetHeld && !s.flag F.SEC_BOOT_FAIL) (fun s =>
    match s.get F.SEC_BOOT_STEP with
    | 2 =>
      if r.fail = 0x21 || !s.fusesAgree then s.bootFail 0x21
      else if r.fail = 0x22 then s.bootFail 0x22
      else { s with strapHsp := r.vals[0]?.getD s.strapHsp % 4, strapAsel := r.vals[1]?.getD s.strapAsel % 4 }.readFuses.nextStep
    | 3 => if r.fail = 0x31 then s.bootFail 0x31 else s.powerFill.nextStep
    | 4 => s.coreStep (v 0) (r.vals.drop 1)
    | 5 => s.firmwareStep
    | 6 => s.ucieStep v
    | 7 => s.hbmStep v (r.vals.drop 4)
    | 8 => s.portStep r.vals
    | 9 => { s with online := true }.nextStep
    | 11 => (s.setReg F.SEC_BOOT_STEP 15).journalBoot
    | _ => s) s

end Sys2Proof.Machine
end

