-- ==== Sys2Proof/Machine/Events.lean ====
section
/-! DEFINITION. The event counters' registers, the flight log's commits, its window, the latency histograms (R410 to R424). -/

namespace Sys2Proof.Machine

/-! ### Counters (R412 to R415) -/

/-- A write of EVT_GCTL. -/
def State.gctl (s : State) (d : Nat) : State :=
  let s := when (bit d 1) (fun s => each (List.range 512) (fun s c => s.setReg F.EVT_CNT_COUNT 0 c) s) s
  s.setReg F.EVT_GCTL_FREEZE (bits d 0 0)

/-- CLRALL. -/
def execClrall (data : Word) (s : State) : Result := gated s.ioReached (·.gctl data.toNat) s

/-- FREEZE_WRITE. -/
def execFreezeWrite (data : Word) (s : State) : Result := gated s.ioReached (·.gctl data.toNat) s

/-- A write of EVT_CTL_c: MODE is applied before EN starts the counter, or after it has stopped (R169); EN 0 forgets any start. -/
def State.counterCtl (s : State) (c d : Nat) : State :=
  let was := s.flag F.EVT_CTL_EN c
  let on := bit d 0
  let s := when (bit d 3) (·.setReg F.EVT_CTL_OVF 0 c) s
  let s := when (bit d 2) (·.setReg F.EVT_CTL_SREF 0 c) s
  let s := s.staticWrite F.EVT_CTL_MODE c (bits d 1 1) (!(was && on)) F.EVT_CTL_SREF c 0x000
  let s := if was && on then s else { s with evStarted := s.evStarted.set false c false }
  s.setReg F.EVT_CTL_EN (b2n on) c

/-- COUNTER_ENABLE_WRITE. -/
def execCounterEnableWrite (c : Nat) (data : Word) (s : State) : Result := gated s.ioReached (·.counterCtl c data.toNat) s

/-- A write of EVT_SEL_c: an undefined CODE is ignored (R415), after the check of R169. -/
def State.counterSel (s : State) (c d : Nat) : State :=
  let stop := !s.flag F.EVT_CTL_EN c
  let code := bits d 31 22
  let put := fun (s : State) f v => s.staticWrite f c v stop F.EVT_CTL_SREF c 0x000
  let s := if stop && !Config.codeDefined code && code != s.get F.EVT_SEL_CODE c then s.raiseFlag F.EVT_STAT_BADW else put s F.EVT_SEL_CODE code
  put (put (put (put s F.EVT_SEL_RIG (bits d 21 15)) F.EVT_SEL_TILE (bits d 14 8)) F.EVT_SEL_TIER (bits d 7 5)) F.EVT_SEL_PORT (bits d 4 0)

/-- A write of EVT_SIG_c. -/
def State.counterSig (s : State) (c d : Nat) : State :=
  let stop := !s.flag F.EVT_CTL_EN c
  (s.staticWrite F.EVT_SIG_START c (bits d 13 0) stop F.EVT_CTL_SREF c 0x000).staticWrite F.EVT_SIG_STOP c (bits d 29 16) stop
    F.EVT_CTL_SREF c 0x000

/-- A write of a word of EVT_CNT_c. -/
def State.counterCnt (s : State) (c : Nat) (high : Bool) (d : Nat) : State :=
  let n := s.get F.EVT_CNT_COUNT c
  s.staticWrite F.EVT_CNT_COUNT c (if high then n % 2 ^ 32 + d * 2 ^ 32 else n / 2 ^ 32 * 2 ^ 32 + d) (!s.flag F.EVT_CTL_EN c) F.EVT_CTL_SREF c 0x000

/-- A write of EVT_FLCFG: 0 is ignored. -/
def State.flcfg (s : State) (d : Nat) : State :=
  if d % 32 = 0 then s.raiseFlag F.EVT_STAT_BADW else s.setReg F.EVT_FLCFG_CEPOCH d

/-! ### Commits (R418, R419) -/

/-- A write of EVT_FLCMD. -/
def State.flcmd (s : State) (d : Nat) : State :=
  let s := s.setReg F.EVT_FLCMD_OP (bits d 31 28)
  if !bit d 0 then s
  else if s.flag F.EVT_FLSTAT_BUSY then s.raiseFlag F.EVT_FLSTAT_BUSYW
  else if bits d 31 28 = 1 then s.wantCommit { cmd := true }
  else s

/-- FLIGHT_LOG_COMMIT_CMD. -/
def execFlightLogCommitCmd (data : Word) (s : State) : Result := gated s.ioReached (·.flcmd data.toNat) s

/-- The highest SEQ in force. -/
def Flog.topSeq (f : Flog) : Nat :=
  ((List.range 6).map fun r => match f.inForce r with
    | some k => (f.slot r k).seq
    | none => 0).foldl max 0

/-- FLOG_COMMIT_DONE: the commit that runs has been written, and its slots verify but for those of the regions `failed`. -/
def execFlogCommitDone (failed : List Nat) (s : State) : Result :=
  match s.acts.find? (·.kind = 4), s.commits with
  | some a, c :: l =>
    let s := { s.commitNow failed c.whole with commits := l }.endAct a.id
    .next ((s.setReg F.EVT_FLSEQ_SEQ s.flog.topSeq).setReg F.EVT_FLSTAT_BUSY (b2n !l.isEmpty))
  | _, _ => .next s

/-! ### The window (R417, R420 to R422, R424) -/

/-- The offset and slot size of each state region. -/
def regionAt : List (Nat × Nat) := [(0, 0x800), (0x1000, 0x2000), (0x5000, 0x8000), (0x15000, 0x6000), (0x21000, 0x2000), (0x25000, 0x1800)]

/-- A region's content as numbers, for the regions whose bytes the spec does not lay out. -/
def FlData.numbers : FlData → List Nat
  | .header _ b h w => [b, h, w]
  | .maps r t m b => (r.flatMap fun e => [e.1, e.2]) ++ (t.flatMap fun e => e.1 :: (e.2.lanes ++ e.2.engs ++ e.2.rows)) ++ m ++ b.flatMap fun e => [e.1, e.2]
  | .vendor n => [n]
  | _ => []

/-- A byte of a histogram's record (R420). -/
def Hist.byte (p : Nat) (h : Hist) (i : Nat) : Nat :=
  let n := if i < 32 then Config.testRatio p (i / 2) / 256 ^ (i % 2)
    else if i < 64 then h.median.get 0 ((i - 32) / 2) / 256 ^ (i % 2)
    else h.bins.get 0 ((i - 64) / 4) / 256 ^ (i % 4)
  n % 256

/-- A byte of a region's content. The header begins with MAGIC, FORMAT and SERIAL, one behind the other (R417; log entry 6). -/
def FlData.byte (region : Nat) (d : FlData) (i : Nat) : Byte :=
  match d with
  | .none_ => 0
  | .counters c => BitVec.ofNat 8 (c.get 0 (i / 8) / 256 ^ (i % 8))
  | .resid r => BitVec.ofNat 8 (r.get 0 (i / 8) / 256 ^ (i % 8))
  | .hists h => if i / 288 < 80 then BitVec.ofNat 8 ((h.get {} (i / 288)).byte (i / 288) (i % 288)) else 0
  | .header sn b h w =>
    ((([0x46, 0x4C, 0x47, 0x01] ++ leBytes 2 1 ++ sn)[i]?)).getD (Config.flogByte region (FlData.header sn b h w).numbers i)
  | d => Config.flogByte region d.numbers i

/-- A byte of a slot: content, SEQ, CRC. -/
def FlSlot.byte (region size : Nat) (x : FlSlot) (i : Nat) : Byte :=
  if i < size - 16 then x.data.byte region i
  else if !x.valid then 0
  else
    let body := ((List.range (size - 16)).map fun k => x.data.byte region k) ++ leBytes 8 x.seq
    ((body ++ leBytes 8 (crc64 body))[i]?).getD 0

/-- A journal record's 64 bytes (R422). -/
def JRec.bytes (r : JRec) : List Byte :=
  let b := leBytes 1 r.typ ++ leBytes 1 r.ukind ++ leBytes 2 r.unit ++ leBytes 4 r.boot ++ leBytes 8 r.order
    ++ (r.data ++ List.replicate 40 0).take 40
  b ++ leBytes 8 (crc64 b)

/-- A byte of the RRAM. -/
def Flog.byte (f : Flog) (a : Nat) : Byte :=
  if 0x28000 ≤ a then
    match f.journal.get none ((a - 0x28000) / 64) with
    | some r => (r.bytes[a % 64]?).getD 0
    | none => 0
  else match regionAt.zipIdx.find? fun r => decide (r.1.1 ≤ a) && decide (a < r.1.1 + 2 * r.1.2) with
    | some ((o, n), k) => (f.slot k ((a - o) / n)).byte k n ((a - o) % n)
    | none => 0

/-- A word of EVT_FLWIN. -/
def State.flWindow (s : State) (ofs : Nat) : Nat :=
  leNat ((List.range 4).map fun i => s.flog.byte (4096 * s.get F.EVT_FLOFS_PAGE + ofs + i))

/-! ### Latency (R420) -/

/-- The bin of a sample: its excess over the ratio at test in steps of half a percent. -/
def latBin (test r : Nat) : Nat := min (((r : Int) - (test : Int)) * 200 / (test : Int) + 8).toNat 55

/-- LATENCY_SAMPLE: the 16 critical stages of tile `p`. -/
def execLatencySample (p : Nat) (ratios : List Nat) (s : State) : Result :=
  let h := s.flog.hists.get {} p
  let h := each ratios.zipIdx (fun (h : Hist) r =>
    { h with window := h.window.set [] r.2 (((h.window.get [] r.2) ++ [r.1]).drop ((h.window.get [] r.2).length + 1 - 2 ^ 16))
             bins := h.bins.upd 0 (latBin (Config.testRatio p r.2) r.1) (· + 1) }) h
  let h := if h.bins.any fun b => decide (b.2 ≥ 2 ^ 31) then { h with bins := h.bins.mapv 0 (· / 2) } else h
  .next { s with flog := { s.flog with hists := s.flog.hists.set {} p h } }

end Sys2Proof.Machine
end

