-- ==== Sys2Proof/Machine/TetherOps.lean ====
section
/-! DEFINITION. Pairing with the twin (R364 to R366): PAIR sent, the baseline, what follows acknowledgements. -/

namespace Sys2Proof.Machine

/-- The states of TWN_STAT.STATE. -/
def twUnpaired : Nat := 0
def twTraining : Nat := 1
def twPairing : Nat := 2
def twBaseline : Nat := 3
def twPaired : Nat := 4
def twLost : Nat := 5
def twUnpairing : Nat := 6

def State.twState (s : State) : Nat := s.get F.TWN_STAT_STATE
def State.setTw (s : State) (st : Nat) : State := s.setReg F.TWN_STAT_STATE st

/-- Has the twin acknowledged every record and page sent? -/
def State.twCaughtUp (s : State) : Bool :=
  decide (s.tether.ackSeq ≥ s.tether.sentSeq) && decide (s.tether.pageAck ≥ s.tether.pageSent)

/-- Step 6: paired once everything has been acknowledged. -/
def State.tryPaired (s : State) : State := if s.twState = twBaseline && s.twCaughtUp then s.setTw twPaired else s

/-- Step 5, once each side has accepted the other: every unfreed record, and under log and state every mirrored range. The staged pages of a take whose
END record is among them go before the records, so that the reserve prints them with it; those that a Derive has formed for a take still open go after. -/
def State.startBaseline (s : State) : State :=
  if s.twState = twPairing && s.tether.packed && s.tether.accepted then
    let s := (s.setTw twBaseline).setReg F.TWN_STAT_SUSP 0
    let s : State := { s with tether := { s.tether with ackSeq := 0, pageAck := s.tether.pageSent, mirrored := [] } }
    let s := when s.mirrorsPages (fun s => each s.mirroredKeys State.mirrorPage s) s
    let formed := (s.rigs.filter fun r => r.2.take.derived.isSome).map Prod.fst
    let printing := fun n => (s.rig n).take.state = 7 && (s.printRecord n).isSome
    let s := each (formed.filter printing) State.sendStaged s
    let s := when s.mirrors (fun s =>
      let recs := s.log
      let s := when (!recs.isEmpty) (·.sendTether { ftype := 0x22, vc := 2, ext := some (.lrec recs) }) s
      let s : State := s.bump F.TWN_NMIR_COUNT ((recs.map (·.kind.size)).sum)
      { s with tether := { s.tether with sentSeq := ((recs.getLast?).map (·.seq)).getD 0 } }) { s with tether := { s.tether with sentSeq := 0 } }
    (each (formed.filter fun n => !printing n) State.sendStaged s).tryPaired
  else s

/-- Step 4: PAIR with the protection setting and the reserve needed. -/
def State.sendPair (s : State) : State :=
  let need := s.reserveNeed
  let s := s.setTw twPairing
  let s : State := { s with tether := { s.tether with need := need, packed := false, lastFrame := s.now } }
  s.sendTether { ftype := 0x20, vc := 3, ext := some (.pair (s.get F.TWN_CTL_PROT) need) }

/-- Step 3: the identity in HELLO is compared with TWN_PEER. -/
def State.comparePeer (s : State) : State :=
  if s.get F.TWN_STAT_PARTNER = s.get F.TWN_PEER_ID then s.sendPair else (s.raiseFlag F.TWN_STAT_MISM).setTw twUnpaired

/-- A HELLO on a tether port (R276, R364). -/
def State.twinHello (s : State) (src : Nat) : State :=
  let s := s.setReg F.TWN_STAT_PARTNER src
  let s : State := { s with tether := { s.tether with helloOk := true, lastFrame := s.now } }
  if s.twState = twTraining then s.comparePeer else s

/-- A refused pairing (R365): both ports stay trained; nothing is held for the partner but a frozen reserve. -/
def State.pairRefused (s : State) : State :=
  { ((s.raiseFlag F.TWN_STAT_RSVF).setTw twUnpaired).dropMirror with
    reserve := s.reserve.filter (·.frozen), tether := { s.tether with accepted := false, packed := false } }

end Sys2Proof.Machine
end

