-- ==== Sys2Proof/Machine/Fabric.lean ====
section
/-! DEFINITION. Frames that arrive on a fabric port (R280 to R293). -/

namespace Sys2Proof.Machine

/-- Has a frame for this device arrived on a fabric port that is up? -/
def State.hears (s : State) (port : Nat) (f : Frame) (ft : Nat) : Bool :=
  decide (port < 8) && s.portUp port && f.ftype = ft && f.dst = s.myId

/-- Is FTYPE one of R280? -/
def ftDefined (ft : Nat) : Bool := decide (1 ≤ ft) && decide (ft ≤ 9)

/-- The port and the route entry that a frame in transit takes, and the stream as it then stands: a stream follows a changed entry, or another port,
only once the WACK of every WR that has passed has passed too (R282; log entry 126). -/
def State.passRoute (s : State) (f : Frame) : State × Nat × Nat :=
  let now := s.route f.dst
  if f.ftype = ftWACK then
    let k := { f with src := f.dst, dst := f.src : Frame }.stream
    (if (s.passing.lookup k).isSome then { s with passing := s.passing.upd {} k fun st => { st with acked := f.cnt } } else s, s.portFor now, now)
  else if f.free then (s, s.portFor now, now)
  else
    let st := s.passing.get {} f.stream
    let rt := st.routeOf now
    let p := s.portOf st rt
    ({ s with passing := s.passing.set {} f.stream { seq := if f.ftype = ftWR then f.cnt else st.seq, acked := st.acked, route := rt, port := p } }, p, rt)

/-- FRAME_TRANSIT (R280 to R282): forwarded with HOPS one higher; dropped beyond 31 hops, without a valid route, or with an undefined
FTYPE. -/
def execFrameTransit (port : Nat) (f : Frame) (s : State) : Result :=
  gated (decide (port < 8) && s.portUp port && (!ftDefined f.ftype || f.dst ≠ s.myId) && f.ftype ≠ ftHELLO) (fun s =>
    let s := s.tookFrame port f
    if !ftDefined f.ftype then s.offer (Config.evtCode 6) { port := some port }
    else if f.hops + 1 > 31 then (s.raiseFlag F.FAB_STAT_HOPX).offer (Config.evtCode 7) { port := some port }
    else
      let r := s.passRoute f
      if !bit r.2.2 31 then r.1.sendRej f 1 0 else r.1.sendVia r.2.1 r.2.2 { f with hops := f.hops + 1 } true) s

/-- WR_FRAME (R284, R285): a WR that finds the shared part of remote inbound full, or others of its port before it, waits, and its credits with
it. -/
def execWrFrame (port : Nat) (f : Frame) (s : State) : Result :=
  gated (s.hears port f ftWR) (fun s =>
    let s := (s.openStream (streamId f)).modLink port fun l => { l with inbox := l.inbox ++ [f] }
    s.takeInbox port (s.link port).inbox.length) s

/-- REMOTE_WRITE_VISIBLE (R284, R286, R287). -/
def execRemoteWriteVisible (stream seq : Nat) (errs : List (Nat × Nat)) (s : State) : Result :=
  match s.remoteWrs.find? fun r => r.stream = stream && r.seq = seq with
  | some r => gated (s.wrTurn r) (·.wrLand r errs) s
  | none => .next s

/-- WACK (R286). -/
def execWack (port : Nat) (f : Frame) (s : State) : Result := gated (s.hears port f ftWACK) (fun s => (s.tookFrame port f).receiveWack f) s

/-- SIG (R287, R299). -/
def execSig (port : Nat) (f : Frame) (s : State) : Result := gated (s.hears port f ftSIG) (fun s => (s.tookFrame port f).receiveSig port f) s

/-- Is a refused WR one of those that a held SIG waits for? -/
def State.holdsUp (s : State) (h : HeldSig) (r : Nat × Nat) : Bool :=
  if h.overflow then s.overflow.contains r.1 else r.1 = h.stream && covers h.cnt r.2

/-- SIG_HOLD_TIMEOUT (R288): held longer than 10 ms, SIG `i` of the held ones is discarded, and with it the refused WRs that it waited for
(log entry 127). -/
def execSigHoldTimeout (i : Nat) (s : State) : Result :=
  match s.heldSigs[i]? with
  | some h =>
    gated (decide (h.at_ + 10000000 < s.now)) (fun s =>
      (({ s with heldSigs := s.heldSigs.eraseIdx i, rejWrs := s.rejWrs.filter fun r => !s.holdsUp h r }.raiseFlag F.FAB_STAT_HTO).offer 0x394
        { port := some h.port }).freeStreams) s
  | none => .next s

/-- REJ (R282, R284, R290, R311). -/
def execRej (port : Nat) (f : Frame) (s : State) : Result := gated (s.hears port f ftREJ) (fun s => (s.tookFrame port f).receiveRej f) s

/-- Bytes of early CDATA that an engine's floor in remote inbound holds (R285). -/
def State.earlyHeld (s : State) (f : Frame) : Nat :=
  ((s.early.filter fun x => x.ftype = ftCDATA && x.stile = f.stile && x.seng = f.seng).map (·.payload.length)).sum

/-- The groups that hold both this device and the sender of a frame. -/
def State.groupsWith (s : State) (f : Frame) : List Nat :=
  (s.regs.filter fun x => x.1 % 1024 = F.SYN_GRP_VALID.id).map (·.1 / 1024) |>.filter fun g => match s.group? g with
    | some l => l.contains s.myId && l.contains f.src
    | none => false

/-- May a CDATA frame still find its COLL: some group that holds both members has one to come with its number? -/
def State.collToCome (s : State) (f : Frame) : Bool :=
  (s.groupsWith f).any fun g => decide (s.collCount.get 0 (s.collKey g (s.phys f.stile) (6 + f.seng % 2)) < bits f.arg 31 0)

/-- CDATA (R285, R290, R291, R293): for a collective in progress; one that comes early is kept in the engine's floor, or waits at the
sender; one for a COLL that has ended here disagrees with it, and REJ cause 0x03 goes back; one that can concern no collective is dropped. -/
def execCdata (port : Nat) (f : Frame) (s : State) : Result :=
  gated (s.hears port f ftCDATA) (fun s =>
    let t := s.tookFrame port f
    match s.colls.find? fun c => s.collOf f (bits f.arg 31 0) c && c.members.contains f.src with
    | some c => t.cdataFor c f
    | none =>
      if f.seng / 2 % 2 = 1 then
        if decide ((s.rig f.stile).take.num % 2 ^ 32 ≤ bits f.arg 31 0) && !((s.rig f.stile).take.xdone.contains f.cnt
            && (s.rig f.stile).take.num % 2 ^ 32 = bits f.arg 31 0) then { t with early := s.early ++ [f] } else t
      else if (s.groupsWith f).isEmpty then t
      else if !s.collToCome f then t.answerRej f 3 (bits f.arg 31 0)
      else if decide (s.earlyHeld f + f.payload.length ≤ s.floor 5 (s.phys f.stile) (engKey (s.phys f.stile) (6 + f.seng % 2)))
        then { t with early := s.early ++ [f] } else s) s

/-- Is a frame of the update unit for a take that is still to come here? -/
def State.exchLater (s : State) (f : Frame) : Bool :=
  let t := (s.rig f.stile).take
  decide (t.num % 2 ^ 32 < bits f.arg 31 0) || (t.state = 0 && t.num % 2 ^ 32 = bits f.arg 31 0)

/-- A READY for an exchange that is over reaches the lead, which answers that member alone with a void verdict (R373; log entry 134). -/
def State.readyLate (s : State) (f : Frame) : State :=
  let ms := (((s.rig f.stile).take.groups[f.cnt]?).bind fun x => s.group? x.xgrp).getD []
  if ms.head? = some s.myId && ms.contains f.src && f.src ≠ s.myId then
    s.sendOn { ftype := ftMASK, dst := f.src, stile := f.stile, seng := 2, cnt := f.cnt, arg := bits f.arg 31 0 + 2 * 2 ^ 60
               payload := packBits (ms.map fun _ => true), ext := some (.mask ms false) }
  else s

/-- READY (R293). -/
def execReady (port : Nat) (f : Frame) (s : State) : Result :=
  gated (s.hears port f ftREADY) (fun s =>
    let s := s.tookFrame port f
    if s.exchNow f.stile f.cnt (bits f.arg 31 0) then s.readyCome f.stile f.cnt f.src (bits f.arg 61 60)
    else if s.exchLater f then { s with early := s.early ++ [f] } else s.readyLate f) s

/-- MASK (R293). -/
def execMask (port : Nat) (f : Frame) (s : State) : Result :=
  gated (s.hears port f ftMASK) (fun s =>
    let s := s.tookFrame port f
    match f.ext with
    | some (.mask incl late) =>
      if s.exchNow f.stile f.cnt (bits f.arg 31 0) then
        (s.openExch f.stile f.cnt).maskCome f.stile f.cnt incl late (bits f.arg 61 60)
      else if s.exchLater f then { s with early := s.early ++ [f] } else s
    | _ => s) s

/-- HELLO (R276): the peer's identity. -/
def execHello (port : Nat) (f : Frame) (s : State) : Result :=
  gated (f.ftype = ftHELLO && (s.link port).train = 4) (fun s =>
    let s := s.tookFrame port f
    if port < 8 then s.setReg F.FAB_PSTAT_PEER f.src port
    else s.twinHello f.src) s

end Sys2Proof.Machine
end

