-- ==== Sys2Proof/Machine/Links.lean ====
section
/-! DEFINITION. The link layers (R233 to R240, R276 to R279): flits, retraining, training, the messages of the Svaweurn buffers. Ports by
the numbers of R416: F0–F7 0–7, T0–T1 8–9, B0–B7 10–17. -/

namespace Sys2Proof.Machine

/-! ### Ports -/

/-- The kind of recovery of a link (R419): a Svaweurn retrain, or a fabric or tether one. -/
def linkRecovery (port : Nat) : Nat := if isBuf port then 2 else 3

/-- The retrain activity of a link ends. -/
def State.endLinkAct (s : State) (port : Nat) : State :=
  match s.actFor 3 (400 + port) with
  | some a => s.endAct a.id
  | none => s

/-- A link goes down for good, its state `st` shown: what is asked of its buffer is lost, and every line of the buffer's range, which goes offline (R240);
what waits at a fabric port leaves by the alternate (R281), and the other tether port carries what one has not delivered (R356).
`lanes`: too few lanes are good, and the capacity of its buffer never comes online (R239). -/
def State.linkFails (s : State) (port : Nat) (st : Nat := 5) (lanes : Bool := false) : State :=
  let l := s.link port
  let s := each ((l.tags.map Prod.snd).filter (·.kind = 1) ++ l.waiting) (fun s c => s.losePiece c.page c.line) s
  let s := if isBuf port then s.loseRange fun tier frame => tier = 1 && frame / 2 ^ 32 / 2 % 8 = port - 10 else s
  let s := (s.modLink port fun l => { l with
    train := 0, full := false, rxok := [], tags := [], waiting := [], told := false, dead := l.dead || (lanes && isBuf port)
    filled := if isBuf port then [] else l.filled }).linkState port st
  let s := if port < 8 then s.reroute port else if port < 10 then s.moveTether port else s
  s.endLinkAct port

/-- A full training begins: a buffer's reset is released, and TSA goes out on every lane (R239 step 1). -/
def State.trainLink (s : State) (port : Nat) (full : Bool) : State :=
  let s := (s.modLink port fun l => { l with train := 1, full := full, rxok := [] }).linkState port 1
  let s := if isBuf port && !full then s.emit (.bufReset (port - 10) true) else s
  s.sendSets port 1 fun _ => 0xFF

/-- A fast retrain is due (R234, R240): an activity of the arbiter (R246). -/
def State.fastRetrain (s : State) (port : Nat) : State :=
  if (s.actFor 3 (400 + port)).isSome || s.actWaits 3 (400 + port) then s
  else (s.offer 0x2CB { port := some port }).requestAct { kind := 3, res := [400 + port], arg := 400 + port }

/-- The unacknowledged flits leave again, and are counted (R234). -/
def State.resend (s : State) (port : Nat) : State :=
  let l := s.link port
  let n := l.unacked.length
  let s := each l.unacked (fun s q => s.emit (.replay port q)) s
  let s := if port < 8 then s.bump F.FAB_NREPL_COUNT n
    else if isBuf port then s.bump F.MEM_BREPL_COUNT n (port - 10) else s
  if n = 0 then s else s.offer (Config.evtCode 5) { port := some port } n

/-- The flits up to `seq` are acknowledged. -/
def Link.acked (l : Link) (seq : Nat) : Link :=
  match l.unacked.findIdx? (·.seq = seq) with
  | some i =>
    let q := l.unacked.drop (i + 1)
    { l with unacked := q, replays := 0, flying := l.flying.filter fun x => q.any (·.seq = x.1) }
  | none => l

/-- Credits come back. -/
def Link.credit (l : Link) (port : Nat) (f : Flit) : Link :=
  if isBuf port then { l with credits := (l.credits.upd 0 0 (· + f.crd)).upd 0 1 (· + f.lvl) }
  else { l with credits := l.credits.upd 0 (2 * f.cls + f.lvl) (· + f.crd) }

/-- What a good flit does: acknowledgement, replay, credits, sequence. A null flit has no sequence number. -/
def State.goodFlit (s : State) (port : Nat) (f : Flit) : State :=
  let s := s.modLink port fun l => (if f.ackv || f.nak then l.acked f.ackseq else l).credit port f
  let s := if f.nak then (s.modLink port fun l => { l with replays := l.replays + 1 }).resend port else s
  let l := s.link port
  let s := if f.typ = 0 then s
    else if f.seq = l.expSeq then
      (s.modLink port fun l => { l with expSeq := (l.expSeq + 1) % 4096 }).emit (.flit port false f.seq 0 0)
    else s.emit (.flit port true ((l.expSeq + 4095) % 4096) 0 0)
  if (s.link port).replays ≥ 8 then (s.modLink port fun l => { l with replays := 0 }).fastRetrain port else s

/-- What may leave by a link leaves. -/
def State.linkGo (s : State) (port : Nat) : State := if isBuf port then s.goReads (port - 10) else s.pump port

/-- FLIT_RECEIVE: a flit of 256 bytes; one of an undefined TYPE is discarded (log entry 124). The messages and frames that a flit completes are
commands of their own. -/
def execFlitReceive (port : Nat) (x : FlitIn) (s : State) : Result :=
  gated ((s.link port).train = 4) (fun s =>
    let f := readFlit (isBuf port) x.bytes
    let s := if !f.crcOk then s.emit (.flit port true (((s.link port).expSeq + 4095) % 4096) 0 0)
      else if f.typ ≤ 1 then s.goodFlit port f else s
    (when x.laneFail (·.fastRetrain port) s).linkGo port) s

/-! ### Fills (R239 step 8, R244) -/

/-- GiB of a channel, as the buffer has told. -/
def State.chanCap (s : State) (b ch : Nat) : Nat := s.get (if ch = 0 then F.MEM_BCAP_CAP0 else F.MEM_BCAP_CAP1) b

/-- The next GiB to fill: of the channel with fewer filled (log entry 50). -/
def State.nextFill (s : State) (b : Nat) : Option (Nat × Nat) :=
  let l := s.link (10 + b)
  let f0 := l.filled.get 0 0
  let f1 := l.filled.get 0 1
  let a := decide (f0 < s.chanCap b 0)
  let z := decide (f1 < s.chanCap b 1)
  if a && (!z || decide (f0 ≤ f1)) then some (0, f0) else if z then some (1, f1) else none

/-- A GiB is filled once the arbiter has given the range; with none left the link is up. -/
def State.tryFill (s : State) (b : Nat) : State :=
  if s.get F.MEM_BSTAT_STATE b != 2 || (s.link (10 + b)).tags.any (fun t => t.2.kind = 3) then s
  else match s.nextFill b with
    | none => if s.chanCap b 0 + s.chanCap b 1 = 0 then s else s.setReg F.MEM_BSTAT_STATE 3 b
    | some (ch, g) =>
      let s := if (s.actFor 6 b).isSome || s.actWaits 6 b then s else s.requestAct { kind := 6, res := [700 + b], arg := b }
      if (s.actFor 6 b).isNone then s
      else (s.svSend b { kind := 3, ch := ch, addr := g * 2 ^ 30, units := 2 ^ 24 } []).getD s

/-! ### Training (R239, R276) -/

/-- May a port train: the buffers' links from step 8 of start-up on, a fabric or tether port once the host reaches the control space, none after a failed
step (R281, R393, R395)? -/
def State.mayTrain (s : State) (port : Nat) : Bool :=
  decide ((if isBuf port then 8 else 7) ≤ s.get F.SEC_BOOT_STEP) && !s.flag F.SEC_BOOT_FAIL

/-- LINK_TRAINING_START: a link that is down trains; a buffer's link that failed for its lanes stays down (R239). -/
def execLinkTrainingStart (port : Nat) (s : State) : Result :=
  gated (s.mayTrain port && (s.link port).train = 0 && !(s.link port).dead) (fun s => s.trainLink port false) s

/-- TSA: a lane has received 16 valid sets and is good; TSB goes out with RXOK (R239 step 3). -/
def execTsa (port lane : Nat) (s : State) : Result :=
  gated ((s.link port).train = 1 && decide (lane < lanesOf port))
    (fun s => if (s.link port).rxok.contains lane then s
      else (s.modLink port fun l => { l with rxok := l.rxok ++ [lane] }).sendSets port 2 fun _ => 0xFF) s

/-- The lane that the spare replaces, where one of the lanes before the last is bad; `none_` where none is. -/
def badLane (port none_ : Nat) (good : List Nat) : Nat :=
  ((List.range (needLanes port)).find? fun k => !good.contains k).getD none_

/-- The spare lane of a direction (R239, R276); a lane newly replaced is a spare brought in (R358). -/
def State.setBad (s : State) (port : Nat) (tx : Bool) (good : List Nat) : State :=
  if decide (8 ≤ port) && decide (port < 10) then
    let k := 2 * port + b2n tx
    let bad := badLane port 7 good
    let old := s.tether.bad.get 7 k
    let s : State := { s with tether := { s.tether with bad := s.tether.bad.set 7 k bad } }
    if bad != 7 && bad != old then s.spareIn 6 3 port bad (lanesOf port - 1) else s
  else
    let i := if port < 8 then port else port - 10
    let f := if port < 8 then (if tx then F.FAB_PSTAT_TXBAD else F.FAB_PSTAT_RXBAD) else (if tx then F.MEM_BSTAT_TXBAD else F.MEM_BSTAT_RXBAD)
    let bad := badLane port f.rst good
    let old := s.get f i
    let s := s.setReg f bad i
    if bad != f.rst && bad != old then s.spareIn 6 3 port bad (lanesOf port - 1) else s

/-- TSB: the far end tells which lanes it receives and which preset it wants, and the margins are measured: a lane below threshold is bad. With
enough good lanes each way the logical lanes are assigned and TSC is sent, else the link fails, a fabric port is down (R239, R276). Sets of another rate are not those of step 4. -/
def execTsb (port : Nat) (r : TrainReport) (s : State) : Result :=
  gated ((s.link port).train = 1 && r.rate = rateOf port) (fun s =>
    let rx := (s.link port).rxok.filter fun k => !r.low.contains k
    let tx := (r.good.filter fun k => decide (k < lanesOf port)).eraseDups
    let s := s.modLink port fun l => { l with presets := (r.preset % 8, r.best % 8), rxok := rx }
    let s := (s.sendSets port 2 fun _ => 0xFF).journalTraining port
    if rx.length ≥ needLanes port && tx.length ≥ needLanes port then
      let s := (s.setBad port true tx).setBad port false rx
      (s.modLink port fun l => { l with train := 3 }).sendSets port 3 (logicalLane port tx)
    else s.linkFails port (if isBuf port then 5 else 0) true) s

/-- The configuration registers are read (R239 step 8). -/
def State.readConfig (s : State) (b : Nat) : State :=
  each (List.range 6) (fun s r => (s.svSend b { kind := 4, addr := r } []).getD s) s

/-- TSC: the echo; 64 null flits go out and the link is up. After a failed fast retrain what was outstanding goes on, with the credits held; a new
link starts afresh (R235). A fabric or tether port advertises its credits and sends its HELLO (R276, R279). -/
def execTsc (port : Nat) (s : State) : Result :=
  gated ((s.link port).train = 3) (fun s =>
    let full := (s.link port).full
    let s := s.modLink port fun l =>
      if l.full then { l with train := 4, full := false, replays := 0 }
      else { train := 4, presets := l.presets, rxok := l.rxok, queue := l.queue, lastTransit := l.lastTransit, inbox := l.inbox
             credits := if isBuf port then [(0, 64), (1, 128)] else [] }
    let s := (s.emit (.idle port 64)).endLinkAct port
    let s := s.resend port
    let s := if (port = 8 || port = 9) && (s.link (17 - port)).train = 0 then s.moveTether (17 - port) else s
    if isBuf port then
      ((s.linkState port 2).readConfig (port - 10)).linkGo port
    else
      ((if full then s else s.advertise port).linkState port 3).enqueue port false { ftype := ftHELLO, vc := vcOf ftHELLO, src := s.myId }) s

/-- LINK_TRAINING_TIMEOUT: a step has not ended in time. -/
def execLinkTrainingTimeout (port : Nat) (s : State) : Result :=
  gated ((s.link port).train = 1 || (s.link port).train = 3) (·.linkFails port) s

/-- FAST_RETRAIN_COMPLETE: steps 4 to 7 of R239 again. The margins are measured, lanes are judged and assigned, a spare is brought in for a lane that has
become bad (R358), TSC and 64 null flits go out, and the link goes on from the last acknowledged flit; after a failure it trains in full (R240). -/
def execFastRetrainComplete (port : Nat) (r : FastReport) (s : State) : Result :=
  gated ((s.link port).train = 5) (fun s =>
    let rx := (List.range (lanesOf port)).filter fun k => !r.low.contains k
    let tx := (List.range (lanesOf port)).filter fun k => !r.lost.contains k
    if r.ok && decide (needLanes port ≤ rx.length) && decide (needLanes port ≤ tx.length) then
      let full := isBuf port && (s.nextFill (port - 10)).isSome
      let s := s.modLink port fun l => { l with rxok := rx }
      let s := ((((s.setBad port true tx).setBad port false rx).sendSets port 3 (logicalLane port tx)).emit (.idle port 64)).journalTraining port
      let s := (s.modLink port fun l => { l with train := 4 }).linkState port (if full then 2 else 3)
      (((s.recovery (linkRecovery port) 3 port 0 0).endLinkAct port).resend port).linkGo port
    else s.trainLink port true) s

/-! ### Messages from the buffers (R236, R237) -/

/-- The command of a message's tag, and the tag freed; none where the message has another opcode or the tag another command. -/
def State.takeTag (s : State) (b : Nat) (m : BufMsg) (opc : Nat) (kind : Nat → Bool) : Option (TagCmd × State) :=
  match (s.link (10 + b)).tags.lookup m.tag with
  | some c => if m.opc = opc && kind c.kind then some (c, s.modLink (10 + b) fun l => { l with tags := l.tags.erase m.tag }) else none
  | none => none

/-- RDR: the read is over; its lines come, or are lost, to those who wait for them (R204; log entry 49). -/
def execRdr (b : Nat) (m : BufMsg) (s : State) : Result :=
  match s.takeTag b m 0x81 (· = 1) with
  | none => .next s
  | some (c, s) => .next ((if m.status = 0 then s else s.losePiece c.page c.line).goReads b)

/-- WRC: units that are lost are lost at home (R204, R237). -/
def execWrc (b : Nat) (m : BufMsg) (s : State) : Result :=
  match s.takeTag b m 0x82 (· = 2) with
  | none => .next s
  | some (c, s) => .next ((if m.status = 0 then s
      else match s.moves.find? fun x => x.page = c.page && x.dest = 1, s.page? c.page with
        | some x, some p =>
          let q : Page := { p with cmp := s.compressed 1, len := x.units - 1 }
          let a := c.addr - (x.frame % 2 ^ 32) * 4096
          s.loseHome c.page ((List.range 256).filter fun l => decide (q.lineAt l < a + 64 * c.units) && decide (a < q.lineAt (l + 1)))
        | none, some p => s.loseHome c.page (p.linesAt c.line)
        | _, none => s).goReads b)

/-- A GiB of a buffer's channel holds all-zero code words: a page in plain form reads zeros, of a stored page nothing can be decoded; a sealed page has
its negative (R197, R244; log entry 125). -/
def State.zeroGib (s : State) (b ch g : Nat) : State :=
  { s with pages := s.pages.map fun x => (x.1, x.2.map fun p =>
      if p.tier = 1 && !p.zero && !p.ro && p.frame / 2 ^ 32 = 2 * b + ch && p.frame % 2 ^ 32 / 2 ^ 18 = g then
        { p with data := {}, linePois := if p.cmp then List.range 256 else [] }
      else p) }

/-- FILLC: 1 GiB more is filled and online; one that failed is tried again. -/
def execFillc (b : Nat) (m : BufMsg) (s : State) : Result :=
  match s.takeTag b m 0x84 (· = 3) with
  | none => .next s
  | some (c, s) =>
    let s := match s.actFor 6 b with
      | some a => s.endAct a.id
      | none => s
    let s := if m.status = 0 then (s.zeroGib b c.ch (c.addr / 2 ^ 30)).modLink (10 + b) fun l => { l with filled := l.filled.upd 0 c.ch (· + 1) } else s
    .next ((s.tryFill b).goReads b)

/-- CFGR: capacities, credits, status; the credits told beyond those of link-up are added once (R235, R238). -/
def execCfgr (b : Nat) (m : BufMsg) (s : State) : Result :=
  match s.takeTag b m 0x88 (fun k => k = 4 || k = 5) with
  | none => .next s
  | some (c, s) => .next (
      if c.kind = 5 || m.status != 0 then s
      else if c.addr = 1 then (s.setReg F.MEM_BCAP_CAP0 m.val b).tryFill b
      else if c.addr = 2 then (s.setReg F.MEM_BCAP_CAP1 m.val b).tryFill b
      else if c.addr = 3 then
        s.modLink (10 + b) fun l => if l.told then l else { l with
          told := true
          credits := (l.credits.upd 0 0 (· + (m.val % 2 ^ 16 - 64))).upd 0 1 (· + (m.val / 2 ^ 16 % 2 ^ 16 - 128)) }
      else if c.addr = 4 && m.val / 2 % 4 != 0 then (s.svSend b { kind := 5, addr := 4 } ((leBytes 4 (m.val / 2 % 4 * 2)).map fun b => (b, false))).getD s
      else s)

/-- SYNCC. -/
def execSyncc (b : Nat) (m : BufMsg) (s : State) : Result :=
  match s.takeTag b m 0x8A (· = 6) with
  | none => .next s
  | some (_, s) => .next s

/-- ALERT: shown; the device reads the status register, and clears what it finds (R238). -/
def execAlert (b : Nat) (m : BufMsg) (s : State) : Result :=
  gated ((s.link (10 + b)).train = 4 && m.opc = 0x8F) (fun s =>
    let s := s.raiseFlag F.MEM_BSTAT_ALERT b
    (s.svSend b { kind := 4, addr := 4 } []).getD s) s

end Sys2Proof.Machine
end

