-- ==== Sys2Proof/Machine/Maint.lean ====
section
/-! DEFINITION. Maintenance (R223, R228 to R231, R242 to R247): channel commands, evacuations and retrains, scrubbing, the arbiter's units,
controllers and devices that fail. -/

namespace Sys2Proof.Machine

/-! ### Channel commands (R228, R248) -/

/-- A channel command ends with an error. -/
def State.chErr (s : State) (e : Nat) : State := (s.setReg F.MEM_CHSTAT_ERR e).raiseFlag F.MEM_CHSTAT_ERRF

/-- A channel operation that a command has asked for is under way. -/
def State.chBusy (s : State) (c : Nat) (retire : Bool) : State :=
  ((s.modChan c fun x => { x with cmd := true, retire := x.retire || retire }).setReg F.MEM_CHSTAT_BUSY 1).setReg F.MEM_CHSTAT_PCH c

/-- A write to MEM_CHCMD; a GO while BUSY is ignored. -/
def State.chCmd (s : State) (d : Nat) : State :=
  let op := bits d 31 28
  let c := bits d 8 1
  let s := (s.setReg F.MEM_CHCMD_OP op).setReg F.MEM_CHCMD_PCH c
  if !bit d 0 || s.flag F.MEM_CHSTAT_BUSY then s
  else
    let s := s.setReg F.MEM_CHSTAT_ERR 0
    if !(op = 1 || op = 2 || op = 3) then s.chErr 3
    else if s.get F.MEM_CHMAP_ROLE c != 0 then s.chErr 2
    else if op ≠ 2 && (s.sparesOf (c / 32)).isEmpty && (s.chan c).op ≠ 1 then s.chErr 1
    else if (s.chan c).op != 0 then s.chBusy c (op = 3)
    else if op = 2 then
      ((s.modChan c fun x => { x with op := 2 }).chBusy c false).requestAct { kind := 3, res := [c], arg := c, cmd := true }
    else (s.chBusy c (op = 3)).wantEvac c false

/-- EVACUATE. -/
def execEvacuate (data : Word) (s : State) : Result := gated (s.ioReached && (bits data.toNat 31 28 = 1)) (·.chCmd data.toNat) s
/-- RETRAIN. -/
def execRetrain (data : Word) (s : State) : Result := gated (s.ioReached && (bits data.toNat 31 28 = 2)) (·.chCmd data.toNat) s
/-- RETIRE. -/
def execRetire (data : Word) (s : State) : Result := gated (s.ioReached && (bits data.toNat 31 28 = 3)) (·.chCmd data.toNat) s

/-- CHANNEL_MARGIN_LOW: the PHY reports a margin below the training threshold. -/
def execChannelMarginLow (c : Nat) (s : State) : Result := gated s.online (·.wantEvac c false) s

/-! ### Words by place -/

/-- The page of a tier 0 byte address, or of one of a tier 1 buffer channel, and the byte within its home. -/
def State.pageAt (s : State) (tier unit a : Nat) : Option (Nat × Nat) :=
  (s.pages.findSome? fun e => match e.2 with
    | none => none
    | some p =>
      let base := (p.frame % 2 ^ 32) * 4096
      if p.tier = tier && !p.zero && (tier = 0 || p.frame / 2 ^ 32 = unit) && decide (base ≤ a) && decide (a < base + 4096 * (p.len + 1))
      then some (e.1, a - base) else none)

/-- A word of tier 0 outside every page's home is uncorrectable: it may be one of a ledger record or of a record in the log's ring, which one is free
(R263, R346; log entry 130). -/
def State.loseRecord (s : State) : State :=
  let ks := (s.ledgers.filter (·.2.isSome)).map Prod.fst
  let rs := s.log.filter (·.ring)
  let i := Config.freeNat s.fresh 0 % (ks.length + rs.length + 1)
  match ks[i]?, rs[i - ks.length]? with
  | some k, _ => { s.spend with ledgers := s.ledgers.upd none k (Option.map fun (l : Ledger) => { l with pois := true }) }
  | none, some r => s.spend.noteUnread [(r.seq, 1)]
  | none, none => s.spend

/-- A word of tier 0 or tier 1 read under the code by scrubbing or copying: an uncorrectable one of a sealed page is reread from its
negative, and stays where that is lost; any other is poisoned (R22, R220, R221, R229). -/
def State.wordRead (s : State) (tier unit a err : Nat) (place : Where) : State :=
  match s.pageAt tier unit a with
  | none =>
    let o := ({} : Content).ecc 0 1 [(0, err)] (Config.freeNat s.fresh)
    let s := s.spend.noteEcc o fun _ => place
    if tier = 0 && !o.uncorrectable.isEmpty then s.loseRecord else s
  | some (key, ofs) => match s.page? key with
    | none => s
    | some p =>
      let w := if p.cmp then 0 else ofs / 8
      let o := p.data.ecc w 1 [(0, err)] (Config.freeNat s.fresh)
      let s := s.spend.noteEcc o fun _ => place
      let line := if p.cmp then ofs / (16 * (p.len + 1)) else ofs / 256
      let s := when (tier = 1 && !o.uncorrectable.isEmpty) (·.noteLost key) s
      if !p.cmp && o.uncorrectable.isEmpty then s.modVer key .current fun _ => o.c
      else if o.uncorrectable.isEmpty then s
      else if p.ro then (if p.neg then s.wantReread key line [] [] else s)
      else if p.cmp then s.modPage key fun p => { p with linePois := (p.linePois ++ [line]).eraseDups }
      else s.modVer key .current fun _ => o.c

/-- The tier 0 byte address of a byte of a physical channel (R227). -/
def State.tier0Addr (s : State) (c a : Nat) : Nat :=
  (a / 256 * s.get F.MEM_T0CFG_LIVE + s.get F.MEM_CHMAP_LOGICAL c) * 256 + a % 256

/-- Words of a channel found in error, by word of the channel. -/
def State.channelErrs (s : State) (c : Nat) (errs : List (Nat × Nat)) : State :=
  each errs (fun s e => s.wordRead 0 0 (s.tier0Addr c (8 * e.1)) e.2 { w := 2, unit := c, addr := 8 * e.1 }) s

/-! ### Evacuation and retraining (R228, R229, R231) -/

/-- A channel operation is over: 0 evacuation, 1 retirement, 2 retrain in place, 3 retrain of an evacuated source; the record of R422. -/
def State.chanDone (s : State) (c op : Nat) (ok : Bool) : State :=
  let s := when (s.chan c).cmd (·.setReg F.MEM_CHSTAT_BUSY 0) s
  let s := s.modChan c fun x => { x with op := 0, dst := 0, retire := false, cmd := false, cp := 0 }
  s.journal 8 2 c (leBytes 8 op ++ leBytes 8 (b2n ok) ++ leBytes 8 (s.get F.MEM_CHMAP_ROLE c))

/-- EVAC_COPY_COMPLETE: the spare takes the source's logical number in one step; the source is retrained, or retired. `errs` are the words
that the copy found in error. -/
def execEvacCopyComplete (c : Nat) (errs : List (Nat × Nat)) (s : State) : Result :=
  match s.actFor 1 c with
  | none => .next s
  | some a => gated (!s.ctlReset.contains moveCtl) (fun s =>
    let x := s.chan c
    let s := s.channelErrs c errs
    let lg := s.get F.MEM_CHMAP_LOGICAL c
    let s := (s.setReg F.MEM_CHMAP_LOGICAL lg x.dst).setReg F.MEM_CHMAP_ROLE 0 x.dst
    let s := s.setReg F.MEM_CHMAP_LOGICAL 0x1FF c
    let s := (((s.setReg F.MEM_CHSTAT_CP 0xFF).endAct a.id).spareIn 4 2 c c x.dst).recovery 7 2 c 0 0
    let s := s.offer (Config.evtCode 78) { tier := some 0, port := some (23 + c / 32) }
    if x.retire then (s.setReg F.MEM_CHMAP_ROLE 2 c).chanDone c 1 true
    else (s.modChan c fun y => { y with op := 3 }).requestAct { kind := 3, res := [c], arg := c }) s

/-- Every rig is stopped at once: a tier 0 channel has failed (R231). -/
def State.killAll (s : State) : State :=
  each ((s.rigs.filter (·.2.exists_)).map Prod.fst) (fun s n => if s.rigLive n || s.rigState n = rigLoading then s.killRig n else s) s

/-- CHANNEL_RETRAIN_COMPLETE, with the DQ lanes repaired. -/
def execChannelRetrainComplete (c : Nat) (r : RetrainReport) (s : State) : Result :=
  match s.actFor 3 c with
  | none => .next s
  | some a =>
    let inPlace_ := (s.chan c).op = 2
    let s := s.dqLanes c r.dq
    let s := (s.setReg F.MEM_CHMAP_ROLE (if !r.ok then 2 else if inPlace_ then 0 else 1) c).endAct a.id
    let s := (when inPlace_ (·.recovery 8 2 c 0 0) s).offer (Config.evtCode 79) { tier := some 0, port := some (23 + c / 32) }
    let s := s.chanDone c (if inPlace_ then 2 else 3) r.ok
    .next (if inPlace_ && !r.ok then s.killAll else s)

/-! ### Scrubbing (R245) -/

/-- SIGNAL_REGION_UNCORRECTABLE: an uncorrectable word of the staging pool, counted as one (R221, R301). -/
def execSignalRegionUncorrectable (word : Nat) (s : State) : Result :=
  .next ((s.noteUncorrectable { w := 1, addr := signalBase + 8 * word }).signalUe word)

/-- Units of 4 KiB of each tier 1 buffer channel that is filled. -/
def State.bufUnits (s : State) (u : Nat) : Nat := ((s.link (10 + u / 2)).filled.get 0 (u % 2)) * 2 ^ 18

/-- The buffer channel and unit that a position of tier 1 lies in. -/
def State.bufUnit (s : State) : List Nat → Nat → Option (Nat × Nat)
  | [], _ => none
  | u :: l, pos => if pos < s.bufUnits u then some (u, pos) else s.bufUnit l (pos - s.bufUnits u)

/-- Units that a scrubber covers: tile stores, staging pool, tier 0, tier 1. -/
def State.scrubSpan (s : State) (mem : Nat) : Nat :=
  match mem with
  | 0 => 80 * 1536
  | 1 => 8192
  | 2 => s.get F.MEM_T0CFG_LIVE * s.get F.MEM_T0CFG_CHMIB * 256
  | _ => ((List.range 16).map s.bufUnits).sum

/-- The physical channel that a position of tier 0 lies in, and the unit within it. -/
def State.liveUnit (s : State) (pos : Nat) : Nat × Nat :=
  let n := s.get F.MEM_T0CFG_CHMIB * 256
  (((List.range 256).find? fun c => s.get F.MEM_CHMAP_LOGICAL c = pos / n).getD 0, pos % n)

/-- The resource of a scrub unit (R246). -/
def State.scrubRes (s : State) (mem pos : Nat) : List Nat :=
  match mem with
  | 0 => [300 + pos / 1536]
  | 1 => []
  | 2 => [(s.liveUnit pos).1]
  | _ => match s.bufUnit (List.range 16) pos with
    | some (u, _) => [256 + u]
    | none => []

/-- An uncorrectable word in the head of the continuity log: it is reported to the log, of one of whose records a copy is unreadable, which one is free
(R221, R346; log entry 128). -/
def State.headUe (s : State) : State :=
  match (s.log.filter (!·.ring))[Config.freeNat s.fresh 0 % ((s.log.filter (!·.ring)).length + 1)]? with
  | some r => s.spend.noteUnread [(r.seq, 1)]
  | none => s.spend

/-- An uncorrectable word in the write-combining buffer: a word of one of its entries is poisoned, which entry is free (R213, R221; log entry 128). -/
def State.wcUe (s : State) (word : Nat) : State :=
  let k := Config.freeNat s.fresh 0 % (s.wc.length + 1)
  { s.spend with wc := s.wc.zipIdx.map fun (x : WcEntry × Nat) => if x.2 = k then { x.1 with pois := x.1.pois.set false (word % 32) true } else x.1 }

/-- An uncorrectable word of the staging pool is reported to the block that owns its region (R14, R221, R301; log entry 128). -/
def State.poolUe (s : State) (a : Nat) : State :=
  if a < 2 ^ 24 then s.headUe
  else if a < 2 ^ 24 + 2 ^ 22 then s.wcUe (a / 8)
  else if decide (signalBase ≤ a) && decide (a < signalBase + 2 ^ 15) then s.signalUe ((a - signalBase) / 8) else s

/-- The words of a unit are read. `errs`: words of the unit in error. -/
def State.scrubRead (s : State) (mem pos : Nat) (errs : List (Nat × Nat)) : State :=
  match mem with
  | 0 => (s.storeRead (pos / 1536) (4096 * (pos % 1536)) 4096 errs).1
  | 1 =>
    let o := ({} : Content).ecc 0 512 errs (Config.freeNat s.fresh)
    let s := (s.noteEcc o fun w => { w := 1, addr := 4096 * pos + 8 * w }).spend
    each o.uncorrectable (fun s w => s.poolUe (4096 * pos + 8 * w)) s
  | 2 =>
    let u := s.liveUnit pos
    s.channelErrs u.1 (errs.map fun e => (512 * u.2 + e.1, e.2))
  | _ => match s.bufUnit (List.range 16) pos with
    | some (u, k) => each errs (fun s e =>
        s.wordRead 1 u (4096 * k + 8 * e.1) e.2 { w := 3, unit := u, addr := 4096 * k + 8 * e.1 }) s
    | none => s

/-- The scrubber goes on to the next unit; a pass over tiers 0 and 1 ends with its last unit. -/
def State.scrubNext (s : State) (mem : Nat) : State :=
  let span := s.scrubSpan mem
  let s : State := { s with scrubs := s.scrubs.upd {} mem fun x => { x with pos := if x.pos + 1 < span then x.pos + 1 else 0, pass := x.pass - 1 } }
  if (s.scrubs.get {} 2).pass = 0 && (s.scrubs.get {} 3).pass = 0 then s.setReg F.MEM_SCRBNOW_PASSRUN 0 else s

/-- Is a unit due, sixteen lines: for a pass, or because the memory's traffic has reached RATIO lines for each (R245)? -/
def State.scrubDue (s : State) (mem : Nat) : Bool :=
  let x := s.scrubs.get {} mem
  let n := s.get F.MEM_SCRBNOW_RATIO
  decide (x.pass > 0) || (n != 0 && decide (16 * n ≤ x.traffic))

/-- A unit of 4 KiB begins, the boundary of RATIO: a RATIO of 0 that comes into force stops the scrubber but for a pass; else the words are read, and
the traffic that made the unit due is used up. -/
def State.scrubUnit (s : State) (mem : Nat) (errs : List (Nat × Nat)) : State :=
  let x := s.scrubs.get {} mem
  let n := if x.pass > 0 then 0 else 16 * s.get F.MEM_SCRBNOW_RATIO
  let s := s.setReg F.MEM_SCRBNOW_RATIO (s.get F.MEM_SCRB_RATIO)
  if s.get F.MEM_SCRBNOW_RATIO = 0 && x.pass = 0 then s
  else
    let s := (s.scrubRead mem x.pos errs).scrubNext mem
    { s with scrubs := s.scrubs.upd {} mem fun y => { y with traffic := x.traffic - n } }

/-- SCRUB_UNIT: a unit that is due is scrubbed, or queues behind what the arbiter runs on its memory (R170, R171, R245). -/
def execScrubUnit (mem : Nat) (errs : List (Nat × Nat)) (s : State) : Result :=
  let x := s.scrubs.get {} mem
  let a : Act := { kind := 0, res := s.scrubRes mem x.pos, arg := mem }
  gated (s.scrubDue mem && decide (x.pos < s.scrubSpan mem) && !s.actWaits 0 mem) (fun s =>
    match s.actFor 0 mem with
    | some b => (s.scrubUnit mem errs).endAct b.id
    | none => if s.acts.any a.bars || s.actQ.any a.bars then s.requestAct a else s.scrubUnit mem errs) s

/-- A write to MEM_SCRB: RATIO, whose boundary is the next scrub unit and which a stopped scrubber takes at once (R170), and PASS. -/
def State.scrbWrite (s : State) (d : Nat) : State :=
  let s := s.setReg F.MEM_SCRB_RATIO (bits d 31 16)
  let s := if s.get F.MEM_SCRBNOW_RATIO = 0 then s.setReg F.MEM_SCRBNOW_RATIO (bits d 31 16) else s
  if bit d 0 then
    let s : State := { s with scrubs := each [2, 3] (fun (m : FMap Scrub) k => m.upd {} k fun x => { x with pass := s.scrubSpan k }) s.scrubs }
    s.setReg F.MEM_SCRBNOW_PASSRUN (b2n ((s.scrubs.get {} 2).pass != 0 || (s.scrubs.get {} 3).pass != 0))
  else s

/-- PASS. -/
def execScrubPass (data : Word) (s : State) : Result := gated s.ioReached (·.scrbWrite data.toNat) s

/-! ### Units of the arbiter (R246, R247) -/

/-- The copy of a firmware image is made and verified (R398, R399): one that does not verify ends the command; else the copy that did not boot is written
over, and until that is done what it holds is open: free bytes. -/
def State.fwCopied (s : State) (f : FwOp) (act : Nat) : State :=
  let fail := fun (e : Nat) => (({ s with fwOp := none }.setReg F.SEC_FWSTAT_BUSY 0).endAct act).fwFail e
  if !fwVerifies f.img then fail 1
  else if fwSvnOf f.img < s.fuseSvn then fail 2
  else
    let mix := (List.range f.img.length).map fun i => BitVec.ofNat 8 (Config.freeNat s.fresh i)
    { s with fwOp := some { f with copying := false }
             flashImg := s.flashImg.set none (1 - s.get F.SEC_BOOT_FWCOPY) (some mix) }.spend

/-- MAINT_UNIT_END: a firmware step ends, the copy of the image first (log entry 45); queued activities start and the update goes on behind them; a
fill that has its range is sent. The units of the other activities end with commands of their own. -/
def execMaintUnitEnd (act : Nat) (s : State) : Result :=
  match s.acts.find? (·.id = act) with
  | none => .next s
  | some a => .next (
      if a.kind = 5 then
        let s := match s.fwOp with
          | some f => if f.copying then s.fwCopied f act else s
          | none => s
        if s.fwOp.isNone || s.actQ.isEmpty then s else (s.endAct act).requestAct a
      else if a.kind = 6 && decide (a.arg < 8) then s.tryFill a.arg
      else s)

/-! ### Controllers and devices (R223, R242, R243) -/

/-- The parts that wait for a read of a line of a home that `q` names. -/
def State.partsReading (s : State) (q : Nat → Nat → Nat → Bool) : List (Nat × Nat × Nat) :=
  (s.tiles.flatMap fun t => (List.range 8).filterMap fun e => match s.gen? t.1 e with
    | some g =>
      if g.xfers.any fun x => !x.write && !x.arrived && x.base.cls = 0 && x.lines.any fun l =>
          let k := keyOf x.base.space (256 * l)
          let h := s.verHome k (s.readVer g.logno g.lead k)
          !((s.page? k).map (·.zero)).getD true && q h.1 h.2 (l % 256)
      then some (g.logno, g.lead, t.1) else none
    | none => none).eraseDups

/-- CONTROLLER_PARITY_ERROR: the controller of a port, of a stack among them, or the move controller (log entry 162), discards what it holds and resets;
until it is done no access passes it. A part whose reads it had is replayed (R223, R350; log entry 92). -/
def execControllerParityError (x : UnitFault) (s : State) : Result :=
  let port := x.unit
  gated (!s.ctlReset.contains port) (fun s =>
    let s := { s with ctlReset := s.ctlReset ++ [port] }.offer (Config.evtCode 77) { port := if port = moveCtl then none else some port }
    let parts := s.partsReading fun tier frame line => s.portAt tier frame line = some port
    each parts (fun s y => s.restartPart y.1 y.2.1 y.2.2) (s.noteUnread x.unread)) s

/-- The move controller has lost its reads and what the destinations had not confirmed: it asks for the lines again, and lines of a page that tier 1 to
tier 3 has not confirmed leave its buffer again (R193, R223). -/
def State.movesAgain (s : State) : State :=
  let s := { s with moves := s.moves.map fun (x : Move) => { x with sent := if x.dest = 0 then x.sent else 0 } }
  each (s.moves.filter (·.asked)) (fun s m => (s.lineCame m.page m.mp).lineReq m.page m.mp) s

/-- CONTROLLER_RESET_DONE: it accepts requests again, and what was outstanding is sent again by its issuer; the reset counts as a recovery. -/
def execControllerResetDone (port : Nat) (s : State) : Result :=
  gated (s.ctlReset.contains port) (fun s =>
    let s := { s with ctlReset := s.ctlReset.filter (· ≠ port) }.recovery 1 3 port 0 0
    if port = moveCtl then s.movesAgain
    else if isBuf port then
      (s.modLink port fun l => { l with waiting := l.tags.map Prod.snd ++ l.waiting, tags := [] }).goReads (port - 10)
    else
      each (s.portReqs.filter (·.port = port)) (fun s r => match s.page? r.page with
        | some p => (match s.memDev p.tier p.frame with
          | some d => s.emit (.portReq port false ((p.frame - d.2.base) * 4096 + 256 * r.line) (if p.cmp then 4096 else 256))
          | none => s)
        | none => s) s) s

/-- A request to a device has failed: its line is lost (R204). -/
def State.reqFails (s : State) (r : PortReq) : State :=
  { s with portReqs := s.portReqs.filter (·.id ≠ r.id) }.losePiece r.page r.line

/-- CXL_COMPLETION_TIMEOUT. -/
def execCxlCompletionTimeout (x req : Nat) (s : State) : Result :=
  match s.portReqs.find? fun r => r.id = req && r.port = 18 + x with
  | none => .next s
  | some r => .next (s.reqFails r)

/-- CXL_LINK_DOWN: a port's link goes down, or one device of tier 2 behind it is removed: every line in what is gone is lost, and its range goes
offline. -/
def execCxlLinkDown (l : CxlLoss) (s : State) : Result :=
  gated (decide (l.x < 2)) (fun s =>
    let gone := fun (i : Nat) (d : MemDev) => d.port = 18 + l.x && l.dev.all (· = i)
    let hit := fun (frame : Nat) => s.t2.zipIdx.any fun d => d.1.online && gone d.2 d.1 && decide (d.1.base ≤ frame) && decide (frame < d.1.base + d.1.units)
    let s := s.loseRange fun tier frame => tier = 2 && hit frame
    let s := each (s.portReqs.filter fun r => r.port = 18 + l.x && l.dev.all (· = r.dev)) State.reqFails s
    { s with t2 := s.t2.zipIdx.map fun (d : MemDev × Nat) => if gone d.2 d.1 then { d.1 with online := false } else d.1 }) s

/-- NVME_COMMAND_TIMEOUT: a command to controller `d` fails, or takes longer than 2 s. -/
def execNvmeCommandTimeout (d req : Nat) (s : State) : Result :=
  match s.portReqs.find? fun r => r.id = req && r.port = 20 && r.dev = d with
  | none => .next s
  | some r => .next (s.reqFails r)

end Sys2Proof.Machine
end

