-- ==== Sys2Proof/Machine/Power.lean ====
section
/-! DEFINITION. Voltage points, ramps, temperatures (R380 to R385, R421, R438, R442). -/

namespace Sys2Proof.Machine

/-! ### Points and ramps (R380, R381) -/

/-- The point that ought to be in force: the request less the thermal cap; economy in a trip; after a trip of i16 or i17 economy
everywhere but in i17 (R380, R385). -/
def State.pointOf (s : State) (i : Nat) : Nat :=
  if i = 17 then 1
  else if s.tripHold || s.flag F.PWR_VP_TRIPPED i then 0
  else s.get F.PWR_VP_POINT i - s.get F.PWR_VP_CAP i

/-- The code of a point's voltage: 0.400 V + CODE × 1 mV (R442). -/
def vcode (point : Nat) : Nat := if point = 0 then 260 else if point = 1 then 400 else 500

/-- A command frame: SYNC, even parity over bits 12 to 0, CODE. -/
def vframe (point : Nat) : Nat :=
  let c := vcode point
  0b101 * 2 ^ 13 + ((List.range 10).filter fun i => bit c i).length % 2 * 2 ^ 12 + c

/-- A point's supply in µV. -/
def pointVolts (point : Nat) : Nat := 400000 + 1000 * vcode point

/-- The frame for the point commanded goes to the regulator of i0 to i16, whose target it becomes (R442). -/
def State.sendVcmd (s : State) (i : Nat) : State :=
  if i < 17 then
    let p := s.driven.get 1 i
    { s with vtarget := s.vtarget.set 800000 i (pointVolts p) }.emit (.vcmd i (pointVolts p) (vframe p))
  else s

/-- The point in force is commanded, twice: a ramp starts or goes to a new target (R381, R442). -/
def State.drive (s : State) (i : Nat) : State :=
  ({ s with driven := s.driven.set 1 i (s.get F.PWR_VP_PTNOW i) }.sendVcmd i).sendVcmd i

/-- A ramp waits: thermal steps ahead of host requests, each in order of request (R381). -/
def insertRamp (r : Ramp) (l : List Ramp) : List Ramp :=
  if r.thermal then l.takeWhile (·.thermal) ++ r :: l.dropWhile (·.thermal) else l ++ [r]

/-- PTNOW follows the point that ought to be in force: through a ramp, or by retargeting the island's own (R381). The regulator hears of it when the ramp
starts. -/
def State.followPoint (s : State) (i : Nat) (thermal : Bool) : State :=
  let p := s.pointOf i
  if s.get F.PWR_VP_PTNOW i = p then s
  else
    let s := (s.setReg F.PWR_VP_PTNOW p i).setReg F.PWR_VP_RAMP 1 i
    if s.ramping.contains i then s.drive i
    else if s.rampQ.any (fun r => r.island = i && (r.thermal || !thermal)) then s
    else { s with rampQ := insertRamp { island := i, thermal := thermal } (s.rampQ.filter (·.island ≠ i)) }

/-- A write of PWR_VP_i. -/
def State.pointCmd (s : State) (i d : Nat) : State :=
  let s := when (bit d 8) (·.setReg F.PWR_VP_BADW 0 i) s
  let m := d % 4
  if m = 3 || (i = 17 && m != 1) then s.raiseFlag F.PWR_VP_BADW i
  else (s.setReg F.PWR_VP_POINT m i).followPoint i false

/-- POINT_WRITE. -/
def execPointWrite (i : Nat) (data : Word) (s : State) : Result := gated s.ioReached (·.pointCmd i data.toNat) s

/-- RAMP_START: at most four islands ramp at once; each target is sent twice. -/
def execRampStart (i : Nat) (s : State) : Result :=
  gated ((s.rampQ.head?.map (·.island)) = some i && decide (s.ramping.length < 4)) (fun s =>
    let s := { s with rampQ := s.rampQ.drop 1, ramping := s.ramping ++ [i] }
    (s.drive i).offer (Config.evtCode 60)) s

/-- RAMP_COMPLETE: the supply has reached its target. -/
def execRampComplete (i : Nat) (s : State) : Result :=
  gated (s.ramping.contains i) (fun s => { s.setReg F.PWR_VP_RAMP 0 i with ramping := s.ramping.filter (· ≠ i), volts := s.volts.set 800000 i (s.vtarget.get 800000 i) }) s

/-- VCMD_REPEAT: the frame for the point commanded, which a ramp that only waits has not changed (R381, R442). -/
def execVcmdRepeat (i : Nat) (s : State) : Result := .next (s.sendVcmd i)

/-! ### Pins (R438) -/

/-- The level of THERMTRIP_L: low while any island is in thermal trip. -/
def State.thermtripL (s : State) : Bool := !(List.range 18).any fun i => s.flag F.PWR_VP_TRIPPED i

/-- The level of HOTSTOP_L: low from a trip of i16 or i17 until power is removed. -/
def State.hotstopL (s : State) : Bool := !s.tripHold

/-! ### Temperatures (R383 to R385) -/

/-- A write of PWR_THERM. TRIP stays set after a trip of i16 or i17 (R385). -/
def State.thermCmd (s : State) (d : Nat) : State :=
  let tlim := bits d 31 24
  let hyst := bits d 23 16
  let s := when (bit d 3) (·.setReg F.PWR_THERM_BADW 0) s
  let s := when (bit d 2 && !s.tripHold) (·.setReg F.PWR_THERM_TRIP 0) s
  let s := when (bit d 1) (·.setReg F.PWR_THERM_THROT 0) s
  let s := if 70 ≤ tlim ∧ tlim ≤ 100 then s.setReg F.PWR_THERM_TLIM tlim else s.raiseFlag F.PWR_THERM_BADW
  let s := if 2 ≤ hyst ∧ hyst ≤ 20 then s.setReg F.PWR_THERM_HYST hyst else s.raiseFlag F.PWR_THERM_BADW
  when (bit d 4) (fun s => { s with tmaxNext := true }) s

/-- The bin of a temperature (R421). -/
def tempBin (t : Nat) : Nat := if t < 40 then 0 else if t ≥ 110 then 15 else (t - 40) / 5 + 1

/-- The rigs with a tile in an island. -/
def State.rigsIn (s : State) (i : Nat) : List Nat :=
  (s.rigs.filter fun r => r.2.exists_ && r.2.tiles.any fun t => s.flag F.GLB_TMAP_VALID t && islandOf (s.phys t) = i).map Prod.fst

/-- A thermal trip. -/
def State.trip (s : State) (i temp : Nat) : State :=
  let all := decide (i ≥ 16)
  let rigs := if all then (s.rigs.filter (·.2.exists_)).map Prod.fst else s.rigsIn i
  let s := (s.journal 7 4 i (leBytes 8 i ++ leBytes 8 temp ++ leBytes 8 (s.get F.PWR_VP_PTNOW i))).flCount 742
  let s := each rigs (fun s n => if s.rigLive n || s.rigState n = rigLoading then s.killRig n else s) s
  let s := ((s.raiseFlag F.PWR_VP_TRIPPED i).raiseFlag F.PWR_THERM_TRIP).offer 0x005
  if all then each (List.range 17) (fun s k => s.followPoint k true) { s with tripHold := true } else s.followPoint i true

/-- A change of CAP: none further for 20 samples. -/
def State.setCap (s : State) (i cap : Nat) : State :=
  { s.setReg F.PWR_VP_CAP cap i with capHold := s.capHold.set 0 i 20 }.followPoint i true

/-- The rules of R384 and R385 for one island. -/
def State.thermalRule (s : State) (i temp : Nat) : State :=
  let hold := s.capHold.get 0 i - 1
  let s := { s with capHold := s.capHold.set 0 i hold }
  let tlim := s.get F.PWR_THERM_TLIM
  let cool := decide (temp + s.get F.PWR_THERM_HYST < tlim)
  if s.tripHold then s
  else if temp ≥ 110 then (if s.flag F.PWR_VP_TRIPPED i then s else s.trip i temp)
  else if s.flag F.PWR_VP_TRIPPED i then
    (if cool then (s.setReg F.PWR_VP_TRIPPED 0 i).setCap i (s.get F.PWR_VP_POINT i) else s)
  else if i = 17 || hold != 0 then s
  else if temp > tlim && s.get F.PWR_VP_PTNOW i != 0 then
    ((((s.raiseFlag F.PWR_THERM_THROT).bump F.PWR_NTHR_COUNT).offer 0x004).flCount 743).setCap i (s.get F.PWR_VP_CAP i + 1)
  else if cool && s.get F.PWR_VP_CAP i != 0 then s.setCap i (s.get F.PWR_VP_CAP i - 1)
  else s

/-- The sample of one island is noted: TEMP, the residency of R421. -/
def State.noteTemp (s : State) (i temp : Nat) : State :=
  let s := s.setReg F.PWR_VP_TEMP (min temp 255) i
  let k := 48 * i + 16 * s.get F.PWR_VP_PTNOW i + tempBin temp
  { s with flog := { s.flog with resid := s.flog.resid.upd 0 k (· + 1) } }

/-- THERMAL_SAMPLE: the highest sensor of each island in °C, 0 below 0. -/
def execThermalSample (temps : List Nat) (s : State) : Result :=
  let s := each temps.zipIdx (fun s t => s.noteTemp t.2 t.1) s
  let high := min (temps.foldl max 0) 255
  let s := { s.setReg F.PWR_THERM_TMAX (if s.tmaxNext then high else max high (s.get F.PWR_THERM_TMAX)) with tmaxNext := false }
  .next (each temps.zipIdx (fun s t => s.thermalRule t.2 t.1) s)

end Sys2Proof.Machine
end

