-- ==== Sys2Proof/Machine/Queue.lean ====
section
/-! DEFINITION. The queue commands (R324 to R328, R339 to R341, R344): queues created and deleted, doorbells, the fetch of a
call sheet, the log head's migration, GO, coalescing, MSI-X. -/

namespace Sys2Proof.Machine

/-! ### Create and delete (R325) -/

/-- The fields of QUE_CMD that keep what is written. -/
def State.queFields (s : State) (d : Nat) : State :=
  (s.setReg F.QUE_CMD_OP (bits d 31 28)).setReg F.QUE_CMD_QNUM (bits d 16 1)

/-- A queue command fails. -/
def State.queErr (s : State) (code : Nat) : State := (s.setReg F.QUE_CSTAT_ERR code).raiseFlag F.QUE_CSTAT_ERRF

/-- The rig, present, whose range holds submission queue `n`, or completion queue `n`. -/
def State.sqRig (s : State) (n : Nat) : Option Nat :=
  (s.rigs.find? fun r => r.2.exists_ && decide (r.2.sqFirst ≤ n) && decide (n ≤ r.2.sqLast)).map Prod.fst
def State.cqRig (s : State) (n : Nat) : Option Nat :=
  (s.rigs.find? fun r => r.2.exists_ && decide (r.2.cqFirst ≤ n) && decide (n ≤ r.2.cqLast)).map Prod.fst

/-- Does every page of a ring lie in a writable space of the rig, mapped, writable, pinned to tier 0 (R324)? -/
def State.ringOk (s : State) (rig space addr size : Nat) : Bool :=
  addr % 2 ^ 16 = 0 && (match s.space? space with
    | some sp => sp.owner = rig && !sp.ro
    | none => false)
  && (List.range ((size * 128 + 65535) / 65536)).all fun i => match s.page? (keyOf space (addr + 65536 * i)) with
    | some p => !p.ro && p.pin && (p.tier = 0 || p.zero)
    | none => false

/-- Create SQ. -/
def State.createSq (s : State) (n : Nat) : State :=
  let logsz := s.get F.QUE_CARG1_LOGSZ
  let space := s.get F.QUE_CARG0_SPACE
  let addr := s.get F.QUE_CARG0_ADDR
  let cq := s.get F.QUE_CARG2_CQT % 4096
  if (s.sq? n).isSome then s.queErr 1
  else match s.sqRig n with
    | none => s.queErr 2
    | some rig =>
      if ((s.cq? cq).map (·.rig)) ≠ some rig then s.queErr 3
      else if logsz < 4 ∨ logsz > 16 then s.queErr 6
      else if !s.ringOk rig space addr (2 ^ logsz) then s.queErr 4
      else
        let q : Sq := { space := space, addr := addr, logsz := logsz, prio := s.get F.QUE_CARG1_PRIO, cq := cq, rig := rig }
        { s with sqs := s.sqs.set none n (some q) }

/-- Create CQ. The host address is all of QUE_CARG0. -/
def State.createCq (s : State) (n : Nat) : State :=
  let logsz := s.get F.QUE_CARG1_LOGSZ
  let addr := s.get F.QUE_CARG0_SPACE * 2 ^ 52 + s.get F.QUE_CARG0_ADDR
  if (s.cq? n).isSome then s.queErr 1
  else match s.cqRig n with
    | none => s.queErr 2
    | some rig =>
      if logsz < 4 ∨ logsz > 16 ∨ addr % 4096 ≠ 0 then s.queErr 6
      else
        let q : Cq := { addr := addr, logsz := logsz, vec := s.get F.QUE_CARG1_PRIO * 2 ^ 7 + s.get F.QUE_CARG1_VECLO
                        cthr := s.get F.QUE_CARG1_CTHR, ctime := s.get F.QUE_CARG2_CQT, rig := rig }
        { s with cqs := s.cqs.set none n (some q) }

/-- Delete SQ. -/
def State.deleteSq (s : State) (n : Nat) : State :=
  match s.sq? n with
  | none => s.queErr (if (s.sqRig n).isSome then 1 else 2)
  | some q =>
    if q.head ≠ q.tail ∨ s.sheets.any (·.sq = n) ∨ s.compls.any (·.sq = n) then s.queErr 5
    else { s with sqs := s.sqs.set none n none }

/-- Delete CQ. -/
def State.deleteCq (s : State) (m : Nat) : State :=
  if (s.cq? m).isNone then s.queErr (if (s.cqRig m).isSome then 1 else 2)
  else if s.sqs.any fun q => (q.2.map (·.cq)) = some m then s.queErr 5
  else { s with cqs := s.cqs.set none m none }

/-- A queue command by its OP. -/
def State.queRun (s : State) (op n : Nat) : State :=
  match op with
  | 1 => s.createSq n
  | 2 => s.createCq n
  | 3 => s.deleteSq n
  | 4 => s.deleteCq n
  | _ => s.queErr 7

/-- Do the page tables, in tier 0, not answer: a tier 0 controller resets (R179, R223)? -/
def State.tablesWait (s : State) : Bool := s.ctlReset.any fun c => decide (23 ≤ c) && decide (c ≤ 30)

/-- GO (R325): ignored while a command runs; one that needs the page tables is BUSY until they answer (log entry 40). -/
def State.queGo (s : State) (op n : Nat) : State :=
  if s.flag F.QUE_CSTAT_BUSY then s.raiseFlag F.QUE_CSTAT_BUSYW
  else if op = 1 && s.tablesWait then { s.setReg F.QUE_CSTAT_BUSY 1 with queJob := some (op, n) }
  else s.queRun op n

/-- A queue command that waits goes on. -/
def State.queRetry (s : State) : State :=
  match s.queJob with
  | some j => if s.tablesWait then s else ({ s with queJob := none }.setReg F.QUE_CSTAT_BUSY 0).queRun j.1 j.2
  | none => s

/-- A write of QUE_CMD (R325, R342). -/
def State.queCmd (s : State) (d : Nat) : State :=
  let s := s.queFields d
  if bit d 0 then s.queGo (bits d 31 28) (bits d 16 1) else s

/-- CREATE_SQ (R325). -/
def execCreateSq (data : Word) (s : State) : Result := gated s.ioReached (fun s => (s.queFields data.toNat).queGo 1 (bits data.toNat 16 1)) s
/-- CREATE_CQ (R325). -/
def execCreateCq (data : Word) (s : State) : Result := gated s.ioReached (fun s => (s.queFields data.toNat).queGo 2 (bits data.toNat 16 1)) s
/-- DELETE_SQ (R325). -/
def execDeleteSq (data : Word) (s : State) : Result := gated s.ioReached (fun s => (s.queFields data.toNat).queGo 3 (bits data.toNat 16 1)) s
/-- DELETE_CQ (R325). -/
def execDeleteCq (data : Word) (s : State) : Result := gated s.ioReached (fun s => (s.queFields data.toNat).queGo 4 (bits data.toNat 16 1)) s

/-! ### Doorbells (R326) -/

/-- A doorbell is ignored. -/
def State.badDoorbell (s : State) : State :=
  ((s.raiseFlag F.QUE_STAT_DBBAD).bump F.QUE_NDBX_COUNT).offer (Config.evtCode 12)

/-- Doorbells and fetching are enabled once step 11 of start-up has ended (R393). -/
def State.queuesOn (s : State) : Bool := s.get F.SEC_BOOT_STEP = 15

/-- A tail doorbell; one to a queue that a reload gives up is ignored (R326, R341). -/
def State.tailDoorbell (s : State) (n d : Nat) : State :=
  if !s.queuesOn || s.ucieWaits then s else
  match s.sq? n with
  | some q => if d < q.size ∧ !q.gone then s.modSq n fun q => { q with tail := d } else s.badDoorbell
  | none => s.badDoorbell

/-- A head doorbell: slots up to H − 1 are free, and completions that waited for one are written. -/
def State.headDoorbell (s : State) (m d : Nat) : State :=
  if !s.queuesOn || s.ucieWaits then s else
  match s.cq? m with
  | some q =>
    let n := (d + q.size - q.freed % q.size) % q.size
    if d < q.size ∧ n ≤ q.written - q.freed ∧ !q.gone then
      State.serveCq m s.compls.length (s.modCq m fun q => { q with freed := q.freed + n })
    else s.badDoorbell
  | none => s.badDoorbell

/-- SQ_TAIL_DOORBELL (R326). -/
def execSqTailDoorbell (n : Nat) (data : Word) (s : State) : Result := .next (s.tailDoorbell n data.toNat)
/-- CQ_HEAD_DOORBELL (R326, R341). -/
def execCqHeadDoorbell (n : Nat) (data : Word) (s : State) : Result := .next (s.headDoorbell n data.toNat)

/-! ### Fetch (R327, R328, R344) -/

/-- Bytes of one copy of the log's head. -/
def headSize : Nat := 8 * 2 ^ 20

/-- CALL_SHEET_FETCH: the entry at the head of queue `n` is recorded and the head advances; a stale one completes with status
0x0D. An entry that cannot be read is malformed (log entry 41); one whose line is reread from its negative is fetched later (R197). -/
def execCallSheetFetch (n : Nat) (errs : List (Nat × Nat)) (s : State) : Result :=
  match s.sq? n with
  | none => .next s
  | some q => gated (s.queuesOn && q.head ≠ q.tail && !s.flag F.TWN_LSTAT_RFULL && decide (s.headUsed + 192 ≤ headSize)) (fun s =>
      let r := s.fetch q.rig q.space (q.addr + 128 * q.head) 128 errs (fun _ => .current) []
      if r.2 = .waits then r.1 else
      let cs := match r.2.got? with
        | some b => decodeSheet b
        | none => { reserved := true, ctl := 32 * ((q.wraps + 1) % 2) }
      let logno := r.1.get F.TWN_LNUM_NEXT
      let h : Sheet := { logno := logno, sq := n, rig := q.rig, cs := cs }
      let s := r.1.setReg F.TWN_LNUM_NEXT (logno + 1)
      let s := { s with sheets := s.sheets ++ [h] }.writeLog logno 0 q.rig (.sheet n cs.user)
      let last := decide (q.head + 1 = q.size)
      let s := s.modSq n fun q => { q with head := (q.head + 1) % q.size, wraps := q.wraps + b2n last }
      let s := (s.bump F.QUE_NFETCH_COUNT).offer (Config.evtCode 10) { rig := some q.rig }
      if bits cs.ctl 5 5 = (q.wraps + 1) % 2 then s
      else
        let s := s.raiseFlag F.QUE_STAT_PHERR
        let c := s.complOf { h with status := some 0x0D }
        ({ s with sheets := s.sheets.filter (·.logno ≠ logno) }.dropRecords logno).postCompl { c with slot := false }) s

/-- LOG_HEAD_MIGRATE (R344): the oldest record of the head in LOGNO order moves to the ring while the head is more than half
full. -/
def execLogHeadMigrate (s : State) : Result :=
  gated (decide (2 * s.headUsed > headSize)) (fun s =>
    match s.log.filter (!·.ring) with
    | [] => s
    | r :: l =>
      let o := each l (fun o x => if x.logno < o.logno then x else o) r
      let log : List LogRec := s.log.map fun x => if x.seq = o.seq then { x with ring := true, bad := if x.bad ≥ 2 then 2 else 0 } else x
      { s with log := log }.ringCheck) s

/-! ### Interrupts (R340) -/

/-- COMPLETION_GO. -/
def execCompletionGo (m : Nat) (s : State) : Result :=
  match s.cq? m with
  | none => .next s
  | some q => gated (decide (q.go < q.written)) (fun s => (s.modCq m fun q => { q with go := q.go + 1 }).trySend m) s

/-- CQ_COALESCE_TIMEOUT: CTIME µs after the oldest pending completion. -/
def execCqCoalesceTimeout (m : Nat) (s : State) : Result :=
  match s.cq? m with
  | none => .next s
  | some q => gated (decide (q.pending > 0) && q.ctime != 0 && decide (s.now ≥ q.oldest + 1000 * q.ctime))
      (fun s => (s.modCq m fun q => { q with due := true }).trySend m) s

/-- A vector is unmasked: where it is pending it is sent (R340). -/
def State.unmask (s : State) (vec : Nat) : State :=
  let s1 := { s with msixOpen := s.msixOpen.set false vec true }
  if s.msixPend.get false vec then { s1 with msixPend := s1.msixPend.set false vec false }.sendVector vec none else s1

/-- MSIX_UNMASK. -/
def execMsixUnmask (vec : Nat) (s : State) : Result := gated s.ioReached (·.unmask vec) s

end Sys2Proof.Machine
end

