-- ==== Sys2Proof/Machine/LoadCheck.lean ====
section
/-! DEFINITION. The Azlatal image (R152 to R160) read from the staging area, and the checks of the loader (R161, R162). -/

namespace Sys2Proof.Machine

/-! ### Reading -/

def Content.u8 (c : Content) (a : Nat) : Nat := (c.byte a).toNat
def Content.u16 (c : Content) (a : Nat) : Nat := leNat (c.bytesAt a 2)
def Content.u32 (c : Content) (a : Nat) : Nat := leNat (c.bytesAt a 4)
def Content.u64 (c : Content) (a : Nat) : Nat := leNat (c.bytesAt a 8)

/-- Are all of the `n` bytes from `a` zero? -/
def Content.clear (c : Content) (a n : Nat) : Bool := c.bytes.all fun e => !(decide (a ≤ e.1) && decide (e.1 < a + n)) || e.2 = 0

/-- The tiles of a 72-bit mask. -/
def maskTiles (m : Nat) : List Nat := (List.range 72).filter fun t => bit m t

/-- Offset and length of section `i`: 0 rigs, 1 fusion, 2 wiring, 3 reservations, 4 routines, 5 modes, 6 signature. -/
def secOff (c : Content) (i : Nat) : Nat := c.u32 (32 + 8 * i)
def secLen (c : Content) (i : Nat) : Nat := c.u32 (36 + 8 * i)

/-- The offsets of the entries of a section whose entries have `n` bytes. -/
def secEntries (c : Content) (i n : Nat) : List Nat := (List.range (secLen c i / n)).map fun k => secOff c i + n * k

def imgKind (c : Content) : Nat := c.u8 6
def imgTotal (c : Content) : Nat := c.u32 12

/-- A rig table entry (R154). -/
structure ImgRig where
  rig : Nat
  split : Nat
  tiles : List Nat
  sqFirst : Nat
  sqLast : Nat
  cqFirst : Nat
  cqLast : Nat
  sigFirst : Nat
  sigLast : Nat
  obFirst : Nat
  obCount : Nat
  xbFirst : Nat
  xbCount : Nat
  deriving DecidableEq, Repr

def readRig (c : Content) (o : Nat) : ImgRig :=
  { rig := c.u8 o, split := c.u8 (o + 1) % 4, tiles := maskTiles (leNat (c.bytesAt (o + 2) 9)), sqFirst := c.u16 (o + 12), sqLast := c.u16 (o + 14)
    cqFirst := c.u16 (o + 16), cqLast := c.u16 (o + 18), sigFirst := c.u16 (o + 20), sigLast := c.u16 (o + 22)
    obFirst := c.u8 (o + 24), obCount := c.u8 (o + 25), xbFirst := c.u8 (o + 26), xbCount := c.u8 (o + 27) }

def imgRigs (c : Content) : List ImgRig := (secEntries c 0 64).map (readRig c)

/-- A fusion table entry (R155). -/
structure ImgFuse where
  rig : Nat
  shape : Nat
  nmem : Nat
  members : List Nat
  deriving DecidableEq, Repr

def imgFuses (c : Content) : List ImgFuse := (secEntries c 1 32).map fun o =>
  { rig := c.u8 o, shape := c.u8 (o + 1) % 16, nmem := c.u8 (o + 2), members := (List.range (min (c.u8 (o + 2)) 16)).map fun i => c.u8 (o + 4 + i) }

/-- A stream wiring entry (R156). -/
structure ImgWire where
  tile : Nat
  targets : Nat
  deriving DecidableEq, Repr

def ImgWire.target (w : ImgWire) (e : Nat) : Nat := bits w.targets (3 * e + 2) (3 * e)
def imgWires (c : Content) : List ImgWire := (secEntries c 2 8).map fun o => { tile := c.u8 o, targets := leNat (c.bytesAt (o + 2) 3) }

/-- The reservation table (R157). -/
inductive ImgRes where
  | space (owner space flags ledger : Nat)
  | share (rig space : Nat)
  | slot (tile eng s0 s1 size : Nat)
  | floor (buf btile utile ueng bytes : Nat)
  | other
  deriving DecidableEq, Repr

def readRes (c : Content) (o : Nat) : ImgRes :=
  match c.u8 o with
  | 1 => .space (c.u8 (o + 1)) (c.u16 (o + 2)) (c.u8 (o + 4)) (c.u16 (o + 8))
  | 2 => .share (c.u8 (o + 1)) (c.u16 (o + 2))
  | 3 => .slot (c.u8 (o + 1)) (c.u8 (o + 2)) (c.u32 (o + 4)) (c.u32 (o + 8)) (c.u32 (o + 12))
  | 4 => .floor (c.u8 (o + 1)) (c.u8 (o + 2)) (c.u8 (o + 3)) (c.u8 (o + 4)) (c.u32 (o + 8))
  | _ => .other

def imgRes (c : Content) : List ImgRes := (secEntries c 3 32).map (readRes c)

/-- A routine store entry (R158), at its offset. -/
structure ImgRout where
  at_ : Nat
  tiles : List Nat
  nwords : Nat
  deriving DecidableEq, Repr

/-- The bytes that an entry takes. -/
def ImgRout.size (r : ImgRout) : Nat := alignUp (144 + 4 * r.nwords) 16
def ImgRout.entry (c : Content) (r : ImgRout) (i : Nat) : Nat := c.u16 (r.at_ + 16 + 2 * i)
def ImgRout.word (c : Content) (r : ImgRout) (i : Nat) : Nat := c.u32 (r.at_ + 144 + 4 * i)

/-- The entries from offset `o` to the section's end; none where they do not fill it exactly. -/
def readRouts (c : Content) (stop : Nat) : Nat → Nat → Option (List ImgRout)
  | 0, o => if o = stop then some [] else none
  | k + 1, o =>
    if o = stop then some []
    else
      let r : ImgRout := { at_ := o, tiles := maskTiles (leNat (c.bytesAt o 9)), nwords := c.u16 (o + 10) }
      if o + r.size ≤ stop then (readRouts c stop k (o + r.size)).map (r :: ·) else none

def imgRouts? (c : Content) : Option (List ImgRout) :=
  readRouts c (secOff c 4 + secLen c 4) (secLen c 4 / 144 + 1) (secOff c 4)
def imgRouts (c : Content) : List ImgRout := (imgRouts? c).getD []

/-- A mode entry (R159). -/
structure ImgMode where
  rig : Nat
  num : Nat
  pol : Nat
  update : Nat
  lsgrow : Nat
  lsinit : Nat
  seglen : Nat
  hyper : List Nat
  deriving DecidableEq, Repr

def imgModeOffs (c : Content) : List Nat := (List.range ((secLen c 5 - 32) / 64)).map fun k => secOff c 5 + 32 + 64 * k
def imgModes (c : Content) : List ImgMode := (imgModeOffs c).map fun o =>
  { rig := c.u8 o, num := c.u8 (o + 1), pol := c.u8 (o + 2), update := c.u8 (o + 3), lsgrow := c.u16 (o + 4), lsinit := c.u8 (o + 6)
    seglen := c.u16 (o + 8), hyper := (List.range 8).map fun k => c.u32 (o + 16 + 4 * k) }

/-- The digest of an image (R160, R403): SHAKE256 over the bytes before the signature. -/
def imgDigestOf (c : Content) : List Byte := Config.shake256 (c.bytesAt 0 (secOff c 6)) 64

/-! ### Rules 1 to 6 -/

def rule1 (c : Content) : Bool :=
  c.bytesAt 0 4 = [0x41, 0x5A, 0x4C, 0x01] && c.u16 4 = 1 && c.u16 8 = 0x7D0A && c.u16 10 = 0x0C18

def rule2 (c : Content) : Bool := imgTotal c % 64 = 0 && decide (imgTotal c ≤ 64 * 2 ^ 20) && decide (imgKind c ≤ 2)

/-- Sections from `i` on lie in order after byte `pos`. -/
def inOrder (c : Content) : List Nat → Nat → Bool
  | [], pos => decide (pos ≤ imgTotal c)
  | i :: l, pos =>
    if secLen c i = 0 then secOff c i = 0 && inOrder c l pos
    else secOff c i % 64 = 0 && decide (pos ≤ secOff c i) && inOrder c l (secOff c i + secLen c i)

def rule3 (c : Content) : Bool :=
  let n := secLen c 0 / 64
  inOrder c [0, 1, 2, 3, 4, 5, 6] 96 && secLen c 6 = 128 && secOff c 6 + 128 = imgTotal c && secLen c 0 % 64 = 0 && decide (n ≥ 1)
    && secLen c 1 % 32 = 0 && secLen c 2 % 8 = 0 && secLen c 3 % 32 = 0
    && (if imgKind c = 2 then n = 1 && [1, 2, 3, 4, 5].all fun i => secLen c i = 0
        else (imgKind c = 0 || n = 1) && secLen c 2 != 0 && secLen c 5 = 32 + 64 * n
          && (secLen c 4 = 0 || (imgRouts? c).isSome))

def rule4 (c : Content) (enrolled revoked : Nat) : Bool := decide (c.u8 7 < 4) && bit enrolled (c.u8 7) && !bit revoked (c.u8 7)

def rule5 (c : Content) (key : List Byte) : Bool := Config.ed448Verify key (imgDigestOf c) (c.bytesAt (secOff c 6) 114)

/-- The padding before the sections from `i` on, and after a section. -/
def paddingClear (c : Content) : List Nat → Nat → Bool
  | [], _ => true
  | i :: l, pos =>
    if secLen c i = 0 then paddingClear c l pos
    else c.clear pos (secOff c i - pos) && paddingClear c l (secOff c i + secLen c i)

/-- Are the bytes and bits of a resource entry that R157 gives no meaning zero? Bits [7:2] of a space entry's FLAGS are among them (log entry 166). -/
def resClear (c : Content) (o : Nat) : Bool :=
  match c.u8 o with
  | 1 => decide (c.u8 (o + 4) < 4) && c.clear (o + 5) 3 && c.clear (o + 10) 22
  | 2 => c.clear (o + 4) 28
  | 3 => c.clear (o + 3) 1 && c.clear (o + 16) 16
  | 4 => c.clear (o + 5) 3 && c.clear (o + 12) 20
  | _ => true

def rule6 (c : Content) : Bool :=
  c.clear 24 8 && c.clear 88 8 && paddingClear c [0, 1, 2, 3, 4, 5, 6] 96 && c.clear (secOff c 6 + 114) 14
    && (secEntries c 0 64).all (fun o => if imgKind c = 2 then c.clear (o + 1) 63
        else decide (c.u8 (o + 1) < 4) && c.clear (o + 11) 1 && c.clear (o + 28) 36)
    && (secEntries c 1 32).all (fun o => decide (c.u8 (o + 1) < 16) && c.clear (o + 3) 1 && c.clear (o + 20) 12)
    && (secEntries c 2 8).all (fun o => c.clear (o + 1) 1 && c.clear (o + 5) 3)
    && (secEntries c 3 32).all (resClear c)
    && (imgRouts c).all (fun r => c.clear (r.at_ + 9) 1 && c.clear (r.at_ + 12) 4
        && c.clear (r.at_ + 144 + 4 * r.nwords) (r.size - (144 + 4 * r.nwords)))
    && (secLen c 5 = 0 || (decide (c.u8 (secOff c 5) < 8) && c.clear (secOff c 5 + 1) 3 && c.clear (secOff c 5 + 6) 26))
    && (imgModeOffs c).all (fun o => decide (c.u8 (o + 1) < 4) && decide (c.u8 (o + 2) < 64) && decide (c.u8 (o + 3) < 4) && c.clear (o + 7) 1 && c.clear (o + 10) 6 && c.clear (o + 48) 16)

/-! ### Rules 7 to 19: the structure -/

def rule7 (rs : List ImgRig) : Bool := rs.all (fun r => decide (r.rig < 72)) && noRepeats (rs.map (·.rig))

/-- Does a range of two rigs meet? -/
def idsMeet (a b a' b' : Nat) : Bool := decide (a ≤ b') && decide (a' ≤ b)

/-- Every pair of a list, the earlier first. -/
def allPairs {α : Type} (p : α → α → Bool) : List α → Bool
  | [] => true
  | x :: l => l.all (p x) && allPairs p l

/-- The structure of a rig of the device as a table entry, to compare with. -/
def Rig.entry (n : Nat) (r : Rig) : ImgRig :=
  { rig := n, split := 0, tiles := r.tiles, sqFirst := r.sqFirst, sqLast := r.sqLast, cqFirst := r.cqFirst, cqLast := r.cqLast, sigFirst := r.sigFirst
    sigLast := r.sigLast, obFirst := r.obFirst, obCount := r.obCount, xbFirst := r.xbFirst, xbCount := r.xbCount }

/-- The other rigs that exist on the device, for a partial or removal image (R162). -/
def State.otherRigs (s : State) (c : Content) : List ImgRig :=
  if imgKind c = 0 then []
  else (s.rigs.filter fun r => r.2.exists_ && (imgRigs c).all fun x => x.rig != r.1).map fun r => r.2.entry r.1

def rule8 (valid : Nat → Bool) (rs others : List ImgRig) : Bool :=
  rs.all (fun r => !r.tiles.isEmpty && r.tiles.all valid) && allPairs (fun a b => a.tiles.all fun t => !b.tiles.contains t) (rs ++ others)

def rule9 (rs others : List ImgRig) : Bool :=
  rs.all (fun r => decide (r.sqFirst ≤ r.sqLast) && decide (r.cqFirst ≤ r.cqLast) && decide (r.cqLast < 4096))
    && allPairs (fun a b => !idsMeet a.sqFirst a.sqLast b.sqFirst b.sqLast && !idsMeet a.cqFirst a.cqLast b.cqFirst b.cqLast) (rs ++ others)

/-- Is a barrier in both ranges? A range of COUNT 0 has none. -/
def shareBars (a n b m : Nat) : Bool := decide (0 < n) && decide (0 < m) && overlaps a n b m

def rule10 (rs others : List ImgRig) : Bool :=
  rs.all (fun r => decide (r.sigFirst ≤ r.sigLast) && decide (r.sigLast < 16384) && decide (r.obFirst < 64)
      && decide (r.obFirst + r.obCount ≤ 64) && decide (r.xbFirst < 16) && decide (r.xbFirst + r.xbCount ≤ 16))
    && allPairs (fun a b => !idsMeet a.sigFirst a.sigLast b.sigFirst b.sigLast && !shareBars a.obFirst a.obCount b.obFirst b.obCount
        && !shareBars a.xbFirst a.xbCount b.xbFirst b.xbCount) (rs ++ others)

def ImgFuse.rows (f : ImgFuse) : Nat := 2 ^ (f.shape / 4)
def ImgFuse.cols (f : ImgFuse) : Nat := 2 ^ (f.shape % 4)

def rule11 (rs : List ImgRig) (fs : List ImgFuse) : Bool :=
  fs.all fun f => f.shape / 4 != 3 && f.shape % 4 != 3 && f.nmem = f.rows * f.cols && rs.any (fun r => r.rig = f.rig)

def rule12 (rs : List ImgRig) (fs : List ImgFuse) : Bool :=
  fs.all (fun f => f.members.all fun t => rs.any fun r => r.rig = f.rig && r.tiles.contains t) && noRepeats (fs.flatMap (·.members))

def rule13 (rs : List ImgRig) (ws : List ImgWire) : Bool :=
  noRepeats (ws.map (·.tile)) && ws.all (fun w => rs.any fun r => r.tiles.contains w.tile)
    && rs.all fun r => r.tiles.all fun t => ws.any fun w => w.tile = t

def rule14 (ws : List ImgWire) : Bool :=
  ws.all fun w => (List.range 8).all fun e =>
    let t := w.target e
    if e < 4 then decide (t ≤ 3) || t = 7 else if e < 6 then t = 4 || t = 5 || t = 7 else t = 6 || t = 7

/-- The target of a tile's engine in the image. -/
def wireTarget (ws : List ImgWire) (t e : Nat) : Nat := ((ws.find? fun w => w.tile = t).map (·.target e)).getD 7

/-- Does a tile wire an engine to a target? -/
def wires (ws : List ImgWire) (t target : Nat) : Bool := (List.range 8).any fun e => wireTarget ws t e = target

def rule15 (fs : List ImgFuse) (ws : List ImgWire) : Bool :=
  fs.all fun f => f.members.zipIdx.all fun m =>
    wires ws m.1 0 && (if m.2 % f.cols = 0 then wires ws m.1 1 else !wires ws m.1 1)

/-- The space entries: owner, number, flags, ledger. -/
def spaceEntries (rs : List ImgRes) : List (Nat × Nat × Nat × Nat) := rs.filterMap fun
  | .space o n f l => some (o, n, f, l)
  | _ => none

def rule16 (rs : List ImgRig) (res : List ImgRes) : Bool :=
  let sp := spaceEntries res
  res.all (fun x => x != ImgRes.other) && sp.all (fun x => decide (x.2.1 < 4096) && rs.any fun r => r.rig = x.1)
    && noRepeats (sp.map fun x => x.2.1)
    && res.all fun
      | .share _ n => decide (n < 4096)
      | _ => true

/-- A space of the image, or one of another rig of the device: owner, read-only, shared. -/
def State.spaceSeen (s : State) (c : Content) (n : Nat) : Option (Nat × Bool × Bool) :=
  match (spaceEntries (imgRes c)).find? fun x => x.2.1 = n with
  | some x => some (x.1, bit x.2.2.1 0, bit x.2.2.1 1)
  | none => match s.spaces.get none n with
    | some sp => if (s.otherRigs c).any fun r => r.rig = sp.owner then some (sp.owner, sp.ro, sp.shared) else none
    | none => none

def rule17 (s : State) (c : Content) : Bool :=
  (imgRes c).all fun
    | .share r n => (match s.spaceSeen c n with
      | some x => x.1 != r && x.2.1 && x.2.2
      | none => false)
    | .space _ _ f l => if bit f 0 then l = 0 else decide (l ≥ 1)
    | _ => true

/-- The slot entries: tile, engine, slot 0, slot 1, size. -/
def slotEntries (rs : List ImgRes) : List (Nat × Nat × Nat × Nat × Nat) := rs.filterMap fun
  | .slot t e a b n => some (t, e, a, b, n)
  | _ => none

def rule18 (ws : List ImgWire) (res : List ImgRes) : Bool :=
  let sl := slotEntries res
  let spans := sl.flatMap fun x => [(x.1, x.2.2.1, x.2.2.2.2), (x.1, x.2.2.2.1, x.2.2.2.2)]
  sl.all (fun x => decide (x.2.1 < 8) && (wireTarget ws x.1 x.2.1 = 2 || wireTarget ws x.1 x.2.1 = 4)
      && x.2.2.2.2 % 4096 = 0 && decide (x.2.2.2.2 ≥ 4096) && decide (x.2.2.2.2 ≤ 2 ^ 20)
      && [x.2.2.1, x.2.2.2.1].all fun a => a % 4096 = 0 && decide (a + x.2.2.2.2 ≤ 6 * 2 ^ 20))
    && noRepeats (sl.map fun x => 8 * x.1 + x.2.1)
    && ws.all (fun w => (List.range 8).all fun e => !(w.target e = 2 || w.target e = 4) || sl.any fun x => x.1 = w.tile && x.2.1 = e)
    && allPairs (fun a b => !(a.1 = b.1 && overlaps a.2.1 a.2.2 b.2.1 b.2.2)) spans

/-! ### Rules 19 to 22: the floors of R148 to R150 -/

/-- May engine `ue` of tile `ut` place data in buffer `buf` of tile `bt` (R148)? -/
def mayPlace (rs : List ImgRig) (ws : List ImgWire) (buf bt ut ue : Nat) : Bool :=
  let t := wireTarget ws ut ue
  match buf with
  | 0 => ut = bt && t = 0
  | 1 => ut = bt && t = 1
  | 2 => ut != bt && (t = 4 || t = 5) && rs.any (fun r => r.tiles.contains ut && r.tiles.contains bt)
  | 3 => ut = bt && (t = 4 || t = 5 || t = 6)
  | 4 => bt = 0xFF && (t = 4 || t = 5)
  | 5 => ut = bt && t = 6
  | _ => false

def floorCap (buf : Nat) : Nat := [32768, 32768, 16384, 16384, 4194304, 65536].getD buf 0
def floorMin (buf : Nat) : Nat := [512, 512, 256, 512, 4096, 8192].getD buf 0

/-- The floor entries: buffer, its tile, user's tile and engine, bytes. -/
def floorEntries (rs : List ImgRes) : List (Nat × Nat × Nat × Nat × Nat) := rs.filterMap fun
  | .floor b bt ut ue n => some (b, bt, ut, ue, n)
  | _ => none

def rule19 (rs : List ImgRig) (ws : List ImgWire) (res : List ImgRes) : Bool :=
  (floorEntries res).all fun x => decide (x.2.2.2.1 < 8) && mayPlace rs ws x.1 x.2.1 x.2.2.1 x.2.2.2.1 && x.2.2.2.2 % 256 = 0

def rule20 (rs : List ImgRig) (ws : List ImgWire) (res : List ImgRes) : Bool :=
  let fl := floorEntries res
  rs.all fun r => r.tiles.all fun ut => (List.range 8).all fun ue => (0xFF :: r.tiles).all fun bt => (List.range 6).all fun buf =>
    !mayPlace rs ws buf bt ut ue || fl.any fun x => x.1 = buf && x.2.1 = bt && x.2.2.1 = ut && x.2.2.2.1 = ue

def rule21 (res : List ImgRes) : Bool := (floorEntries res).all fun x => decide (x.2.2.2.2 ≥ floorMin x.1)

/-- The write-combining floors of the rigs that keep running. -/
def State.otherWcFloors (s : State) (c : Content) : Nat :=
  let tiles := ((s.otherRigs c).flatMap (·.tiles)).map s.phys
  ((s.floors.filter fun f => f.1 / 2 ^ 32 = 4 && tiles.contains (f.1 % 2 ^ 16 / 8)).map (·.2)).sum

def rule22 (s : State) (c : Content) : Bool :=
  let fl := floorEntries (imgRes c)
  fl.all fun x => decide (((fl.filter fun y => y.1 = x.1 && y.2.1 = x.2.1).map fun y => y.2.2.2.2).sum
    + (if x.1 = 4 then s.otherWcFloors c else 0) ≤ floorCap x.1)

/-! ### Rules 23 to 25: the routines -/

def rule23 (c : Content) (rs : List ImgRig) : Bool :=
  let ro := imgRouts c
  ro.all (fun r => r.tiles.all (fun t => rs.any fun x => x.tiles.contains t) && decide (1 ≤ r.nwords) && decide (r.nwords ≤ 4096)
      && (List.range 64).all fun i => r.entry c i = 0xFFFF || decide (r.entry c i < r.nwords))
    && noRepeats (ro.flatMap (·.tiles))

/-- The opcodes of format V, and those that read no second operand (R108, R109). -/
def opsV : List Nat := [0x01, 0x02, 0x03, 0x04, 0x05, 0x06, 0x07, 0x08, 0x09, 0x0A, 0x0B, 0x0C, 0x0D, 0x0E, 0x10, 0x11, 0x12, 0x13, 0x14, 0x15,
  0x16, 0x17, 0x18, 0x19, 0x1A, 0x1C, 0x1D, 0x1E, 0x1F]
def unaryV (op sub : Nat) : Bool :=
  [0x08, 0x09, 0x0A, 0x0B, 0x0C, 0x0D, 0x11, 0x19, 0x1C, 0x1D, 0x1E, 0x18, 0x14, 0x13].contains op || (op = 0x0E && decide (sub < 3))

/-- Register numbers of format V: a scalar has five bits and a mask three (R105). -/
def regsV (op d a b bm : Nat) : Bool :=
  (if [0x10, 0x11, 0x12, 0x13].contains op then decide (d < 8) else if op = 0x1F then decide (d % 32 < 8)
    else if op = 0x14 || (op = 0x1A && bm = 0) then decide (d < 32) else true)
  && (if op = 0x12 || op = 0x14 then decide (a < 8) else if op = 0x13 then decide (a < 32) else true)
  && (if op = 0x12 then decide (b < 8) else if op = 0x17 || (bm = 3 && op != 0x1A && op != 0x1F) then decide (b < 32) else true)

/-- A word of rule 24. -/
def vwordOk (w : Nat) : Bool :=
  let op := bits w 31 26
  let d := bits w 25 20
  let sub := bits w 1 0
  if opsV.contains op then
    let b := bits w 13 8
    let bm := bits w 7 6
    (!unaryV op sub || (b = 0 && bm = 0)) && (!([0x12, 0x13, 0x1D].contains op) || bits w 5 3 = 0) && (op != 0x1A || decide (bm < 2))
      && (op != 0x19 || sub != 3) && regsV op d (bits w 19 14) b bm
  else if [0x20, 0x21, 0x22, 0x23].contains op then op != 0x23 || decide (bits w 7 5 < 6)
  else if op = 0x2A then w % 2 ^ 26 = 0
  else if op = 0x2B then decide (bits w 16 14 < 2) && decide (d < 32)
  else if op = 0x2C then decide (bits w 16 14 < 2)
  else if op = 0x28 || op = 0x29 || op = 0x39 || op = 0x3A then true
  else if op = 0x30 || op = 0x31 then decide (bits w 14 11 ≤ 8) && (bits w 14 11 != 4 || decide (bits w 19 15 ≤ 30))
  else if op = 0x00 then w = 0
  else if op = 0x38 || op = 0x3F then bits w 7 0 = 0
  else false

def ImgRout.words (c : Content) (r : ImgRout) : List Nat := (List.range r.nwords).map (r.word c)

def rule24 (c : Content) : Bool := (imgRouts c).all fun r => (r.words c).all vwordOk

/-- Loops: `open_` holds the last word of each body that is open at word `i`, innermost first. -/
def vloopsOk (n : Nat) : List Nat → Nat → List Nat → Bool
  | [], _, _ => true
  | w :: l, i, open_ =>
    let open_ := open_.dropWhile fun z => decide (z < i)
    if bits w 31 26 = 0x38 then
      let last := i + bits w 15 8
      bits w 15 8 != 0 && decide (last < n) && (match open_ with
        | [] => true
        | z :: _ => decide (last ≤ z)) && decide (open_.length < 4) && vloopsOk n l (i + 1) (last :: open_)
    else if bits w 31 26 = 0x3F then open_.isEmpty && vloopsOk n l (i + 1) open_
    else vloopsOk n l (i + 1) open_

def rule25 (c : Content) (rs : List ImgRig) : Bool :=
  (imgRouts c).all fun r =>
    let ws := r.words c
    vloopsOk r.nwords ws 0 []
      && (List.range 64).all (fun i => r.entry c i = 0xFFFF || (ws.drop (r.entry c i)).any fun w => bits w 31 26 = 0x3F)
      && ws.all fun w => !(bits w 31 26 = 0x39 || bits w 31 26 = 0x3A) || r.tiles.all fun t => rs.all fun x =>
        !x.tiles.contains t || (decide (x.sigFirst ≤ bits w 13 0) && decide (bits w 13 0 ≤ x.sigLast))

/-! ### Rules 26 to 30 -/

def rule26 (c : Content) : Bool :=
  if imgKind c = 0 then decide (c.u8 (secOff c 5) < 8) && decide (c.u16 (secOff c 5 + 4) ≥ 1)
  else secLen c 5 = 0 || c.clear (secOff c 5) 32

def rule27 (rs : List ImgRig) (ms : List ImgMode) : Bool :=
  noRepeats (ms.map (·.rig)) && rs.all (fun r => ms.any fun m => m.rig = r.rig) && ms.all fun m => rs.any (fun r => r.rig = m.rig)
    && m.pol % 4 != 3 && m.pol / 4 % 4 != 3 && decide (m.lsgrow ≥ 1) && decide (m.lsinit ≤ 32) && m.seglen % 128 = 0

def rule28 (s : State) (c : Content) : Bool :=
  let others := s.otherRigs c
  rule8 (fun _ => true) (imgRigs c) others && (spaceEntries (imgRes c)).all fun x => match s.spaces.get none x.2.1 with
    | some sp => !others.any fun r => r.rig = sp.owner
    | none => true

/-- The spaces of a rig that another existing rig shares. -/
def State.sharedOut (s : State) (n : Nat) : List (Nat × Space) :=
  s.spaces.filterMap fun x => match x.2 with
    | some sp => if sp.owner = n && sp.readers.any (fun r => r != n && (s.rig r).exists_) then some (x.1, sp) else none
    | none => none

def rule29 (s : State) (c : Content) : Bool :=
  (imgRigs c).all fun r => (s.sharedOut r.rig).all fun x =>
    (spaceEntries (imgRes c)).any fun y => y.2.1 = x.1 && bit y.2.2.1 0 = x.2.ro && bit y.2.2.1 1 = x.2.shared

def rule30 (s : State) (c : Content) : Bool := (imgRigs c).all fun r => (s.rig r.rig).exists_ && (s.sharedOut r.rig).isEmpty

/-! ### The order of the checks -/

/-- The code of the first check that fails; 0 where none does. -/
def firstFail : List (Bool × Nat) → Nat
  | [] => 0
  | (ok, code) :: l => if ok then firstFail l else code

/-- Rules 1 to 5. -/
def State.check1 (s : State) (l : Load) : Nat :=
  let c := l.img
  if !rule1 c then 0x0101 else if !rule2 c then 0x0102 else if !rule3 c then 0x0103
  else if !rule4 c l.enrolled l.revoked then 0x0804 else if !rule5 c (s.ownerKey (c.u8 7)) then 0x0805 else 0

/-- Rules 6 to 30, those of the image's kind. -/
def State.check2 (s : State) (c : Content) : Nat :=
  let k := imgKind c
  let rs := imgRigs c
  let os := s.otherRigs c
  let fs := imgFuses c
  let ws := imgWires c
  let res := imgRes c
  let full := decide (k ≠ 2)
  firstFail ([(rule6 c, 0x0106), (rule7 rs, 0x0207), (!full || rule8 (fun t => s.flag F.GLB_TMAP_VALID t) rs os, 0x0208)
    , (!full || rule9 rs os, 0x0209), (!full || rule10 rs os, 0x020A)]
    ++ (if full then [(rule11 rs fs, 0x030B), (rule12 rs fs, 0x030C), (rule13 rs ws, 0x040D), (rule14 ws, 0x040E), (rule15 fs ws, 0x040F)
      , (rule16 rs res, 0x0510), (rule17 s c, 0x0511), (rule18 ws res, 0x0512), (rule19 rs ws res, 0x0513), (rule20 rs ws res, 0x0514)
      , (rule21 res, 0x0515), (rule22 s c, 0x0516), (rule23 c rs, 0x0617), (rule24 c, 0x0618), (rule25 c rs, 0x0619)] else [])
    ++ [(rule26 c, 0x071A)] ++ (if full then [(rule27 rs (imgModes c), 0x071B)] else [])
    ++ (if k = 1 then [(rule28 s c, 0x091C), (rule29 s c, 0x091D)] else []) ++ (if k = 2 then [(rule30 s c, 0x091E)] else []))

end Sys2Proof.Machine
end

