-- ==== Sys2Proof/Machine/Loader.lean ====
section
/-! DEFINITION. The image loader and the control of rigs (R163 to R167, R173 to R176, R325, R404). -/

namespace Sys2Proof.Machine

/-! ### Start and checks (R163, R165, R166) -/

/-- A write to IMG_CTL. A firmware copy holds the staging area (R399). The image is read from the staging area in tier 0 (R152, R186). -/
def State.imgCtl (s : State) (d : Nat) : State :=
  let s := (s.setReg F.IMG_CTL_HOLD (bits d 4 4)).setReg F.IMG_CTL_HOW (bits d 1 1)
  if !bit d 0 || decide (s.get F.SEC_BOOT_STEP < 10) then s
  else if s.get F.IMG_STAT_STATE != 0 || ((s.fwOp.map (·.copying)).getD false) then s.raiseFlag F.IMG_STAT_BUSYW
  else { (s.setReg F.IMG_STAT_STATE 1).tier0Bytes ((min (imgTotal s.staging) (2 ^ 26) + 255) / 256) with load := some {
    how := bits d 1 1, hold := bit d 4, enrolled := slotBits s.enrolled, revoked := slotBits s.revoked, img := s.staging } }

/-- LOAD_START. -/
def execLoadStart (data : Word) (s : State) : Result := gated s.ioReached (·.imgCtl data.toNat) s

/-- A rejection changes nothing but IMG_STAT. -/
def State.rejectImage (s : State) (code : Nat) : State :=
  { ((s.setReg F.IMG_STAT_CODE code).raiseFlag F.IMG_STAT_REJ).setReg F.IMG_STAT_STATE 0 with load := none }

/-- The rigs that a load stops: every one, or the image's. -/
def State.loadRigs (s : State) (c : Content) : List Nat :=
  if imgKind c = 0 then (s.rigs.filter (·.2.exists_)).map Prod.fst else (imgRigs c).map (·.rig)

/-- The fields of a rig's block. -/
def rigFields : List (Reg × List Field) := regTable.filter fun r => decide (0x91000 ≤ r.1.base) && decide (r.1.base < 0x98000)

/-- Every register of a rig's block goes to its reset value. -/
def State.clearRig (s : State) (n : Nat) : State :=
  each rigFields (fun s r => each r.2 (fun s f =>
    let m := r.1.count / 72
    each (List.range m) (fun s i => s.setReg f f.rst (m * n + i)) s) s) s

/-- A rig is set to loading, one that the image creates too, and stopped as HOW gives (R166). -/
def State.stopForLoad (s : State) (how n : Nat) : State :=
  let was := (s.rig n).exists_
  let s := (if was then s else s.clearRig n).setReg F.IMG_RSTAT_STATE rigLoading n
  if was && how = 1 then s.killRig n else s

/-- IMAGE_CHECK_COMPLETE: rules 1 to 5, then, at its second coming, the structure. -/
def execImageCheckComplete (s : State) : Result :=
  match s.load with
  | none => .next s
  | some l => .next (
      if s.get F.IMG_STAT_STATE = 1 then
        (match s.check1 l with
        | 0 => s.setReg F.IMG_STAT_STATE 2
        | e => s.rejectImage e)
      else if s.get F.IMG_STAT_STATE = 2 then
        (match s.check2 l.img with
        | 0 => each (s.loadRigs l.img) (fun s n => s.stopForLoad l.how n) (s.setReg F.IMG_STAT_STATE 3)
        | e => s.rejectImage e)
      else s)

/-! ### Tiles (R165 step 4, R166) -/

/-- A tile filled: stores, banks and queue as after the fill, every unit idle; the generator's draws and the spares stay (R88, R167). -/
def Tile.filled (t : Tile) : Tile :=
  { rowSpares := t.rowSpares, draws := t.draws, badLanes := t.badLanes, badEngs := t.badEngs, perrs := t.perrs, rowCes := t.rowCes
    replays := t.replays, engs := t.engs.map fun (e : Nat × Eng) => (e.1, { count := e.2.count }) }

/-- A tile in no rig: unwired, unfused, quiescent. -/
def State.bareTile (s : State) (t : Nat) : State :=
  let p := s.phys t
  let s := s.modTile p Tile.filled
  let s := each (List.range 8) (fun s e => ((s.setReg F.STRM_CTL_CLASS 3 (engKey p e)).setReg F.STRM_CTL_TARGET 7 (engKey p e)).setReg
    F.STRM_CTL_RIG 0 (engKey p e)) s
  let s := (((s.setReg F.STRM_SPLIT_SPLIT 0 p).setReg F.TILE_ARR_FUSE_LEAD t p).setReg F.TILE_ARR_FUSE_NMEM 1 p)
  let s := ((s.setReg F.TILE_ARR_STAT_FSHAPE 0 p).setReg F.TILE_ARR_STAT_MROW 0 p).setReg F.TILE_ARR_STAT_MCOL 0 p
  { s with floors := s.floors.filter fun f => !(f.1 % 2 ^ 16 / 8 = p || (f.1 / 2 ^ 32 != 4 && f.1 / 2 ^ 16 % 2 ^ 16 = p)) }

/-- The class of a target (R126). -/
def targetClass (t : Nat) : Nat := if t < 4 then 0 else if t < 6 then 1 else if t = 6 then 2 else 3

/-- A tile of a rig takes its wiring, split, slots and routines. -/
def State.wireTile (s : State) (c : Content) (r : ImgRig) (t : Nat) : State :=
  let p := s.phys t
  let ws := imgWires c
  let s := each (List.range 8) (fun s e =>
    let z := wireTarget ws t e
    ((s.setReg F.STRM_CTL_CLASS (targetClass z) (engKey p e)).setReg F.STRM_CTL_TARGET z (engKey p e)).setReg F.STRM_CTL_RIG r.rig (engKey p e)) s
  let s := s.setReg F.STRM_SPLIT_SPLIT r.split p
  let s := each ((slotEntries (imgRes c)).filter fun x => x.1 = t) (fun s x =>
    s.modTile p fun y => { y with slots := y.slots.set {} x.2.1 { s0 := x.2.2.1, s1 := x.2.2.2.1, size := x.2.2.2.2 } }) s
  match (imgRouts c).find? fun x => x.tiles.contains t with
  | none => s
  | some o => s.modVec p fun v => { v with
      nwords := o.nwords
      words := each ((o.words c).zipIdx) (fun (m : FMap Word) w => m.set 0 w.2 (BitVec.ofNat 32 w.1)) []
      entries := each (List.range 64) (fun (m : FMap Nat) i => m.set 0xFFFF i (o.entry c i)) [] }

/-- The members of a fused array take their places (R53). -/
def State.fuseTiles (s : State) (f : ImgFuse) : State :=
  each f.members.zipIdx (fun s m =>
    let p := s.phys m.1
    let s := (s.setReg F.TILE_ARR_FUSE_LEAD (f.members.headD 0) p).setReg F.TILE_ARR_FUSE_NMEM f.nmem p
    ((s.setReg F.TILE_ARR_STAT_FSHAPE f.shape p).setReg F.TILE_ARR_STAT_MROW (m.2 / f.cols) p).setReg F.TILE_ARR_STAT_MCOL (m.2 % f.cols) p) s

/-- The floors of the image. -/
def State.placeFloors (s : State) (c : Content) : State :=
  each (floorEntries (imgRes c)) (fun s x =>
    let bt := if x.1 = 4 then 0 else s.phys x.2.1
    let key := 2 ^ 32 * x.1 + 2 ^ 16 * bt + engKey (s.phys x.2.2.1) x.2.2.2.1
    { s with floors := s.floors.upd 0 key (· + x.2.2.2.2) }) s

/-! ### Spaces (R165, R167) -/

/-- A space is released with its pages and ledger. -/
def State.releaseSpace (s : State) (n : Nat) : State :=
  let keys := s.pages.keyList.filter fun k => spaceOf k = n
  let inSpace := fun (k : Nat) => spaceOf k = n
  let s := each keys State.unmapPage s
  let ids := (s.moves.filter fun m => inSpace m.page).map (·.act)
  let s := { s with
    spaces := s.spaces.set none n none, moves := s.moves.filter fun m => !inSpace m.page, staged := s.staged.filter fun v => !inSpace v.page
    outVers := s.outVers.filter fun v => !inSpace v.page, heldVers := s.heldVers.filter fun v => !inSpace v.page }
  each ids State.endAct s

/-- A space entry: kept where the same space was there under the same owner and flag, else created empty. -/
def State.placeSpace (s : State) (x : Nat × Nat × Nat × Nat) : State :=
  let ro := bit x.2.2.1 0
  let kept := match s.spaces.get none x.2.1 with
    | some sp => sp.owner = x.1 && sp.ro = ro
    | none => false
  let readers := match s.spaces.get none x.2.1 with
    | some sp => sp.readers
    | none => []
  let s := if kept then s else s.releaseSpace x.2.1
  let sp : Space := { owner := x.1, ro := ro, shared := bit x.2.2.1 1, ledger := x.2.2.2, readers := readers }
  { s with spaces := s.spaces.set none x.2.1 (some sp) }

/-- The spaces after a load of `rigs`: those not listed any more go, readers of the replaced rigs are forgotten, shares are noted. -/
def State.placeSpaces (s : State) (c : Content) (rigs : List Nat) : State :=
  let listed := (spaceEntries (imgRes c)).map fun x => x.2.1
  let gone := (s.spaces.filter fun x => match x.2 with
    | some sp => rigs.contains sp.owner && !listed.contains x.1
    | none => false).map Prod.fst
  let s := each gone State.releaseSpace s
  let sps : FMap (Option Space) := s.spaces.map fun (x : Nat × Option Space) =>
    (x.1, x.2.map fun (sp : Space) => { sp with readers := sp.readers.filter fun r => !rigs.contains r })
  let s := each (spaceEntries (imgRes c)) State.placeSpace { s with spaces := sps }
  each (imgRes c) (fun s x => match x with
    | .share r n =>
      let sps : FMap (Option Space) := s.spaces.upd none n (Option.map fun (sp : Space) => { sp with readers := sp.readers ++ [r] })
      { s with spaces := sps }
    | _ => s) s

/-! ### Queues given up (R167, R325) -/

/-- A call sheet that no rig will run completes with the rig-reloaded error. -/
def State.reloadSheet (s : State) (h : Sheet) : State :=
  let c := s.complOf { h with status := some 0x0B }
  ({ s with sheets := s.sheets.filter (·.logno ≠ h.logno) }.dropRecords h.logno).postCompl { c with slot := false }

/-- The entries of a queue that have not been fetched, in order; of one that cannot be read every byte counts as zero (log entry 164). -/
def State.reloadEntries (n : Nat) : Nat → State → State
  | 0, s => s
  | k + 1, s => match s.sq? n with
    | none => s
    | some q =>
      if q.head = q.tail then s
      else
        let r := s.fetch q.rig q.space (q.addr + 128 * q.head) 128 [] (fun _ => .current) []
        let cs : CallSheet := match r.2.got? with
          | some b => decodeSheet b
          | none => {}
        let logno := r.1.get F.TWN_LNUM_NEXT
        let s := r.1.setReg F.TWN_LNUM_NEXT (logno + 1)
        let s := s.modSq n fun q => { q with head := (q.head + 1) % q.size, wraps := q.wraps + b2n (decide (q.head + 1 = q.size)) }
        State.reloadEntries n k (s.reloadSheet { logno := logno, sq := n, rig := q.rig, cs := cs })

/-- A queue that is given up completes its call sheets in order. -/
def State.giveUp (s : State) (n : Nat) : State :=
  let s := s.modSq n fun q => { q with gone := true }
  let s := each (s.sheets.filter fun h => h.sq = n && !h.dispatched) State.reloadSheet s
  State.reloadEntries n (((s.sq? n).map (·.size)).getD 0) s

/-- The queues that a load gives up: all of a whole load's; else those of the rig outside its new ranges, and the submission queues
bound to such a completion queue (log entry 47). -/
def State.cqsGone (s : State) (c : Content) : List Nat :=
  (s.cqs.filter fun x => match x.2 with
    | none => false
    | some q => imgKind c = 0 || ((imgRigs c).any fun r => r.rig = q.rig
        && (imgKind c = 2 || !(decide (r.cqFirst ≤ x.1) && decide (x.1 ≤ r.cqLast))))).map Prod.fst
def State.sqsGone (s : State) (c : Content) : List Nat :=
  (s.sqs.filter fun x => match x.2 with
    | none => false
    | some q => imgKind c = 0 || ((imgRigs c).any fun r => r.rig = q.rig
        && (imgKind c = 2 || !(decide (r.sqFirst ≤ x.1) && decide (x.1 ≤ r.sqLast)) || (s.cqsGone c).contains q.cq))).map Prod.fst

/-! ### Rigs -/

/-- Signals and barriers of a rig's ranges are zero (R167): arrivals, waiters, PHASE and cross-device state (log entry 148). -/
def State.zeroSync (s : State) (r : ImgRig) : State :=
  let inSig := fun (k : Nat) => decide (r.sigFirst ≤ k) && decide (k ≤ r.sigLast)
  let s := { s with sigs := s.sigs.filter (fun x => !inSig x.1), waiters := s.waiters.filter (fun x => !inSig x.1)
                    obArr := s.obArr.filter fun x => !(decide (r.obFirst ≤ x.1 / 128) && decide (x.1 / 128 < r.obFirst + r.obCount)) }
  let s := each (List.range r.obCount) (fun s i =>
    s.setReg F.SYN_OB_PH_PHASE 0 (r.obFirst + i)) s
  each (List.range r.xbCount) (fun s i =>
    let k := r.xbFirst + i
    { s with xbars := s.xbars.set {} k {} }.setReg F.SYN_XB_PH_PHASE 0 k) s

/-- The policy in force: by size, abort up to 16 tiles, else mark (R145). -/
def faultOf (m : ImgMode) (tiles : Nat) : Nat := if m.pol % 4 = 0 then (if tiles ≤ 16 then 1 else 2) else m.pol % 4

/-- The mode entry of a rig written to its registers (R159, R174); the take registers count since this load, and pending shadow writes of the live
fields that the image does not hold are discarded (R167, R274). -/
def State.placeModes (s : State) (r : ImgRig) (m : ImgMode) : State :=
  let n := r.rig
  let s := ((s.setReg F.IMG_RMODE_SPLIT r.split n).setReg F.IMG_RMODE_UPDATE m.update n).setReg F.IMG_RMODE_FAULT (faultOf m r.tiles.length) n
  let s := (s.setReg F.IMG_RMODE_COVF (m.num / 2) n).setReg F.IMG_RMODE_MAXMIN m.num n
  let s := ((s.setReg F.IMG_RSTC_SATNF (m.pol / 16) n).setReg F.IMG_RSTC_GRAD (m.pol / 32) n).setReg F.IMG_RSTC_SEGLEN m.seglen n
  let s := (s.setReg F.IMG_RLIVE_LSGROW m.lsgrow n).setReg F.IMG_RLNOW_LSGROW m.lsgrow n
  let s := (s.setReg F.IMG_RLIVE_STRAG (m.pol / 4) n).setReg F.IMG_RLNOW_STRAG (m.pol / 4) n
  let s := each m.hyper.zipIdx (fun s h => (s.setReg F.IMG_RHYP_VALUE h.1 (8 * n + h.2)).setReg F.IMG_RHNOW_VALUE h.1 (8 * n + h.2)) s
  let s := (s.setReg F.IMG_TNPRT_COUNT 0 n).setReg F.IMG_TNLATE_COUNT 0 n
  let s := (s.setReg F.IMG_TSTRG_TIME (s.get F.IMG_TSTRGN_TIME n) n).setReg F.IMG_TPTAB_SPACE (s.get F.IMG_TPTABN_SPACE n) n
  let s := (s.setReg F.IMG_TPTAB_ADDR (s.get F.IMG_TPTABN_ADDR n) n).setReg F.IMG_TPTAB_VALID (s.get F.IMG_TPTABN_VALID n) n
  ((s.setReg F.IMG_TLS_LOG2 m.lsinit n).setReg F.IMG_TLS_NCONS 0 n).setReg F.IMG_TNSTR_COUNT 0 n |>.setReg F.IMG_TNUM_NUM 0 n

/-- A rig of the image comes into being. -/
def State.placeRig (s : State) (c : Content) (r : ImgRig) : State :=
  let n := r.rig
  let was := (s.rig n).exists_
  let s := if was || s.rigState n = rigLoading then s else (s.clearRig n).setReg F.IMG_RSTAT_STATE rigLoading n
  let ls := (((imgModes c).find? fun m => m.rig = n).map (·.lsinit)).getD 16
  let s := s.modRig n fun _ =>
    { exists_ := true, tiles := r.tiles, fused := ((imgFuses c).filter fun f => f.rig = n).map fun f => { shape := f.shape, members := f.members }
      sqFirst := r.sqFirst, sqLast := r.sqLast, cqFirst := r.cqFirst, cqLast := r.cqLast, sigFirst := r.sigFirst, sigLast := r.sigLast
      obFirst := r.obFirst, obCount := r.obCount, xbFirst := r.xbFirst, xbCount := r.xbCount, take := { lsLog := ls } }
  let s := { s with exchanges := s.exchanges.filter fun x => x.rig ≠ n }
  let s := each r.tiles (fun s t => s.wireTile c r t) s
  let s := each ((imgFuses c).filter fun f => f.rig = n) State.fuseTiles s
  let s := match (imgModes c).find? fun m => m.rig = n with
    | some m => s.placeModes r m
    | none => s
  let s := (s.zeroSync r).setReg F.SYN_RIG_RSGRP 0xFFF n
  if was && imgKind c = 1 then s.bump F.IMG_RSTAT_NLOAD 1 n else s

/-- The windows of a rig that becomes absent are disabled (R294). -/
def State.closeWindows (s : State) (n : Nat) : State :=
  each ((List.range 256).filter fun w => s.flag F.FAB_WIN_0_EN w && s.get F.FAB_WIN_0_RIG w = n) (fun s w => s.setReg F.FAB_WIN_0_EN 0 w) s

/-- A rig that the image leaves out is absent. -/
def State.removeRig (s : State) (n : Nat) : State :=
  { (s.clearRig n).closeWindows n with rigs := s.rigs.set {} n {}, exchanges := s.exchanges.filter fun x => x.rig ≠ n }

/-! ### Applying (R165 steps 3 to 5, R166) -/

/-- Has a rig stopped: no task in progress, no take open (R164)? -/
def State.rigIdle (s : State) (n : Nat) : Bool := !(s.sheets.any fun h => h.rig = n && h.dispatched) && (s.rig n).take.state = 0

/-- The logical tiles that a load fills. -/
def State.loadTiles (s : State) (c : Content) : List Nat :=
  if imgKind c = 0 then (List.range 72).filter fun t => s.flag F.GLB_TMAP_VALID t
  else ((imgRigs c).flatMap fun r => (s.rig r.rig).tiles ++ r.tiles).eraseDups

/-- The image in force. -/
def State.applyImage (s : State) (c : Content) : State :=
  let rigs := s.loadRigs c
  let s := { s with txs := s.txs.filter fun j => !rigs.contains j.rig }
  let s := each (s.cqsGone c) (fun s m => s.modCq m fun q => { q with gone := true }) (each (s.sqsGone c) State.giveUp s)
  let s := each (s.loadTiles c) State.bareTile s
  let s := s.placeSpaces c rigs
  let keep := if imgKind c = 2 then [] else (imgRigs c).map (·.rig)
  let s := each (rigs.filter fun n => !keep.contains n) State.removeRig s
  let s := if imgKind c = 2 then s else (each (imgRigs c) (fun s r => s.placeRig c r) s).placeFloors c
  if imgKind c = 0 then
    (s.setReg F.IMG_DEV_COMP (c.u8 (secOff c 5))).setReg F.IMG_DEV_HEATEPOCH (c.u16 (secOff c 5 + 4))
  else s

/-- IMAGE_APPLY. -/
def execImageApply (s : State) : Result :=
  match s.load with
  | none => .next s
  | some l => gated (s.get F.IMG_STAT_STATE = 3 && (s.loadRigs l.img).all s.rigIdle)
      (fun s => (s.applyImage l.img).setReg F.IMG_STAT_STATE 4) s

/-- The digests and the chain (R403, R404). -/
def State.measure (s : State) (c : Content) : State :=
  let d := imgDigestOf c
  let whole := decide (imgKind c = 0)
  { s.setWide F.IMG_DIG_BYTES d with
    imgSlot := c.u8 7, imgDigest := if whole then d else s.imgDigest, imgLoads := if whole then 0 else s.imgLoads + 1
    chain := Config.shake256 ((if whole then List.replicate 64 0 else digest64 s.chain) ++ d) 64 }

/-- Has a rig every tile it names (R361)? -/
def State.rigWhole (s : State) (n : Nat) : Bool := (s.rig n).tiles.all fun t => s.flag F.GLB_TMAP_VALID t

/-- IMAGE_APPLY_COMPLETE: once the completions of the queues given up have been written, these are deleted and the rigs run, or are
stopped under HOLD, or while a trip of i16 or i17 holds the device (R385). -/
def execImageApplyComplete (s : State) : Result :=
  match s.load with
  | none => .next s
  | some l =>
    let c := l.img
    let sqs := s.sqsGone c
    let cqs := s.cqsGone c
    gated (s.get F.IMG_STAT_STATE = 4 && !(s.compls.any fun x => sqs.contains x.sq || cqs.contains x.cq)) (fun s =>
      let s := { s with
        sqs := each sqs (fun (m : FMap (Option Sq)) n => m.set none n none) s.sqs
        cqs := each cqs (fun (m : FMap (Option Cq)) n => m.set none n none) s.cqs }
      let s := if imgKind c = 2 then s
        else each (imgRigs c) (fun s r => s.setReg F.IMG_RSTAT_STATE (if l.hold || s.tripHold || !s.rigWhole r.rig then rigStopped else rigRunning) r.rig) s
      let s : State := (s.measure c).raiseFlag F.IMG_STAT_ACC
      let s : State := { s.setReg F.IMG_STAT_STATE 0 with load := none }
      if imgKind c = 0 then
        let s : State := s.setReg F.IMG_ID_ID (c.u64 16)
        if s.get F.SEC_BOOT_STEP = 10 then s.setReg F.SEC_BOOT_STEP 11 else s
      else s) s

/-! ### Rig control (R164, R176) -/

/-- A write to IMG_RCTL of rig `n`; a rig with a retired tile stays stopped, and so does every rig of a device that a trip of i16 or i17 holds (R385). -/
def State.rigCtl (s : State) (n d : Nat) : State :=
  let st := s.rigState n
  let graceful := st = rigStopping && !(s.rig n).killed
  if st = rigAbsent then s
  else if st = rigLoading then s.raiseFlag F.IMG_RSTAT_BADW n
  else if bit d 2 then (if st = rigRunning || graceful then s.killRig n else s)
  else if bit d 1 then (if st = rigRunning then s.setReg F.IMG_RSTAT_STATE rigStopping n else s)
  else if bit d 0 && (st = rigStopped || graceful) && s.rigWhole n && !s.tripHold then
    (s.modRig n fun r => { r with killed := false }).setReg F.IMG_RSTAT_STATE rigRunning n
  else s

/-- RIG_GO. -/
def execRigGo (n : Nat) (data : Word) (s : State) : Result := gated s.ioReached (·.rigCtl n data.toNat) s
/-- RIG_STOP. -/
def execRigStop (n : Nat) (data : Word) (s : State) : Result := gated s.ioReached (·.rigCtl n data.toNat) s
/-- RIG_KILL. -/
def execRigKill (n : Nat) (data : Word) (s : State) : Result := gated s.ioReached (·.rigCtl n data.toNat) s

/-- RIG_STOPPED: a stopping rig has no task in progress and no take open. -/
def execRigStopped (n : Nat) (s : State) : Result :=
  gated (s.rigState n = rigStopping && s.rigIdle n) (·.setReg F.IMG_RSTAT_STATE rigStopped n) s

end Sys2Proof.Machine
end

