-- ==== Sys2Proof/Machine/Recovery.lean ====
section
/-! DEFINITION. Spare tiles and the spare management core (R17, R358 to R361). -/

namespace Sys2Proof.Machine

/-- The held spare that replaces tile `p`: of the same island, else the one with the lowest number (R359). -/
def State.spareFor (s : State) (p : Nat) : Option Nat :=
  let held := (List.range 80).filter fun q => s.get F.GLB_PMAP_STATE q = 1
  match held.find? fun q => islandOf q = islandOf p with
  | some q => some q
  | none => held.head?

/-- The parts in progress that use physical tile `p`: log number and lead; a fused array's part is the whole array's. -/
def State.partsOn (s : State) (p : Nat) : List (Nat × Nat) :=
  s.sheets.flatMap fun h => if !h.dispatched || h.status.isSome then []
    else (h.parts.filter fun q => !q.done && (q.tiles.map s.phys).contains p).map fun q => (h.logno, q.lead)

/-! ### A tile's state moves to the spare -/

/-- The registers of a per-tile block that carry the logical tile: all but the spare maps (R428). -/
def carried : List (Reg × List Field) :=
  regTable.filter fun r => decide (0x1000000 ≤ r.1.base) && r.1 != R.VEC_LMAP && r.1 != R.STRM_EMAP && r.1 != R.STRM_ESPR

/-- The block of tile `q` carries what that of `p` carried, which goes to its reset values. -/
def State.moveBlock (s : State) (p q : Nat) : State :=
  each carried (fun s r => each r.2 (fun s f =>
    let m := r.1.count / 80
    each (List.range m) (fun s i => (s.setReg f (s.get f (m * p + i)) (m * q + i)).setReg f f.rst (m * p + i)) s) s) s

/-- What stays with a physical tile: its spares, its generator, the counts of this heat epoch (R88, R97, R125, R358). -/
def Tile.hardware (t : Tile) : Tile :=
  { rowSpares := t.rowSpares, draws := t.draws, badLanes := t.badLanes, badEngs := t.badEngs, perrs := t.perrs, rowCes := t.rowCes,
    replays := t.replays }

/-- The work of a tile, on the hardware of another. -/
def Tile.onto (t h : Tile) : Tile :=
  { t with rowSpares := h.rowSpares, draws := h.draws, badLanes := h.badLanes, badEngs := h.badEngs, perrs := h.perrs
           rowCes := h.rowCes, replays := h.replays }

/-- A number that names tile `p` names `q`; a key `16 × tile + unit` and a floor's user `8 × tile + engine` likewise. -/
def reTile (p q x : Nat) : Nat := if x = p then q else x
def reUnit (p q x : Nat) : Nat := 16 * reTile p q (x / 16) + x % 16
def reEng (p q x : Nat) : Nat := 8 * reTile p q (x / 8) + x % 8

/-- The floor's key with the tile replaced: as a buffer's tile, for buffers that a tile has, and as the user's. -/
def reFloor (p q k : Nat) : Nat :=
  let b := k / 2 ^ 32
  let bt := k / 2 ^ 16 % 2 ^ 16
  2 ^ 32 * b + 2 ^ 16 * (if b = 4 then bt else reTile p q bt) + reEng p q (k % 2 ^ 16)

/-- A map under new keys. -/
def FMap.rekey {α : Type} (f : Nat → Nat) (m : FMap α) : FMap α := each m (fun (n : FMap α) e => n.put (f e.1) e.2) []

/-- A log record that names a tile's bank or unit. -/
def LogKind.reTile (p q : Nat) : LogKind → LogKind
  | .mark u o w => .mark (reUnit p q u) o w
  | .bank t b e x => .bank (Machine.reTile p q t) b e x
  | k => k

/-- A spare's store, registers and work become those of the tile it replaces (R359 steps 3 and 4). -/
def State.moveTile (s : State) (p q : Nat) : State :=
  let a := s.tile p
  let b := s.tile q
  let s := ((s.moveBlock p q).modTile q fun _ => a.onto b).modTile p fun _ => a.hardware
  { s with
    waiters := s.waiters.map fun (w : Nat × List Waiter) => (w.1, w.2.map fun (x : Waiter) => { x with tile := reTile p q x.tile })
    obArr := FMap.rekey (fun k => 128 * (k / 128) + reTile p q (k % 128)) s.obArr
    floors := FMap.rekey (reFloor p q) s.floors
    colls := s.colls.map fun (c : Coll) => if c.rig.isNone then { c with tile := reTile p q c.tile } else c
    negReads := s.negReads.map fun (n : NegRead) =>
      { n with readers := n.readers.map fun (r : Nat × Nat × Nat) => (reTile p q r.1, r.2) }
    wc := s.wc.map fun (w : WcEntry) => { w with user := reEng p q w.user }
    log := s.log.map fun (r : LogRec) => { r with kind := r.kind.reTile p q } }

/-! ### The maps -/

/-- Step 5: the maps of the tiles and the PMASK of every on-chip barrier, in one step (R10, R304). -/
def State.mapSpare (s : State) (p q : Nat) : State :=
  let t := s.logical p
  let s := ((s.setReg F.GLB_PMAP_STATE 2 p).setReg F.GLB_PMAP_LOGICAL 0x7F p).setReg F.GLB_TMAP_PHYS q t
  let s := (s.setReg F.GLB_PMAP_STATE 0 q).setReg F.GLB_PMAP_LOGICAL t q
  each (List.range 64) (fun s k =>
    let m := s.get F.SYN_OB_PM_PMASK k
    if bit m p then s.setReg F.SYN_OB_PM_PMASK (setBits (setBits m p p 0) q q 1) k else s) s

/-- A tile is retired without a spare (R361): its rig is stopped at once, its numbers go. -/
def State.retireTile (s : State) (p : Nat) : State :=
  let t := s.logical p
  let s := match s.rigOf p with
    | some n => s.killRig n
    | none => s
  let s := (s.setReg F.GLB_PMAP_STATE 2 p).setReg F.GLB_PMAP_LOGICAL 0x7F p
  let s := (s.setReg F.GLB_TMAP_VALID 0 t).setReg F.GLB_TMAP_PHYS 0x7F t
  let s := each (List.range 64) (fun s k =>
    let m := s.get F.SYN_OB_PM_PMASK k
    if bit m p then s.setReg F.SYN_OB_PM_PMASK (setBits m p p 0) k else s) s
  { (s.modTile p Tile.hardware).wantCommit { whole := false } with
    tilesNeed := s.tilesNeed.filter (· ≠ p), obArr := s.obArr.filter fun x => x.1 % 128 ≠ p }

/-- Tile `p` is replaced (R359), or retired where no spare is held (R361); `errs` are the words of its store that the copy finds in error. -/
def State.substitute (s : State) (p : Nat) (errs : List (Nat × Nat)) (unread : Unread) : State :=
  match s.spareFor p with
  | none => s.retireTile p
  | some q =>
    let s := s.storeErrs p 0 (storeSize / 8) errs
    let parts := s.partsOn p
    let s := each parts (fun s x => match s.livePart x.1 x.2 with
      | some r => each (r.tiles.map s.phys) (fun s y => s.dropPartTile x.1 x.2 y) s
      | none => s) s
    let s := (s.moveTile p q).mapSpare p q
    let s : State := { s with tilesNeed := s.tilesNeed.filter (· ≠ p) }
    let s := (s.spareIn 0 1 p p q).recovery 5 1 p 0 0
    each parts (fun s x => s.restartPart x.1 x.2 q) (s.noteUnread unread)

/-- TILE_SUBSTITUTION (R358, R359). -/
def execTileSubstitution (u : Substitution) (s : State) : Result :=
  gated (s.tilesNeed.contains u.tile && s.enabled u.tile) (·.substitute u.tile u.errs u.unread) s

/-- Is the slowest stage of a tile slower than at test by more than the threshold (R360)? -/
def State.aged (s : State) (p : Nat) : Bool :=
  let h := s.flog.hists.get {} p
  let thr := s.get F.TWN_SPCFGNOW_AGETHR
  thr != 0 && (List.range 16).any fun k => decide (h.medianAt k * 100 > Config.testRatio p k * (100 + thr))

/-- AGING_SUBSTITUTION (R360): the tile's rig has no take open and no part on the tile. -/
def execAgingSubstitution (u : Substitution) (s : State) : Result :=
  gated (s.enabled u.tile && s.aged u.tile && (s.partsOn u.tile).isEmpty && (match s.rigOf u.tile with
    | some n => (s.rig n).take.state = 0
    | none => true)) (·.substitute u.tile u.errs u.unread) s

/-- MGMT_CORE_FAILOVER (R17, R358): the spare core takes the place of the one that fails. A step that a core had in progress is repeated:
every step of the model is whole. A part that waits for such a step, the training of a link or a channel it reads through, is replayed (R336, R350;
log entry 133). A core that fails with no spare left is the loss of the device: every rig is stopped at once (R357). -/
def execMgmtCoreFailover (x : UnitFault) (s : State) : Result :=
  let c := x.unit
  gated (!s.mgmtFailed.contains c) (fun s =>
    let s1 : State := { s with mgmtFailed := s.mgmtFailed ++ [c] }
    if s.mgmtFailed.isEmpty then
      let s2 := ((s1.spareIn 8 5 c c 4).recovery 6 5 c 0 0).noteUnread x.unread
      each (s2.partsReading s2.homeWaits) (fun s x => s.restartPart x.1 x.2.1 x.2.2) s2
    else s1.killAll) s

end Sys2Proof.Machine
end

