-- ==== Sys2Proof/Machine/Security.lean ====
section
/-! DEFINITION. Keys, firmware updates, attestation, debug sessions and the test access port (R399 to R408). -/

namespace Sys2Proof.Machine

/-! ### Owner keys (R400, R401) -/

/-- The first condition of R401, of 1 to 5, that a record fails; 0: none. -/
def State.keyErr (s : State) (r : List Byte) : Nat :=
  let n := fun i => ((r[i]?).map (·.toNat)).getD 0
  let slot := n 5
  let signer := n 6
  let enrol := decide (n 4 = 1)
  let any := (List.range 4).any fun k => s.enrolled k
  if slice r 0 4 != [0x4B, 0x45, 0x59, 0x01] || !(n 4 = 1 || n 4 = 2) || n 7 != 0 || !allZero (slice r 129 7) || !allZero (slice r 250 6)
      || (!enrol && !allZero (slice r 72 57)) || (signer = 0xFF && !allZero (slice r 136 114)) || slice r 8 64 != s.devDig then 1
  else if decide (slot > 3) || (if enrol then s.enrolled slot else !s.enrolled slot || s.revoked slot) then 2
  else if signer = 0xFF && !(enrol && slot = 0 && !any) then 3
  else if signer != 0xFF && !(decide (signer < 4) && s.enrolled signer && !s.revoked signer && signer != slot
      && signedBy (s.ownerKey signer) (r.take 136) (slice r 136 114)) then 4
  else if !enrol && !(List.range 4).any (fun k => s.enrolled k && !s.revoked k && k != slot) then 5
  else 0

/-- A key command ends with an error. -/
def State.keyFail (s : State) (e : Nat) : State := (s.setReg F.SEC_KSTAT_ERR e).raiseFlag F.SEC_KSTAT_ERRF

/-- A write to SEC_KCMD. -/
def State.keyCmd (s : State) (d : Nat) : State :=
  if !bit d 0 then s
  else if s.flag F.SEC_KSTAT_BUSY then s.raiseFlag F.SEC_KSTAT_BUSYW
  else
    let r := s.wide F.SEC_KREC_BYTES
    let s := s.offer (Config.evtCode 50)
    match s.keyErr r with
    | 0 => { (s.setReg F.SEC_KSTAT_ERR 0).setReg F.SEC_KSTAT_BUSY 1 with
        keyOp := some { enrol := decide (r[4]? = some 1), slot := ((r[5]?).map (·.toNat)).getD 0, key := slice r 72 57 } }
    | e => s.keyFail e

/-- Is the record in SEC_KREC a revocation? -/
def State.krecRevokes (s : State) : Bool := (s.wide F.SEC_KREC_BYTES)[4]? = some 2

/-- KEY_ENROL. -/
def execKeyEnrol (data : Word) (s : State) : Result := gated (s.ioReached && !s.krecRevokes) (·.keyCmd data.toNat) s

/-- KEY_REVOKE. -/
def execKeyRevoke (data : Word) (s : State) : Result := gated (s.ioReached && s.krecRevokes) (·.keyCmd data.toNat) s

/-- KEY_FUSE_PROGRAM_DONE: the fuses take the command, or programming did not verify and they are unchanged (R401). -/
def execKeyFuseProgramDone (ok : Bool) (s : State) : Result :=
  match s.keyOp with
  | none => .next s
  | some k =>
    let s := { s with keyOp := none }.setReg F.SEC_KSTAT_BUSY 0
    .next (
      if !ok then s.keyFail 6
      else if k.enrol then (s.burnBytes (fuOKEY k.slot) k.key).burn (fuOKST k.slot) 0 1
      else s.burn (fuOKST k.slot) 1 1)

/-! ### Firmware (R399) -/

/-- WRITE: the image is copied into the management store, which holds the staging area meanwhile; FWUPD steps follow (R399). -/
def State.fwWrite (s : State) : State :=
  let img := s.staging.bytesAt 0 (fwTake (fwLen (s.staging.bytesAt 0 8)))
  { s.setReg F.SEC_FWSTAT_BUSY 1 with fwOp := some { img := img } }.requestAct { kind := 5, res := [500], cmd := true }

/-- COMMIT: FWSVN is raised to the SVN of the running firmware. -/
def State.fwCommit (s : State) : State :=
  if s.fwSvn ≤ s.fuseSvn then s.fwFail 3
  else s.burnBytes fuFWSVN (leBytes 8 (2 ^ s.fwSvn - 1))

/-- A write to SEC_FWCMD. -/
def State.fwCmd (s : State) (d : Nat) : State :=
  let s := s.setReg F.SEC_FWCMD_OP (bits d 31 28)
  if !bit d 0 then s
  else if s.flag F.SEC_FWSTAT_BUSY || s.get F.IMG_STAT_STATE != 0 then s.raiseFlag F.SEC_FWSTAT_BUSYW
  else
    let s := (s.setReg F.SEC_FWSTAT_ERR 0).offer (Config.evtCode 51)
    if bits d 31 28 = 1 then s.fwWrite
    else if bits d 31 28 = 2 then s.fwCommit
    else s.fwFail 5

/-- FIRMWARE_WRITE. -/
def execFirmwareWrite (data : Word) (s : State) : Result := gated (s.ioReached && (bits data.toNat 31 28 = 1)) (·.fwCmd data.toNat) s

/-- FIRMWARE_COMMIT. -/
def execFirmwareCommit (data : Word) (s : State) : Result := gated (s.ioReached && (bits data.toNat 31 28 = 2)) (·.fwCmd data.toNat) s

/-- FIRMWARE_WRITE_DONE: the copy that did not boot holds the image and is preferred, or the flash write failed and what that copy holds stays open. -/
def execFirmwareWriteDone (ok : Bool) (s : State) : Result :=
  match s.fwOp, s.acts.find? (·.kind = 5) with
  | some f, some a => gated (!f.copying) (fun s =>
      let s := ({ s with fwOp := none }.setReg F.SEC_FWSTAT_BUSY 0).endAct a.id
      let c := 1 - s.get F.SEC_BOOT_FWCOPY
      if ok then { s with flashImg := s.flashImg.set none c (some f.img), preferred := c } else s.fwFail 4) s
  | _, _ => .next s

/-! ### Attestation (R403) -/

/-- A write to SEC_ACMD: every value of the report is taken now. -/
def State.attCmd (s : State) (d : Nat) : State :=
  if !bit d 0 then s
  else if s.flag F.SEC_ASTAT_BUSY then s.raiseFlag F.SEC_ASTAT_BUSYW
  else { (s.setReg F.SEC_ASTAT_BUSY 1).offer (Config.evtCode 52) with report := some s.reportBytes, reports := s.reports + 1 }

/-- ATTEST_REQUEST. -/
def execAttestRequest (data : Word) (s : State) : Result := gated s.ioReached (·.attCmd data.toNat) s

/-- ATTEST_REPORT_DONE. -/
def execAttestReportDone (s : State) : Result :=
  match s.report with
  | none => .next s
  | some b => .next ((({ s with report := none }.setWide F.SEC_AREP_BYTES b).setReg F.SEC_ASTAT_BUSY 0).raiseFlag F.SEC_ASTAT_DONE)

/-! ### Debug sessions (R407, R408) -/

/-- Does a token open a session? -/
def State.tokenOk (s : State) (t : List Byte) : Bool :=
  let n := fun i => ((t[i]?).map (·.toNat)).getD 0
  let signer := n 5
  slice t 0 4 = [0x44, 0x42, 0x47, 0x01] && decide (n 4 < 16) && allZero (slice t 250 6) && s.session.isNone && !s.dbgKill
    && slice t 8 64 = s.devDig && slice t 72 64 = s.wide F.SEC_DNONCE_BYTES && (!bit (n 4) 3 || signer = 0xFF)
    && (if signer = 0xFF then signedBy s.fwKey (t.take 136) (slice t 136 114)
        else decide (signer < 4) && s.enrolled signer && !s.revoked signer && signedBy (s.ownerKey signer) (t.take 136) (slice t 136 114))

/-- A token is presented. -/
def State.present (s : State) (t : List Byte) : State :=
  if s.tokenOk t then
    let scope := ((t[4]?).map (·.toNat)).getD 0
    ({ (s.setReg F.SEC_DSTAT_SCOPE scope).setReg F.SEC_DSTAT_OPENF 1 with
      session := some { scope := scope, life := leNat (slice t 6 2), since := s.now }, everOpen := true }).offer (Config.evtCode 53)
  else (s.raiseFlag F.SEC_DSTAT_ERR).offer (Config.evtCode 54)

/-- The session ends. -/
def State.endSession (s : State) : State :=
  if s.session.isSome then
    (({ (s.setReg F.SEC_DSTAT_SCOPE 0).setReg F.SEC_DSTAT_OPENF 0 with session := none }).newNonce).offer (Config.evtCode 55)
  else s

/-- A write to SEC_DCTL: END first, then OPEN. -/
def State.dctl (s : State) (d : Nat) : State :=
  when (bit d 0) (fun s => s.present (s.wide F.SEC_DTOK_BYTES)) (when (bit d 1) State.endSession s)

/-- DEBUG_OPEN. -/
def execDebugOpen (data : Word) (s : State) : Result := gated s.ioReached (·.dctl data.toNat) s

/-- DEBUG_END. -/
def execDebugEnd (data : Word) (s : State) : Result := gated s.ioReached (·.dctl data.toNat) s

/-- The instructions of the test access port, in the model's numbering (log entry 5). -/
def tapIDCODE : Nat := 1
def tapBYPASS : Nat := 2
def tapDBGTOK : Nat := 6
def tapSCOPE : Nat := 7

/-- DBGTOK: a token shifted in through the test access port. -/
def execDbgtok (token : List Byte) (s : State) : Result := .next ({ s with tapIr := tapDBGTOK }.present token)

/-- DEBUG_LIFE_EXPIRY: a LIFE of 0 does not expire. -/
def execDebugLifeExpiry (s : State) : Result :=
  match s.session with
  | none => .next s
  | some d => gated (d.life != 0 && decide (s.now ≥ d.since + d.life * 10 ^ 9)) State.endSession s

/-! ### The test access port (R407) -/

/-- IDCODE, fixed in the ROM. -/
def idcode : Nat := 0x0C1874A1

/-- TAP_IDCODE. -/
def execTapIdcode (s : State) : Result := .next ({ s with tapIr := tapIDCODE }.emit (.tdo idcode))

/-- Bits, first shifted lowest. -/
def bitsNat : List Bool → Nat
  | [] => 0
  | b :: l => b2n b + 2 * bitsNat l

/-- TAP_BYPASS: TDI comes out one bit later, after the zero that the bypass bit captures. -/
def execTapBypass (tdi : List Bool) (s : State) : Result :=
  .next ({ s with tapIr := tapBYPASS }.emit (.tdo (bitsNat ((false :: tdi).take tdi.length))))

/-- BOUNDARY_SCAN: the bits of the boundary cells, which the spec does not list, come out. -/
def execBoundaryScan (kind : Nat) (tdi : List Bool) (s : State) : Result :=
  .next (({ s with tapIr := 3 + kind }.emit (.tdo (Config.freeNat s.fresh 0 % 2 ^ tdi.length))).spend)

/-- Is a scope open (R407)? -/
def State.scopeOpen (s : State) (b : Nat) : Bool := !s.dbgLock || bit ((s.session.map (·.scope)).getD 0) b

/-- The bytes written through a session to one line: to the page's current content, whatever its owner, sealing or take. -/
def State.debugLine (s : State) (space addr : Nat) (bs : List Byte) : State :=
  let key := keyOf space addr
  match s.page? key with
  | none => s
  | some p =>
    let s := s.flushLine key (addr % 2 ^ 16 / 256) .current
    let s := when p.zero (·.rehome key {}) s
    s.modVer key .current fun c => c.write (addr % 2 ^ 16) bs

/-- The bytes written through a session, line by line. -/
def State.debugWrite (s : State) (space addr : Nat) (data : List Byte) : State :=
  each (List.range ((addr % 256 + data.length + 255) / 256)) (fun s i =>
    let start := if i = 0 then 0 else 256 * i - addr % 256
    let bs := (data.drop start).take (if i = 0 then 256 - addr % 256 else 256)
    s.debugLine space (addr + start) bs) s

/-- The bytes read through a session; an address without a page reads as zero. -/
def State.debugRead (s : State) (space addr len : Nat) : List Byte :=
  (List.range len).map fun i => (s.merged (keyOf space (addr + i)) .current).byte ((addr + i) % 2 ^ 16)

/-- DEBUG_SCOPE_ACCESS: scans return free bits, memory reads and writes act on memory and tile stores, management-core debug has no
effect that the spec gives (log entry 46). -/
def execDebugScopeAccess (a : DebugAccess) (s : State) : Result :=
  let s1 := { s with tapIr := tapSCOPE }
  match a with
  | .scan _ l => gated (s.scopeOpen 0) (fun _ => (s1.emit (.tdo (Config.freeNat s.fresh 0 % 2 ^ l.length))).spend) s
  | .readMem space addr len => gated (s.scopeOpen 1) (fun _ => s1.emit (.tdoBytes (s.debugRead space addr len))) s
  | .writeMem space addr data => gated (s.scopeOpen 2) (fun _ => s1.debugWrite space addr data) s
  | .readTile p addr len => gated (s.scopeOpen 1 && decide (p < 80)) (fun _ => s1.emit (.tdoBytes ((s.tile p).store.bytesAt addr len))) s
  | .writeTile p addr data => gated (s.scopeOpen 2 && decide (p < 80) && decide (addr + data.length ≤ storeSize))
      (fun _ => s1.modTile p fun t => { t with store := t.store.write addr data }) s
  | .core _ => gated (s.scopeOpen 3) (fun _ => s1) s

end Sys2Proof.Machine
end

