-- ==== Sys2Proof/Machine/Tier.lean ====
section
/-! DEFINITION. Placement (R185 to R198, R214): heat epochs, descent sweeps, moves, flushes. -/

namespace Sys2Proof.Machine

/-! ### Heat epochs (R186) -/

/-- HEAT_EPOCH_END: the values with boundary next heat epoch come into force, what counts per epoch starts again, a routine
commit of the flight log is due every 2^CEPOCH epochs (R171, R186, R188, R189, R228, R358, R419). -/
def execHeatEpochEnd (s : State) : Result :=
  let lim := s.get F.IMG_DEV_HEATEPOCH * 2 ^ 30
  gated (decide (lim > 0) && decide (s.get F.TIER_EBYTE_COUNT ≥ lim)) (fun s =>
    let s := { s with pages := s.pages.mapv none fun e => e.map fun (p : Page) => { p with heat := p.heat / 2 } }
    let s := (s.setReg F.TIER_EBYTE_COUNT (s.get F.TIER_EBYTE_COUNT - lim)).bump F.TIER_EPOCH_COUNT
    let s := s.setReg F.TIER_CFGNOW_ASC (s.get F.TIER_CFG_ASC)
    let s := s.setReg F.TIER_CFGNOW_DESC (s.get F.TIER_CFG_DESC)
    let s := s.setReg F.TIER_CFGNOW_T3W (s.get F.TIER_CFG_T3W)
    let s := s.setReg F.TIER_CFGNOW_LOWM (s.get F.TIER_CFG_LOWM)
    let s := s.setReg F.ECC_CFGNOW_CETHR (s.get F.ECC_CFG_CETHR)
    let s := s.setReg F.TWN_SPCFGNOW_AGETHR (s.get F.TWN_SPCFG_AGETHR)
    let s := s.setReg F.TWN_SPCFGNOW_REPTHR (s.get F.TWN_SPCFG_REPTHR)
    let s := s.setReg F.EVT_FLCFGNOW_CEPOCH (s.get F.EVT_FLCFG_CEPOCH)
    let d := s.get F.TIER_CFGNOW_DESC
    let s := { s with
      sweeps := each [0, 1, 2] (fun m k => m.upd {} k fun w => { w with d := d }) s.sweeps
      t3wEpoch := 0
      chans := s.chans.mapv {} fun c => { c with ce := 0, once := false }
      tiles := s.tiles.mapv {} fun t => { t with perrs := [], rowCes := [], replays := 0 } }
    when (s.get F.TIER_EPOCH_COUNT % 2 ^ s.get F.EVT_FLCFGNOW_CEPOCH = 0) State.routineCommit s.healthLogs) s

/-! ### Descent (R188, R189) -/

/-- Is a tier below its low-water mark? -/
def State.belowMark (s : State) (k : Nat) : Bool :=
  decide (64 * s.freeUnits k < s.get F.TIER_CFGNOW_LOWM * s.tierUnits k)

/-- The next page of a tier in frame order from `pos` on. -/
def State.nextFrame (s : State) (k pos : Nat) : Option (Nat × Page) :=
  let l := s.pages.filterMap fun e => match e.2 with
    | some p => if p.tier = k && !p.zero && decide (pos ≤ p.frame) then some (e.1, p) else none
    | none => none
  match l with
  | [] => none
  | a :: l => some (each l (fun o x => if x.2.frame < o.2.frame then x else o) a)

/-- A sealed page's descent to tier 3 writes nothing: the negative becomes its home (R198). -/
def Page.toNegative (p : Page) (dest : Nat) : Bool := p.ro && p.neg && dest = 3

/-- Units that a page takes in a tier when it moves there. -/
def State.moveUnits (s : State) (p : Page) (dest : Nat) : Nat := if p.toNegative dest then 0 else s.homeUnits dest p

/-- Where a descent goes (R188): the next tier down that has room. -/
def State.descentTo (s : State) (k : Nat) (p : Page) : Option Nat :=
  ((List.range 4).filter (· > k)).find? fun d => decide (s.tierUnits d > 0) && decide (s.moveUnits p d ≤ s.freeUnits d)

/-- A queued descent with its destination of now. -/
def State.aim (s : State) (m : Move) : Move :=
  match m.kind, s.page? m.page with
  | .descent, some p => { m with dest := (s.descentTo p.tier p).getD m.dest }
  | _, _ => m

/-- DESCENT_SWEEP: the sweep pointer of a tier below its mark visits the next page; after a whole sweep that descended nothing D
doubles. -/
def execDescentSweep (tier : Nat) (s : State) : Result :=
  gated (decide (tier < 3) && s.belowMark tier) (fun s =>
    let w := s.sweeps.get {} tier
    match s.nextFrame tier w.pos with
    | none =>
      let d := if w.hit then w.d else min 255 (2 * w.d)
      { s with sweeps := s.sweeps.set {} tier { pos := 0, d := d, hit := false } }
    | some x =>
      let waits := s.descentQ.any (·.page = x.1)
      let goes := !x.2.pin && !x.2.mov && !waits && (x.2.hint = 2 || decide (x.2.heat ≤ w.d))
      let dest? := if goes then s.descentTo tier x.2 else none
      let q : List Move := match dest? with
        | some d => [{ page := x.1, kind := .descent, dest := d }]
        | none => []
      { s with sweeps := s.sweeps.set {} tier { w with pos := x.2.frame + 1, hit := w.hit || dest?.isSome }
               descentQ := s.descentQ ++ q }) s

/-! ### Moves (R187, R191 to R195) -/

/-- The move that a page is to make next: the oldest forced ascent that no move in flight holds goes ahead of the oldest candidate
(R194, R195); a queued PIN, or a queued descent, which goes to the next tier down that has room when it starts (R188). -/
def State.nextMove (s : State) (page : Nat) : Option Move :=
  let f := s.forcedQ.find? fun k => !s.moving k
  if s.forcedQ.contains page then (if f = some page then some { page := page, kind := .forced } else none)
  else if s.ascentQ.head? = some page && f.isNone then some { page := page, kind := .ascent }
  else (s.descentQ.find? (·.page = page)).map s.aim

/-- Bytes of descents into tier 3 in flight (R189). -/
def State.t3Flying (s : State) : Nat := ((s.moves.filter fun m => m.dest = 3 && m.kind = .descent).map (4096 * ·.units)).sum

/-- Can a queued descent proceed to a tier above tier 3 now? -/
def State.canDescend (s : State) (m : Move) : Bool :=
  let m := s.aim m
  m.kind = .descent && m.dest ≠ 3 && !s.moving m.page && (match s.page? m.page with
    | some p => decide (s.moveUnits p m.dest ≤ s.freeUnits m.dest) && decide (s.tierUnits m.dest > 0)
    | none => false)

/-- May bytes go to tier 3 (R189)? Descents in flight count; the limit yields to a forced ascent that waits for a tier 0 frame while no other
descent proceeds or can. -/
def State.t3Allowed (s : State) (bytes : Nat) : Bool :=
  decide (s.t3wEpoch + s.t3Flying + bytes ≤ s.get F.TIER_CFGNOW_T3W * 2 ^ 30)
  || (!s.forcedQ.isEmpty && decide (s.freeUnits 0 < 16) && !(s.descentQ.any s.canDescend)
    && !(s.moves.any fun m => m.kind = .descent))

/-- Is a frame of `n` units online in a tier? -/
def State.frameOnline (s : State) (k frame n : Nat) : Bool :=
  match k with
  | 0 => decide (frame + n ≤ s.tierUnits 0)
  | 1 =>
    let u := frame / 2 ^ 32
    decide (u < 16) && decide (frame % 2 ^ 32 + n ≤ (s.links.get {} (10 + u / 2)).filled.get 0 (u % 2) * 2 ^ 18)
  | _ => (if k = 2 then s.t2 else s.t3).any fun d => d.online && decide (d.base ≤ frame) && decide (frame + n ≤ d.base + d.units)

/-- Free units of a tier 1 buffer channel. -/
def State.chanFree (s : State) (u : Nat) : Nat :=
  (s.links.get {} (10 + u / 2)).filled.get 0 (u % 2) * 2 ^ 18
    - ((s.pages.filterMap (·.2)).map fun p => if p.tier = 1 && !p.zero && p.frame / 2 ^ 32 = u then p.len + 1 else 0).sum
    - ((s.moves.filter fun m => m.dest = 1 && m.frame / 2 ^ 32 = u).map (·.units)).sum

/-- Does a frame lie where the device chooses: in tier 1, the buffer and channel with the most free space (R241)? -/
def State.frameChosen (s : State) (k frame : Nat) : Bool :=
  k ≠ 1 || (List.range 16).all fun u => decide (s.chanFree u ≤ s.chanFree (frame / 2 ^ 32))

/-- The line at MP is asked of the source, where it has to be, once the arbiter runs the move (R247). -/
def State.askLine (s : State) (page : Nat) : State :=
  match s.moves.find? (·.page = page) with
  | some m =>
    if m.asked || decide (m.mp ≥ 256) || s.ctlReset.contains moveCtl || !s.acts.any (·.id = m.act) then s
    else
      let s := s.lineReq page m.mp
      { s with moves := s.moves.map fun (x : Move) => if x.page = page then { x with asked := true } else x }
  | none => s

/-- MOVE_START: a queued move starts once its frame is free; the arbiter queues it behind a retrain of one of its tiers (R247). -/
def execMoveStart (page frame : Nat) (s : State) : Result :=
  match s.page? page, s.nextMove page with
  | some p, some m =>
    let n := s.moveUnits p m.dest
    let room := n = 0 || (s.frameFree m.dest frame n && s.frameOnline m.dest frame n && s.frameChosen m.dest frame && decide (n ≤ s.freeUnits m.dest))
    gated (!s.moving page && !s.ctlReset.contains moveCtl && !p.zero && p.tier ≠ m.dest && decide (s.moves.length < 64) && room
        && (m.dest ≠ 3 || n = 0 || m.kind ≠ MoveKind.descent || s.t3Allowed (4096 * n))) (fun s =>
      let id := s.actCount
      let s := s.requestAct { kind := 2, res := [600 + p.tier, 600 + m.dest], arg := page }
      let s := { s with
        forcedQ := s.forcedQ.filter (· ≠ page), ascentQ := s.ascentQ.filter (· ≠ page)
        descentQ := if m.kind = MoveKind.forced || m.kind = MoveKind.ascent then s.descentQ else s.descentQ.filter (·.page ≠ page)
        moves := s.moves ++ [{ m with mp := 0, frame := frame, units := n, act := id }] }
      let s := s.modPage page fun p => { p with mov := true }
      (when (m.kind = MoveKind.forced) (·.countForce page) s).askLine page) s
  | _, _ => .next s

/-- The WRs that carry bytes `a` to `z` of a tier 1 frame: whole units of 64 bytes, none across a boundary of 256 (R237). -/
def wrPieces (a z : Nat) : List (Nat × Nat) :=
  ((List.range ((z + 255) / 256 - a / 256)).map fun i => (max a ((a / 256 + i) * 256), min z ((a / 256 + i + 1) * 256))).filter fun x => decide (x.1 < x.2)

/-- The WRs that carry a line to its tier 1 frame, of a stored page its share of the stored bytes (R237; log entry 39); none: the link takes none
now. Another destination needs none. -/
def State.landWrite (s : State) (m : Move) (line : Nat) (data : List (Byte × Bool)) : Option State :=
  if m.dest ≠ 1 then some s
  else
    let u := m.frame / 2 ^ 32
    let p := (s.page? m.page).getD {}
    let cmp := s.compressed 1
    let q : Page := { p with cmp := cmp, len := m.units - 1 }
    let all := if cmp then (storedBytes p.kind p.data p.linePois).map fun b => (b, false) else []
    each (wrPieces (q.lineAt line) (q.lineAt (line + 1))) (fun o x => o.bind fun s =>
      s.svSend (u / 2 % 8) { kind := 2, ch := u % 2, addr := (m.frame % 2 ^ 32) * 4096 + x.1, units := (x.2 - x.1) / 64, page := m.page
                             line := x.1 / 256 } (if cmp then (all.drop x.1).take (x.2 - x.1) else data)) (some s)

/-- A line lands: poison of a stored home is kept by line, of another by word; a pending update is folded into it (R206, R210). -/
def State.landLine (s : State) (key dest line : Nat) (data : List (Byte × Bool)) : State :=
  let bad := data.any Prod.snd
  let s := if s.inPlace dest then
      s.modPage key fun p => { p with data := p.data.writeP (256 * line) data, linePois := p.linePois.filter (· ≠ line) }
    else when bad (·.modPage key fun p => { p with linePois := (p.linePois.filter (· ≠ line)) ++ [line] }) s
  match s.ledgers.get none key, s.page? key with
  | some l, some p =>
    if p.ldg && s.inPlace dest then s.modPage key fun p => { p with data := l.foldLine (s.pageMode key) p.data line } else s
  | _, _ => s

/-- The move engine has written a line to the destination's frame; the last one completes the page's write to a drive. -/
def State.lineSent (s : State) (m : Move) (p : Page) : State :=
  let s := if m.dest = 0 && p.tier ≠ 0 then s.tier0Bytes 1 else if m.dest = 1 then s.traffic 3 1 else s
  let s := { s with moves := s.moves.map fun (x : Move) => if x.page = m.page then { x with sent := m.sent + 1 } else x }
  if m.dest = 3 && m.sent = 255 && !p.toNegative 3 then (s.nvme (.write false) m.frame (s.moveUnits p 3)).nvme .flush m.frame 0 else s

/-- After a write failure a line that had landed is written again from the move buffer to the new frame (R193). -/
def State.lineAgain (s : State) (m : Move) (p : Page) : State :=
  match s.landWrite m m.sent (p.data.read (256 * m.sent) 256) with
  | some s => s.lineSent m p
  | none => s

/-- MOVE_LINE_LAND: the line at MP of a moving page; a sealed page's line that cannot be read is reread from the negative first
(R192, R197, R204, R210), one of which a chunk fails its check is asked for again (R202). A line that could not be asked for yet is asked for; lines
that a new frame lacks come first. -/
def execMoveLineLand (page : Nat) (errs : List (Nat × Nat)) (lost : Bool) (s : State) : Result :=
  match s.moves.find? (·.page = page), s.page? page with
  | some m, some p =>
    let line := m.mp
    gated (s.acts.any (·.id = m.act) && !s.ctlReset.contains moveCtl && !s.homeWaits m.dest m.frame (min m.sent 255)
        && (decide (m.sent < m.mp) || (decide (line < 256) && !s.lineOut page line && !s.homeWaits p.tier p.frame line
          && (s.rereading page (256 * line) 256).isEmpty))) (fun s =>
      if m.sent < m.mp then s.lineAgain m p
      else if !m.asked then s.askLine page
      else
        let s0 := s.flushLine page line .current
        let r := s0.readPage page .current (256 * line) 256 errs (if lost || s0.homeGone page then [line] else [])
        let again := fun (s : State) => { s with moves := s.moves.map fun (x : Move) => if x.page = page then { x with asked := false } else x }.askLine page
        if !r.again.isEmpty then again (r.s.lineCame page line)
        else if !r.reread.isEmpty then r.s.wantReread page line [] []
        else match (r.s.lineCame page line).landWrite m line r.data with
          | none => s
          | some s =>
            let s := (s.landLine page m.dest line r.data).lineSent m p
            let s := { s with moves := s.moves.map fun (x : Move) => if x.page = page then { x with mp := line + 1, asked := false } else x }
            (s.askLine page).wakePage page) s
  | _, _ => .next s

/-- Bytes written to tier 3 are counted (R189, R419). -/
def State.countT3 (s : State) (bytes : Nat) (limited : Bool) : State :=
  let s := ((((s.bump F.TIER_NT3W_COUNT bytes).offer 0x249 { tier := some 3 } bytes).flCount 714 bytes).flCount 715)
  if limited then { s with t3wEpoch := s.t3wEpoch + bytes } else s

/-- Does a move wait for a buffer to confirm a WR of its page (R192, R237)? -/
def State.unconfirmed (s : State) (m : Move) : Bool :=
  m.dest = 1 && (s.link (10 + m.frame / 2 ^ 32 / 2 % 8)).tags.any fun t => t.2.kind = 2 && t.2.page = m.page

/-- MOVE_COMPLETE: the destination has confirmed the page; the entry changes in one step (R192, R198, R210). A page that has come to a buffer is
followed by a SYNC, which nothing waits for (R237; log entry 123). -/
def execMoveComplete (page : Nat) (s : State) : Result :=
  match s.moves.find? (·.page = page), s.page? page with
  | some m, some p => gated (decide (m.mp ≥ 256) && decide (m.sent ≥ 256) && !s.ctlReset.contains moveCtl && !s.unconfirmed m) (fun s =>
      let s := if m.dest = 1 then (s.svSend (m.frame / 2 ^ 32 / 2 % 8) { kind := 6 } []).getD s else s
      let neg := p.toNegative m.dest
      let units := s.moveUnits p m.dest
      let s := s.deallocate p.ownT3
      let s := if p.ldg && s.inPlace m.dest then (s.countFold page).dropLedger page else s
      let s := s.modPage page fun p => { p with
        mov := false, tier := m.dest, frame := if neg then p.negFrame else m.frame, len := if neg then p.negLen else units - 1
        cmp := s.compressed m.dest }
      let s := when (m.dest = 3 && !neg) (·.countT3 (4096 * units) (m.kind = .descent)) s
      let s := s.bump (if m.dest < p.tier then F.TIER_NASC_COUNT else F.TIER_NDESC_COUNT)
      let s := when (m.dest = 0) (fun s => { s with forcedQ := s.forcedQ.filter (· ≠ page), ascentQ := s.ascentQ.filter (· ≠ page) }) s
      let s := { s with moves := s.moves.filter (·.page ≠ page) }.endAct m.act
      ((s.offer (Config.evtCode (if m.dest < p.tier then 40 else 41)) { rig := s.ownerOf page, tier := some m.dest }).wakePage page).mcmdRetry) s
  | _, _ => .next s

/-- MOVE_WRITE_FAILURE: the move restarts to another frame from the move buffer: every line sent is written again, and none changes value (R193). -/
def execMoveWriteFailure (page frame : Nat) (s : State) : Result :=
  match s.moves.find? (·.page = page) with
  | some m => gated (m.units = 0 || (s.frameFree m.dest frame m.units && s.frameOnline m.dest frame m.units && s.frameChosen m.dest frame)) (fun s =>
      { s with moves := s.moves.map fun (x : Move) => if x.page = page then { x with frame := frame, sent := 0 } else x }) s
  | none => .next s

/-! ### Flushes (R214) -/

/-- Has an entry a cause to be flushed: all its bytes written, the move pointer at its line, its engine's floor full and the
entry its oldest? The other causes act with their own command. -/
def State.flushCause (s : State) (e : WcEntry) : Bool :=
  ((List.range 256).all fun i => (e.bytes.get none i).isSome)
  || (s.moves.any fun m => m.page = e.page && m.mp = e.line && e.which = .current)
  || (decide (s.floor 4 0 e.user / 256 ≤ s.wcHeld e.user) && (s.wc.find? (·.user = e.user)) = some e)

/-- Does the home of an entry accept writes in place? A version beside the current one lies in tier 0. -/
def State.entryInPlace (s : State) (e : WcEntry) : Bool := s.inPlace (s.verHome e.page e.which).1

/-- WC_FLUSH: entry `i` of the buffer. A home that takes no write in place forces an ascent first; a tier 1 home is written by a WR
(R214, R215, R237). -/
def execWcFlush (i : Nat) (errs : List (Nat × Nat)) (s : State) : Result :=
  match s.wc[i]? with
  | none => .next s
  | some e => gated (s.flushCause e && !s.homeWaits (s.verHome e.page e.which).1 (s.verHome e.page e.which).2 e.line) (fun s =>
      if !s.entryInPlace e then s.forceAscent e.page
      else
        let home := s.verHome e.page e.which
        if home.1 = 1 then
          let t := s.flushEntry e errs
          let u := home.2 / 2 ^ 32
          (t.svSend (u / 2 % 8) { kind := 2, ch := u % 2, addr := (home.2 % 2 ^ 32) * 4096 + 256 * e.line, units := 4, page := e.page,
                                  line := e.line } ((t.verData e.page e.which).read (256 * e.line) 256)).getD s
        else s.flushEntry e errs) s

end Sys2Proof.Machine
end

