-- ==== Sys2Proof/Machine/TierCmd.lean ====
section
/-! DEFINITION. The mapping commands (R182, R183, R196): page by page in ascending VPN, waiting where a page must move, fold or be
written as a negative. -/

namespace Sys2Proof.Machine

/-- The fields of TIER_MCMD0 that keep what is written. -/
def State.mcmdFields (s : State) (d : Nat) : State :=
  ((s.setReg F.TIER_MCMD0_OP (bits d 31 28)).setReg F.TIER_MCMD0_ARG (bits d 27 26)).setReg F.TIER_MCMD0_SPACE (bits d 12 1)

/-- A mapping command starts (R182, R183): a GO while another runs is ignored. -/
def State.mcmdStart (s : State) (op d : Nat) : State :=
  if s.flag F.TIER_MSTAT_BUSY then s.raiseFlag F.TIER_MSTAT_BUSYW
  else
    let s := s.mcmdFields d
    let c : MCmd := { op := op, arg := bits d 27 26, space := bits d 12 1, vpn := s.get F.TIER_MCMD1_VPN, npage := s.get F.TIER_MCMD1_NPAGE + 1 }
    if op = 0 ∨ op > 7 then s.mcmdEnd 0 7
    else if (s.space? c.space).isNone then s.mcmdEnd 0 1
    else
      let s := ((s.setReg F.TIER_MSTAT_DONE 0).setReg F.TIER_MSTAT_ERR 0).setReg F.TIER_MSTAT_BUSY 1
      { s with mcmd := some c }.mcmdRetry

/-- A write of TIER_MCMD0 (R182, R217). -/
def State.mcmd0 (s : State) (d : Nat) : State :=
  if bit d 0 then s.mcmdStart (bits d 31 28) d else s.mcmdFields d

/-- MAP (R182). -/
def execMap (data : Word) (s : State) : Result := gated s.ioReached (·.mcmdStart 1 data.toNat) s
/-- UNMAP (R182). -/
def execUnmap (data : Word) (s : State) : Result := gated s.ioReached (·.mcmdStart 2 data.toNat) s
/-- SEAL (R182, R196). -/
def execSeal (data : Word) (s : State) : Result := gated s.ioReached (·.mcmdStart 3 data.toNat) s
/-- PIN (R182, R190). -/
def execPin (data : Word) (s : State) : Result := gated s.ioReached (·.mcmdStart 4 data.toNat) s
/-- UNPIN (R182). -/
def execUnpin (data : Word) (s : State) : Result := gated s.ioReached (·.mcmdStart 5 data.toNat) s
/-- HINT (R182). -/
def execHint (data : Word) (s : State) : Result := gated s.ioReached (·.mcmdStart 6 data.toNat) s
/-- FOLD (R182, R210). -/
def execFoldCommand (data : Word) (s : State) : Result := gated s.ioReached (·.mcmdStart 7 data.toNat) s

/-- NEGATIVE_WRITE_COMPLETE: tier 3 confirms the negative of the page that SEAL has come to, or reports a failure (R183, R196). Where the page has
grown past the room held for it, the negative is written again, if there is room. Every write of it reads the page and counts (R186, R189). -/
def execNegativeWriteComplete (ok : Bool) (s : State) : Result :=
  match s.mcmd with
  | none => .next s
  | some c =>
    let key := pageKey c.space (c.vpn + c.done)
    match s.page? key with
    | none => .next s
    | some p => gated (c.op = 3 && c.waiting && s.sealable key) (fun s =>
        let s := s.nvme (.write true) (s.newFrame 3 (s.sealUnits key)) (s.sealUnits key)
        let s := if p.zero then s else if p.tier = 0 then s.tier0Bytes 256 else if p.tier = 1 then s.traffic 3 256 else s
        if !ok then s.mcmdEnd c.done 8
        else if c.held < s.sealUnits key then (s.countT3 (4096 * c.held) false).mcmdRetry
        else
          let data := s.merged key .current
          let s := { s with wc := s.wc.filter (·.page ≠ key) }
          let n := s.negUnits { p with data := data }
          let f := s.newFrame 3 n
          let s := (s.modPage key fun p => { p with
            neg := true, ro := true, data := data, negData := data, negLen := n - 1, negFrame := f }).spend
          let s := s.countT3 (4096 * n) false
          { s with mcmd := some { c with done := c.done + 1, waiting := false, held := 0 } }.setReg F.TIER_MSTAT_DONE (c.done + 1) |>.mcmdRetry) s

end Sys2Proof.Machine
end

