-- ==== Sys2Proof/Machine/Dispatching.lean ====
section
/-! DEFINITION. A rig dispatches its call sheets (R249 to R253, R329 to R333, R138 to R140); parts and call sheets complete
(R334, R336). -/

namespace Sys2Proof.Machine

/-! ### Who is served (R329) -/

/-- Queue `q`'s oldest call sheet that has not been dispatched. -/
def State.front (s : State) (q : Nat) : Option Sheet := s.sheets.find? fun h => h.sq = q && !h.dispatched

/-- Does a call sheet wait for the take of its rig to end (R249)? -/
def Take.holds (t : Take) (mark : Nat) : Bool :=
  match mark with
  | 0 => false
  | 1 => decide (t.state ≥ 1)
  | _ => decide (t.state ≥ 2)

/-- May the rig dispatch a call sheet in its state (R164)? A rig that stops gracefully dispatches what joins its open take. -/
def State.mayDispatch (s : State) (n : Nat) (c : CallSheet) : Bool :=
  let st := s.rigState n
  st = rigRunning || ((st = rigStopping || st = rigLoading) && !(s.rig n).killed && (s.rig n).take.state = 1 && decide (c.take ≥ 2))

/-- The entry of the descriptor table for the `i`-th tile of TMASK. -/
def CallSheet.entryAt (c : CallSheet) (i : Nat) : Nat := c.dtab + 128 * i

/-- The engines that an entry arms (R331). -/
def entryArms (b : List Byte) : List (Nat × Nat) :=
  (List.range 8).filterMap fun e =>
    let a := field b (8 * e) 8 % 2 ^ 52
    if a = 0 then none else some (e, a)

/-- Have the tile controllers room for a call sheet (R66, R140): in the arrays' lists, and the shadow slot of every engine it arms? -/
def State.roomFor (s : State) (n : Nat) (c : CallSheet) : Bool :=
  (c.kind ≠ 1 || (s.partsOf n c).all fun m => decide ((s.tile (s.phys (m.headD 0))).arr.list.length < 32))
  && (c.kind = 0 || c.tiles.zipIdx.all fun t =>
    match (s.fetchBytes n c.dspace (c.entryAt t.2) 128 [] fun _ => .current).2 with
    | some b => (entryArms b).all fun a =>
        let x := s.eng (s.phys t.1) a.1
        x.held.isEmpty && decide (x.shd = .empty)
    | none => true)

/-- Does an export or import of the rig run? The rig opens no take meanwhile (R272). -/
def State.txBusy (s : State) (n : Nat) : Bool := s.txs.any (·.rig = n)

/-- Is queue `q` eligible (R329)? -/
def State.eligible (s : State) (n q : Nat) : Bool :=
  match s.sq? q, s.front q with
  | some sq, some h =>
    sq.rig = n && !(s.rig n).take.holds h.cs.take && (h.cs.take = 0 || !s.txBusy n) && s.mayDispatch n h.cs
      && (!h.cs.fence || !(s.sheets.any fun x => x.sq = q && x.dispatched))
      && s.slotOk sq.cq && s.roomFor n h.cs
  | _, _ => false

/-- The rig's eligible queues, ascending. -/
def State.eligibles (s : State) (n : Nat) : List Nat :=
  ((s.sqs.filter fun q => (q.2.map (·.rig)) = some n).map Prod.fst).filter (s.eligible n)

def State.prioOf (s : State) (q : Nat) : Nat := ((s.sq? q).map (·.prio)).getD 0
def State.ageOf (s : State) (q : Nat) : Nat := ((s.sq? q).map (·.age)).getD 0

/-- The queue that the rig serves next (R329). -/
def State.choice (s : State) (n : Nat) : Option Nat :=
  let l := s.eligibles n
  let max_ := s.get F.QUE_ARBNOW_AGEMAX
  match if max_ = 0 then none else l.find? fun q => decide (s.ageOf q ≥ max_) with
  | some q => some q
  | none =>
    let top := l.foldl (fun m q => max m (s.prioOf q)) 0
    let cls := l.filter fun q => s.prioOf q = top
    ((cls.find? fun q => decide (q > (s.rig n).lastSq)) <|> cls.head?)

/-! ### A take opens (R250, R252, R253) -/

/-- An entry of the parameter table (R252). -/
def groupOf (b : List Byte) : Group :=
  { kind := field b 0 1, flags := field b 1 1, space := field b 2 2, nelem := field b 4 4, rowlen := field b 8 4
    xgrp := field b 12 2, maddr := field b 16 8, waddr := field b 24 8, eaddr := field b 32 8, gaddr := field b 40 8 }

def Group.wk (g : Group) : Bool := bit g.flags 0
def Group.xch (g : Group) : Bool := bit g.flags 1

/-- Have the mapped pages of a range the layout that R252 asks for? -/
def State.rangeKind (s : State) (space : Nat) (r : Nat × Nat) (kind : Nat) : Bool :=
  (List.range ((r.2 + 65535) / 65536)).all fun i => match s.page? (keyOf space (r.1 + 65536 * i)) with
    | some p => p.kind = kind
    | none => true

/-- Does an entry of the table obey R252 and R253? `b` its bytes. -/
def State.groupOk (s : State) (n : Nat) (b : List Byte) (g : Group) : Bool :=
  (g.kind = 1 || g.kind = 2) && decide (g.flags < 4) && decide (g.space < 4096) && decide (g.nelem ≥ 32) && g.nelem % 32 = 0
  && decide (g.rowlen > 0) && g.rowlen % 32 = 0 && g.nelem % g.rowlen = 0 && (g.xch || g.xgrp = 0) && decide (g.xgrp < 4096)
  && zeros b 14 16 && zeros b 48 64
  && ([g.maddr, g.waddr, g.eaddr, g.gaddr].all fun a => decide (a < 2 ^ 52) && a % 2 ^ 16 = 0)
  && (g.wk || g.waddr = 0) && (g.kind = 1 || (g.flags = 0 && g.waddr = 0 && g.eaddr = 0 && g.gaddr = 0))
  && (match s.space? g.space with
    | some sp => sp.owner = n && !sp.ro
    | none => false)
  && ((g.staged.filter fun r => r.1 ≠ g.eaddr || g.kind = 2).all fun r => s.rangeKind g.space r 1)
  && (g.kind = 2 || s.rangeKind g.space (g.eaddr, 2 * g.nelem) 2)

/-- Do two ranges of the table overlap? -/
def rangesMeet : List (Nat × Nat × Nat) → Bool
  | [] => false
  | a :: l => (l.any fun b => a.1 = b.1 && overlaps a.2.1 a.2.2 b.2.1 b.2.2) || rangesMeet l

/-- The parameter table read and checked (R252, R253): its groups and whether it fails; it waits where a line of it is reread from its negative
(R197). Ranges that overlap are staged all the same; of a table that fails otherwise the model stages nothing (log entry 120). `errs` counts
words from the header on. -/
def State.readTable (s : State) (n : Nat) (errs : List (Nat × Nat)) : State × Fetched (List Group × Bool) :=
  let bad : Fetched (List Group × Bool) := .got ([], true)
  if !s.flag F.IMG_TPTABN_VALID n then (s, .got ([], false))
  else
    let space := s.get F.IMG_TPTABN_SPACE n
    let addr := s.get F.IMG_TPTABN_ADDR n * 64
    let h := s.fetch n space addr 64 (errs.filter fun e => decide (e.1 < 8)) (fun _ => .current) []
    match h.2 with
    | .waits => (h.1, .waits)
    | .got hb =>
      let ng := field hb 0 2
      if ng = 0 ∨ ng > 4096 ∨ !zeros hb 2 64 then (h.1, bad)
      else
        let r := h.1.fetch n space (addr + 64) (64 * ng)
          ((errs.filter fun e => decide (8 ≤ e.1)).map fun e => (e.1 - 8, e.2)) (fun _ => .current) []
        match r.2 with
        | .waits => (r.1, .waits)
        | .got b =>
          let gs := (List.range ng).map fun i => let eb := (b.drop (64 * i)).take 64; (eb, groupOf eb)
          let ranges := gs.flatMap fun g => g.2.ranges.map fun x => (g.2.space, x.1, x.2)
          if gs.all fun g => r.1.groupOk n g.1 g.2 then (r.1, .got (gs.map Prod.snd, rangesMeet ranges)) else (r.1, bad)
        | _ => (r.1, bad)
    | _ => (h.1, bad)

/-- The rig's live fields with boundary next take come into force (R171, R174, R274). -/
def State.takeFields (s : State) (n : Nat) : State :=
  let s := s.setReg F.IMG_RLNOW_STRAG (s.get F.IMG_RLIVE_STRAG n) n
  let s := each (List.range 8) (fun s k => s.setReg F.IMG_RHNOW_VALUE (s.get F.IMG_RHYP_VALUE (8 * n + k)) (8 * n + k)) s
  let s := s.setReg F.IMG_TSTRGN_TIME (s.get F.IMG_TSTRG_TIME n) n
  let s := s.setReg F.IMG_TPTABN_SPACE (s.get F.IMG_TPTAB_SPACE n) n
  let s := s.setReg F.IMG_TPTABN_ADDR (s.get F.IMG_TPTAB_ADDR n) n
  s.setReg F.IMG_TPTABN_VALID (s.get F.IMG_TPTAB_VALID n) n

/-- A call sheet opens the rig's next take (R250); false: its table's read waits (R197). -/
def State.openTake (s : State) (n : Nat) (errs : List (Nat × Nat)) : State × Bool :=
  let s := s.takeFields n
  let r := s.readTable n errs
  match r.2.got? with
  | none => (r.1, false)
  | some q =>
    let s := when q.2 (·.raiseFlag F.IMG_TSTAT_TBERR n) r.1
    (State.mirrorNew <| s.modTake n fun t =>
      { state := 1, num := s.get F.IMG_TNUM_NUM n, lsLog := s.get F.IMG_TLS_LOG2 n, groups := q.1,
        hyper := (List.range 8).map fun k => s.get F.IMG_RHNOW_VALUE (8 * n + k), strag := s.get F.IMG_RLNOW_STRAG n,
        abort := q.2, lateG := t.lateG, lateOf := t.lateOf, lateAge := t.lateAge }, true)

/-- The take mark of a dispatched call sheet (R249, R250, R257); false: a read waits. -/
def State.markTake (s : State) (h : Sheet) (errs : List (Nat × Nat)) : State × Bool :=
  if h.cs.take = 0 then (s, true)
  else
    let o := if (s.rig h.rig).take.state = 0 then s.openTake h.rig errs else (s, true)
    let num := (o.1.rig h.rig).take.num
    let s := o.1.modSheet h.logno fun h => { h with take := some num }
    (if h.cs.take = 3 then s.modTake h.rig fun t => { t with state := 2, close := some h.logno } else s, o.2)

/-! ### The check at dispatch (R333) -/

/-- Is the call sheet malformed, as far as it alone shows (R333)? -/
def State.malformed (s : State) (n : Nat) (c : CallSheet) : Bool :=
  decide (c.kind > 3) || c.reserved || (c.kind ≠ 0 && c.tmask = 0) || (c.tiles.any fun t => !(s.rig n).tiles.contains t)
  || (c.tiles.any fun t => !((s.fusedAt n t).members.all c.tiles.contains))
  || (c.kind = 1 && (c.pass = 0 || c.nrow = 0 || decide (c.nrow ≥ 2 ^ 24) || c.klen = 0 || decide (c.klen > 2 ^ 24)))
  || c.dtab % 128 ≠ 0

/-- Does a bank that the task uses drain neither through the queue nor by a write engine wired from banks that a part arms? -/
def State.undrained (s : State) (c : CallSheet) (parts : List Part) : Bool :=
  c.kind = 1
  && ((List.range (min 4 ((c.nrow + 127) / 128))).any fun i => !bit c.drainq ((c.fbank + i) % 4))
  && !(parts.any fun q => q.arms.any fun a => s.get F.STRM_CTL_TARGET (engKey (s.phys a.1) a.2.1) = 5)

/-- An expansion descriptor, where it obeys R29. -/
def decodeXd (b : List Byte) : Option XDesc :=
  let d : XDesc := { kind := field b 0 1, flags := field b 1 1, taddr := field b 8 8, zaddr := field b 16 8 }
  if [0, 1, 2, 0x10, 0x11, 0x20, 0x21].contains d.kind && decide (d.flags < 8) && zeros b 2 8 && zeros b 24 32
      && decide (d.taddr < 2 ^ 52) && decide (d.zaddr < 2 ^ 52)
      && (((d.kind = 0x20 || d.kind = 0x21) && !bit d.flags 2) || d.zaddr = 0) then some d
  else none

/-- The errors of words `a` to `z - 1`, counted from `a`. -/
def errsFrom (errs : List (Nat × Nat)) (a z : Nat) : List (Nat × Nat) :=
  (errs.filter fun e => decide (a ≤ e.1) && decide (e.1 < z)).map fun e => (e.1 - a, e.2)

/-- The part that works on a tile, by its lead. -/
def leadIn (parts : List (List Nat)) (t : Nat) : Nat := ((parts.find? (·.contains t)).getD [t]).headD 0

/-- Why a structure read at dispatch is not at hand (R197, R333): the status that ends the call sheet, 0 where the read waits. -/
def Fetched.status {α : Type} : Fetched α → Nat
  | .waits => 0
  | .negLost => 0x07
  | _ => 0x01

/-- The descriptor table read at dispatch (R331, R333): the entries by tile; left: the first tile whose entry cannot be used, and the status.
Entry `i` takes 16 words of `errs`. -/
def State.readEntries (h : Sheet) (parts : List (List Nat)) (errs : List (Nat × Nat)) :
    List (Nat × Nat) → State → FMap (List Byte) → State × Except (Nat × Nat) (FMap (List Byte))
  | [], s, m => (s, .ok m)
  | t :: l, s, m =>
    let r := s.partRead h.logno (leadIn parts t.1) h.rig h.cs.dspace (h.cs.entryAt t.2) 128 (errsFrom errs (16 * t.2) (16 * t.2 + 16))
    match r.2 with
    | .got b => if zeros b 72 128 then State.readEntries h parts errs l r.1 (m.put t.1 b) else (r.1, .error (t.1, 0x01))
    | x => (r.1, .error (t.1, x.status))

/-- The expansion descriptor of an array task that names one. -/
def State.readXd (s : State) (h : Sheet) (lead : Nat) (errs : List (Nat × Nat)) : State × Except (Nat × Nat) (Option XDesc) :=
  if h.cs.kind = 1 && h.cs.xdaddr ≠ 0 then
    let r := s.partRead h.logno lead h.rig h.cs.sbspace h.cs.xdaddr 32 errs
    match r.2 with
    | .got b => (match decodeXd b with
      | some d => (r.1, .ok (some d))
      | none => (r.1, .error (lead, 0x01)))
    | x => (r.1, .error (lead, x.status))
  else (s, .ok none)

/-- The parts with what the table gives them (R331, R333). -/
def partsFrom (parts : List (List Nat)) (m : FMap (List Byte)) : List Part :=
  parts.map fun ts =>
    { lead := ts.headD 0, tiles := ts, saddr := field (m.get [] (ts.headD 0)) 64 8 % 2 ^ 52
      descs := each ts.zipIdx (fun d t => each (entryArms (m.get [] t.1)) (fun d a => d.set 0 (8 * t.2 + a.1) a.2) d) [] }

/-- The tiles in which the call sheet's routine runs. -/
def State.routineTiles (s : State) (n : Nat) (c : CallSheet) (parts : List (List Nat)) : List Nat :=
  if !c.rvalid then [] else if c.kind = 1 then parts.flatMap fun m => (s.fusedAt n (m.headD 0)).bottoms else c.tiles

/-- A dispatched call sheet is checked and started (R29, R158, R270, R331 to R333); false: a read waits for a negative (R197). -/
def State.runSheet (s : State) (logno : Nat) (errs : List (Nat × Nat)) : State × Bool :=
  match s.sheet logno with
  | none => (s, true)
  | some h =>
    let n := h.rig
    let c := h.cs
    if s.malformed n c then (s.failSheet logno 0x0C 0, true)
    else if c.kind = 0 then (s.finishSheet logno, true)
    else
      let parts := s.partsOf n c
      let r := State.readEntries h parts errs c.tiles.zipIdx s []
      match r.2 with
      | .error e => (r.1.failSheet logno e.2 (detailOf e.1 true 0) (parts.findIdx (·.contains e.1)), e.2 ≠ 0)
      | .ok m =>
        let x := r.1.readXd h ((parts.headD []).headD 0) (errsFrom errs (16 * c.tiles.length) (2 ^ 20))
        match x.2 with
        | .error e => (x.1.failSheet logno e.2 (detailOf e.1 true 0) 0, e.2 ≠ 0)
        | .ok xd =>
          let s := x.1
          let ps := partsFrom parts m
          if s.undrained c ps then (s.failSheet logno 0x0C 0, true)
          else if (s.routineTiles n c parts).any fun t => ((s.tile (s.phys t)).vec.entries.lookup (c.rout % 64)).isNone then
            (s.failSheet logno 0x03 0, true)
          else
            let ls := if h.take.isSome then (s.rig n).take.lsLog else s.get F.IMG_TLS_LOG2 n
            let cs := if c.lsarg then { c with args := modAt c.args 7 fun _ => (127 + ls) * 2 ^ 23 } else c
            let s := s.modSheet logno fun h => { h with parts := ps, xd := xd, cs := cs }
            (each ps (fun s q => s.startPart logno q.lead false) s, true)

/-- The oldest call sheets of rig `n` whose dispatch waits for a slot: the wait is offered once for each (R339, R343). -/
def State.noteSlotWaits (s : State) (n : Nat) : State :=
  each (s.sqs.filter fun q => (q.2.map (·.rig)) = some n) (fun s q =>
    match q.2, s.front q.1 with
    | some x, some h =>
      if s.slotOk x.cq || h.slotWait then s
      else (s.modSheet h.logno fun h => { h with slotWait := true }).offer (Config.evtCode 14) { rig := some n }
    | _, _ => s) s

/-- CALL_SHEET_DISPATCH: rig `n` dispatches from the queue that R329 serves. Where a structure that it reads waits for a negative, the call sheet
is dispatched later, and all that has happened is what its reads have asked for (R197, R204, R210). Words of `errs`: 16 for each entry of the descriptor
table, then 4 of the expansion descriptor; from 2^20 on the parameter table of a take that opens. -/
def execCallSheetDispatch (n : Nat) (errs : List (Nat × Nat)) (s : State) : Result :=
  .next (
    let s0 := s.noteSlotWaits n
    let s1 := s0.setReg F.QUE_ARBNOW_AGEMAX (s0.get F.QUE_ARB_AGEMAX)
    match s1.choice n with
    | none => s0
    | some q =>
      match s1.front q with
      | none => s0
      | some h =>
        let others := (s1.eligibles n).filter (· ≠ q)
        let s := each others (fun s x => s.modSq x fun x => { x with age := x.age + 1 }) s1
        let s := (s.modSq q fun x => { x with age := 0 }).modRig n fun r => { r with lastSq := q, ran := true }
        let s := s.modCq (((s.sq? q).map (·.cq)).getD 0) fun c => { c with reserved := c.reserved + 1 }
        let s2 := s.modSheet h.logno fun h => { h with dispatched := true }
        let m := s2.markTake h (errsFrom errs (2 ^ 20) (2 ^ 40))
        let r := m.1.runSheet h.logno (errs.filter fun e => decide (e.1 < 2 ^ 20))
        if m.2 && r.2 then r.1
        else s0.waitsAs (if m.2 then r.1 else m.1))

/-! ### Parts and call sheets complete (R336) -/

/-- Has a part nothing left to do? -/
def State.partOver (s : State) (logno : Nat) (q : Part) : Bool :=
  q.segsLeft = 0 && q.rowsLeft = 0 && q.routLeft = 0 && q.gens = 0
  && q.tiles.all fun t => (List.range 4).all fun b =>
    let k := ((s.tile (s.phys t)).bank b).task
    !(k.logno = logno && k.lead = q.lead)

/-- PART_COMPLETE: part `part` of a call sheet (R336). After the last one a call sheet that failed, or has no output version,
ends; else its output versions become current first. -/
def execPartComplete (logno part : Nat) (s : State) : Result :=
  match s.sheet logno with
  | none => .next s
  | some h => match h.parts[part]? with
    | none => .next s
    | some q => gated (h.dispatched && s.partOver logno q && (!q.done || h.status.isSome)) (fun s =>
        let s := s.modPart logno q.lead fun q => { q with done := true }
        let s := { s with log := s.log.filter fun r => !(r.logno = logno && r.lead = q.lead && (match r.kind with
          | .bank _ _ _ _ => true
          | _ => false)) }.ringCheck
        let all := match s.sheet logno with
          | some h => h.parts.all (·.done)
          | none => false
        if all && (h.status.isSome || !(s.outVers.any (·.logno = logno))) then s.finishSheet logno else s) s

/-- OUTPUT_VERSIONS_CURRENT (R336, R268): every output version of a call sheet whose parts have all completed becomes current in
one step; a page in a move waits for the move to end, a held version for its frame (R349). -/
def execOutputVersionsCurrent (logno : Nat) (s : State) : Result :=
  match s.sheet logno with
  | none => .next s
  | some h =>
    let vs := s.outVers.filter (·.logno = logno)
    gated (h.dispatched && !h.parts.isEmpty && h.parts.all (·.done) && h.status.isNone && !vs.isEmpty
        && vs.all fun v => !(s.moves.any (·.page = v.page))) (fun s =>
      if s.heldShort (vs.map (·.page)) then s.holdWrites (vs.map fun v => (v.page, logno))
      else
        let s := each vs (fun s v => s.becomeCurrent v (.out logno)) s
        let s := each (vs.filter fun v => s.mirrorsPages && s.tether.mirrored.contains v.page) (fun s v => s.sendPrinted v.page) s
        { s with outVers := s.outVers.filter (·.logno ≠ logno) }.finishSheet logno) s

end Sys2Proof.Machine
end

