-- ==== Sys2Proof/Machine/Takes.lean ====
section
/-! DEFINITION. The closing stages of a take, its end, export and import (R257 to R273). -/

namespace Sys2Proof.Machine

/-! ### The judgement and the loss scale (R264, R265) -/

/-- The cause of a strike, 0 for a print: the first row that matches. -/
def Take.cause (t : Take) (satnf : Bool) : Nat :=
  if t.stop then 1 else if t.driver then 2 else if t.abort then 3 else if t.peer then 4 else if t.pois then 5
  else if t.nonfin then 6 else if t.sat && satnf then 7 else 0

def State.takeCause (s : State) (n : Nat) : Nat := (s.rig n).take.cause (s.flag F.IMG_RSTC_SATNF n)

/-- The loss scale's log2 and the consecutive count after a take. -/
def lossScale (ls cons grow : Nat) (t : Take) (satnf : Bool) (cause : Nat) : Nat × Nat :=
  if cause = 0 then (if cons + 1 ≥ grow then (min 32 (ls + 1), 0) else (ls, cons + 1))
  else if (t.nonfin || (t.sat && satnf)) && decide (cause ≠ 1) then (ls - 1, 0) else (ls, 0)

/-- What rig `n`'s take leaves. -/
def State.lossAfter (s : State) (n cause : Nat) : Nat × Nat :=
  lossScale (s.get F.IMG_TLS_LOG2 n) (s.get F.IMG_TLS_NCONS n) (s.get F.IMG_RLNOW_LSGROW n) (s.rig n).take
    (s.flag F.IMG_RSTC_SATNF n) cause

/-- The take record as bits: NONFIN, SAT, POIS, PROX, ABORT, PEER, LATE from bit 0 up. -/
def Take.bits (t : Take) : Nat :=
  b2n t.nonfin + 2 * b2n t.sat + 4 * b2n t.pois + 8 * b2n t.prox + 16 * b2n t.abort + 32 * b2n t.peer + 64 * b2n t.late

/-! ### Pack (R259, R260) -/

/-- The groups of the take, with their numbers, of a kind. -/
def Take.trainable (t : Take) : List (Group × Nat) := t.groups.zipIdx.filter fun g => g.1.kind = 1

/-- Consecutive runs of `k`. -/
def chunks {α : Type} (k : Nat) : Nat → List α → List (List α)
  | 0, _ => []
  | n + 1, l => l.take k :: chunks k n (l.drop k)

/-- What Pack makes of a group: packed blocks, values, new error terms (none under GRAD 1), NONFIN, POIS. -/
structure Packed where
  bytes : List Byte := []
  vals : List Nat := []
  errs : Option (List Nat) := none
  nonfin : Bool := false
  covf : Bool := false
  pois : Bool := false
  deriving DecidableEq, Repr

/-- Pack of one group. -/
def State.packGroup (s : State) (n : Nat) (g : Group) : Packed :=
  let md := s.nmode n false
  let inv := (127 - (s.rig n).take.lsLog) * 2 ^ 23
  let gs := s.stageElems n g.space g.gaddr 4 g.nelem
  let bad := gs.any fun x => !fp32.isFinite x.1
  let scaled := gs.map fun x => (fMul md x.1 inv).1
  if s.get F.IMG_RSTC_GRAD n = 1 then
    let hs := scaled.map fun x => convert md fp32 fp16 false x
    let vs := hs.map fun h => fp16ToFp32 h.1
    { bytes := vs.flatMap fun v => leBytes 3 (v / 256), vals := vs, nonfin := bad || hs.any fun h => h.2.covf || !fp16.isFinite h.1
      covf := hs.any fun h => h.2.covf, pois := gs.any Prod.snd }
  else
    let es := s.stageElems n g.space g.eaddr 2 g.nelem
    let gp := (scaled.zip es).map fun x => (fAdd md x.1 (s16ToFp32 md x.2.1).1).1
    let qs := (chunks 32 (g.nelem / 32) gp).map (g8Quant md)
    let vs := qs.flatMap fun q => q.2.1.map fun c => (g8Value md q.1 c).1
    let e' := (gp.zip vs).map fun x => toS16 md (fSub md x.1 x.2).1
    { bytes := qs.flatMap fun q => q.2.1.map (BitVec.ofNat 8) ++ [BitVec.ofNat 8 q.1], vals := vs, errs := some e'
      nonfin := bad || e'.any fun e => !s16.isFinite e, pois := gs.any Prod.snd || es.any Prod.snd }

/-- The page keys of a range. -/
def rangeKeys (space addr n : Nat) : List Nat := (rangePages space addr n).map Prod.fst

def Group.masters (g : Group) : List Nat := rangeKeys g.space g.maddr (4 * g.nelem)
def Group.works (g : Group) : List Nat := if g.wk then rangeKeys g.space g.waddr (4 * g.nelem) else []
def Group.errTerms (g : Group) : List Nat := rangeKeys g.space g.eaddr (2 * g.nelem)
def Group.grads (g : Group) : List Nat := rangeKeys g.space g.gaddr (4 * g.nelem)

/-- Values kept by element of a group. -/
def Take.putVals (t : Take) (g : Nat) (vs : List Nat) : Take :=
  { t with gc := each vs.zipIdx (fun m v => m.set 0 (2 ^ 32 * g + v.2) v.1) t.gc }

/-- The verdict of this member's contribution (R260). -/
def Take.verdict (t : Take) : Nat := if t.abort || t.pois then 2 else if t.nonfin then 1 else 0

/-- One group is packed. -/
def State.packOne (s : State) (n : Nat) (g : Group × Nat) : State :=
  let grad1 := decide (s.get F.IMG_RSTC_GRAD n = 1)
  if s.unmapped (g.1.grads ++ if grad1 then [] else g.1.errTerms) then s.recAbort n
  else
    let p := s.packGroup n g.1
    let s := s.stageRead n g.1.space g.1.gaddr (4 * g.1.nelem)
    let s := if grad1 then s else s.stageRead n g.1.space g.1.eaddr (2 * g.1.nelem)
    let s := match p.errs with
      | some es => s.stageRange n g.1.space g.1.eaddr (es.flatMap (leBytes 2))
      | none => s
    let s := s.modTake n fun t => { (t.putVals g.2 p.vals) with packed := t.packed.put g.2 p.bytes }
    let s := when p.nonfin (·.recNonfin n) s
    let s := when p.covf (·.recSat n) s
    (when p.pois (·.recPois n) s).writeLog 0 0 n (.stage (s.rig n).take.num 0 g.2)

/-- PACK_DONE (R259, R257). -/
def execPackDone (n : Nat) (s : State) : Result :=
  gated ((s.rig n).take.state = 3) (fun s =>
    let gs := (s.rig n).take.trainable
    let ok := gs.filter fun g => !s.unmapped (g.1.grads ++ g.1.errTerms)
    let writes := if s.get F.IMG_RSTC_GRAD n = 1 then [] else ok.flatMap fun g => g.1.errTerms
    let reads := ok.flatMap fun g => g.1.grads
    if s.stageBlocked n reads writes then s.stageForce n (reads ++ writes)
    else
      let s := each gs (fun s g => s.packOne n g) s
      let t := (s.rig n).take
      let xs := t.trainable.filter fun g => g.1.xch
      if xs.isEmpty then s.modTake n fun t => { t with state := 5 }
      else
        let s := s.modTake n fun t => { t with state := 4 }
        each xs (fun s g =>
          if (s.rig n).take.state ≠ 4 then s
          else if ((s.group? g.1.xgrp).getD []).contains s.myId then s.startExchange n g.2 t.verdict
          else s.exchangeFail n 2) s) s

/-! ### Apply (R261, R262) -/

/-- An FP32 operation with one rounding to nearest even, subnormals flushed (R39, R261). -/
def exactOp (md : NMode) (f : NMode → Nat → Nat → Nat × NFlags) (x y : Nat) : Nat :=
  let r := (f { md with strict := true } (flushIn md x).1 (flushIn md y).1).1
  (flushIn md r).1

def sgnOf (x : Nat) : Nat := if x % 2 ^ 31 = 0 then 0 else if bit x 31 then 0xBF800000 else 0x3F800000

/-- A row's sum, in ascending element order. -/
def rowSum (md : NMode) : List Nat → Nat
  | [] => 0
  | x :: l => l.foldl (fun a y => (fAdd md a y).1) x

/-- The updates of a group (R261): ĝ and w by element. -/
def updates (md : NMode) (rule rowlen eta lam eps : Nat) (ghat ws : List Nat) : List Nat :=
  let rl := (intToFp32 md rowlen).1
  let rows := chunks rowlen (ghat.length / rowlen) (ghat.zip ws)
  rows.flatMap fun row =>
    let gs := row.map Prod.fst
    let scale := if rule = 2 then exactOp md (fun m => fDivK m 1 0) (rowSum md (gs.map fun g => g % 2 ^ 31)) rl
      else if rule = 3 then
        let q := exactOp md (fun m => fDivK m 1 0) (rowSum md (gs.map fun g => (fMul md g g).1)) rl
        (fAdd md (exactOp md (fun m x _ => fSqrt m 0 x) q 0) eps).1
      else 0
    row.map fun x =>
      let step := if rule = 2 then (fMul md scale (sgnOf x.1)).1
        else if rule = 3 then exactOp md (fun m => fDivK m 1 0) x.1 scale else x.1
      (fMul md (fNeg eta) (fAdd md step (fMul md lam x.2).1).1).1

/-- The updates of group `g`; `w` is zero where the group keeps no working copy. -/
def State.groupUpdates (s : State) (n : Nat) (g : Group × Nat) : List Nat :=
  let md := s.nmode n false
  let t := (s.rig n).take
  let hy := fun k => t.hyper.getD k 0
  let ghat := (List.range g.1.nelem).map fun i => (fMul md (hy 2) (t.gc.get 0 (2 ^ 32 * g.2 + i))).1
  let ws := if g.1.wk then (rangePages g.1.space g.1.waddr (4 * g.1.nelem)).flatMap fun p =>
      let c := s.merged p.1 .current
      (List.range (p.2 / 4)).map fun i => leNat (c.bytesAt (4 * i) 4) / 2 ^ 13 * 2 ^ 13
    else List.replicate g.1.nelem 0
  updates md (s.get F.IMG_RMODE_UPDATE n) g.1.rowlen (hy 0) (if g.1.wk then hy 1 else 0) (hy 3) ghat ws

/-- Is a page's home in tier 2 or 3? -/
def State.far (s : State) (key : Nat) : Bool :=
  match s.page? key with
  | some p => decide (p.tier ≥ 2) && !p.zero
  | none => false

/-- Does Apply read a poisoned word of a group: of the masters that take no record, or of the working copies (R251)? -/
def State.applyPois (s : State) (n : Nat) (g : Group) : Bool :=
  ((rangePages g.space g.maddr (4 * g.nelem)).any fun p => !s.far p.1 &&
    (let c := s.stageContent n p.1
     (List.range (p.2 / 4)).any fun i => c.poisoned (4 * i)))
  || (g.wk && (rangePages g.space g.waddr (4 * g.nelem)).any fun p =>
    (let c := s.merged p.1 .current
     (List.range (p.2 / 4)).any fun i => c.poisoned (4 * i)))

/-- The updates of one group are placed (R262). -/
def State.applyOne (s : State) (n : Nat) (g : Group × Nat) : State :=
  if s.unmapped (g.1.masters ++ g.1.works) then s.recAbort n
  else
    let md := s.nmode n false
    let us := s.groupUpdates n g
    let s := when (us.any fun u => !fp32.isFinite u) (·.recNonfin n) s
    let s := when (s.applyPois n g.1) (·.recPois n) s
    let s := if g.1.wk then s.stageRead n g.1.space g.1.waddr (4 * g.1.nelem) else s
    let s := each (rangePages g.1.space g.1.maddr (4 * g.1.nelem)).zipIdx (fun s p =>
      let u := (us.drop (16384 * p.2)).take (p.1.2 / 4)
      if s.far p.1.1 then
        let old := (s.ledgers.get none p.1.1).getD { born := s.logSeq }
        let um : FMap Nat := each u.zipIdx (fun (m : FMap Nat) x => m.set 0 x.2 x.1) []
        { s with stagedLedgers := s.stagedLedgers.set none p.1.1 (some (old.add md um)) }.tier0Bytes
          (recordLines * if (s.ledgers.get none p.1.1).isSome then 2 else 1)
      else
        let s := s.stageRead n g.1.space (g.1.maddr + 65536 * p.2) p.1.2
        let m := ((s.stageContent n p.1.1), u)
        s.stageWrite n p.1.1 (u.zipIdx.flatMap fun x => leBytes 4 (fAdd md (leNat (m.1.bytesAt (4 * x.2) 4)) x.1).1)) s
    s.writeLog 0 0 n (.stage (s.rig n).take.num 1 g.2)

/-- Master pages that will take a ledger record. -/
def State.ledgered (s : State) (gs : List (Group × Nat)) : List Nat :=
  (gs.filter fun g => !g.1.wk).flatMap fun g => g.1.masters.filter s.far

/-- The first page, in the order in which Apply stages them, for which the ledger has no record free (R212). -/
def State.ledgerShort (s : State) (keys : List Nat) : Option Nat :=
  (keys.zipIdx.find? fun k =>
    let n := ((s.space? (spaceOf k.1)).map (·.ledger)).getD 0 * 2 ^ 20 / 49728
    let of := fun (l : List Nat) => (l.filter fun x => spaceOf x = spaceOf k.1).length
    let held := s.ledgers.filterMap fun e => if e.2.isSome then some e.1 else none
    decide (of (keys.take (k.2 + 1)) + of held > n)).map Prod.fst

/-- APPLY_DONE (R261, R262). -/
def execApplyDone (n : Nat) (s : State) : Result :=
  gated ((s.rig n).take.state = 5) (fun s =>
    let gs := (s.rig n).take.trainable
    let ok := gs.filter fun g => !s.unmapped (g.1.masters ++ g.1.works)
    let climb := (ok.filter fun g => g.1.wk).flatMap fun g => g.1.masters.filter s.far
    let near := ok.flatMap fun g => g.1.masters.filter fun k => !s.far k
    let led := s.ledgered ok
    if !climb.isEmpty then each climb (fun s k => s.forceAscent k) s
    else match s.ledgerShort led with
      | some k => s.forceAscent ((s.oldestLedger (spaceOf k)).getD k)
      | none =>
        if s.stageBlocked n near near then s.stageForce n near
        else
          let s := each gs (fun s g => s.applyOne n g) s
          s.modTake n fun t => { t with state := 6 }) s

/-! ### Derive and the judgement (R263, R264, R367) -/

/-- Derive of one group: working copies, and what the masters show. -/
def State.deriveOne (s : State) (n : Nat) (g : Group × Nat) : State :=
  if s.unmapped (g.1.masters ++ g.1.works) then s.recAbort n
  else
    let md := s.nmode n false
    let s := if g.1.wk then
        let ms := s.stageElems n g.1.space g.1.maddr 4 g.1.nelem
        let s := s.stageRead n g.1.space g.1.maddr (4 * g.1.nelem)
        let ws := ms.map fun m => toF19 md false m.1
        let s := s.stageRange n g.1.space g.1.waddr (ws.flatMap fun w => leBytes 4 w.1)
        let s := when (ms.any fun m => !fp32.isFinite m.1) (·.recNonfin n) s
        let s := when (ms.any Prod.snd) (·.recPois n) s
        when (ws.any fun w => w.2.covf) (·.recSat n) s
      else
        each (rangePages g.1.space g.1.maddr (4 * g.1.nelem)) (fun s p =>
          match s.stagedLedgers.get none p.1 with
          | some l =>
            let bad := (List.range (p.2 / 4)).any fun i =>
              l.codes.get 0 i = 128 || l.exps.get 0 (i / 32) = 255 || !s16.isFinite (l.err.get 0 i)
            (when l.pois (·.recPois n) (when bad (·.recNonfin n) s)).tier0Bytes recordLines
          | none =>
            if (s.stagedVer? p.1 n).isSome then
              let c := s.stageContent n p.1
              let ms := (List.range (p.2 / 4)).map fun i => (leNat (c.bytesAt (4 * i) 4), c.poisoned (4 * i))
              when (ms.any Prod.snd) (·.recPois n) (when (ms.any fun m => !fp32.isFinite m.1) (·.recNonfin n) s)
            else s) s
    s.writeLog 0 0 n (.stage (s.rig n).take.num 2 g.2)

/-- Derive ends once its pages are acknowledged: DDONE is written and the take is judged (R264, R367). -/
def State.deriveEnd (s : State) (n : Nat) : State :=
  match (s.rig n).take.derived with
  | none => s
  | some goal =>
    if s.mirrorsPages && decide (s.tether.pageAck < goal) then s
    else
      let t := (s.rig n).take
      let s := s.writeLog 0 0 n (.ddone t.num t.bits (b2n (s.flag F.IMG_RSTC_SATNF n)) (s.get F.IMG_RLNOW_LSGROW n)
        (s.get F.IMG_TLS_LOG2 n) (s.get F.IMG_TLS_NCONS n))
      s.modTake n fun t => { t with state := if s.takeCause n = 0 then 7 else 8 }

/-- DERIVE_DONE (R263, R264): Derive forms its copies and sends them to the twin; it ends when they are acknowledged. -/
def execDeriveDone (n : Nat) (s : State) : Result :=
  gated ((s.rig n).take.state = 6) (fun s =>
    if (s.rig n).take.derived.isSome then s.deriveEnd n
    else
      let gs := (s.rig n).take.trainable
      let ok := gs.filter fun g => g.1.wk && !s.unmapped (g.1.masters ++ g.1.works)
      let reads := ok.flatMap fun g => g.1.masters
      let writes := ok.flatMap fun g => g.1.works
      if s.stageBlocked n reads writes then s.stageForce n (reads ++ writes)
      else
        let s := (each gs (fun s g => s.deriveOne n g) s).sendStaged n
        (s.modTake n fun t => { t with derived := some s.tether.pageSent }).deriveEnd n) s

/-! ### Stragglers and strikes (R257, R269) -/

/-- STRAGGLER_TIMEOUT at the lead. -/
def execStragglerTimeout (n g : Nat) (s : State) : Result :=
  match s.exch? n g with
  | none => .next s
  | some x => gated (x.started && !x.masked && x.members.head? = some s.myId
      && decide (s.now ≥ x.readyAt + 1000 * s.get F.IMG_TSTRGN_TIME n)) (fun s => s.exchDecide n g true) s

/-- A write of IMG_TCTL (R257, R274). -/
def State.tctlWrite (s : State) (n d : Nat) : State :=
  let st := (s.rig n).take.state
  if bit d 0 && decide (1 ≤ st) && decide (st ≤ 6) then
    let s := s.abortSheets n 0x0E fun h => h.take.isSome && h.status.isNone
    s.strikeTake n fun t => { t with driver := true }
  else s

/-- STRIKE. -/
def execStrike (n : Nat) (data : Word) (s : State) : Result := gated s.ioReached (·.tctlWrite n data.toNat) s

/-! ### The end of a take (R265 to R268) -/

/-- The loss scale, the count and the take number change, and the events are offered (R265). -/
def State.lossUpdate (s : State) (n cause : Nat) : State :=
  let old := s.get F.IMG_TLS_LOG2 n
  let r := s.lossAfter n cause
  let t := (s.rig n).take
  let halves := cause != 0 && cause != 1 && (t.nonfin || (t.sat && s.flag F.IMG_RSTC_SATNF n))
  let s := when (halves && decide (old = 0)) (·.raiseFlag F.IMG_TSTAT_LSMIN n) s
  let s := when (decide (r.1 > old)) (·.offer (Config.evtCode 16) { rig := some n }) s
  let s := when (decide (r.1 < old)) (·.offer 0x212 { rig := some n }) s
  ((s.setReg F.IMG_TLS_LOG2 r.1 n).setReg F.IMG_TLS_NCONS r.2 n).bump F.IMG_TNUM_NUM 1 n

/-- The take is over: Idle, its cause reported, what its exchange left discarded (R257, R274). -/
def State.takeOver (s : State) (n cause : Nat) : State :=
  let num := (s.rig n).take.num % 2 ^ 32
  let s := s.setReg F.IMG_TSTAT_CAUSE cause n
  let s := (s.releaseHeld n (cause = 0) cause).ageLate n
  let s := { s with
    exchanges := s.exchanges.filter (·.rig ≠ n), colls := s.colls.filter (·.rig ≠ some n)
    early := s.early.filter fun f => !(f.seng / 2 % 2 = 1 && f.stile = n && bits f.arg 31 0 = num) }
  s.modTake n fun t => { t with state := 0, close := none, gc := [], packed := [], xdone := [], recorded := false, derived := none }

/-- PRINT_RECORD_WRITTEN (R268, R171, R367): the END record is written, with LSGROW's new value in force; once it counts as
written the print takes effect. -/
def execPrintRecordWritten (n : Nat) (s : State) : Result :=
  gated ((s.rig n).take.state = 7 && !(s.rig n).take.recorded) (fun s =>
    let s := if (s.printRecord n).isSome then s
      else
        let s := s.setReg F.IMG_RLNOW_LSGROW (s.get F.IMG_RLIVE_LSGROW n) n
        let r := s.lossAfter n 0
        s.writeLog 0 0 n (.fin true 0 (((s.rig n).take.num + 1) % 2 ^ 32) r.1 r.2)
    match s.printRecord n with
    | some r => if r.acked then s.modTake n fun t => { t with recorded := true } else s
    | none => s) s

/-- A staged record becomes the page's record, or is folded where the page has ascended (R266). -/
def State.printLedger (s : State) (key : Nat) (l : Ledger) : State :=
  match s.page? key with
  | none => s
  | some p =>
    if p.tier ≥ 2 ∧ !p.zero then
      let s := s.newVersion key
      { s with ledgers := s.ledgers.set none key (some l) }.modPage key fun p => { p with ldg := true }
    else if s.inPlace p.tier then (s.newVersion key).foldHere key l
    else
      let s := s.newVersion key
      ({ s with ledgers := s.ledgers.set none key (some l) }.modPage key fun p => { p with ldg := true }).forceAscent key

/-- PRINT_COMPLETE (R266, R268): every staged frame and record becomes current; pages in a move end it first. -/
def execPrintComplete (n : Nat) (s : State) : Result :=
  let vs := s.staged.filter (·.rig = n)
  let ls := s.stagedLedgers.filter fun e => s.ownerOf e.1 = some n
  let pages := vs.map (·.page) ++ ls.map Prod.fst
  gated ((s.rig n).take.state = 7 && (s.rig n).take.recorded && !(s.moves.any fun m => pages.contains m.page)) (fun s =>
    if s.heldShort pages.eraseDups then s.holdWrites (pages.map fun k => (k, 0))
    else
      let s := each vs (fun s v => s.becomeCurrent v (.staged n)) s
      let s := { s with staged := s.staged.filter (·.rig ≠ n) }
      let s := each ls (fun s e => match e.2 with
        | some l => s.printLedger e.1 l
        | none => s) s
      let s := { s with stagedLedgers := s.stagedLedgers.filter fun e => s.ownerOf e.1 ≠ some n }
      let s := ((s.lossUpdate n 0).bump F.IMG_TNPRT_COUNT 1 n).flCount 713
      (each pages (fun s k => s.wakePage k) ((s.offer 0x210 { rig := some n }).takeOver n 0)).mcmdRetry) s

/-- STRIKE_COMPLETE (R267): once every task of the take has ended, staged frames and records are freed. -/
def execStrikeComplete (n : Nat) (s : State) : Result :=
  gated ((s.rig n).take.state = 8 && s.takeTasksOver n 0) (fun s =>
    let cause := s.takeCause n
    let s := { s with
      staged := s.staged.filter (·.rig ≠ n), wc := s.wc.filter fun (e : WcEntry) => e.which ≠ Which.staged n
      stagedLedgers := s.stagedLedgers.filter fun e => s.ownerOf e.1 ≠ some n }
    let r := s.lossAfter n cause
    let s := s.writeLog 0 0 n (.fin false cause (((s.rig n).take.num + 1) % 2 ^ 32) r.1 r.2)
    let s := ((s.lossUpdate n cause).bump F.IMG_TNSTR_COUNT 1 n).flCount (705 + cause)
    ((s.offer 0x211 { rig := some n }).offer (Config.evtCode (30 + cause)) { rig := some n }).takeOver n cause) s

/-! ### Export and import (R272, R273) -/

/-- The pages of a list with a pending update. -/
def State.ledgeredOf (s : State) (keys : List Nat) : List Nat := keys.filter fun k => ((s.page? k).map (·.ldg)).getD false

/-- The lines of a range of pages as a whole, for writes in place: ready, or their pages forced to ascend. -/
def State.placeReadyAll (s : State) (keys : List Nat) : Bool := keys.all fun k => (List.range 256).all fun l => s.outsideReady k l
def State.forceAll (s : State) (keys : List Nat) : State :=
  each (keys.filter fun k => !s.moving k && (match s.page? k with
    | some p => !p.zero && (p.ldg || !s.inPlace p.tier)
    | none => false)) (fun s k => s.forceAscent k) s

/-- A range is written in place, line by line; each page has one new version (R348). A line written in part is read first. -/
def State.placeRange (s : State) (space addr : Nat) (bs : List (Byte × Bool)) : State :=
  let ls := linesOf space addr bs
  each ls (fun s l =>
    let s := if l.2.2.length = 256 then s else s.countLine l.1
    (s.outsideLand l.1 l.2.1 l.2.2).countLine l.1) (each (ls.map (·.1)).eraseDups State.newVersion s)

/-- A range of current versions is read, line by line (R186). -/
def State.countRange (s : State) (space addr n : Nat) : State :=
  each (List.range ((addr + n + 255) / 256 - addr / 256)) (fun s i => s.countLine (keyOf space (256 * (addr / 256 + i)))) s

/-- The fields of IMG_TXCMD that keep what is written. -/
def State.txFields (s : State) (n d : Nat) : State :=
  (s.setReg F.IMG_TXCMD_OP (bits d 31 28) n).setReg F.IMG_TXCMD_GROUP (bits d 27 16) n

def State.txErr (s : State) (n code : Nat) : State := (s.setReg F.IMG_TXSTAT_ERR code n).raiseFlag F.IMG_TXSTAT_ERRF n

/-- The data's range, where the rig may use it (R272). -/
def State.txRange (s : State) (n nelem : Nat) (wr : Bool) : Option (Nat × Nat) :=
  let space := s.get F.IMG_TXADR_SPACE n
  let addr := s.get F.IMG_TXADR_ADDR n
  let keys := (List.range ((addr % 65536 + 4 * nelem + 65535) / 65536)).map fun i => keyOf space (addr + 65536 * i)
  if ((s.space? space).map (·.owner)) = some n ∧ addr % 256 = 0 ∧ !s.unmapped keys
      ∧ (!wr || keys.all fun k => s.mayWrite n k) then some (space, addr) else none

def rangeSpan (space addr n : Nat) : List Nat :=
  (List.range ((addr % 65536 + n + 65535) / 65536)).map fun i => keyOf space (addr + 65536 * i)

/-- The value of a range as its current version reads. -/
def State.currentElems (s : State) (space addr w cnt : Nat) : List (Nat × Bool) :=
  (List.range cnt).map fun i =>
    let a := addr + w * i
    let c := s.merged (keyOf space a) .current
    (leNat (c.bytesAt (a % 65536) w), c.poisoned (a % 65536))

/-- An export writes its range, an import its group's pages; each waits until no page it uses moves and every page it writes accepts
writes, and forces these to ascend, with those whose pending updates an export's read folds (R210). Left: it waits. -/
def State.exportRun (s : State) (j : TxJob) (g : Group) : Option State :=
  let out := rangeSpan j.space j.addr (4 * g.nelem)
  if s.unmapped g.masters then some (s.txErr j.rig 3)
  else if (s.moves.any fun m => g.masters.contains m.page || out.contains m.page) || !s.placeReadyAll out
      || (s.ledgeredOf g.masters).any fun k => !s.inPlace (((s.page? k).map (·.tier)).getD 0) then none
  else
    let s := each (s.ledgeredOf g.masters) (fun s k => s.foldIn k) s
    let ms := s.currentElems g.space g.maddr 4 g.nelem
    let md := s.nmode j.rig false
    some ((s.countRange g.space g.maddr (4 * g.nelem)).placeRange j.space j.addr (ms.flatMap fun m => (leBytes 4 (toF19 md false m.1).1).map fun b => (b, m.2)))

/-- The pages that an import writes. -/
def Group.importPages (g : Group) : List Nat := g.masters ++ g.works ++ (if g.kind = 1 then g.errTerms else [])

def State.importRun (s : State) (j : TxJob) (g : Group) : Option State :=
  let src := rangeSpan j.space j.addr (4 * g.nelem)
  if s.unmapped g.importPages then some (s.txErr j.rig 3)
  else if (s.moves.any fun m => g.importPages.contains m.page || src.contains m.page)
      || (s.ledgeredOf src).any fun k => !s.inPlace (((s.page? k).map (·.tier)).getD 0) then none
  else
    let s := (each (s.ledgeredOf src) (fun s k => s.foldIn k) s).countRange j.space j.addr (4 * g.nelem)
    let s1 := each g.masters (fun s k => s.dropLedger k) s
    if !s1.placeReadyAll g.importPages then none
    else
      let vs := (s1.currentElems j.space j.addr 4 g.nelem).map fun v => (v.1 / 2 ^ 13 * 2 ^ 13, v.2)
      let bs := vs.flatMap fun v => (leBytes 4 v.1).map fun b => (b, v.2)
      let s := s1.placeRange g.space g.maddr bs
      let s := when g.wk (·.placeRange g.space g.waddr bs) s
      let s := when (g.kind = 1) (·.placeRange g.space g.eaddr (List.replicate (2 * g.nelem) (0, false))) s
      some (s.writeLog 0 0 j.rig (.fin true 0 (s.get F.IMG_TNUM_NUM j.rig) (s.get F.IMG_TLS_LOG2 j.rig) (s.get F.IMG_TLS_NCONS j.rig)))

/-- A command that is in progress goes on: it ends, or waits. -/
def State.txRun (s : State) (j : TxJob) : State :=
  match (s.rig j.rig).take.groups[j.group]? with
  | none => s.txErr j.rig 2
  | some g =>
    match if j.imp then s.importRun j g else s.exportRun j g with
    | some s => s
    | none =>
      let s := s.forceAll (if j.imp then g.importPages ++ s.ledgeredOf (rangeSpan j.space j.addr (4 * g.nelem)) else s.ledgeredOf g.masters ++ rangeSpan j.space j.addr (4 * g.nelem))
      { s with txs := s.txs ++ [j] }

/-- The commands that wait are tried again. -/
def State.txRetry (s : State) : State := each s.txs State.txRun { s with txs := [] }

/-- GO of an export or import (R272): ignored while one runs; accepted with the take state Idle. -/
def State.txGo (s : State) (n : Nat) (imp : Bool) : State :=
  if s.txBusy n then s.raiseFlag F.IMG_TXSTAT_BUSYW n
  else
    let k := s.get F.IMG_TXCMD_GROUP n
    if (s.rig n).take.state ≠ 0 then s.txErr n 1
    else match (s.rig n).take.groups[k]? with
      | none => s.txErr n 2
      | some g => match s.txRange n g.nelem (!imp) with
        | none => s.txErr n 3
        | some d => (s.setReg F.IMG_TXSTAT_ERR 0 n).txRun { rig := n, imp := imp, group := k, space := d.1, addr := d.2 }

/-- A write of IMG_TXCMD (R272, R274). -/
def State.txCmd (s : State) (n d : Nat) : State :=
  let s := s.txFields n d
  if bit d 0 then
    match bits d 31 28 with
    | 1 => s.txGo n false
    | 2 => s.txGo n true
    | _ => if s.txBusy n then s.raiseFlag F.IMG_TXSTAT_BUSYW n else s.txErr n 4
  else s

/-- Is a rig absent: it does not exist, and no accepted image is creating it (R166)? -/
def State.rigAway (s : State) (n : Nat) : Bool := !(s.rig n).exists_ && s.rigState n = rigAbsent

/-- EXPORT (R272); on an absent rig it is ignored (R176). -/
def execExportGroup (n : Nat) (data : Word) (s : State) : Result := gated (s.ioReached && !s.rigAway n) (fun s => (s.txFields n data.toNat).txGo n false) s
/-- IMPORT (R272); on an absent rig it is ignored (R176). -/
def execImportGroup (n : Nat) (data : Word) (s : State) : Result := gated (s.ioReached && !s.rigAway n) (fun s => (s.txFields n data.toNat).txGo n true) s

end Sys2Proof.Machine
end

