-- ==== Sys2Proof/Machine/Twin.lean ====
section
/-! DEFINITION. The tether and the twin (R362 to R372): pairing, the reserve hosted for the partner, loss, restore, takeover. -/

namespace Sys2Proof.Machine

/-! ### The control register (R363, R364, R369, R375) -/

/-- PAIR: the ports train, or pairing goes on with ports that are trained (R365). -/
def State.startPair (s : State) : State :=
  if s.twState != twUnpaired then s
  else if ((s.link 8).train = 4 || (s.link 9).train = 4) && s.tether.helloOk then s.comparePeer
  else
    let s := s.setTw twTraining
    each [8, 9] (fun s p => if (s.link p).train = 0 then s.trainLink p false else s) s

/-- UNPR goes once every record written has been acknowledged (R369 step 2). -/
def State.tryUnpair (s : State) : State :=
  if s.twState = twUnpairing && s.twCaughtUp && !s.tether.unpr then
    { s.sendTether { ftype := 0x26, vc := 3 } with tether := { s.tether with unpr := true } }
  else s

/-- The device is unpaired: nothing waits for the twin any more. -/
def State.unpaired (s : State) : State :=
  ({ (s.setTw twUnpaired).dropMirror with tether := { s.tether with accepted := false, packed := false, unpr := false, mirrored := [] } } : State).ackAll

/-- UNPAIR: from paired the device waits for acknowledgements; from lost it is unpaired at once. -/
def State.startUnpair (s : State) : State :=
  if s.twState = twPaired then (s.setTw twUnpairing).tryUnpair
  else if s.twState = twLost then s.unpaired else s

/-- A write of TWN_CTL. -/
def State.twnCtl (s : State) (d : Nat) : State :=
  let st := s.twState
  let s := if bits d 19 18 = 3 then s.raiseFlag F.TWN_STAT_BADW
    else s.staticWrite F.TWN_CTL_PROT 0 (bits d 19 18) (st = twUnpaired) F.TWN_STAT_SREF 0 0x3C0
  let s := s.setReg F.TWN_CTL_TKO (bits d 3 3)
  let s := when (bit d 2) State.startUnpair s
  if bit d 1 && st = twUnpaired then s.startPair else s

/-- A write of TWN_RSV: other tiers than 1 and 2 are ignored. -/
def State.twnRsv (s : State) (d : Nat) : State :=
  let stop := decide (s.twState = twUnpaired)
  let s := if bits d 31 30 = 1 || bits d 31 30 = 2 then s.staticWrite F.TWN_RSV_TIER 0 (bits d 31 30) stop F.TWN_STAT_SREF 0 0x3C0
    else s.raiseFlag F.TWN_STAT_BADW
  s.staticWrite F.TWN_RSV_GIB 0 (bits d 19 0) stop F.TWN_STAT_SREF 0 0x3C0

/-- TWN_PAIR. -/
def execTwnPair (data : Word) (s : State) : Result := gated s.ioReached (·.twnCtl data.toNat) s
/-- TWN_UNPAIR. -/
def execTwnUnpair (data : Word) (s : State) : Result := gated s.ioReached (·.twnCtl data.toNat) s

/-! ### Frames of the tether -/

/-- Has a tether frame of a type arrived on a port that is up? -/
def State.tetherHears (s : State) (port : Nat) (f : Frame) (ft : Nat) : Bool :=
  (port = 8 || port = 9) && f.ftype = ft && (s.link port).train = 4

/-- A frame has arrived (R368). -/
def State.heard (s : State) : State := { s with tether := { s.tether with lastFrame := s.now } }

/-- PAIR (R364 step 4, R365): accepted where the reserve offered is at least what is needed and no frozen reserve holds it (log entry 54). -/
def execPair (port : Nat) (f : Frame) (s : State) : Result :=
  gated (s.tetherHears port f 0x20) (fun s =>
    let s := s.tookFrame port f
    match f.ext with
    | some (.pair prot need) =>
      let s := s.heard.setReg F.TWN_RNEED_GIB need
      let frozen := match s.reserve with
        | some r => r.frozen
        | none => false
      if decide (need ≤ s.get F.TWN_RSV_GIB) && !frozen then
        let r : Reserve := { prot := prot, gib := s.get F.TWN_RSV_GIB, tier := s.get F.TWN_RSV_TIER }
        let s : State := { s with reserve := some r, tether := { s.tether with accepted := true } }
        (s.sendTether { ftype := 0x21, vc := 3, ext := some (.pack true) }).startBaseline
      else (s.sendTether { ftype := 0x21, vc := 3, ext := some (.pack false) }).pairRefused
    | _ => s.heard) s

/-- PACK (R364, R365). -/
def execPack (port : Nat) (f : Frame) (s : State) : Result :=
  gated (s.tetherHears port f 0x21) (fun s =>
    let s := s.tookFrame port f
    let s := s.heard
    match f.ext with
    | some (.pack true) =>
      if s.twState = twPairing then { s with tether := { s.tether with packed := true } }.startBaseline else s
    | some (.pack false) => if s.twState = twPairing then s.pairRefused else s
    | _ => s) s

/-! ### The hosted reserve -/

/-- The pages that a rig has staged in the reserve. -/
def Reserve.ownerOf (r : Reserve) (k : Nat) : Nat := r.owner.get 0 k

/-- The staged set of a rig becomes printed, or is discarded (R367). A staged page holds its whole value, so the record that the printed page
had goes (log entry 52). -/
def Reserve.finish (r : Reserve) (rig : Nat) (print : Bool) : Reserve :=
  let mine := fun (k : Nat) => decide (r.ownerOf k = rig)
  let pages := r.staged.filter fun x => mine x.1
  let recs := r.stagedLedgers.filter fun x => mine x.1
  let r := if print then
      { r with printed := each pages (fun (m : FMap Content) x => m.put x.1 x.2) r.printed
               ledgers := each recs (fun (m : FMap Content) x => m.put x.1 x.2)
                 (r.ledgers.filter fun x => !(pages.any fun y => y.1 = x.1)) }
    else r
  { r with staged := r.staged.filter fun x => !mine x.1, stagedLedgers := r.stagedLedgers.filter fun x => !mine x.1 }

/-- A record is stored in the reserve, with what it frees and prints there. -/
def Reserve.store (r : Reserve) (x : LogRec) : Reserve :=
  let r := match x.kind with
    | .fin print _ _ _ _ => r.finish x.rig print
    | _ => r
  { r with log := logFree x r.log ++ [x], lrecSeq := max r.lrecSeq x.seq }

/-- A fragment of a page is stored: printed, staged, or a ledger record; a printed page's content replaces its record (log entry 52). -/
def Reserve.page (r : Reserve) (kind key ofs seq rig : Nat) (bs : List (Byte × Bool)) : Reserve :=
  let put := fun (m : FMap Content) => m.put key ((m.get {} key).writeP ofs bs)
  let r := { r with pageSeq := max r.pageSeq seq }
  match kind with
  | 0 => { r with printed := put r.printed, ledgers := r.ledgers.filter fun x => x.1 ≠ key }
  | 1 => { r with staged := put r.staged, owner := r.owner.put key rig }
  | 2 => { r with ledgers := put r.ledgers }
  | _ => { r with stagedLedgers := put r.stagedLedgers, owner := r.owner.put key rig }

/-- The acknowledgement of what the reserve holds. -/
def State.sendMack (s : State) : State :=
  match s.reserve with
  | none => s
  | some r => s.sendTether { ftype := 0x25, vc := 1, ext := some (.mack r.lrecSeq r.pageSeq) }

/-- The reserve that takes mirrored data: not frozen. -/
def State.hosting (s : State) : Option Reserve := s.reserve.filter fun r => !r.frozen

/-- LREC (R362, R367); a record that has come before, by the other port, is stored once. -/
def execLrec (port : Nat) (f : Frame) (s : State) : Result :=
  gated (s.tetherHears port f 0x22) (fun s =>
    let s := s.tookFrame port f
    match s.hosting, f.ext with
    | some r, some (.lrec recs) => ({ s.heard with reserve := some (each (recs.filter fun x => decide (r.lrecSeq < x.seq)) Reserve.store r) } : State).sendMack
    | _, _ => s.heard) s

/-- PAGE (R362, R367); a fragment that has come before is stored once. -/
def execPage (port : Nat) (f : Frame) (s : State) : Result :=
  gated (s.tetherHears port f 0x23) (fun s =>
    let s := s.tookFrame port f
    match s.hosting, f.ext with
    | some r, some (.page seq rig) =>
      let addr := f.arg % 2 ^ 52
      if seq ≤ r.pageSeq then s.heard.sendMack
      else ({ s.heard with reserve := some (r.page f.ofs (keyOf (f.arg / 2 ^ 52) addr) (addr % 65536) seq rig f.data) } : State).sendMack
    | _, _ => s.heard) s

/-- MACK (R367): records count as written, completions leave, the baseline may be over, UNPR may go. -/
def execMack (port : Nat) (f : Frame) (s : State) : Result :=
  gated (s.tetherHears port f 0x25) (fun s =>
    let s := s.tookFrame port f
    match f.ext with
    | some (.mack lrec page) =>
      let t := s.tether
      let s : State := { s.heard with
        tether := { t with lastFrame := s.now, ackSeq := max t.ackSeq lrec, pageAck := max t.pageAck page }
        log := s.log.map fun (r : LogRec) => if r.seq ≤ lrec then { r with acked := true } else r }
      s.driveAcked.tryPaired.tryUnpair
    | _ => s.heard) s

/-- UNPR (R369 steps 3 and 4): the reserve is freed unless it is frozen; a device that did not ask answers. -/
def execUnpr (port : Nat) (f : Frame) (s : State) : Result :=
  gated (s.tetherHears port f 0x26) (fun s =>
    let s := s.tookFrame port f
    let asked := s.tether.unpr
    let s : State := { s.heard with reserve := s.reserve.filter (·.frozen) }
    let s := s.unpaired
    if asked then s else s.sendTether { ftype := 0x26, vc := 3 }) s

/-- BEAT (R362). -/
def execBeat (port : Nat) (f : Frame) (s : State) : Result := gated (s.tetherHears port f 0x27) (fun s => (s.tookFrame port f).heard) s

/-- BEAT_SEND (R362): port T0 or T1 has carried no frame for 100 µs. -/
def execBeatSend (t : Nat) (s : State) : Result :=
  let p := 8 + t
  gated ((s.link p).train = 4 && decide (s.tether.lastSent.get 0 p + 100000 ≤ s.now)) (fun s =>
    { s.enqueue p false { ftype := 0x27, vc := 1, src := s.myId, dst := s.get F.TWN_PEER_ID } with
      tether := { s.tether with lastSent := s.tether.lastSent.put p s.now } }) s

/-- PARTNER_LOST (R368): no frame on either port for 1 ms. -/
def execPartnerLost (s : State) : Result :=
  let st := s.twState
  gated ((st = twPairing || st = twBaseline || st = twPaired || st = twUnpairing) && decide (s.tether.lastFrame + 1000000 ≤ s.now)) (fun s =>
    let s := ((s.dropMirror.raiseFlag F.TWN_STAT_LOSTF).setTw twLost).setReg F.TWN_STAT_SUSP 1
    let s := (s.offer 0x3C4 { port := some 8 }).offer (Config.evtCode 61)
    let s := if s.reserve.isSome then s.setReg F.TWN_STAT_HOSTF 1 else s
    let s : State := { s with reserve := s.reserve.map fun (r : Reserve) => { r with frozen := true } }
    s.ackAll) s

/-! ### Restore (R371) -/

/-- A take record from its bits. -/
def takeOfBits (b : Nat) : Take :=
  { nonfin := bit b 0, sat := bit b 1, pois := bit b 2, prox := bit b 3, abort := bit b 4, peer := bit b 5, late := bit b 6 }

/-- The take that rig `x.rig` had open when the partner was lost is judged from its DDONE record (R264, R265): a print makes the staged
set printed and leaves an END record. -/
def Reserve.judge (r : Reserve) (x : LogRec) : Reserve :=
  match x.kind with
  | .ddone num rec satnf lsgrow ls ncons =>
    let t := takeOfBits rec
    if t.cause (satnf != 0) = 0 then
      let e := lossScale ls ncons lsgrow t (satnf != 0) 0
      r.store { seq := x.seq + 1, rig := x.rig, kind := .fin true 0 ((num + 1) % 2 ^ 32) e.1 e.2 }
    else r
  | _ => r

/-- The frozen reserve is settled: open takes judged, every other staged set discarded. -/
def Reserve.settle (r : Reserve) : Reserve :=
  if r.settled then r
  else { each r.log Reserve.judge r with staged := [], stagedLedgers := [], settled := true }

/-- The bytes of a printed page as they are sent: folded where it has a record (R210, R211). -/
def Reserve.content (r : Reserve) (k : Nat) (c : Content) : Content :=
  match r.ledgers.lookup k with
  | some l => (ledgerOf l).foldPage {} c
  | none => c

/-- A WR of the restore leaves: STILE 0x7F, SENG bit 1; a page's offset in the window is its address (log entry 56). -/
def State.sendRestore (s : State) (dst win addr : Nat) (bs : List (Byte × Bool)) : State :=
  let k := sendKey dst 0x7F 2
  let n := (s.sendStreams.get {} k).seq + 1
  let pm := each (List.range ((bs.length + 7) / 8)) (fun m w => if poisOf 0 bs w then m + 2 ^ w else m) 0
  let f : Frame := { ftype := ftWR, dst := dst, src := s.myId, stile := 0x7F, seng := 2, cnt := n % 65536
                     arg := dst * 2 ^ 40 + win * 2 ^ 32 + addr % 2 ^ 32, pmask := pm, payload := bs.map Prod.fst }
  let s := if dst = s.myId then s.receiveWr 31 f else s.sendOn f
  { s with sendStreams := s.sendStreams.upd {} k fun st => { st with seq := n } }

/-- A page of the reserve leaves. -/
def State.restorePage (s : State) (dst : Nat) (r : Reserve) (x : Nat × Content) : State :=
  let bs := (r.content x.1 x.2).read 0 65536
  let win := s.get F.TWN_RMAP_WIN (spaceOf x.1)
  each (List.range 128) (fun s i => s.sendRestore dst win (vpnOf x.1 * 65536 + 512 * i) ((bs.drop (512 * i)).take 512)) s

/-- RESTORE: the reserve is settled, then sent. -/
def State.startRestore (s : State) (dst : Nat) : State :=
  match s.reserve.filter (·.frozen) with
  | none => s.restoreErr 1
  | some r =>
    let r := r.settle
    let s : State := { s with reserve := some r }
    if r.printed.any fun x => !s.flag F.TWN_RMAP_VALID (spaceOf x.1) then s.restoreErr 2
    else
      let s := s.setReg F.TWN_RSTAT_BUSY 1
      let s : State := { s with tether := { s.tether with
        restore := some dst, restoreFrom := (s.sendStreams.get {} (sendKey dst 0x7F 2)).seq } }
      each r.printed (fun s x => s.restorePage dst r x) s

/-- RELEASE frees the frozen reserve (R369). -/
def State.releaseReserve (s : State) : State :=
  if (s.reserve.filter (·.frozen)).isSome then { s.setReg F.TWN_STAT_HOSTF 0 with reserve := none } else s.restoreErr 1

/-- A write of TWN_RCMD. -/
def State.twnRcmd (s : State) (d : Nat) : State :=
  let s := (s.setReg F.TWN_RCMD_OP (bits d 31 28)).setReg F.TWN_RCMD_DST (bits d 12 1)
  if bit d 0 && !s.flag F.TWN_RSTAT_BUSY then
    let s := (s.setReg F.TWN_RSTAT_ERR 0).setReg F.TWN_RSTAT_PROG 0
    match bits d 31 28 with
    | 1 => s.startRestore (bits d 12 1)
    | 2 => s.releaseReserve
    | _ => s.restoreErr 4
  else s

/-- RESTORE. -/
def execRestore (data : Word) (s : State) : Result := gated s.ioReached (·.twnRcmd data.toNat) s
/-- RELEASE. -/
def execRelease (data : Word) (s : State) : Result := gated s.ioReached (·.twnRcmd data.toNat) s

/-- RESTORE_COMPLETE: every WR of the restore has been acknowledged. -/
def execRestoreComplete (s : State) : Result :=
  match s.tether.restore with
  | none => .next s
  | some dst =>
    let st := s.sendStreams.get {} (sendKey dst 0x7F 2)
    gated (st.acked = st.seq) (fun s =>
      let s := ((s.setReg F.TWN_RSTAT_BUSY 0).raiseFlag F.TWN_RSTAT_DONE).setReg F.TWN_RSTAT_PROG 255
      { s with tether := { s.tether with restore := none } }) s

/-! ### Takeover (R372) -/

/-- A write of TWN_RSCAL0: only in takeover state; with GO, while the rig's take is Idle and no call sheet of it has been dispatched
since its load. -/
def State.rscal0 (s : State) (d : Nat) : State :=
  let n := bits d 9 3
  let r := s.rig n
  let ok := s.flag F.TWN_CTL_TKO && (!bit d 0 || (r.exists_ && r.take.state = 0 && !r.ran && decide (bits d 15 10 ≤ 32)))
  if !ok then s.raiseFlag F.TWN_STAT_BADW
  else
    let s := ((s.setReg F.TWN_RSCAL0_NCONS (bits d 31 16)).setReg F.TWN_RSCAL0_LOG2 (bits d 15 10)).setReg F.TWN_RSCAL0_RIG n
    if bit d 0 then
      ((s.setReg F.IMG_TLS_LOG2 (bits d 15 10) n).setReg F.IMG_TLS_NCONS (bits d 31 16) n).setReg F.IMG_TNUM_NUM (s.get F.TWN_RSCAL1_TNUM) n
    else s

/-- A write of TWN_RSCAL1. -/
def State.rscal1 (s : State) (d : Nat) : State :=
  if s.flag F.TWN_CTL_TKO then s.setReg F.TWN_RSCAL1_TNUM d else s.raiseFlag F.TWN_STAT_BADW

/-- TWN_RSCAL_GO. -/
def execTwnRscalGo (data : Word) (s : State) : Result := gated s.ioReached (·.rscal0 data.toNat) s

end Sys2Proof.Machine
end

