-- ==== Sys2Proof/Machine/Control.lean ====
section
/-! DEFINITION. The control space (R4, R5, R77, R168 to R176, R426 to R431) and the SMBus sideband (R439): what a read of a register shows,
what a write does. -/

namespace Sys2Proof.Machine

/-! ### Addresses -/

/-- The instance that an offset falls into, outermost index first, and the offset left. -/
def instanceOf : List (Nat × Nat) → Nat → Nat → Option (Nat × Nat)
  | [], rem, idx => some (idx, rem)
  | (stride, n) :: l, rem, idx => if rem / stride < n then instanceOf l (rem % stride) (idx * n + rem / stride) else none

/-- The instance and the word of a register at an address. -/
def Reg.at_ (r : Reg) (addr : Nat) : Option (Nat × Nat) :=
  if addr < r.base then none
  else match instanceOf r.dims (addr - r.base) 0 with
    | some (i, rem) => if rem < r.bits / 8 then some (i, rem / 4) else none
    | none => none

/-- What lies at an address: register, fields, instance, word. -/
def regAt (addr : Nat) : Option (Reg × List Field × Nat × Nat) :=
  regTable.findSome? fun x => (x.1.at_ addr).map fun y => (x.1, x.2, y.1, y.2)

/-! ### Views: fields that show other state -/

/-- The block of a register for GLB_STAT.ATTN (R430). -/
def Reg.block (r : Reg) : Nat :=
  if r.base < 0x10000 then 0 else if r.base < 0x20000 then 1 else if r.base < 0x30000 then 2 else if r.base < 0x40000 then 3
  else if r.base < 0x50000 then 4 else if r.base < 0x60000 then 5 else if r.base < 0x80000 then 4 else if r.base < 0x88000 then 6
  else if r.base < 0x90000 then 7 else if r.base < 0x98000 then 8 else if r.base < 0x1000000 then 9 else 10

/-! ### What reads zero and ignores writes -/

/-- The registers that step 2 of start-up writes (R429, R439). -/
def fromFuses : List Reg := [R.GLB_ID, R.GLB_REV, R.GLB_SER, R.GLB_TCNT, R.GLB_TMAP, R.GLB_PMAP, R.SEC_FSTAT]

/-- Registers that the lead member alone keeps (R76). -/
def leadOnly : List Reg :=
  [R.TILE_ARR_CTL, R.TILE_ARR_BLKA, R.TILE_ARR_BLKS, R.TILE_ARR_NROW, R.TILE_ARR_NBUB, R.TILE_ARR_NLOAD, R.TILE_ARR_NHOLD]

/-- Is a register of an absent rig, a tile that is not enabled, a member that is not the lead, or one that start-up has not written yet
(R76, R176, R428, R439)? -/
def State.hidden (s : State) (r : Reg) (i : Nat) : Bool :=
  if fromFuses.contains r then decide (s.get F.SEC_BOOT_STEP ≤ 2)
  else if r = R.EVT_FLWIN then decide (s.get F.SEC_BOOT_STEP ≤ 4)
  else if r = R.SYN_RIG then s.rigAway i
  else if 0x91000 ≤ r.base ∧ r.base < 0x98000 then s.rigAway (i / (r.count / 72))
  else if 0x1000000 ≤ r.base then
    let p := i / (r.count / 80)
    !s.enabled p || (leadOnly.contains r && s.leadOf p != p)
  else false

/-- ATTN: a bit for each block in which some W1C field that can be read holds a 1. -/
def State.attn (s : State) : Nat :=
  each regTable (fun n x =>
    let k := x.1.block
    let hit := x.2.any fun f => f.acc = .W1C && s.regs.any fun e => e.1 % 1024 = f.id && !s.hidden x.1 (e.1 / 1024)
    if hit then n ||| 2 ^ k else n) 0

def State.tilesIn (s : State) (st : Nat) : Nat := ((List.range 80).filter fun p => s.get F.GLB_PMAP_STATE p = st).length

/-- Is a line of the home marked poisoned at line level (R180, R206)? Tiers 0 and 1 keep poison by word, the stored format by line. -/
def Page.psn (p : Page) : Bool := (p.cmp || decide (p.tier ≥ 2)) && !p.linePois.isEmpty

/-- A page's entry (R180) and negative descriptor (R181). -/
def Page.pte (p : Page) : Nat :=
  2 ^ 63 + b2n p.ro * 2 ^ 62 + p.tier * 2 ^ 60 + b2n p.cmp * 2 ^ 59 + b2n p.mov * 2 ^ 58 + p.kind * 2 ^ 56 + b2n p.neg * 2 ^ 55
    + b2n p.ldg * 2 ^ 54 + b2n p.psn * 2 ^ 53 + b2n p.pin * 2 ^ 52 + b2n p.zero * 2 ^ 51 + p.hint * 2 ^ 49 + p.heat * 2 ^ 41
    + p.len * 2 ^ 36 + p.frame

def State.lookPage (s : State) : Option Page := s.page? (keyOf (s.get F.TIER_LOOKA_SPACE) (s.get F.TIER_LOOKA_VPN * 2 ^ 16))

def State.lookNeg (s : State) : Nat :=
  match s.lookPage, s.space? (s.get F.TIER_LOOKA_SPACE) with
  | some p, some sp => if sp.ro then p.negLen * 2 ^ 36 + p.negFrame else 0
  | _, _ => 0

/-- The arbiter's kinds as bits. -/
def actKinds (l : List Act) : Nat := ((List.range 7).map fun k => b2n (l.any (·.kind = k)) * 2 ^ k).sum

/-- The records that TWN_PLOOK lists of a frozen reserve: LOGNO, USER, queue, rig, done, status. -/
def State.listed (s : State) : List (Nat × Nat × Nat × Nat × Nat × Nat) :=
  match s.reserve.filter (·.frozen) with
  | none => []
  | some r => r.log.filterMap fun x => match x.kind with
    | .sheet sq user => some (x.logno, user, sq, x.rig, 0, 0)
    | .done sq user status _ => some (x.logno, user, sq, x.rig, 1, status)
    | _ => none

def State.plook (s : State) : Nat × Nat × Nat × Nat × Nat × Nat := (s.listed[s.get F.TWN_PLOOK_INDEX]?).getD (0, 0, 0, 0, 0, 0)

/-- The last END record of the rig that TWN_PESEL names, of a settled reserve: print, take number, log2, count. -/
def State.pend (s : State) : Option (Bool × Nat × Nat × Nat) :=
  match s.reserve.filter fun r => r.frozen && r.settled with
  | none => none
  | some r => (r.log.filterMap fun x => if x.rig = s.get F.TWN_PESEL_RIG then (match x.kind with
    | .fin print _ num ls ncons => some (print, num, ls, ncons)
    | _ => none) else none).getLast?

/-- How far a restore in progress has come, in 1/256 of what it sends; else as the last one left it (R375). -/
def State.restoreProg (s : State) : Nat :=
  match s.tether.restore with
  | some dst =>
    let st := s.sendStreams.get {} (sendKey dst 0x7F 2)
    min 255 (256 * (st.acked - s.tether.restoreFrom) / max 1 (st.seq - s.tether.restoreFrom))
  | none => s.get F.TWN_RSTAT_PROG

/-- Does a dispatch wait for a slot of its completion queue? -/
def State.dispatchWaits (s : State) (q : Nat) (x : Sq) : Bool := (s.front q).isSome && !s.slotOk x.cq

/-- Is the queue's next call sheet held, by the take of its rig (R249) or by its FENCE (R329)? -/
def State.heldFront (s : State) (q : Nat) : Bool :=
  match s.front q with
  | some h => (s.rig h.rig).take.holds h.cs.take || h.cs.fence && s.sheets.any fun x => x.sq = q && x.dispatched
  | none => false

/-- The context that QUE_LOOKD shows: head, tail, state, priority, size, rig, link. -/
def State.lookQueue (s : State) : Nat × Nat × Nat × Nat × Nat × Nat × Nat :=
  let n := s.get F.QUE_LOOK_QNUM
  if s.flag F.QUE_LOOK_CQ then
    match s.cq? n with
    | some q => (q.freed % q.size, q.written % q.size, 1, 0, q.logsz, q.rig, q.vec)
    | none => (0, 0, 0, 0, 0, 0, 0)
  else match s.sq? n with
    | some q => (q.head, q.tail, if s.heldFront n then 2 else if s.dispatchWaits n q then 3 else 1, q.prio, q.logsz, q.rig, q.cq)
    | none => (0, 0, 0, 0, 0, 0, 0)

/-- The state of a bank (R92): finished shows before reserved, reserved before held by a stream (log entry 151). -/
def Tile.bankState (t : Tile) (b : Nat) : Nat :=
  let k := t.bank b
  let busy := t.engs.any fun e => match e.2.run with
    | .ready g => g.xfers.any fun x => x.rows.any fun r => r.1 = b
    | _ => false
  if k.fin then 2 else if k.task.logno ≠ 0 then 1 else if busy then 3 else 0

/-- The phase of an array. -/
def Arr.phase (a : Arr) : Nat :=
  match a.run with
  | some r => if r.loading then 1 else 2
  | none => if a.fly.isEmpty then 0 else 3

/-- The state of an engine: idle, running, running with shadow, held, stopped. An arm that is still being checked has not been accepted
and does not show (R139, R141). -/
def Eng.state (x : Eng) : Nat :=
  if x.stopped then 4
  else match x.run, x.shd with
    | .ready _, .ready _ => 2
    | .ready _, _ => 1
    | _, .ready _ => 3
    | _, _ => 0

def Eng.genD (x : Eng) : Gen := x.run.gen?.getD {}

/-- Does an engine sleep: it waits for a signal, or for far-side data (R302)? -/
def Eng.sleeps (x : Eng) : Bool := x.genD.wait = 1 || x.genD.wait = 4

/-- The sleeping units of a tile, engines by physical number; the wires bound (R303). -/
def State.sleep (s : State) (p : Nat) : Nat :=
  let t := s.tile p
  ((List.range 8).map fun e => b2n (t.eng e).sleeps * 2 ^ s.get (emapField e) p).sum
    + (if t.vec.running && (t.vec.wait = 1 || t.vec.wait = 2) then 512 else 0)
def State.wires (s : State) (p : Nat) : Nat :=
  let t := s.tile p
  ((List.range 8).map fun e => if (t.eng e).sleeps then 1 + b2n (decide ((t.eng e).genD.wait = 4) && (t.eng e).genD.dlTime != 0) else 0).sum
    + b2n (t.vec.running && (t.vec.wait = 1 || t.vec.wait = 2))

def State.arrOf (s : State) (p : Nat) : Arr := (s.tile p).arr
/-- Is a window enabled: one whose rig is absent reads as disabled (R294)? -/
def State.winOn (s : State) (w : Nat) : Bool := s.flag F.FAB_WIN_0_EN w && (s.rig (s.get F.FAB_WIN_0_RIG w)).exists_

/-- The loaded block that a tile's array shows: none while a block is being loaded (R76). -/
def Arr.shown (a : Arr) : Option Block := if (a.run.map (·.loading)) = some true then none else a.blk
def State.blkOf (s : State) (p : Nat) : Block := ((s.tile p).arr.shown).getD {}

def views0 : List (Field × (State → Nat → Nat)) := [
  (F.GLB_SER_BYTES, fun s _ => leNat (((s.fuseBytes fuIDCERT 256).drop 16).take 16)),
  (F.GLB_STAT_BSTEP, fun s _ => s.stepShown),
  (F.GLB_STAT_BFAIL, fun s _ => s.get F.SEC_BOOT_FAIL),
  (F.GLB_STAT_TRIP, fun s _ => b2n ((List.range 18).any fun i => s.flag F.PWR_VP_TRIPPED i)),
  (F.GLB_STAT_HALTD, fun s _ => b2n (s.rigs.any fun r => r.2.exists_ && r.2.killed && s.rigState r.1 = rigStopped)),
  (F.GLB_STAT_ATTN, fun s _ => s.attn),
  (F.GLB_TCNT_RIGRUN, fun s _ => (s.rigs.filter fun r => s.rigState r.1 = rigRunning).length),
  (F.GLB_TCNT_RETIRED, fun s _ => s.tilesIn 2),
  (F.GLB_TCNT_HELD, fun s _ => s.tilesIn 1),
  (F.GLB_TCNT_ENABLED, fun s _ => s.tilesIn 0)]

def views1 : List (Field × (State → Nat → Nat)) := [
  (F.SEC_FSTAT_FWSVN, fun s _ => s.fuseSvn),
  (F.SEC_FSTAT_KREV, fun s _ => slotBits s.revoked),
  (F.SEC_FSTAT_KENR, fun s _ => slotBits s.enrolled),
  (F.SEC_FSTAT_DBGKILL, fun s _ => b2n s.dbgKill),
  (F.SEC_FSTAT_DBGLOCK, fun s _ => b2n s.dbgLock),
  (F.SEC_DSTAT_SCOPE, fun s _ => if s.dbgLock then s.get F.SEC_DSTAT_SCOPE else 0xF),
  (F.SEC_CERT_BYTES, fun s _ => s.certWord),
  (F.SEC_OKEY_BYTES, fun s k => s.okeyWord k),
  (F.EVT_CTL_RUN, fun s c => b2n (s.counting c)),
  (F.EVT_FLWIN_BYTES, fun s i => s.flWindow (4 * i)),
  (F.MEM_CHMAP_LOGICAL, fun s c => if s.get F.MEM_CHMAP_ROLE c = 0 then s.get F.MEM_CHMAP_LOGICAL c else 0x1FF),
  (F.SYN_SCNT_RIG, fun s _ => (s.rigOfSig (s.get F.SYN_SSEL_SIG)).getD 0x7F),
  (F.SYN_SCNT_COUNT, fun s _ => if (s.rigOfSig (s.get F.SYN_SSEL_SIG)).isSome then s.sigs.get 0 (s.get F.SYN_SSEL_SIG) else 0),
  (F.SYN_GMDAT_ID, fun s _ => s.members.get 0 (s.get F.SYN_GMSEL_INDEX)),
  (F.SYN_GRP_VALID, fun s n => if n = 4095 then 1 else s.get F.SYN_GRP_VALID n),
  (F.SYN_OB_ST_PEND, fun s k => b2n ((s.obMembers k).any fun p => decide (s.obArr.get 0 (obKey k p) ≥ 1))),
  (F.SYN_XB_ST_PEND, fun s k => b2n (decide ((s.xbar k).arr ≥ 1)))]

def views2 : List (Field × (State → Nat → Nat)) := [
  (F.MEM_CHSTAT_QUEUED, fun s _ => b2n (s.actQ.any fun a => a.cmd && (a.kind = 1 || (a.kind = 3 && decide (a.arg < 256))))),
  (F.MEM_MARB_QUE, fun s _ => actKinds s.actQ),
  (F.MEM_MARB_RUN, fun s _ => actKinds s.acts),
  (F.TIER_LOOKD_PTE, fun s _ => (s.lookPage.map Page.pte).getD 0),
  (F.TIER_LOOKN_NDESC, fun s _ => s.lookNeg),
  (F.TIER_FREE_UNITS, fun s k => s.freeUnits k),
  (F.FAB_STAT_OVF, fun s _ => b2n (!s.overflow.isEmpty)),
  (F.FAB_WIN_0_EN, fun s w => b2n (s.winOn w)),
  (F.TWN_STAT_ONEP, fun s _ => b2n (((s.link 8).train == 4) != ((s.link 9).train == 4))),
  (F.TWN_LSTAT_HOLDV, fun s _ => b2n s.holdsWrite),
  (F.TWN_RSTAT_PROG, fun s _ => s.restoreProg),
  (F.TWN_LSTAT_USEDMB, fun s _ => s.ringUsed / 2 ^ 20),
  (F.TWN_PLOOK_COUNT, fun s _ => s.listed.length),
  (F.TWN_PLDAT0_LOGNO, fun s _ => s.plook.1),
  (F.TWN_PLDAT1_USER, fun s _ => s.plook.2.1),
  (F.TWN_PLDAT2_SQID, fun s _ => s.plook.2.2.1),
  (F.TWN_PLDAT2_RIG, fun s _ => s.plook.2.2.2.1),
  (F.TWN_PLDAT2_DONE, fun s _ => s.plook.2.2.2.2.1),
  (F.TWN_PLDAT2_STATUS, fun s _ => s.plook.2.2.2.2.2),
  (F.TWN_PEND0_VALID, fun s _ => b2n s.pend.isSome),
  (F.TWN_PEND0_PRINT, fun s _ => b2n ((s.pend.map (·.1)).getD false)),
  (F.TWN_PEND1_TNUM, fun s _ => (s.pend.map (·.2.1)).getD 0),
  (F.TWN_PEND0_LOG2, fun s _ => (s.pend.map (·.2.2.1)).getD 0),
  (F.TWN_PEND0_NCONS, fun s _ => (s.pend.map (·.2.2.2)).getD 0)]

def views3 : List (Field × (State → Nat → Nat)) := [
  (F.IMG_TXSTAT_BUSY, fun s n => b2n (s.txBusy n)),
  (F.IMG_TSTAT_NONF, fun s n => b2n (s.rig n).take.nonfin),
  (F.IMG_TSTAT_SATR, fun s n => b2n (s.rig n).take.sat),
  (F.IMG_TSTAT_POISR, fun s n => b2n (s.rig n).take.pois),
  (F.IMG_TSTAT_PROX, fun s n => b2n (s.rig n).take.prox),
  (F.IMG_TSTAT_LATE, fun s n => b2n (s.rig n).take.late),
  (F.IMG_TSTAT_STRK, fun s n => b2n (decide ((s.rig n).take.state = 8))),
  (F.IMG_TSTAT_STATE, fun s n => (s.rig n).take.state % 8),
  (F.QUE_LOOKD_HEAD, fun s _ => s.lookQueue.1),
  (F.QUE_LOOKD_TAIL, fun s _ => s.lookQueue.2.1),
  (F.QUE_LOOKD_STATE, fun s _ => s.lookQueue.2.2.1),
  (F.QUE_LOOKD_PRIO, fun s _ => s.lookQueue.2.2.2.1),
  (F.QUE_LOOKD_LOGSZ, fun s _ => s.lookQueue.2.2.2.2.1),
  (F.QUE_LOOKD_RIG, fun s _ => s.lookQueue.2.2.2.2.2.1),
  (F.QUE_LOOKD_LINK, fun s _ => s.lookQueue.2.2.2.2.2.2),
  (F.QUE_STAT_CQWAIT, fun s _ => b2n ((s.compls.any fun c => !c.slot && c.holdTake.isNone) || s.sqs.any fun q => match q.2 with
    | some x => s.dispatchWaits q.1 x
    | none => false)),
  (F.SEC_BOOT_STEP, fun s _ => s.stepShown),
  (F.EVT_FLSTAT_QUEUED, fun s _ => b2n (s.actQ.any (·.kind = 4))),
  (F.QUE_AP_0_EN, fun s a => if a = 0 then 1 else s.get F.QUE_AP_0_EN a)]

def views4 : List (Field × (State → Nat → Nat)) := [
  (F.TILE_ARR_STAT_HOLDNOW, fun s p => if s.leadOf p = p then s.get F.TILE_ARR_STAT_HOLDNOW p else 0),
  (F.TILE_ARR_STAT_HALTED, fun s p => b2n (s.flag F.TILE_ARR_CTL_HALT p && (s.arrOf p).fly.isEmpty)),
  (F.TILE_ARR_STAT_PHASE, fun s p => (s.arrOf p).phase),
  (F.TILE_ARR_STAT_LOADED, fun s p => b2n (s.arrOf p).shown.isSome),
  (F.TILE_ARR_STAT_W1USE, fun s p => b2n (decide ((s.blkOf p).id.form = 1))),
  (F.TILE_ARR_STAT_PBLK, fun s p => b2n (!(s.blkOf p).poisCols.isEmpty)),
  (F.TILE_ARR_STAT_BAL, fun s p =>
    let a := s.arrOf p
    if !a.inGap || a.gapMode = 0 then 0 else if a.step = 0 then 1 else if a.step < 5 then 2 else 3),
  (F.TILE_ARR_BLKA_ADDR, fun s p => (s.blkOf p).id.addr),
  (F.TILE_ARR_BLKS_SPACE, fun s p => (s.blkOf p).id.space),
  (F.TILE_ARR_BLKS_VER, fun s p => (s.blkOf p).id.ver % 2 ^ 16),
  (F.TILE_ACC_STAT_BSTATE, fun s p => ((List.range 4).map fun b => (s.tile p).bankState b * 4 ^ b).sum),
  (F.TILE_ACC_STAT_POIS, fun s p => ((List.range 4).map fun b => b2n (((s.tile p).bank b).elems.any fun e => e.2.p) * 2 ^ b).sum),
  (F.VEC_STAT_ROUT, fun s p => (s.tile p).vec.rout),
  (F.VEC_STAT_PC, fun s p => (s.tile p).vec.pc),
  (F.VEC_STAT_WAIT, fun s p => if (s.tile p).vec.running then (s.tile p).vec.wait else if s.flag F.VEC_CTL_HALT p then 4 else 0),
  (F.VEC_STAT_RUN, fun s p => b2n (s.tile p).vec.running),
  (F.VEC_STAT_LEXH, fun s p => b2n ((List.range 16).any fun g => decide (s.get F.VEC_LMAP_STATE (16 * p + g) = 2))),
  (F.VEC_FTQ_COUNT, fun s p => (s.tile p).ftq.length),
  (F.VEC_FTQ_HEAD, fun s p => (s.tile p).ftqHead),
  (F.VEC_FTQ_FULL, fun s p => b2n (decide ((s.tile p).ftq.length = 8) || (decide ((s.tile p).ftq.length = 7) && (s.tile p).copy.isSome))),
  (F.VEC_TAG_TAG, fun s i => (((s.tile (i / 8)).ftq[i % 8]?).map (·.tag)).getD 0),
  (F.STRM_STAT_PC, fun s i => (s.eng (i / 8) (i % 8)).genD.pc),
  (F.STRM_STAT_STATE, fun s i => (s.eng (i / 8) (i % 8)).state),
  (F.STRM_STAT_WAIT, fun s i => (s.eng (i / 8) (i % 8)).genD.wait),
  (F.TILE_WAKE_SLEEP, fun s p => s.sleep p),
  (F.TILE_WAKE_NWIRE, fun s p => s.wires p)]

/-- The fields that show other state, each with what it shows. -/
def views : List (Field × (State → Nat → Nat)) := views0 ++ (views1 ++ (views2 ++ (views3 ++ (views4))))

/-- What a field shows. -/
def State.look (s : State) (f : Field) (i : Nat) : Nat :=
  match views.find? fun v => v.1 = f with
  | some v => v.2 s i % 2 ^ f.width
  | none => s.get f i

/-! ### Reads (R77, R426, R427) -/

/-- A register as a number: its fields in their places; a write-only field reads zero. -/
def State.regNat (s : State) (fs : List Field) (i : Nat) : Nat :=
  ((fs.filter fun f => f.acc != .WO).map fun f => s.look f i * 2 ^ f.lo).sum

/-- The live word at an address. -/
def State.liveWord (s : State) (addr : Nat) : Nat :=
  match regAt addr with
  | some (r, fs, i, w) => if s.hidden r i then 0 else s.regNat fs i / 2 ^ (32 * w) % 2 ^ 32
  | none => 0

/-- An access of the member word moves the index on (R315). -/
def State.memberNext (s : State) : State :=
  if s.flag F.SYN_GMSEL_AINC then s.setReg F.SYN_GMSEL_INDEX (s.get F.SYN_GMSEL_INDEX + 1) else s

/-- A read of the word at an address: the low word of a 64-bit register latches the high word, which the next read of the high word
gives. -/
def State.readWord (s : State) (addr : Nat) : Nat × State :=
  match s.latch.get none addr with
  | some v => (v, { s with latch := s.latch.set none addr none })
  | none =>
    let v := s.liveWord addr
    match regAt addr with
    | some (r, _, _, w) =>
      let s := if r.bits = 64 && w = 0 then { s with latch := s.latch.set none (addr + 4) (some (s.liveWord (addr + 4))) } else s
      (v, if r = R.SYN_GMDAT then s.memberNext else s)
    | none => (v, s)

/-- A read over CXL.io. -/
def State.ioRead (s : State) (addr : Nat) : State :=
  let r := s.readWord addr
  r.2.emit (.regData addr (BitVec.ofNat 32 r.1))

/-- A word of BAR 2 (R320): the MSI-X table, four words a vector, the mask bit in the last, and at 0x8000 the pending bits. -/
def State.bar2Word (s : State) (off : Nat) : Nat :=
  if off < 0x8000 then (if off % 16 / 4 = 3 then b2n (!s.msixOpen.get false (off / 16)) else s.msixTab.get 0 (off / 4))
  else ((List.range 32).map fun i => if s.msixPend.get false (8 * (off - 0x8000) + i) && decide (8 * (off - 0x8000) + i < 2048) then 2 ^ i else 0).sum

/-- Where BAR 2 lies behind the control space in the model's CXL.io addresses (log entry 129). -/
def bar2 : Nat := 2 ^ 25

/-- LOW_WORD_READ. -/
def execLowWordRead (addr : Nat) (s : State) : Result :=
  gated (s.ioReached || (s.linkReached && (addr = R.SEC_BOOT.base || addr = R.SEC_FSTAT.base)))
    (fun s => if addr < bar2 then s.ioRead addr else s.emit (.regData addr (BitVec.ofNat 32 (s.bar2Word (addr - bar2))))) s

/-! ### Writes field by field (R4, R168 to R175) -/

/-- The bits of a field that word `w` covers, from `data`. -/
def Field.merge (f : Field) (old w data : Nat) : Nat :=
  let n := old * 2 ^ f.lo
  let m := n / 2 ^ (32 * w + 32) * 2 ^ (32 * w + 32) + data * 2 ^ (32 * w) + n % 2 ^ (32 * w)
  m / 2 ^ f.lo % 2 ^ f.width

/-- Does word `w` cover a bit of the field? -/
def Field.inWord (f : Field) (w : Nat) : Bool := decide (f.lo / 32 ≤ w) && decide (w ≤ f.hi / 32)

/-- Is the unit of a register's WS fields stopped; the bit that a refusal sets, and the static-write event (R169)? -/
def State.unitOf (s : State) (r : Reg) (i : Nat) : Bool × Field × Nat × Nat :=
  if r = R.SYN_RIG then (s.rigState i = rigStopped, F.SYN_STAT_SREF, 0, 0x380)
  else if r = R.SYN_OB_4 || r = R.SYN_OB_LM then (!s.flag F.SYN_OB_0_EN i, F.SYN_STAT_SREF, 0, 0x380)
  else if r = R.SYN_XB_4 || r = R.SYN_XB_8 then (!s.flag F.SYN_XB_0_EN i, F.SYN_STAT_SREF, 0, 0x380)
  else if r = R.FAB_WIN_1 || r = R.FAB_WIN_2 then (!s.winOn i, F.FAB_STAT_SREF, 0, 0x380)
  else if r = R.FAB_ID then ((List.range 8).all fun p => s.get F.FAB_PSTAT_STATE p = 0, F.FAB_STAT_SREF, 0, 0x380)
  else if r = R.TWN_PEER then (s.twState = twUnpaired, F.TWN_STAT_SREF, 0, 0x3C0)
  else if r = R.IMG_RSTC then (s.rigState i = rigStopped, F.IMG_RSTAT_SREF, i, 0x200)
  else (!s.flag F.QUE_AP_0_EN i, F.QUE_STAT_SREF, 0, 0x340)

/-- The field in force of a rig's live field, which a stopped rig takes at once (R170). -/
def inForceOf : List (Field × Field) :=
  [(F.IMG_RLIVE_LSGROW, F.IMG_RLNOW_LSGROW), (F.IMG_RLIVE_STRAG, F.IMG_RLNOW_STRAG), (F.IMG_RHYP_VALUE, F.IMG_RHNOW_VALUE),
   (F.IMG_TSTRG_TIME, F.IMG_TSTRGN_TIME), (F.IMG_TPTAB_SPACE, F.IMG_TPTABN_SPACE), (F.IMG_TPTAB_ADDR, F.IMG_TPTABN_ADDR),
   (F.IMG_TPTAB_VALID, F.IMG_TPTABN_VALID)]

/-- Values of live fields that are ignored, and the bit that is then set, where there is one (R175, R217, R274, R375). -/
def ignored (f : Field) (v : Nat) : Bool × Option Field :=
  if f = F.IMG_RLIVE_LSGROW || f = F.IMG_TSTRG_TIME then (v = 0, some F.IMG_RSTAT_BADW)
  else if f = F.IMG_RLIVE_STRAG then (v = 3, some F.IMG_RSTAT_BADW)
  else if f = F.TIER_CFG_LOWM || f = F.TWN_SPCFG_REPTHR then (v = 0, none)
  else (false, none)

/-- A write of a live field. -/
def State.liveWrite (s : State) (f : Field) (i n v : Nat) : State :=
  let bad := ignored f v
  if bad.1 then (match bad.2 with
    | some b => s.raiseFlag b n
    | none => s)
  else
    let s := s.setReg f v i
    match inForceOf.find? fun x => x.1 = f with
    | some x => if s.rigState n = rigStopped then s.setReg x.2 v i else s
    | none => s

/-- May SEGLEN hold a value (R159)? -/
def seglenOk (v : Nat) : Bool := v % 128 = 0 && decide (v ≤ 65408)

/-- A write of a word, field by field. -/
def State.fieldsWrite (s : State) (r : Reg) (fs : List Field) (i w d : Nat) : State :=
  each (fs.filter (·.inWord w)) (fun s f =>
    let v := f.merge (s.get f i) w d
    match f.acc with
    | .RW => s.setReg f v i
    | .W1C => s.setReg f (s.get f i - (s.get f i &&& f.merge 0 w d)) i
    | .WS =>
      let u := s.unitOf r i
      if f = F.IMG_RSTC_SEGLEN && u.1 && v != s.get f i && !seglenOk v then s.raiseFlag F.IMG_RSTAT_BADW i
      else s.staticWrite f i v u.1 u.2.1 u.2.2.1 u.2.2.2
    | .WL => s.liveWrite f i (i / (r.count / 72)) v
    | _ => s) s

/-! ### Registers whose write does more -/

/-- A raise by the host (R296, R299). -/
def State.hostRaise (s : State) (d : Nat) : State :=
  let sig := bits d 13 0
  if (s.rigOfSig sig).isSome then s.raiseSig none sig else s.raiseFlag F.SYN_STAT_BADW

/-- A write of a word of LMASK: PMASK follows (R304). -/
def State.lmaskWrite (s : State) (k w d : Nat) : State :=
  let s := s.fieldsWrite R.SYN_OB_LM [F.SYN_OB_LM_LMASK] k w d
  s.setReg F.SYN_OB_PM_PMASK (s.pmaskOf (s.get F.SYN_OB_LM_LMASK k)) k

/-- A write of SYN_SCNT: the selected signal's count, while its rig is stopped (R315). -/
def State.countWrite (s : State) (d : Nat) : State :=
  let sig := s.get F.SYN_SSEL_SIG
  match s.rigOfSig sig with
  | none => s.raiseFlag F.SYN_STAT_BADW
  | some n =>
    if s.sigs.get 0 sig = d % 65536 then s
    else if s.rigState n = rigStopped then { s with sigs := s.sigs.set 0 sig (d % 65536) }
    else (s.raiseFlag F.SYN_STAT_SREF).offer 0x380

/-- Does a valid group's range cover a member word (R313)? -/
def State.memberUsed (s : State) (w : Nat) : Bool :=
  (s.regs.filterMap fun e => if e.1 % 1024 = F.SYN_GRP_VALID.id then some (e.1 / 1024) else none).any fun n =>
    s.flag F.SYN_GRP_VALID n && decide (s.get F.SYN_GRP_FIRST n ≤ w) && decide (w < s.get F.SYN_GRP_FIRST n + s.get F.SYN_GRP_COUNT n)

/-- A write of SYN_GMDAT. -/
def State.memberWrite (s : State) (d : Nat) : State :=
  let w := s.get F.SYN_GMSEL_INDEX
  let s := if s.members.get 0 w = d % 4096 then s
    else if !s.memberUsed w then { s with members := s.members.set 0 w (d % 4096) }
    else (s.raiseFlag F.SYN_STAT_SREF).offer 0x380
  s.memberNext

/-- A write of word 0 of a window: its static fields are judged with EN (R169, R294). -/
def State.windowWrite (s : State) (w d : Nat) : State :=
  let stop := !(s.winOn w && bit d 31)
  let put := fun (s : State) f v => s.staticWrite f w v stop F.FAB_STAT_SREF 0 0x380
  (put (put (put s F.FAB_WIN_0_KIND (bits d 30 30)) F.FAB_WIN_0_RIG (bits d 22 16)) F.FAB_WIN_0_SPACE (bits d 11 0)).setReg F.FAB_WIN_0_EN
    (bits d 31 31) w

/-- A write of word 0 of an aperture (R343). -/
def State.apertureWrite (s : State) (a d : Nat) : State :=
  if a = 0 then s
  else
    let stop := !(s.flag F.QUE_AP_0_EN a && bit d 31)
    ((s.staticWrite F.QUE_AP_0_SPACE a (bits d 11 0) stop F.QUE_STAT_SREF 0 0x340).setReg F.QUE_AP_0_WP (bits d 30 30) a).setReg
      F.QUE_AP_0_EN (bits d 31 31) a

/-- A write of FAB_ID: an identity has been written. -/
def State.idWrite (s : State) (d : Nat) : State :=
  let u := s.unitOf R.FAB_ID 0
  let s := s.staticWrite F.FAB_ID_ID 0 (bits d 11 0) u.1 F.FAB_STAT_SREF 0 0x380
  if u.1 then s.setReg F.FAB_ID_VALID 1 else s

def actions0 : List (Reg × (State → Nat → Nat → Nat → State)) := [
  (R.PWR_BAL, fun s i _ d => s.balMode i d), (R.PWR_VP, fun s i _ d => s.pointCmd i d), (R.PWR_THERM, fun s _ _ d => s.thermCmd d),
  (R.SEC_KCMD, fun s _ _ d => s.keyCmd d), (R.SEC_FWCMD, fun s _ _ d => s.fwCmd d), (R.SEC_ACMD, fun s _ _ d => s.attCmd d),
  (R.SEC_DCTL, fun s _ _ d => s.dctl d), (R.EVT_GCTL, fun s _ _ d => s.gctl d), (R.EVT_FLCMD, fun s _ _ d => s.flcmd d),
  (R.EVT_FLCFG, fun s _ _ d => s.flcfg d), (R.EVT_SEL, fun s c _ d => s.counterSel c d), (R.EVT_CTL, fun s c _ d => s.counterCtl c d),
  (R.EVT_SIG, fun s c _ d => s.counterSig c d), (R.EVT_CNT, fun s c w d => s.counterCnt c (w != 0) d),
  (R.SYN_SRAISE, fun s _ _ d => s.hostRaise d), (R.SYN_SCNT, fun s _ _ d => s.countWrite d), (R.SYN_OB_LM, fun s k w d => s.lmaskWrite k w d), (R.SYN_GMDAT, fun s _ _ d => s.memberWrite d),
  (R.SYN_OB_0, fun s k _ d => s.obEnable k d), (R.SYN_XB_0, fun s k _ d => s.xbEnable k d), (R.SYN_GRP, fun s n _ d => s.groupWrite n d)]

def actions1 : List (Reg × (State → Nat → Nat → Nat → State)) := [
  (R.MEM_CHCMD, fun s _ _ d => s.chCmd d), (R.MEM_SCRB, fun s _ _ d => s.scrbWrite d), (R.TIER_MCMD0, fun s _ _ d => s.mcmd0 d),
  (R.FAB_ID, fun s _ _ d => s.idWrite d), (R.FAB_WIN_0, fun s w _ d => s.windowWrite w d), (R.TWN_CTL, fun s _ _ d => s.twnCtl d),
  (R.TWN_RSV, fun s _ _ d => s.twnRsv d), (R.TWN_RCMD, fun s _ _ d => s.twnRcmd d), (R.TWN_RSCAL0, fun s _ _ d => s.rscal0 d),
  (R.TWN_RSCAL1, fun s _ _ d => s.rscal1 d), (R.IMG_CTL, fun s _ _ d => s.imgCtl d), (R.IMG_RCTL, fun s n _ d => s.rigCtl n d),
  (R.IMG_TCTL, fun s n _ d => s.tctlWrite n d), (R.IMG_TXCMD, fun s n _ d => s.txCmd n d), (R.QUE_CMD, fun s _ _ d => s.queCmd d),
  (R.QUE_AP_0, fun s a _ d => s.apertureWrite a d), (R.QUE_AP_2, fun s a w d =>
    if a = 0 then s else s.fieldsWrite R.QUE_AP_2 [F.QUE_AP_2_BASE] a w d),
  (R.QUE_SQDB, fun s n _ d => s.tailDoorbell n d), (R.QUE_CQDB, fun s m _ d => s.headDoorbell m d),
  (R.TILE_ARR_CTL, fun s p _ d => s.arrCtl p d), (R.VEC_CTL, fun s p _ d => s.setReg F.VEC_CTL_HALT (bits d 0 0) p),
  (R.STRM_CTL, fun s i _ d => s.haltEng (i / 8) (i % 8) d)]

/-- The registers whose write does more than its fields' access codes say, each with its operation on instance, word and data. -/
def actions : List (Reg × (State → Nat → Nat → Nat → State)) := actions0 ++ (actions1)

/-- A write of a whole word of the control space. -/
def State.writeWord (s : State) (addr d : Nat) : State :=
  match regAt addr with
  | none => s
  | some (r, fs, i, w) =>
    if s.hidden r i then s
    else match actions.find? fun a => a.1 = r with
      | some a => a.2 s i w d
      | none => s.fieldsWrite r fs i w d

/-- A write of a word of the MSI-X table; the pending bits take none (R320, R340). -/
def State.bar2Write (s : State) (off d : Nat) : State :=
  if off ≥ 0x8000 then s
  else if off % 16 / 4 ≠ 3 then { s with msixTab := s.msixTab.set 0 (off / 4) d }
  else if bit d 0 then { s with msixOpen := s.msixOpen.set false (off / 16) false }
  else s.unmask (off / 16)

/-- REGISTER_WRITE; `be`: the bytes enabled (R426). -/
def execRegisterWrite (addr : Nat) (data : Word) (be : Nat) (s : State) : Result :=
  gated s.ioReached (fun s => if be ≠ 15 then s.raiseFlag F.GLB_STAT_PWIGN
    else if addr < bar2 then s.writeWord addr data.toNat else s.bar2Write (addr - bar2) data.toNat) s

/-- SYN_GMDAT_ACCESS: a write, or a read. -/
def execSynGmdatAccess (wr : Option Word) (s : State) : Result :=
  match wr with
  | some d => gated s.ioReached (·.memberWrite d.toNat) s
  | none => gated s.ioReached (·.ioRead R.SYN_GMDAT.base) s

/-! ### The SMBus sideband (R439) -/

/-- SMBUS_SET_ADDRESS. -/
def execSmbusSetAddress (addr : Word) (pecOk : Bool) (s : State) : Result :=
  gated (!s.resetHeld) (fun s => if pecOk then { s with smbAddr := addr.toNat }.emit (.smbAck true) else s.emit (.smbAck false)) s

/-- The addresses that the sideband reads and writes. -/
def smbReads (a : Nat) : Bool :=
  a % 4 = 0 && (decide (a < 0x28) || (decide (0x700 ≤ a) && decide (a < 0x784)) || a = R.SEC_BOOT.base || a = R.SEC_FSTAT.base
    || a = R.EVT_FLSTAT.base || a = R.EVT_FLOFS.base || (decide (0x2F000 ≤ a) && decide (a < 0x30000)))
def smbWrites (a : Nat) : Bool := a = R.EVT_FLOFS.base || a = R.EVT_FLCMD.base

/-- SMBUS_BLOCK_ACCESS: four bytes at the set address, which then goes up by 4. -/
def execSmbusBlockAccess (wr : Option Word) (pecOk : Bool) (s : State) : Result :=
  gated (!s.resetHeld) (fun s =>
    let a := s.smbAddr
    let next := (a + 4) % 2 ^ 32
    match wr with
    | some d =>
      if !pecOk then s.emit (.smbAck false)
      else
        let s := if smbWrites a then s.writeWord a d.toNat else s
        { s with smbAddr := next }.emit (.smbAck true)
    | none =>
      let r := if smbReads a then s.readWord a else (0, s)
      { r.2 with smbAddr := next }.emit (.regData a (BitVec.ofNat 32 r.1))) s

/-- The level of SMB_ALERT_L: low while GLB_STAT.BFAIL or GLB_STAT.TRIP is 1. -/
def State.smbAlertL (s : State) : Bool := !(s.flag F.SEC_BOOT_FAIL || (List.range 18).any fun i => s.flag F.PWR_VP_TRIPPED i)

/-- SMBUS_ALERT_RESPONSE: the target answers while it holds SMB_ALERT_L low. -/
def execSmbusAlertResponse (s : State) : Result :=
  gated (!s.resetHeld && !s.smbAlertL)
    (·.emit (.smbAlertResponse (0x58 + s.strapAsel))) s

end Sys2Proof.Machine
end

