-- ==== Sys2Proof/Machine/VecMem.lean ====
section
/-! DEFINITION. LDV and STV (spec 05, R103, R114): a tile-store access of the vector engine, which shares the port with the tile's stream
engines. -/

namespace Sys2Proof.Machine

/-- Has a stream engine of the tile an access to the tile store ready (R103, R138)? -/
def State.localReady (s : State) (p : Nat) : Bool :=
  (List.range 8).any fun i => s.usesStore p i && s.issueReady p i

/-- The vector engine's access gets the port: no stream has an access ready, or it has waited three beats behind theirs; else it waits
(R103, R123). -/
def State.portTurn (s : State) (p : Nat) (f : State → State) : State :=
  if s.localReady p && decide ((s.tile p).vec.portWait < 3) then s.modVec p fun v => { v with wait := 3 }
  else f (s.modVec p fun v => { v with portWait := 0 })

def execLdv (p : Nat) (o : MOp) (errs : List (Nat × Nat)) (s : State) : Result :=
  gated (s.issues p (o.word 0x30)) (fun s => s.portTurn p fun s =>
    let v := (s.tile p).vec
    let a := v.memAddr o
    let w := mfmtBytes o.fmt
    if !v.memOk o then s.vecStop p F.VEC_STAT_AERR 0x04
    else
      let (s, d) := s.storeRead p a (256 * w) errs
      let (s, x) := if o.fmt = 4 then s.storeRead p (v.expAddr o) 8 [] else (s, [])
      let md := s.vmode p
      let exp := fun l => (x[l / 32]?).getD (0, false)
      let pois := fun l => ((d.drop (w * l)).take w).any Prod.snd || (exp l).2
      s.guardPois p ((List.range 256).any pois) fun s =>
        let rs := (List.range 256).map fun l =>
          (l, loadElem md o.fmt (leNat (((d.drop (w * l)).take w).map Prod.fst)) (exp l).1.toNat)
        let m : FMap (Nat × NFlags) := rs
        let s := s.modVec p fun v => v.putReg o.d fun l => { v := BitVec.ofNat 32 (m.get (0, {}) l).1, p := pois l }
        let s := s.vecFlags p (rs.map fun r => (r.1, r.2.2))
        (when ((s.tile p).proxIn a (256 * w) || (o.fmt = 4 && (s.tile p).proxIn (v.expAddr o) 8)) (·.markProx v.task.logno) s).vecDone p) s

def execStv (p : Nat) (o : MOp) (s : State) : Result :=
  gated (s.issues p (o.word 0x31)) (fun s => s.portTurn p fun s =>
    let v := (s.tile p).vec
    let a := v.memAddr o
    let w := mfmtBytes o.fmt
    let x := fun l => (v.lane o.d l).v.toNat
    let pois := (List.range 256).any fun l => (v.lane o.d l).p
    if !v.memOk o then s.vecStop p F.VEC_STAT_AERR 0x04
    else s.guardPois p pois fun s =>
      let md := s.vmode p
      let s := when pois (·.markPois v.task.logno) s
      if o.fmt = 4 then
        let qs := (List.range 8).map fun b => (g8Quant md ((block32 b).map x), (block32 b).any fun l => (v.lane o.d l).p)
        let s := s.storeWrite p a (qs.flatMap fun q => q.1.2.1.map fun c => (BitVec.ofNat 8 c, q.2))
        let s := s.storeWrite p (v.expAddr o) (qs.map fun q => (BitVec.ofNat 8 q.1.1, q.2))
        let s := if qs.any fun q => q.1.2.1.contains 128 then s.recOf v.task.logno State.recNonfin else s
        (s.vecFlags p ((List.range 256).map fun l => (l, (flushIn md (x l)).2))).vecDone p
      else
        let rs := (List.range 256).map fun l => (l, storeElem md o.fmt (x l))
        let s := s.storeWrite p a (rs.flatMap fun r => (leBytes w r.2.1).map fun b => (b, (v.lane o.d r.1).p))
        (s.vecFlags p (rs.map fun r => (r.1, r.2.2))).vecDone p) s

end Sys2Proof.Machine
end

