-- ==== Sys2Proof/Machine/Dispatch.lean ====
section
/-! DEFINITION. One arm per command: a direct call of its meaning, or its rejection by name. -/

namespace Sys2Proof.Machine

def exec (i : Instr) (s : State) : Host.Outcome State Fault Refusal :=
  match i with
  | .registerWrite addr data be => Sys2Proof.Machine.execRegisterWrite addr data be s
  | .lowWordRead addr => Sys2Proof.Machine.execLowWordRead addr s
  | .synGmdatAccess wr => Sys2Proof.Machine.execSynGmdatAccess wr s
  | .smbusSetAddress addr pecOk => Sys2Proof.Machine.execSmbusSetAddress addr pecOk s
  | .smbusBlockAccess wr pecOk => Sys2Proof.Machine.execSmbusBlockAccess wr pecOk s
  | .snoop addr => Sys2Proof.Machine.execSnoop addr s
  | .porstAssert => Sys2Proof.Machine.execPorstAssert s
  | .supplyOutOfRange rail => Sys2Proof.Machine.execSupplyOutOfRange rail s
  | .resetRelease => Sys2Proof.Machine.execResetRelease s
  | .bootStepComplete r => Sys2Proof.Machine.execBootStepComplete r s
  | .loadStart data => Sys2Proof.Machine.execLoadStart data s
  | .imageCheckComplete => Sys2Proof.Machine.execImageCheckComplete s
  | .imageApply => Sys2Proof.Machine.execImageApply s
  | .imageApplyComplete => Sys2Proof.Machine.execImageApplyComplete s
  | .rigGo n data => Sys2Proof.Machine.execRigGo n data s
  | .rigStop n data => Sys2Proof.Machine.execRigStop n data s
  | .rigKill n data => Sys2Proof.Machine.execRigKill n data s
  | .rigStopped n => Sys2Proof.Machine.execRigStopped n s
  | .createSq data => Sys2Proof.Machine.execCreateSq data s
  | .createCq data => Sys2Proof.Machine.execCreateCq data s
  | .deleteSq data => Sys2Proof.Machine.execDeleteSq data s
  | .deleteCq data => Sys2Proof.Machine.execDeleteCq data s
  | .sqTailDoorbell n data => Sys2Proof.Machine.execSqTailDoorbell n data s
  | .cqHeadDoorbell n data => Sys2Proof.Machine.execCqHeadDoorbell n data s
  | .callSheetFetch n errs => Sys2Proof.Machine.execCallSheetFetch n errs s
  | .logHeadMigrate => Sys2Proof.Machine.execLogHeadMigrate s
  | .callSheetDispatch n errs => Sys2Proof.Machine.execCallSheetDispatch n errs s
  | .partComplete logno part => Sys2Proof.Machine.execPartComplete logno part s
  | .outputVersionsCurrent logno => Sys2Proof.Machine.execOutputVersionsCurrent logno s
  | .completionGo m => Sys2Proof.Machine.execCompletionGo m s
  | .cqCoalesceTimeout m => Sys2Proof.Machine.execCqCoalesceTimeout m s
  | .msixUnmask vec => Sys2Proof.Machine.execMsixUnmask vec s
  | .hostWindowRead off errs lost => Sys2Proof.Machine.execHostWindowRead off errs lost s
  | .hostWindowWrite off data mask errs => Sys2Proof.Machine.execHostWindowWrite off data mask errs s
  | .ucieModuleRetrain m => Sys2Proof.Machine.execUcieModuleRetrain m s
  | .ucieRetrainComplete m r => Sys2Proof.Machine.execUcieRetrainComplete m r s
  | .shotNop p e => Sys2Proof.Machine.execShotNop p e s
  | .cnt p e k lim str => Sys2Proof.Machine.execCnt p e k lim str s
  | .base p e b cls addr => Sys2Proof.Machine.execBase p e b cls addr s
  | .ofs p e b off => Sys2Proof.Machine.execOfs p e b off s
  | .fmt p e esz conv => Sys2Proof.Machine.execFmt p e esz conv s
  | .emit p e b d slot near => Sys2Proof.Machine.execEmit p e b d slot near s
  | .wait p e sig => Sys2Proof.Machine.execWait p e sig s
  | .raise p e sig => Sys2Proof.Machine.execRaise p e sig s
  | .dl p e time pol => Sys2Proof.Machine.execDl p e time pol s
  | .pois p e abt => Sys2Proof.Machine.execPois p e abt s
  | .loopc p e k tgt => Sys2Proof.Machine.execLoopc p e k tgt s
  | .arm p e tgt wt addr => Sys2Proof.Machine.execArm p e tgt wt addr s
  | .shotEnd p e => Sys2Proof.Machine.execShotEnd p e s
  | .rsig p e dev sig => Sys2Proof.Machine.execRsig p e dev sig s
  | .coll p e op form fmt grp count => Sys2Proof.Machine.execColl p e op form fmt grp count s
  | .armCheckComplete p e shadow errs => Sys2Proof.Machine.execArmCheckComplete p e shadow errs s
  | .generationComplete p e => Sys2Proof.Machine.execGenerationComplete p e s
  | .strmHaltWrite p e data => Sys2Proof.Machine.execStrmHaltWrite p e data s
  | .transferIssue p e errs => Sys2Proof.Machine.execTransferIssue p e errs s
  | .readTransferComplete p e x errs lost proxy => Sys2Proof.Machine.execReadTransferComplete p e x errs lost proxy s
  | .writeTransferComplete p e x => Sys2Proof.Machine.execWriteTransferComplete p e x s
  | .negativeReadComplete page line ok => Sys2Proof.Machine.execNegativeReadComplete page line ok s
  | .deadlineExpiry p e x line proxy => Sys2Proof.Machine.execDeadlineExpiry p e x line proxy s
  | .streamParityError p e shadow unread => Sys2Proof.Machine.execStreamParityError p e shadow unread s
  | .arrayTaskStart p => Sys2Proof.Machine.execArrayTaskStart p s
  | .stationaryRowLoad p errs => Sys2Proof.Machine.execStationaryRowLoad p errs s
  | .rowAdmit p => Sys2Proof.Machine.execRowAdmit p s
  | .bubble p => Sys2Proof.Machine.execBubble p s
  | .ballastTaperStep p => Sys2Proof.Machine.execBallastTaperStep p s
  | .ballastEnd p => Sys2Proof.Machine.execBallastEnd p s
  | .rowComplete p => Sys2Proof.Machine.execRowComplete p s
  | .arrayParityError p unread => Sys2Proof.Machine.execArrayParityError p unread s
  | .bankParityError p b unread => Sys2Proof.Machine.execBankParityError p b unread s
  | .arrayHaltWrite p data => Sys2Proof.Machine.execArrayHaltWrite p data s
  | .ballastModeWrite n data => Sys2Proof.Machine.execBallastModeWrite n data s
  | .ftqPushStart p => Sys2Proof.Machine.execFtqPushStart p s
  | .ftqPushComplete p => Sys2Proof.Machine.execFtqPushComplete p s
  | .routineStart p => Sys2Proof.Machine.execRoutineStart p s
  | .nop p => Sys2Proof.Machine.execNop p s
  | .fadd p o => Sys2Proof.Machine.execFadd p o s
  | .fsub p o => Sys2Proof.Machine.execFsub p o s
  | .fmul p o => Sys2Proof.Machine.execFmul p o s
  | .fma p o => Sys2Proof.Machine.execFma p o s
  | .fdiv p o => Sys2Proof.Machine.execFdiv p o s
  | .fmax p o => Sys2Proof.Machine.execFmax p o s
  | .fmin p o => Sys2Proof.Machine.execFmin p o s
  | .fsqrt p o => Sys2Proof.Machine.execFsqrt p o s
  | .frsq p o => Sys2Proof.Machine.execFrsq p o s
  | .frcp p o => Sys2Proof.Machine.execFrcp p o s
  | .fexp p o => Sys2Proof.Machine.execFexp p o s
  | .flog p o => Sys2Proof.Machine.execFlog p o s
  | .ftanh p o => Sys2Proof.Machine.execFtanh p o s
  | .fsgn p o => Sys2Proof.Machine.execFsgn p o s
  | .fcmp p o => Sys2Proof.Machine.execFcmp p o s
  | .fcls p o => Sys2Proof.Machine.execFcls p o s
  | .mlog p o => Sys2Proof.Machine.execMlog p o s
  | .mfirst p o => Sys2Proof.Machine.execMfirst p o s
  | .mpop p o => Sys2Proof.Machine.execMpop p o s
  | .mov p o => Sys2Proof.Machine.execMov p o s
  | .sel p o => Sys2Proof.Machine.execSel p o s
  | .cmpr p o => Sys2Proof.Machine.execCmpr p o s
  | .expd p o => Sys2Proof.Machine.execExpd p o s
  | .fold p o => Sys2Proof.Machine.execFold p o s
  | .red p o => Sys2Proof.Machine.execRed p o s
  | .cvt p o => Sys2Proof.Machine.execCvt p o s
  | .qdq p o => Sys2Proof.Machine.execQdq p o s
  | .chkf p o => Sys2Proof.Machine.execChkf p o s
  | .flgm p o => Sys2Proof.Machine.execFlgm p o s
  | .sli p o => Sys2Proof.Machine.execSli p o s
  | .sori p o => Sys2Proof.Machine.execSori p o s
  | .sadd p o => Sys2Proof.Machine.execSadd p o s
  | .sfop p o => Sys2Proof.Machine.execSfop p o s
  | .ldt p o => Sys2Proof.Machine.execLdt p o s
  | .stt p o => Sys2Proof.Machine.execStt p o s
  | .popt p => Sys2Proof.Machine.execPopt p s
  | .tag p o => Sys2Proof.Machine.execTag p o s
  | .setq p o => Sys2Proof.Machine.execSetq p o s
  | .ldv p o errs => Sys2Proof.Machine.execLdv p o errs s
  | .stv p o => Sys2Proof.Machine.execStv p o s
  | .loop p cnt len => Sys2Proof.Machine.execLoop p cnt len s
  | .sigr p sig => Sys2Proof.Machine.execSigr p sig s
  | .sigw p sig => Sys2Proof.Machine.execSigw p sig s
  | .endRoutine p => Sys2Proof.Machine.execEndRoutine p s
  | .vectorParityError p lane unread => Sys2Proof.Machine.execVectorParityError p lane unread s
  | .vecHaltWrite p data => Sys2Proof.Machine.execVecHaltWrite p data s
  | .hostRaise data => Sys2Proof.Machine.execHostRaise data s
  | .signalRegionUncorrectable word => Sys2Proof.Machine.execSignalRegionUncorrectable word s
  | .obPhaseComplete k => Sys2Proof.Machine.execObPhaseComplete k s
  | .obEnableWrite k data => Sys2Proof.Machine.execObEnableWrite k data s
  | .xbEnableWrite k data => Sys2Proof.Machine.execXbEnableWrite k data s
  | .barArrive port f => Sys2Proof.Machine.execBarArrive port f s
  | .barRelease port f => Sys2Proof.Machine.execBarRelease port f s
  | .barResend k => Sys2Proof.Machine.execBarResend k s
  | .xbTimeout k => Sys2Proof.Machine.execXbTimeout k s
  | .groupValidWrite n data => Sys2Proof.Machine.execGroupValidWrite n data s
  | .frameTransit port f => Sys2Proof.Machine.execFrameTransit port f s
  | .wrFrame port f => Sys2Proof.Machine.execWrFrame port f s
  | .remoteWriteVisible stream seq errs => Sys2Proof.Machine.execRemoteWriteVisible stream seq errs s
  | .wack port f => Sys2Proof.Machine.execWack port f s
  | .sig port f => Sys2Proof.Machine.execSig port f s
  | .sigHoldTimeout n => Sys2Proof.Machine.execSigHoldTimeout n s
  | .rej port f => Sys2Proof.Machine.execRej port f s
  | .cdata port f => Sys2Proof.Machine.execCdata port f s
  | .ready port f => Sys2Proof.Machine.execReady port f s
  | .mask port f => Sys2Proof.Machine.execMask port f s
  | .hello port f => Sys2Proof.Machine.execHello port f s
  | .flitReceive port f => Sys2Proof.Machine.execFlitReceive port f s
  | .fastRetrainComplete port r => Sys2Proof.Machine.execFastRetrainComplete port r s
  | .linkTrainingStart port => Sys2Proof.Machine.execLinkTrainingStart port s
  | .tsa port lane => Sys2Proof.Machine.execTsa port lane s
  | .tsb port r => Sys2Proof.Machine.execTsb port r s
  | .tsc port => Sys2Proof.Machine.execTsc port s
  | .linkTrainingTimeout port => Sys2Proof.Machine.execLinkTrainingTimeout port s
  | .rdr b m => Sys2Proof.Machine.execRdr b m s
  | .wrc b m => Sys2Proof.Machine.execWrc b m s
  | .fillc b m => Sys2Proof.Machine.execFillc b m s
  | .cfgr b m => Sys2Proof.Machine.execCfgr b m s
  | .syncc b m => Sys2Proof.Machine.execSyncc b m s
  | .alert b m => Sys2Proof.Machine.execAlert b m s
  | .twnPair data => Sys2Proof.Machine.execTwnPair data s
  | .twnUnpair data => Sys2Proof.Machine.execTwnUnpair data s
  | .pair port f => Sys2Proof.Machine.execPair port f s
  | .pack port f => Sys2Proof.Machine.execPack port f s
  | .lrec port f => Sys2Proof.Machine.execLrec port f s
  | .page port f => Sys2Proof.Machine.execPage port f s
  | .mack port f => Sys2Proof.Machine.execMack port f s
  | .unpr port f => Sys2Proof.Machine.execUnpr port f s
  | .beat port f => Sys2Proof.Machine.execBeat port f s
  | .beatSend t => Sys2Proof.Machine.execBeatSend t s
  | .partnerLost => Sys2Proof.Machine.execPartnerLost s
  | .restore data => Sys2Proof.Machine.execRestore data s
  | .restoreComplete => Sys2Proof.Machine.execRestoreComplete s
  | .release data => Sys2Proof.Machine.execRelease data s
  | .twnRscalGo data => Sys2Proof.Machine.execTwnRscalGo data s
  | .map data => Sys2Proof.Machine.execMap data s
  | .unmap data => Sys2Proof.Machine.execUnmap data s
  | .seal data => Sys2Proof.Machine.execSeal data s
  | .pin data => Sys2Proof.Machine.execPin data s
  | .unpin data => Sys2Proof.Machine.execUnpin data s
  | .hint data => Sys2Proof.Machine.execHint data s
  | .foldCommand data => Sys2Proof.Machine.execFoldCommand data s
  | .heatEpochEnd => Sys2Proof.Machine.execHeatEpochEnd s
  | .descentSweep tier => Sys2Proof.Machine.execDescentSweep tier s
  | .moveStart page frame => Sys2Proof.Machine.execMoveStart page frame s
  | .moveLineLand page errs lost => Sys2Proof.Machine.execMoveLineLand page errs lost s
  | .moveComplete page => Sys2Proof.Machine.execMoveComplete page s
  | .moveWriteFailure page frame => Sys2Proof.Machine.execMoveWriteFailure page frame s
  | .wcFlush n errs => Sys2Proof.Machine.execWcFlush n errs s
  | .evacuate data => Sys2Proof.Machine.execEvacuate data s
  | .retrain data => Sys2Proof.Machine.execRetrain data s
  | .retire data => Sys2Proof.Machine.execRetire data s
  | .channelMarginLow c => Sys2Proof.Machine.execChannelMarginLow c s
  | .maintUnitEnd act => Sys2Proof.Machine.execMaintUnitEnd act s
  | .evacCopyComplete c errs => Sys2Proof.Machine.execEvacCopyComplete c errs s
  | .channelRetrainComplete c r => Sys2Proof.Machine.execChannelRetrainComplete c r s
  | .scrubUnit mem errs => Sys2Proof.Machine.execScrubUnit mem errs s
  | .scrubPass data => Sys2Proof.Machine.execScrubPass data s
  | .controllerParityError x => Sys2Proof.Machine.execControllerParityError x s
  | .controllerResetDone port => Sys2Proof.Machine.execControllerResetDone port s
  | .cxlCompletionTimeout x req => Sys2Proof.Machine.execCxlCompletionTimeout x req s
  | .cxlLinkDown l => Sys2Proof.Machine.execCxlLinkDown l s
  | .nvmeCommandTimeout d req => Sys2Proof.Machine.execNvmeCommandTimeout d req s
  | .packDone n => Sys2Proof.Machine.execPackDone n s
  | .applyDone n => Sys2Proof.Machine.execApplyDone n s
  | .deriveDone n => Sys2Proof.Machine.execDeriveDone n s
  | .stragglerTimeout n g => Sys2Proof.Machine.execStragglerTimeout n g s
  | .strike n data => Sys2Proof.Machine.execStrike n data s
  | .printRecordWritten n => Sys2Proof.Machine.execPrintRecordWritten n s
  | .printComplete n => Sys2Proof.Machine.execPrintComplete n s
  | .strikeComplete n => Sys2Proof.Machine.execStrikeComplete n s
  | .exportGroup n data => Sys2Proof.Machine.execExportGroup n data s
  | .importGroup n data => Sys2Proof.Machine.execImportGroup n data s
  | .pointWrite n data => Sys2Proof.Machine.execPointWrite n data s
  | .rampStart n => Sys2Proof.Machine.execRampStart n s
  | .rampComplete n => Sys2Proof.Machine.execRampComplete n s
  | .vcmdRepeat n => Sys2Proof.Machine.execVcmdRepeat n s
  | .thermalSample temps => Sys2Proof.Machine.execThermalSample temps s
  | .clrall data => Sys2Proof.Machine.execClrall data s
  | .freezeWrite data => Sys2Proof.Machine.execFreezeWrite data s
  | .counterEnableWrite c data => Sys2Proof.Machine.execCounterEnableWrite c data s
  | .flightLogCommitCmd data => Sys2Proof.Machine.execFlightLogCommitCmd data s
  | .flogCommitDone failed => Sys2Proof.Machine.execFlogCommitDone failed s
  | .latencySample p ratios => Sys2Proof.Machine.execLatencySample p ratios s
  | .agingSubstitution u => Sys2Proof.Machine.execAgingSubstitution u s
  | .tileSubstitution u => Sys2Proof.Machine.execTileSubstitution u s
  | .mgmtCoreFailover x => Sys2Proof.Machine.execMgmtCoreFailover x s
  | .keyEnrol data => Sys2Proof.Machine.execKeyEnrol data s
  | .keyRevoke data => Sys2Proof.Machine.execKeyRevoke data s
  | .keyFuseProgramDone ok => Sys2Proof.Machine.execKeyFuseProgramDone ok s
  | .firmwareWrite data => Sys2Proof.Machine.execFirmwareWrite data s
  | .firmwareWriteDone ok => Sys2Proof.Machine.execFirmwareWriteDone ok s
  | .firmwareCommit data => Sys2Proof.Machine.execFirmwareCommit data s
  | .attestRequest data => Sys2Proof.Machine.execAttestRequest data s
  | .attestReportDone => Sys2Proof.Machine.execAttestReportDone s
  | .debugOpen data => Sys2Proof.Machine.execDebugOpen data s
  | .dbgtok token => Sys2Proof.Machine.execDbgtok token s
  | .debugEnd data => Sys2Proof.Machine.execDebugEnd data s
  | .debugLifeExpiry => Sys2Proof.Machine.execDebugLifeExpiry s
  | .tapIdcode => Sys2Proof.Machine.execTapIdcode s
  | .tapBypass tdi => Sys2Proof.Machine.execTapBypass tdi s
  | .boundaryScan kind tdi => Sys2Proof.Machine.execBoundaryScan kind tdi s
  | .negativeWriteComplete ok => Sys2Proof.Machine.execNegativeWriteComplete ok s
  | .smbusAlertResponse => Sys2Proof.Machine.execSmbusAlertResponse s
  | .debugScopeAccess a => Sys2Proof.Machine.execDebugScopeAccess a s

end Sys2Proof.Machine
end

