-- ==== Sys2Proof/Machine/Tick.lean ====
section
/-! DEFINITION. A nanosecond passes with no command waiting (R314, R379; log entry 13), and what waits for a move or a frame goes on (log entry 109). -/

namespace Sys2Proof.Machine

/-- The supply of an island that slews moves 5 µV toward the regulator's target in a nanosecond (R381). -/
def slew (v target : Nat) : Nat := if v < target then min target (v + 5) else max target (v - 5)

/-- The bounds of an island's beat rate, in 10^-13 beats a nanosecond, at `v` µV and `t` °C (R376): ±2 % at 0.80 V and 75 °C, ±3 % of the formula from 40 to
95 °C, the limits of the two bands beside it; none outside them. A TEMP of 0 stands for the band below 40 °C (log entry 13). -/
def beatRange (v t : Nat) : Option (Nat × Nat) :=
  let rate := fun (percent h : Nat) => 25 * percent * (v - 300000) * h
  if v < 660000 || v > 900000 || t > 100 then none
  else if t < 40 then some (rate 97 (12175 - 29 * 40), rate 103 (12175 + 29 * 5))
  else if v = 800000 && t = 75 then some (rate 98 (12175 - 29 * 75), rate 102 (12175 - 29 * 75))
  else if t ≤ 95 then some (rate 97 (12175 - 29 * t), rate 103 (12175 - 29 * t))
  else some (rate 97 (12175 - 29 * 100), rate 103 (12175 - 29 * 95))

/-- What an island does in a nanosecond, in 10^-13 beats: a free number within the bounds. -/
def State.beatsNow (s : State) (i : Nat) : Nat :=
  let x := Config.freeNat s.fresh i
  match beatRange (s.volts.get 800000 i) (s.get F.PWR_VP_TEMP i) with
  | some r => r.1 + x % (r.2 - r.1 + 1)
  | none => x

/-- The islands run and their supplies slew for a nanosecond (R376, R379, R381; log entry 13). -/
def State.tickBeats (s : State) : State :=
  (each (List.range 18) (fun s' i =>
    let x := s'.beatFrac.get 0 i + s.beatsNow i
    { s' with beatFrac := s'.beatFrac.set 0 i (x % 10 ^ 13)
              volts := s'.volts.set 800000 i (slew (s'.volts.get 800000 i) (s'.vtarget.get 800000 i)) }.bump F.PWR_NBEAT_COUNT (x / 10 ^ 13) i) s).spend

/-- A running evacuation copies on: its pointer moves a 256th of the channel (R228; log entry 132). -/
def State.copyStep (s : State) : State :=
  each (s.acts.filter (·.kind = 1)) (fun s a =>
    let s := s.modChan a.arg fun x => { x with cp := min 255 (x.cp + 1) }
    s.setReg F.MEM_CHSTAT_CP (s.chan a.arg).cp) s

/-- The local interval timer goes up by one nanosecond; mapping commands, exports, imports and queue commands that wait are tried
again; outside reset the islands run. -/
def State.tick (s : State) : State :=
  let s := s.mcmdRetry.txRetry.queRetry.copyStep.bump F.SYN_TIMER_NS
  if s.resetHeld || s.flag F.SEC_BOOT_FAIL then s else s.tickBeats

end Sys2Proof.Machine
end

