-- ==== Sys2Proof/Safety.lean ====
section
/-! DEFINITION. What a state in good order is, and the words in which the statements say what a command leaves unchanged. -/

namespace Sys2Proof.Machine

/-- The register file has its canonical form: rising keys, no entry that says what an unlisted key says. -/
def State.RegsOk (s : State) : Prop := FMap.wf 0 s.regs = true

/-- A content has its canonical form: byte addresses and word numbers strictly rising, no listed byte of zero and no listed word without poison, which
is what unlisted ones read as. -/
def Content.wf (c : Content) : Bool := FMap.wf 0 c.bytes && FMap.wf false c.pois

/-- A page's content and its negative have it. -/
def pageWf : Option Page → Bool
  | none => true
  | some p => p.data.wf && p.negData.wf

/-- A tile's store and the elements of its accumulator banks have it. -/
def Tile.memWf (t : Tile) : Bool := t.store.wf && t.banks.all fun b => FMap.wf {} b.2.elems

/-- The elements of a bank that a log record holds have it. -/
def LogKind.memWf : LogKind → Bool
  | .bank _ _ elems _ => FMap.wf {} elems
  | _ => true

/-- The pages of a reserve, printed and staged, have it. -/
def Reserve.memWf (r : Reserve) : Bool := (r.printed.all fun e => e.2.wf) && r.staged.all fun e => e.2.wf

/-- What is kept of memories beside them, banks in the log and the partner's pages in the reserve, has the form. -/
def savedWf (log : List LogRec) (r : Option Reserve) : Bool := (log.all fun x => x.kind.memWf) && r.all Reserve.memWf

def tilesWf (m : FMap Tile) : Bool := FMap.wf {} m && m.all fun t => t.2.memWf
def pagesWf (m : FMap (Option Page)) : Bool := FMap.wf none m && m.all fun e => pageWf e.2

/-- The memories have their canonical form: the staging area, every tile's store and banks, every page of the tiers with its negative, every other
version of one, and what the log and the reserve hold of such. -/
def Memory.wf (s : State) : Bool :=
  (savedWf s.log s.reserve && s.staging.wf) && tilesWf s.tiles && pagesWf s.pages
    && (s.staged.all fun v => v.data.wf) && (s.outVers.all fun v => v.data.wf) && (s.heldVers.all fun v => v.data.wf)

/-- Register fields other than those `ok` admits read as before (field and instance). -/
def regsKept (ok : Field → Nat → Prop) (s t : State) : Prop :=
  ∀ (f : Field) (i : Nat), f.id < 1024 → ¬ ok f i → t.get f i = s.get f i

/-- The fields that an offered event may change: a counter's count and its overflow bit (R411, R414). -/
def evField (f : Field) : Prop := f.id = F.EVT_CNT_COUNT.id ∨ f.id = F.EVT_CTL_OVF.id

/-- Nothing but registers changed. -/
def onlyRegs (s t : State) : Prop := { t with regs := s.regs } = s

/-- Nothing but registers and tile `p` changed. -/
def onlyTile (p : Nat) (s t : State) : Prop :=
  { t with regs := s.regs, tiles := s.tiles } = s ∧ ∀ q, q ≠ p → t.tile q = s.tile q

/-! ### The vector engine -/

/-- What the vector engine's instructions leave unchanged: everything but registers, the take's record, the number of free values drawn, and the
engine's own registers, masks, scalars, lane flags, row pair, place and loops. -/
def vecOnly (p : Nat) (s t : State) : Prop :=
  { t with regs := s.regs, tiles := s.tiles, rigs := s.rigs, fresh := s.fresh } = s ∧ (∀ q, q ≠ p → t.tile q = s.tile q)
    ∧ { t.tile p with vec := (s.tile p).vec } = s.tile p
    ∧ (let v := (s.tile p).vec
       { (t.tile p).vec with v := v.v, m := v.m, sr := v.sr, lf := v.lf, q := v.q, pc := v.pc, loops := v.loops, wait := v.wait } = v)
    ∧ regsKept (fun g i => (i = p ∧ (g.id = F.VEC_NINS_COUNT.id ∨ ∃ b h, nflagField b = some h ∧ g.id = h.id)) ∨ evField g) s t

/-- A vector instruction has issued: counted, the routine at its next word, and nothing but what `vecOnly` admits changed (R102, R109, R123). -/
def vecWent (p : Nat) (s t : State) : Prop :=
  vecOnly p s t ∧ t.get F.VEC_NINS_COUNT p = (s.get F.VEC_NINS_COUNT p + 1) % 2 ^ 64
    ∧ (t.tile p).vec.pc = (s.tile p).vec.advance.pc ∧ (t.tile p).vec.loops = (s.tile p).vec.advance.loops ∧ (t.tile p).vec.wait = 0

/-- The engine's vector registers other than `d`, and its masks, scalars and row pair, are as before. -/
def vecOtherRegs (p d : Nat) (s t : State) : Prop :=
  (∀ r l, r ≠ d → l < 256 → (t.tile p).vec.lane r l = (s.tile p).vec.lane r l) ∧ (t.tile p).vec.m = (s.tile p).vec.m
    ∧ (t.tile p).vec.sr = (s.tile p).vec.sr ∧ (t.tile p).vec.q = (s.tile p).vec.q

/-- A routine instruction that writes a vector register lane by lane: its tile, its word and fields, whether lane `l` of the result is poisoned, and
its value. -/
structure LaneOp where
  p : Nat
  word : Nat
  o : VOp
  pois : Nat → Bool
  val : Nat → Nat

/-- The lane instructions of R109: the operands read, and the function of each. -/
def laneOp (s : State) (c : Instr) : Option LaneOp :=
  let two := fun (op p : Nat) (o : VOp) (f : NMode → Nat → Nat → Nat → Nat × NFlags) =>
    let v := (s.tile p).vec
    some { p := p, word := o.word op, o := o, pois := fun l => (v.lane o.a l).p || (v.opB o l).p
           val := fun l => (f (s.vmode p) l (v.lane o.a l).v.toNat (v.opB o l).v.toNat).1 : LaneOp }
  let one := fun (op p : Nat) (o : VOp) (f : NMode → Nat → Nat → Nat × NFlags) =>
    let v := (s.tile p).vec
    some { p := p, word := o.word op, o := o, pois := fun l => (v.lane o.a l).p
           val := fun l => (f (s.vmode p) l (v.lane o.a l).v.toNat).1 : LaneOp }
  let any := fun (op p : Nat) (o : VOp) (pois : Nat → Bool) (val : Nat → Nat) =>
    some { p := p, word := o.word op, o := o, pois := pois, val := val : LaneOp }
  match c with
  | .fadd p o => two 0x01 p o fun md _ => fAdd md
  | .fsub p o => two 0x02 p o fun md _ => fSub md
  | .fmul p o => two 0x03 p o fun md _ => fMul md
  | .fma p o => let v := (s.tile p).vec
    any 0x04 p o (fun l => (v.lane o.a l).p || (v.opB o l).p || (v.lane o.d l).p)
      fun l => (fmaLane (s.vmode p) (v.lane o.a l).v.toNat (v.opB o l).v.toNat (v.lane o.d l).v.toNat).1
  | .fdiv p o => two 0x05 p o fun md l => fDiv md (Config.freeNat s.fresh l)
  | .fmax p o => two 0x06 p o fun md _ => fMaxMin md true
  | .fmin p o => two 0x07 p o fun md _ => fMaxMin md false
  | .fsqrt p o => one 0x08 p o fun md l => fSqrt md (Config.freeNat s.fresh l)
  | .frsq p o => one 0x09 p o fun md l => fRsq md (Config.freeNat s.fresh l)
  | .frcp p o => one 0x0A p o fun md l => fRcp md (Config.freeNat s.fresh l)
  | .fexp p o => one 0x0B p o fun md l => fExp md (Config.freeNat s.fresh l)
  | .flog p o => one 0x0C p o fun md l => fLog md (Config.freeNat s.fresh l)
  | .ftanh p o => one 0x0D p o fun md l => fTanh md (Config.freeNat s.fresh l)
  | .fsgn p o => if o.sub = 3 then two 0x0E p o fun _ _ x y => (fsgnLane 3 x y, {}) else one 0x0E p o fun _ _ x => (fsgnLane o.sub x 0, {})
  | .mov p o => let v := (s.tile p).vec
    any 0x15 p o (fun l => (v.opB o l).p) fun l => (v.opB o l).v.toNat
  | .expd p o => let v := (s.tile p).vec
    let rank := fun l => ((List.range l).filter (v.active o.msk)).length
    any 0x18 p o (fun l => (v.lane o.a (rank l)).p) fun l => (v.lane o.a (rank l)).v.toNat
  | .fold p o => let v := (s.tile p).vec
    any 0x19 p o (fun l => (v.lane o.a (l % 128)).p || (v.lane o.a (128 + l % 128)).p)
      fun l => (foldOp (s.vmode p) o.sub (v.lane o.a (l % 128)).v.toNat (v.lane o.a (128 + l % 128)).v.toNat).1
  | .cvt p o => one 0x1C p o fun md _ => cvtLane md o.sub
  | .qdq p o => let v := (s.tile p).vec
    any 0x1D p o (fun l => (block32 (l / 32)).any fun i => (v.lane o.a i).p)
      fun l => let q := g8Quant (s.vmode p) ((block32 (l / 32)).map fun i => (v.lane o.a i).v.toNat)
        (g8Value (s.vmode p) q.1 (q.2.1.getD (l % 32) 0)).1
  | _ => none

end Sys2Proof.Machine
end

