-- ==== Sys2Proof/Certificates/Slice0/Obligations.lean ====
section
/-! DEFINITION. The statements for the provers. -/

open Sys2Proof Sys2Proof.Machine

/-! ### The queue, the idle block, the reset state -/

/-- A step takes the command at the front of the queue and runs it on the state with the queue's rest. -/
def Obligations.StepRunsFront : Prop :=
  ∀ (c : Instr) (q : List Instr) (s : State), step { s with pending := c :: q } = exec c { s with pending := q }

/-- On an empty queue a nanosecond passes: the local interval timer goes up by one modulo 2^64 (R314); that a step on an empty queue is
one nanosecond, and that island beats are free counts, is the model's choice (log entry 13). An island's beats, counted to 10^-13 of a beat, lie within the bounds of R376 for its supply and temperature. Where no export, import, mapping command or
queue command waits (log entries 109 and 40) and no evacuation copies (log entry 132), only registers, the supplies, the parts of beats and the counter of free values change. -/
def Obligations.IdleStepIsANanosecond : Prop :=
  ∀ s : State, s.pending = [] → s.txs = [] → s.mcmd = none → s.queJob = none → (∀ a ∈ s.acts, a.kind ≠ 1) → s.RegsOk →
    ∃ t, step s = .next t ∧ t.get F.SYN_TIMER_NS = (s.get F.SYN_TIMER_NS + 1) % 2 ^ 64
    ∧ { t with regs := s.regs, fresh := s.fresh, volts := s.volts, beatFrac := s.beatFrac } = s
    ∧ regsKept (fun f _ => f.id = F.SYN_TIMER_NS.id ∨ (s.resetHeld = false ∧ f.id = F.PWR_NBEAT_COUNT.id)) s t
    ∧ (s.resetHeld = false → s.get F.SEC_BOOT_FAIL = 0 → FMap.wf 0 s.beatFrac = true → ∀ i r, i < 18 →
        beatRange (s.volts.get 800000 i) (s.get F.PWR_VP_TEMP i) = some r →
        ∃ x, r.1 ≤ x ∧ x ≤ r.2 ∧ t.get F.PWR_NBEAT_COUNT i = (s.get F.PWR_NBEAT_COUNT i + (s.beatFrac.get 0 i + x) / 10 ^ 13) % 2 ^ 64
          ∧ t.beatFrac.get 0 i = (s.beatFrac.get 0 i + x) % 10 ^ 13)

/-- Whatever the command, its operands and the state, the block goes on, and no command touches the queue of waiting commands: no command of the
table ends a run, and what a run executes next is decided by the queue alone. That a command whose event cannot occur in the state answers a next state,
with nothing changed, is the model's choice (log entry 1). -/
def Obligations.EveryCommandCompletes : Prop := ∀ (c : Instr) (s : State), ∃ t, exec c s = .next t ∧ t.pending = s.pending

/-- The register file keeps its canonical form through every step from every state that has it. -/
def Obligations.StepKeepsRegisterFile : Prop := ∀ s t : State, s.RegsOk → step s = .next t → t.RegsOk

/-- The memories keep their canonical form through every step from every state that has it, whatever the command: equal memories are equal data. -/
def Obligations.StepKeepsMemory : Prop := ∀ s t : State, Memory.wf s = true → step s = .next t → Memory.wf t = true

/-- After reset the register file and the memories have their canonical form, every field of every listed register reads its reset value, no command waits
and start-up stands at step 1 with internal reset held. -/
def Obligations.ResetState : Prop :=
  State.reset.RegsOk ∧ Memory.wf State.reset = true ∧ (∀ x ∈ regTable, ∀ f ∈ x.2, ∀ i, State.reset.get f i = f.rst) ∧ State.reset.get F.SEC_BOOT_STEP = 1
    ∧ State.reset.resetHeld = true ∧ State.reset.pending = [] ∧ State.reset.tiles = [] ∧ State.reset.sqs = [] ∧ State.reset.cqs = []
    ∧ State.reset.pages = [] ∧ State.reset.sigs = [] ∧ State.reset.log = []

/-- A fuse bit that is 1 stays 1: no step clears one, power and reset included (R397). -/
def Obligations.FusesNeverClear : Prop :=
  ∀ (s t : State) (which i b : Nat), step s = .next t → (s.fuse which i).testBit b = true → (t.fuse which i).testBit b = true

/-! ### The control space (R4, R77, R168 to R175, R426 to R431) and the sideband (R439) -/

/-- REGISTER_WRITE, once step 6 of start-up has ended, of a whole word of a register that has no rule of its own: each RW field that the word covers takes the written bits and
keeps the others, a W1C bit is cleared exactly where a 1 is written, an RO field ignores the write; nothing else changes. -/
def Obligations.RegisterWriteByAccessCode : Prop :=
  ∀ (addr : Nat) (data : Word) (s : State) (r : Reg) (fs : List Field) (i w : Nat),
    regAt addr = some (r, fs, i, w) → s.hidden r i = false → (∀ a ∈ actions, a.1 ≠ r) → (∀ f ∈ fs, f.acc ≠ .WS ∧ f.acc ≠ .WL) → s.RegsOk →
    s.ioReached = true →
    ∃ t, exec (.registerWrite addr data 15) s = .next t ∧ onlyRegs s t ∧ regsKept (fun f j => (∃ g ∈ fs, g.id = f.id) ∧ j = i) s t
      ∧ ∀ f ∈ fs, (f.acc = .RW → f.inWord w = true → t.get f i = f.merge (s.get f i) w data.toNat)
        ∧ (f.acc = .W1C → ∀ b, b < f.width →
            (t.get f i).testBit b = ((s.get f i).testBit b && !(f.inWord w && (f.merge 0 w data.toNat).testBit b)))
        ∧ (f.acc = .RO ∨ f.inWord w = false → t.get f i = s.get f i)

/-- A write of the control space that enables fewer than all four bytes of a word is ignored and sets GLB_STAT.PWIGN (R426): nothing else
changes. Accesses reach the control space once step 6 of start-up has ended.
A write to an address that holds no register, to a register of an absent rig or to a register of a tile that is spare or retired
changes nothing (R176, R427, R428).
A static field (R4, R169): the write lands while the owning unit is stopped; while it runs a write that would change the field leaves it
as it was and sets the unit's refusal bit. `staticWrite` is the word write of one such field. -/
def Obligations.IgnoredWrites : Prop :=
  (∀ (addr be : Nat) (data : Word) (s : State), be ≠ 15 → addr < bar2 → s.RegsOk → s.ioReached = true →
    ∃ t, exec (.registerWrite addr data be) s = .next t ∧ t.get F.GLB_STAT_PWIGN = 1 ∧ onlyRegs s t
      ∧ regsKept (fun f j => f.id = F.GLB_STAT_PWIGN.id ∧ j = 0) s t)
  ∧ (∀ (addr : Nat) (data : Word) (s : State), addr < bar2 →
    (regAt addr = none ∨ ∃ r fs i w, regAt addr = some (r, fs, i, w) ∧ s.hidden r i = true) → exec (.registerWrite addr data 15) s = .next s)
  ∧ (∀ (s : State) (f g : Field) (i j v ev : Nat), s.RegsOk → f.id < 1024 → g.id < 1024 → ¬ evField f → ¬ evField g → f.id ≠ g.id → 0 < g.width →
    (s.staticWrite f i v true g j ev).get f i = v % 2 ^ f.width
    ∧ (s.get f i ≠ v % 2 ^ f.width →
        (s.staticWrite f i v false g j ev).get f i = s.get f i ∧ (s.staticWrite f i v false g j ev).get g j = 1
        ∧ onlyRegs s (s.staticWrite f i v false g j ev))
    ∧ (s.get f i = v % 2 ^ f.width → s.staticWrite f i v false g j ev = s))

/-- LOW_WORD_READ (R77): the low word's read drives out the low half, and the next read of the high word gives the high half of that same
instant, whatever commands' effects lie between; the latch is then empty. A read of a word without a latched value gives the live one.
SYN_GMDAT_ACCESS (R315): a write puts a 12-bit identity in the member word that SYN_GMSEL.INDEX names, where no valid group covers it; with
AINC the index moves on by one after a write and after a read; a read drives the member word out.
The sideband (R439): command 0x01 with a good PEC sets the address; a block read or an acknowledged block write moves it on by 4; a read
outside the listed registers gives zero; a write outside EVT_FLOFS and EVT_FLCMD is ignored; with a wrong PEC neither has an
effect and it is not acknowledged; the Alert Response Address is answered while a boot failure or a trip stands. -/
def Obligations.RegisterSpecials : Prop :=
  (∀ (addr : Nat) (s : State) (r : Reg) (fs : List Field) (i : Nat),
    regAt addr = some (r, fs, i, 0) → r.bits = 64 → s.latch.get none addr = none → FMap.wf none s.latch = true →
    s.ioReached = true →
    ∃ t, exec (.lowWordRead addr) s = .next t
      ∧ t.out = s.out ++ [.regData addr (BitVec.ofNat 32 (s.liveWord addr))]
      ∧ { t with latch := s.latch, out := s.out } = s
      ∧ ∀ u : State, u.latch = t.latch → u.ioReached = true →
          ∃ v, exec (.lowWordRead (addr + 4)) u = .next v
            ∧ v.out = u.out ++ [.regData (addr + 4) (BitVec.ofNat 32 (s.liveWord (addr + 4)))]
            ∧ v.latch.get none (addr + 4) = none ∧ { v with latch := u.latch, out := u.out } = u)
  ∧ (∀ (s : State), s.RegsOk → FMap.wf 0 s.members = true → s.ioReached = true →
    (∀ d : Word, s.memberUsed (s.get F.SYN_GMSEL_INDEX) = false →
      ∃ t, exec (.synGmdatAccess (some d)) s = .next t
        ∧ t.members.get 0 (s.get F.SYN_GMSEL_INDEX) = d.toNat % 4096
        ∧ (∀ k, k ≠ s.get F.SYN_GMSEL_INDEX → t.members.get 0 k = s.members.get 0 k)
        ∧ t.get F.SYN_GMSEL_INDEX = (if s.flag F.SYN_GMSEL_AINC then (s.get F.SYN_GMSEL_INDEX + 1) % 2 ^ F.SYN_GMSEL_INDEX.width else s.get F.SYN_GMSEL_INDEX)
        ∧ { t with regs := s.regs, members := s.members } = s)
    ∧ (∀ d : Word, s.memberUsed (s.get F.SYN_GMSEL_INDEX) = true → s.members.get 0 (s.get F.SYN_GMSEL_INDEX) ≠ d.toNat % 4096 →
      ∃ t, exec (.synGmdatAccess (some d)) s = .next t ∧ t.members = s.members ∧ t.get F.SYN_STAT_SREF = 1 ∧ onlyRegs s t)
    ∧ (s.latch.get none R.SYN_GMDAT.base = none →
      ∃ t, exec (.synGmdatAccess none) s = .next t
        ∧ t.out = s.out ++ [.regData R.SYN_GMDAT.base (BitVec.ofNat 32 (s.liveWord R.SYN_GMDAT.base))]
        ∧ t.get F.SYN_GMSEL_INDEX = (if s.flag F.SYN_GMSEL_AINC then (s.get F.SYN_GMSEL_INDEX + 1) % 2 ^ F.SYN_GMSEL_INDEX.width else s.get F.SYN_GMSEL_INDEX)
        ∧ { t with regs := s.regs, out := s.out } = s))
  ∧ (∀ (s : State), s.resetHeld = false →
    (∀ a, exec (.smbusSetAddress a true) s = .next ({ s with smbAddr := a.toNat }.emit (.smbAck true)))
    ∧ (∀ a, exec (.smbusSetAddress a false) s = .next (s.emit (.smbAck false)))
    ∧ (∀ d, exec (.smbusBlockAccess (some d) false) s = .next (s.emit (.smbAck false)))
    ∧ (∀ d, smbWrites s.smbAddr = false →
        exec (.smbusBlockAccess (some d) true) s = .next ({ s with smbAddr := (s.smbAddr + 4) % 2 ^ 32 }.emit (.smbAck true)))
    ∧ (∀ d u, smbWrites s.smbAddr = true → u = s.writeWord s.smbAddr d.toNat →
        exec (.smbusBlockAccess (some d) true) s = .next ({ u with smbAddr := (s.smbAddr + 4) % 2 ^ 32 }.emit (.smbAck true)))
    ∧ (∀ k, smbReads s.smbAddr = false →
        exec (.smbusBlockAccess none k) s = .next ({ s with smbAddr := (s.smbAddr + 4) % 2 ^ 32 }.emit (.regData s.smbAddr 0)))
    ∧ (∀ k, smbReads s.smbAddr = true → s.latch.get none s.smbAddr = none →
        ∃ t, exec (.smbusBlockAccess none k) s = .next t ∧ t.smbAddr = (s.smbAddr + 4) % 2 ^ 32
          ∧ t.out = s.out ++ [.regData s.smbAddr (BitVec.ofNat 32 (s.liveWord s.smbAddr))] ∧ t.tiles = s.tiles)
    ∧ ((s.get F.SEC_BOOT_FAIL ≠ 0 ∨ ∃ i < 18, s.get F.PWR_VP_TRIPPED i ≠ 0) →
        exec .smbusAlertResponse s = .next (s.emit (.smbAlertResponse (0x58 + s.strapAsel))))
    ∧ (s.get F.SEC_BOOT_FAIL = 0 → (∀ i < 18, s.get F.PWR_VP_TRIPPED i = 0) → exec .smbusAlertResponse s = .next s))

/-! ### Reset and start-up (R393 to R398, R437, R444, R445) -/

/-- PORST_L_ASSERT and SUPPLY_OUT_OF_RANGE return the device to step 1 at any time (R394, R445): every rig, queue, page and tile is gone and
internal reset is held; fuses, boot flash and the flight log's journal and slots carry over; every register reads its
reset value, but that the timer runs on through PORST_L (R314), and that a trip of i16 or i17 found by PORST_L holds the device until power is
removed (R385; that a loss of power alone clears it is log entry 136). The output and the waiting commands stay.
RESET_RELEASE, once every rail is in its window and PORST_L is high, ends step 1 (R393): STEP reads 2, SEC_DNONCE and the seed of
stochastic rounding take free values; nothing else changes.
BOOT_STEP_COMPLETE (R393, R395): each step from 2 to 9, and step 11, ends in the next, or fails: SEC_BOOT.FAIL is set, CODE
says why and STEP stays. Step 2 fails with 0x21, also where the two copies of a fuse field differ (log 168), or 0x22, else shows each tile's
fused state and logical number (R397) and latches the straps found (R437); 3 fails with 0x31, else the staging pool, stores and banks hold zeros
(R244); 4 fails with 0x41 where two management cores fail; 5 with 0x51 or 0x52 where no firmware copy boots, else it runs the preferred copy if
that boots (R398); 6 with 0x61 where neither UCIe module is up, else it shows both (R318); 7 with 0x71 for stacks it cannot use and 0x72 for a
stack with too few channels, else it shows what it found; 8 shows the buffers and CXL ports that did not come up, and the ports with a failed
device behind them; 9 puts the tiers online; 10 ends with the loader's work, not here; 11 ends in 15. After a failure nothing moves. What a
step found is the operand (R395; log 135). Fuses and waiting commands stay.
The UCIe modules (R318, R319): a module that is up starts to train; the end reports state, rate and repaired lanes in
QUE_ULINK; the other module's fields stay. While the only module trains, a host's request changes nothing: it waits (log 163). -/
def Obligations.StartUp : Prop :=
  (∀ (s : State) (rail : Nat), ∃ t u, exec .porstAssert s = .next t ∧ exec (.supplyOutOfRange rail) s = .next u
    ∧ (∀ x, x = t ∨ x = u → x.resetHeld = true ∧ x.get F.SEC_BOOT_STEP = 1
      ∧ x.rigs = [] ∧ x.sheets = [] ∧ x.sqs = [] ∧ x.cqs = [] ∧ x.pages = [] ∧ x.spaces = [] ∧ x.tiles = [] ∧ x.sigs = [] ∧ x.log = []
      ∧ x.session = none ∧ x.load = none ∧ x.online = false
      ∧ x.fuses = s.fuses ∧ x.flashImg = s.flashImg ∧ x.preferred = s.preferred ∧ x.flog.journal = s.flog.journal ∧ x.flog.slots = s.flog.slots
      ∧ x.pending = s.pending ∧ x.out = s.out)
    ∧ t.porst = true ∧ u.porst = s.porst ∧ t.get F.SYN_TIMER_NS = s.get F.SYN_TIMER_NS % 2 ^ 64 ∧ (∀ f i, u.get f i = f.rst) ∧ u.tripHold = false ∧ u.everOpen = false
    ∧ t.tripHold = s.tripHold ∧ t.everOpen = s.everOpen ∧ (s.tripHold = false → ∀ f i, f.id ≠ F.SYN_TIMER_NS.id → t.get f i = f.rst)
    ∧ (s.tripHold = true → t.get F.PWR_THERM_TRIP = 1 ∧ ∀ i, i < 18 → t.get F.PWR_VP_TRIPPED i = s.get F.PWR_VP_TRIPPED i % 2))
  ∧ (∀ s : State, s.resetHeld = true → s.RegsOk → ∃ t, exec .resetRelease s = .next t
    ∧ t.get F.SEC_BOOT_STEP = 2 ∧ t.get F.SEC_DNONCE_BYTES = Config.freeNat s.fresh 0 % 2 ^ F.SEC_DNONCE_BYTES.width
    ∧ t.resetHeld = false ∧ t.porst = false ∧ s.fresh < t.srSeed ∧ t.srSeed < t.fresh
    ∧ { t with regs := s.regs, resetHeld := s.resetHeld, porst := s.porst, fresh := s.fresh, srSeed := s.srSeed } = s
    ∧ regsKept (fun f i => (f.id = F.SEC_BOOT_STEP.id ∨ f.id = F.SEC_DNONCE_BYTES.id) ∧ i = 0) s t)
  ∧ (∀ (s : State) (r : BootReport), s.resetHeld = false → s.RegsOk →
    (s.get F.SEC_BOOT_FAIL ≠ 0 → exec (.bootStepComplete r) s = .next s)
    ∧ (s.get F.SEC_BOOT_FAIL = 0 → ∃ t, exec (.bootStepComplete r) s = .next t ∧ t.fuses = s.fuses ∧ t.pending = s.pending ∧ t.resetHeld = false ∧
      let v := fun (i : Nat) => r.vals[i]?.getD 0
      let step := s.get F.SEC_BOOT_STEP
      let goes := t.get F.SEC_BOOT_STEP = step + 1
      let fails := fun (code : Nat) => t.get F.SEC_BOOT_STEP = step ∧ t.get F.SEC_BOOT_FAIL = 1 ∧ t.get F.SEC_BOOT_CODE = code
      (step = 2 → ((r.fail = 0x21 ∨ s.fusesAgree = false) → fails 0x21) ∧ (s.fusesAgree = true → r.fail = 0x22 → fails 0x22)
        ∧ (r.fail ≠ 0x21 → r.fail ≠ 0x22 → s.fusesAgree = true → goes ∧ t.get F.SEC_FSTAT_HSP = r.vals[0]?.getD s.strapHsp % 4
          ∧ t.strapAsel = r.vals[1]?.getD s.strapAsel % 4 ∧ ∀ p < 80, t.get F.GLB_PMAP_STATE p = s.fuseTile p
          ∧ t.get F.GLB_PMAP_LOGICAL p = (if s.fuseTile p = 0 then ((List.range p).filter fun q => s.fuseTile q = 0).length else 0x7F)))
      ∧ (step = 3 → (r.fail = 0x31 → fails 0x31) ∧ (r.fail ≠ 0x31 → goes ∧ t.staging = {}
          ∧ (FMap.wf {} s.tiles = true → ∀ p, (t.tile p).store = {} ∧ (t.tile p).banks = [])))
      ∧ (step = 4 → let bad := (List.range 5).filter fun c => bit (v 0) c
          (1 < bad.length → fails 0x41) ∧ (bad.length ≤ 1 → goes ∧ ∀ c ∈ bad, c ∈ t.mgmtFailed))
      ∧ (step = 5 → (s.copyBoots s.preferred = true → goes ∧ t.get F.SEC_BOOT_FWCOPY = s.preferred % 2 ∧ t.get F.SEC_BOOT_AFAIL = 0
            ∧ t.fwSvn = fwSvnOf (s.flashCopy s.preferred))
        ∧ (s.copyBoots s.preferred = false → s.copyBoots (1 - s.preferred) = true → goes ∧ t.get F.SEC_BOOT_FWCOPY = (1 - s.preferred) % 2)
        ∧ (s.copyBoots s.preferred = false → s.copyBoots (1 - s.preferred) = false → fails 0x51 ∨ fails 0x52))
      ∧ (step = 6 → let up := fun (n : Nat) => n % 8 = 3 ∨ n % 8 = 4
          ((up (v 0) ∨ up (v 3)) → goes ∧ t.get F.QUE_ULINK_U0STATE = v 0 % 8 ∧ t.get F.QUE_ULINK_U1STATE = v 3 % 8)
          ∧ (¬ up (v 0) → ¬ up (v 3) → fails 0x61))
      ∧ (step = 7 → r.vals.drop 4 = [] → s.actQ = [] →
          let few := ∃ k < 8, ((List.range 32).filter fun c => bit (v 3) (32 * k + c) && s.get F.MEM_CHMAP_ROLE (32 * k + c) != 2).length
            < 32 - s.get F.MEM_T0CFG_SPARES
          ((2 < v 0 ∨ 1 < v 1 ∨ 2 < v 2) → fails 0x71)
          ∧ (v 0 ≤ 2 → v 1 ≤ 1 → v 2 ≤ 2 → few → fails 0x72)
          ∧ (v 0 ≤ 2 → v 1 ≤ 1 → v 2 ≤ 2 → ¬ few → goes ∧ t.get F.MEM_T0CFG_HEIGHT = v 0 ∧ t.get F.MEM_T0CFG_DENS = v 1 ∧ t.get F.MEM_T0CFG_RATE = v 2))
      ∧ (step = 8 → goes ∧ (∀ b < 8, bit (t.get F.SEC_BOOT_BWARN) b = decide ((s.link (10 + b)).train ≠ 4)) ∧ t.get F.SEC_FSTAT_XWARN = (7 - v 0 % 8) ||| (v 0 / 8 % 8))
      ∧ (step = 9 → goes ∧ t.online = true)
      ∧ (step = 10 → t = s)
      ∧ (step = 11 → t.get F.SEC_BOOT_STEP = 15)))
  ∧ (∀ (m : Nat) (s : State), m < 2 → s.RegsOk →
    (s.ucieUp m = true → ∃ t, exec (.ucieModuleRetrain m) s = .next t ∧ t.get (ulinkState m) = 1 ∧ onlyRegs s t
        ∧ regsKept (fun f i => f.id = (ulinkState m).id ∧ i = 0) s t)
    ∧ (s.ucieWaits = true → (∀ addr data be, exec (.registerWrite addr data be) s = .next s) ∧ (∀ addr, exec (.lowWordRead addr) s = .next s)
        ∧ (∀ off errs lost, exec (.hostWindowRead off errs lost) s = .next s) ∧ (∀ off data mask errs, exec (.hostWindowWrite off data mask errs) s = .next s)
        ∧ (∀ n d, exec (.sqTailDoorbell n d) s = .next s))
    ∧ (∀ r : UcieReport, s.compls = [] → s.cqs = [] → s.get (ulinkState m) = 1 → [0, 3, 4, 5].contains r.state = true → r.rate < 2 → r.rep < 16 →
        ∃ t, exec (.ucieRetrainComplete m r) s = .next t ∧ t.get (ulinkState m) = r.state ∧ t.get (ulinkRate m) = r.rate
          ∧ t.get (ulinkRep m) = r.rep ∧ t.get (ulinkState (1 - m)) = s.get (ulinkState (1 - m)) ∧ t.get (ulinkRate (1 - m)) = s.get (ulinkRate (1 - m))
          ∧ t.get (ulinkRep (1 - m)) = s.get (ulinkRep (1 - m)) ∧ t.pages = s.pages ∧ t.tiles = s.tiles ∧ t.sqs = s.sqs ∧ t.out = s.out))

/-! ### The host's side of the die (R318 to R323, R394) -/

/-- SNOOP (R321): every snoop is answered as not holding the line; nothing else happens.
A host window access is refused before step 9 of start-up has ended, through a disabled aperture, or where no page is mapped; a write
also where the aperture has WP or the page is read-only (R322, R323, R394). A refused read gives 64 zero bytes with CXL poison, a
refused write is dropped; either sets QUE_STAT.HAF and writes QUE_HAFA. Nothing but registers changes otherwise.
Aperture 0 (R152, R322): its first 64 MiB are the image staging area, where an error-free read gives the bytes held, and a write of 64 bytes
puts each byte that its mask enables, both counted at the interfaces of tier 0 (R186; log entry 6); the rest reads zero and ignores writes.
A window access to a page whose home is a frame of tier 0 and at rest (R322, R323): an error-free read gives its bytes, with CXL poison
where a word is poisoned; a write puts each byte that its mask enables, and other bytes of the page and other pages are as before. At rest: not a
ledger, no rig, no move, no line being reread, no output version, no READ record, no entry of the write-combining buffer, no mirroring, no activity of the
arbiter, no controller in reset. -/
def Obligations.HostWindow : Prop :=
  (∀ (addr : Nat) (s : State), exec (.snoop addr) s = .next (s.emit (.snoopMiss addr)))
  ∧ (∀ (off : Nat) (s : State), s.RegsOk → off < 2 ^ 44 → s.ucieWaits = false →
    let refused := s.online = false ∨ (2 ^ 36 ≤ off ∧ (s.apertureOf off = none ∨ ∃ k o, s.apertureOf off = some (k, o) ∧ s.page? k = none))
    (refused → ∀ errs lost, ∃ t, exec (.hostWindowRead off errs lost) s = .next t
        ∧ t.out = s.out ++ [.windowData off (List.replicate 64 0) true] ∧ { t with regs := s.regs, out := s.out } = s
        ∧ t.get F.QUE_STAT_HAF = 1 ∧ t.get F.QUE_HAFA_AP = off / 2 ^ 36 ∧ t.get F.QUE_HAFA_OFS = off)
    ∧ (refused ∨ (2 ^ 36 ≤ off ∧ (∃ k o p, s.apertureOf off = some (k, o) ∧ s.page? k = some p
          ∧ (s.get F.QUE_AP_0_WP (off / 2 ^ 36) ≠ 0 ∨ p.ro = true))) →
        ∀ data mask errs, ∃ t, exec (.hostWindowWrite off data mask errs) s = .next t ∧ onlyRegs s t
        ∧ t.get F.QUE_STAT_HAF = 1 ∧ t.get F.QUE_HAFA_AP = off / 2 ^ 36 ∧ t.get F.QUE_HAFA_OFS = off))
  ∧ (∀ (off : Nat) (s : State), s.online = true → off < 2 ^ 36 → s.ucieWaits = false →
    (off < stagingSize → ∀ lost, exec (.hostWindowRead off [] lost) s = .next ((s.tier0Bytes 1).answerWindow off (s.staging.read off 64)))
    ∧ (off < stagingSize → FMap.wf 0 s.staging.bytes = true → ∀ (data : List Byte) (mask : Nat), data.length = 64 → ∀ errs,
        ∃ t, exec (.hostWindowWrite off data mask errs) s = .next t
          ∧ (∀ i < 64, t.staging.byte (off + i) = if bit mask i then data.getD i 0 else s.staging.byte (off + i))
          ∧ (∀ a, a < off ∨ off + 64 ≤ a → t.staging.byte a = s.staging.byte a) ∧ { t with staging := s.staging, regs := s.regs, scrubs := s.scrubs } = s)
    ∧ (stagingSize ≤ off → ∀ errs lost, exec (.hostWindowRead off errs lost) s = .next (s.answerWindow off (List.replicate 64 (0, false))))
    ∧ (stagingSize ≤ off → ∀ data mask errs, exec (.hostWindowWrite off data mask errs) s = .next s))
  ∧ (∀ (off key ofs : Nat) (p : Page) (s : State), s.online = true → 2 ^ 36 ≤ off → s.apertureOf off = some (key, ofs) → ofs % 64 = 0 →
    s.page? key = some p → FMap.wf none s.pages = true → p.tier = 0 → p.zero = false → p.cmp = false → p.ro = false → p.ldg = false → p.linePois = [] →
    s.ucieWaits = false → s.negReads = [] → s.moves = [] → s.wc = [] → s.outVers = [] → s.rigs = [] → s.log = [] → s.mirrorsPages = false → s.acts = [] → s.ctlReset = [] →
    (∃ t, exec (.hostWindowRead off [] false) s = .next t
        ∧ t.out = s.out ++ [.windowData off ((p.data.read ofs 64).map Prod.fst) ((p.data.read ofs 64).any Prod.snd)]
        ∧ (t.page? key).map (·.data) = some p.data ∧ (∀ k, k ≠ key → t.page? k = s.page? k))
    ∧ (s.get F.QUE_AP_0_WP (off / 2 ^ 36) = 0 → FMap.wf 0 p.data.bytes = true → ∀ (data : List Byte) (mask : Nat), data.length = 64 →
        ∃ t q, exec (.hostWindowWrite off data mask []) s = .next t ∧ t.page? key = some q
          ∧ (∀ i < 64, q.data.byte (ofs + i) = if bit mask i then data.getD i 0 else p.data.byte (ofs + i))
          ∧ (∀ a, a < ofs ∨ ofs + 64 ≤ a → q.data.byte a = p.data.byte a)
          ∧ (∀ k, k ≠ key → t.page? k = s.page? k)))

/-! ### The image loader and the rigs' control (R161 to R167, R176, R402, R404) -/

/-- LOAD_START (R163, R399): a START that reaches the control space in step 10 or later latches HOW, HOLD, the key slots' states and the staged
image and begins the check (that the whole staged image is taken as it stands at START is the model's choice, log entry 59); while a load runs
or a firmware copy holds the staging area it is ignored and sets BUSYW.
IMAGE_CHECK_COMPLETE (R161, R165, R166): an image that obeys rules 1 to 5 goes on to the check of its structure; one that obeys every rule
sets the rigs it concerns to loading. A rejected image changes nothing in the device but IMG_STAT, which shows REJ, the code of the
first rule that failed, and idle. -/
def Obligations.LoadStartAndCheck : Prop :=
  (∀ (d : Word) (s : State), s.RegsOk → s.ioReached = true → bit d.toNat 0 = true → 10 ≤ s.get F.SEC_BOOT_STEP →
    (s.get F.IMG_STAT_STATE = 0 → ((s.fwOp.map (·.copying)).getD false) = false → ∃ t l, exec (.loadStart d) s = .next t
        ∧ t.get F.IMG_STAT_STATE = 1 ∧ t.load = some l ∧ l.how = bits d.toNat 1 1 ∧ l.hold = bit d.toNat 4 ∧ l.img = s.staging
        ∧ l.enrolled = slotBits s.enrolled ∧ l.revoked = slotBits s.revoked ∧ { t with regs := s.regs, load := s.load, scrubs := s.scrubs } = s)
    ∧ (s.get F.IMG_STAT_STATE ≠ 0 ∨ ((s.fwOp.map (·.copying)).getD false) = true → ∃ t, exec (.loadStart d) s = .next t
        ∧ t.get F.IMG_STAT_BUSYW = 1 ∧ t.get F.IMG_STAT_STATE = s.get F.IMG_STAT_STATE ∧ onlyRegs s t))
  ∧ (∀ (l : Load) (s : State), s.RegsOk → s.load = some l →
    (s.get F.IMG_STAT_STATE = 1 → s.check1 l = 0 → ∃ t, exec .imageCheckComplete s = .next t ∧ t.get F.IMG_STAT_STATE = 2
        ∧ onlyRegs s t ∧ regsKept (fun f i => f.id = F.IMG_STAT_STATE.id ∧ i = 0) s t)
    ∧ (s.get F.IMG_STAT_STATE = 2 → s.check2 l.img = 0 → l.how = 0 → ∃ t, exec .imageCheckComplete s = .next t
        ∧ t.get F.IMG_STAT_STATE = 3 ∧ (∀ n ∈ s.loadRigs l.img, t.rigState n = rigLoading)
        ∧ (∀ n, n ∉ s.loadRigs l.img → t.rigState n = s.rigState n) ∧ onlyRegs s t)
    ∧ (∀ e, (s.get F.IMG_STAT_STATE = 1 ∧ s.check1 l = e) ∨ (s.get F.IMG_STAT_STATE = 2 ∧ s.check2 l.img = e) → e ≠ 0 →
        ∃ t, exec .imageCheckComplete s = .next t ∧ t.get F.IMG_STAT_REJ = 1 ∧ t.get F.IMG_STAT_CODE = e % 2 ^ 16 ∧ t.get F.IMG_STAT_STATE = 0
          ∧ t.load = none ∧ { t with regs := s.regs, load := s.load } = s
          ∧ regsKept (fun f i => (f.id = F.IMG_STAT_REJ.id ∨ f.id = F.IMG_STAT_CODE.id ∨ f.id = F.IMG_STAT_STATE.id) ∧ i = 0) s t))

/-- IMAGE_APPLY (R165 step 4, R166, R167): once every rig concerned has stopped the image is applied. A whole image leaves exactly its rigs, each
with its tiles and ranges; a removal image leaves the rig absent. The signals of a new rig's range are zero. That the image is the one staged at
START is the model's choice (log entry 59).
IMAGE_APPLY_COMPLETE (R165 step 5, R325, R404): once the completions of the queues given up are written these queues are gone (a submission
queue bound to a completion queue that goes is given up as well: the model's choice, log entry 47), the image's
rigs run, or are stopped under HOLD, under a trip of i16 or i17 (R385; what outlasts PORST_L is the model's reading, log entry 136) or where a tile has no physical tile; ACC is set, the loader idle, CHAIN extended; a whole image
starts CHAIN anew, writes IMG_ID and ends step 10 of start-up. -/
def Obligations.ImageTakesEffect : Prop :=
  (∀ (l : Load) (s : State), s.RegsOk → FMap.wf {} s.rigs = true → FMap.wf 0 s.sigs = true → s.load = some l → s.get F.IMG_STAT_STATE = 3 →
    (s.loadRigs l.img).all s.rigIdle = true → ((imgRigs l.img).map (·.rig)).Nodup →
    ∃ t, exec .imageApply s = .next t ∧ t.get F.IMG_STAT_STATE = 4
      ∧ (imgKind l.img ≠ 2 → ∀ r ∈ imgRigs l.img, (t.rig r.rig).exists_ = true ∧ (t.rig r.rig).tiles = r.tiles
          ∧ (t.rig r.rig).sqFirst = r.sqFirst ∧ (t.rig r.rig).sqLast = r.sqLast ∧ (t.rig r.rig).take.state = 0
          ∧ (∀ k, r.sigFirst ≤ k → k ≤ r.sigLast → t.sigs.get 0 k = 0))
      ∧ (imgKind l.img = 0 → ∀ n, n ∉ (imgRigs l.img).map (·.rig) → (t.rig n).exists_ = false)
      ∧ (imgKind l.img = 2 → ∀ r ∈ imgRigs l.img, (t.rig r.rig).exists_ = false)
      ∧ (imgKind l.img ≠ 0 → ∀ n, n ∉ (imgRigs l.img).map (·.rig) → t.rig n = s.rig n))
  ∧ (∀ (l : Load) (s : State), s.RegsOk → FMap.wf none s.sqs = true → FMap.wf none s.cqs = true → s.load = some l → s.get F.IMG_STAT_STATE = 4 →
    (s.compls.any fun x => (s.sqsGone l.img).contains x.sq || (s.cqsGone l.img).contains x.cq) = false →
    ∃ t, exec .imageApplyComplete s = .next t ∧ t.get F.IMG_STAT_STATE = 0 ∧ t.get F.IMG_STAT_ACC = 1 ∧ t.load = none
      ∧ (∀ n ∈ s.sqsGone l.img, t.sq? n = none) ∧ (∀ n, n ∉ s.sqsGone l.img → t.sq? n = s.sq? n)
      ∧ (∀ n ∈ s.cqsGone l.img, t.cq? n = none) ∧ (∀ n, n ∉ s.cqsGone l.img → t.cq? n = s.cq? n)
      ∧ (imgKind l.img ≠ 2 → l.hold = true ∨ s.tripHold = true → ∀ r ∈ imgRigs l.img, t.rigState r.rig = rigStopped)
      ∧ (imgKind l.img ≠ 2 → l.hold = false → s.tripHold = false → ∀ r ∈ imgRigs l.img, s.rigWhole r.rig = true → t.rigState r.rig = rigRunning)
      ∧ (imgKind l.img = 0 → t.chain = Config.shake256 (List.replicate 64 0 ++ imgDigestOf l.img) 64 ∧ t.get F.IMG_ID_ID = l.img.u64 16 % 2 ^ 64
          ∧ (s.get F.SEC_BOOT_STEP = 10 → t.get F.SEC_BOOT_STEP = 11))
      ∧ (imgKind l.img ≠ 0 → t.chain = Config.shake256 (digest64 s.chain ++ imgDigestOf l.img) 64))

/-- The control of a rig (R164, R176), once step 6 of start-up has ended: KILL precedes STOP and STOP precedes GO; GO runs a stopped rig, or one
stopping gracefully, where every tile has a physical tile and no trip of i16 or i17 holds the device (R385); STOP stops a running rig gracefully; KILL turns both into an immediate stop; a rig that is loading ignores
every bit and sets BADW; a rig that is absent takes no trace; a stopping rig is stopped once it is idle. -/
def Obligations.RigControl : Prop :=
  ∀ (n : Nat) (d : Word) (s : State), s.RegsOk → s.ioReached = true →
    (s.rigState n = rigStopped ∨ (s.rigState n = rigStopping ∧ (s.rig n).killed = false) → bit d.toNat 0 = true → bit d.toNat 1 = false →
        bit d.toNat 2 = false → s.rigWhole n = true → s.tripHold = false → ∃ t, exec (.rigGo n d) s = .next t ∧ t.rigState n = rigRunning
          ∧ { t with regs := s.regs, rigs := s.rigs } = s ∧ regsKept (fun f i => f.id = F.IMG_RSTAT_STATE.id ∧ i = n) s t)
    ∧ (s.rigState n = rigRunning → bit d.toNat 1 = true → bit d.toNat 2 = false → ∃ t, exec (.rigStop n d) s = .next t
        ∧ t.rigState n = rigStopping ∧ onlyRegs s t ∧ regsKept (fun f i => f.id = F.IMG_RSTAT_STATE.id ∧ i = n) s t)
    ∧ (s.rigState n = rigRunning ∨ (s.rigState n = rigStopping ∧ (s.rig n).killed = false) → bit d.toNat 2 = true →
        FMap.wf {} s.rigs = true → ∃ t, exec (.rigKill n d) s = .next t ∧ t.rigState n = rigStopping ∧ (t.rig n).killed = true
          ∧ (∀ h ∈ t.sheets, h.rig = n → h.dispatched = true → h.status.isSome = true)
          ∧ ((s.rig n).take.state = 0 → (t.rig n).take.state = 0)
          ∧ ((1 ≤ (s.rig n).take.state ∧ (s.rig n).take.state ≤ 6) ∨ (s.rig n).take.state = 8 → (t.rig n).take.state = 8 ∧ (t.rig n).take.stop = true))
    ∧ (s.rigState n = rigLoading → ∃ t, exec (.rigGo n d) s = .next t ∧ exec (.rigStop n d) s = .next t ∧ exec (.rigKill n d) s = .next t
        ∧ t.get F.IMG_RSTAT_BADW n = 1 ∧ onlyRegs s t ∧ regsKept (fun f i => f.id = F.IMG_RSTAT_BADW.id ∧ i = n) s t)
    ∧ (s.rigState n = rigAbsent → exec (.rigGo n d) s = .next s ∧ exec (.rigStop n d) s = .next s ∧ exec (.rigKill n d) s = .next s)
    ∧ (s.rigState n = rigStopping → s.rigIdle n = true → ∃ t, exec (.rigStopped n) s = .next t ∧ t.rigState n = rigStopped
        ∧ onlyRegs s t ∧ regsKept (fun f i => f.id = F.IMG_RSTAT_STATE.id ∧ i = n) s t)

/-! ### Queues, call sheets, completions, interrupts (R324 to R345) -/

/-- CREATE_SQ and CREATE_CQ with good arguments make the queue with its context; DELETE_SQ and DELETE_CQ take away an idle queue (R325), once
step 6 of start-up has ended, while no queue command is BUSY and no tier 0 controller resets. Every other queue, and everything but the queue
tables and QUE_CMD, is as before. While one is BUSY another is ignored and BUSYW set; CREATE_SQ is BUSY while a tier 0 controller resets,
since the page tables lie there (that this is when a command takes time is the model's choice, log entry 40). -/
def Obligations.QueueCreateDelete : Prop :=
  ∀ (d : Word) (s : State), s.RegsOk → FMap.wf none s.sqs = true → FMap.wf none s.cqs = true → s.ioReached = true →
    let n := bits d.toNat 16 1
    (s.get F.QUE_CSTAT_BUSY ≠ 0 → ∀ c, (c = .createSq d ∨ c = .createCq d ∨ c = .deleteSq d ∨ c = .deleteCq d) →
        ∃ t, exec c s = .next t ∧ t.get F.QUE_CSTAT_BUSYW = 1 ∧ onlyRegs s t)
    ∧ (s.get F.QUE_CSTAT_BUSY = 0 → s.tablesWait = true → ∃ t, exec (.createSq d) s = .next t ∧ t.get F.QUE_CSTAT_BUSY = 1
        ∧ t.queJob = some (1, n) ∧ t.sqs = s.sqs ∧ t.cqs = s.cqs)
    ∧ (s.get F.QUE_CSTAT_BUSY = 0 → s.tablesWait = false →
    let keep := fun t : State => { t with regs := s.regs, sqs := s.sqs, cqs := s.cqs } = s
      ∧ regsKept (fun f i => (f.id = F.QUE_CMD_OP.id ∨ f.id = F.QUE_CMD_QNUM.id) ∧ i = 0) s t
      ∧ (∀ k, k ≠ n → t.sq? k = s.sq? k ∧ t.cq? k = s.cq? k)
    (∀ rig, s.sq? n = none → s.sqRig n = some rig → (s.cq? (s.get F.QUE_CARG2_CQT % 4096)).map (·.rig) = some rig →
        4 ≤ s.get F.QUE_CARG1_LOGSZ → s.get F.QUE_CARG1_LOGSZ ≤ 16 →
        s.ringOk rig (s.get F.QUE_CARG0_SPACE) (s.get F.QUE_CARG0_ADDR) (2 ^ s.get F.QUE_CARG1_LOGSZ) = true →
        ∃ t q, exec (.createSq d) s = .next t ∧ keep t ∧ t.sq? n = some q ∧ q.rig = rig ∧ q.space = s.get F.QUE_CARG0_SPACE
          ∧ q.addr = s.get F.QUE_CARG0_ADDR ∧ q.logsz = s.get F.QUE_CARG1_LOGSZ ∧ q.prio = s.get F.QUE_CARG1_PRIO
          ∧ q.cq = s.get F.QUE_CARG2_CQT % 4096 ∧ q.head = 0 ∧ q.tail = 0)
    ∧ (∀ rig, s.cq? n = none → s.cqRig n = some rig → 4 ≤ s.get F.QUE_CARG1_LOGSZ → s.get F.QUE_CARG1_LOGSZ ≤ 16 →
        (s.get F.QUE_CARG0_SPACE * 2 ^ 52 + s.get F.QUE_CARG0_ADDR) % 4096 = 0 →
        ∃ t q, exec (.createCq d) s = .next t ∧ keep t ∧ t.cq? n = some q ∧ q.rig = rig
          ∧ q.addr = s.get F.QUE_CARG0_SPACE * 2 ^ 52 + s.get F.QUE_CARG0_ADDR ∧ q.logsz = s.get F.QUE_CARG1_LOGSZ
          ∧ q.vec = s.get F.QUE_CARG1_PRIO * 2 ^ 7 + s.get F.QUE_CARG1_VECLO ∧ q.cthr = s.get F.QUE_CARG1_CTHR
          ∧ q.ctime = s.get F.QUE_CARG2_CQT ∧ q.written = 0 ∧ q.freed = 0)
    ∧ (∀ q, s.sq? n = some q → q.head = q.tail → s.sheets.all (·.sq ≠ n) = true → s.compls.all (·.sq ≠ n) = true →
        ∃ t, exec (.deleteSq d) s = .next t ∧ keep t ∧ t.sq? n = none)
    ∧ ((s.cq? n).isSome = true → (s.sqs.all fun q => (q.2.map (·.cq)) ≠ some n) = true →
        ∃ t, exec (.deleteCq d) s = .next t ∧ keep t ∧ t.cq? n = none))

/-- A queue command that fails changes nothing and writes ERR (R325): the four commands either report no error, or leave every queue as it was
with ERRF set and a code from 0x01 to 0x06. -/
def Obligations.FailedQueueCommandChangesNothing : Prop :=
  ∀ (d : Word) (s t : State), s.RegsOk → s.get F.QUE_CSTAT_ERRF = 0 →
    (exec (.createSq d) s = .next t ∨ exec (.createCq d) s = .next t ∨ exec (.deleteSq d) s = .next t ∨ exec (.deleteCq d) s = .next t) →
    (t.get F.QUE_CSTAT_ERRF = 0 ∧ t.get F.QUE_CSTAT_ERR = s.get F.QUE_CSTAT_ERR)
    ∨ (t.get F.QUE_CSTAT_ERRF = 1 ∧ 1 ≤ t.get F.QUE_CSTAT_ERR ∧ t.get F.QUE_CSTAT_ERR ≤ 6 ∧ onlyRegs s t)

/-- Doorbells (R326, R341, R393), once start-up is over and a UCIe module is up: a tail within the ring makes the entries up to it fetchable; a head
that lies no further than the last completion written frees the slots up to it; any other value, a queue that does not exist or one that a
reload has given up is ignored, sets DBBAD and counts in QUE_NDBX. That a tail equal to the size is bad, and that a head equal to the one
that stands frees nothing and is no error, is the model's choice (log entry 74). -/
def Obligations.Doorbells : Prop :=
  ∀ (n : Nat) (d : Word) (s : State), s.RegsOk → FMap.wf none s.sqs = true → FMap.wf none s.cqs = true → s.get F.SEC_BOOT_STEP = 15 → s.ucieWaits = false →
    (∀ q, s.sq? n = some q → q.gone = false → d.toNat < 2 ^ q.logsz → exec (.sqTailDoorbell n d) s = .next (s.modSq n fun q => { q with tail := d.toNat })
        ∧ (s.modSq n fun q => { q with tail := d.toNat }).sq? n = some { q with tail := d.toNat })
    ∧ (s.sq? n = none ∨ (∃ q, s.sq? n = some q ∧ (q.gone = true ∨ 2 ^ q.logsz ≤ d.toNat)) → ∃ t, exec (.sqTailDoorbell n d) s = .next t
        ∧ t.get F.QUE_STAT_DBBAD = 1 ∧ t.get F.QUE_NDBX_COUNT = (s.get F.QUE_NDBX_COUNT + 1) % 2 ^ 64 ∧ onlyRegs s t)
    ∧ (∀ q, s.cq? n = some q → q.gone = false → d.toNat < 2 ^ q.logsz → (d.toNat + 2 ^ q.logsz - q.freed % 2 ^ q.logsz) % 2 ^ q.logsz ≤ q.written - q.freed →
        (∀ c ∈ s.compls, c.cq ≠ n) → ∃ t r, exec (.cqHeadDoorbell n d) s = .next t ∧ t.cq? n = some r
          ∧ r.freed % 2 ^ q.logsz = d.toNat ∧ r.written = q.written ∧ { t with cqs := s.cqs } = s)
    ∧ (s.cq? n = none ∨ (∃ q, s.cq? n = some q ∧ (q.gone = true ∨ 2 ^ q.logsz ≤ d.toNat
          ∨ q.written - q.freed < (d.toNat + 2 ^ q.logsz - q.freed % 2 ^ q.logsz) % 2 ^ q.logsz)) →
        ∃ t, exec (.cqHeadDoorbell n d) s = .next t ∧ t.get F.QUE_STAT_DBBAD = 1
          ∧ t.get F.QUE_NDBX_COUNT = (s.get F.QUE_NDBX_COUNT + 1) % 2 ^ 64 ∧ onlyRegs s t)

/-- CALL_SHEET_FETCH (R327, R328, R344), where the read of the entry waits for nothing: the entry at the head is fetched under the next log number
and the head moves on by one, modulo the ring; an entry that is read with the right PHASE joins the fetched call sheets, one with the wrong
PHASE runs nothing and sets PHERR.
LOG_HEAD_MIGRATE (R344): while the head is more than half full one record of it, of the lowest log number, moves to the ring; the records
themselves stay as they are; of a record that can still be read both copies are written anew. -/
def Obligations.CallSheetFetchAndLogHead : Prop :=
  (∀ (n : Nat) (errs : List (Nat × Nat)) (q : Sq) (s : State), s.RegsOk → FMap.wf none s.sqs = true → s.get F.SEC_BOOT_STEP = 15 →
    s.sq? n = some q → q.head ≠ q.tail → s.get F.TWN_LSTAT_RFULL = 0 → s.headUsed + 192 ≤ headSize → s.get F.TWN_LNUM_NEXT < 2 ^ 64 - 1 →
    (s.fetch q.rig q.space (q.addr + 128 * q.head) 128 errs (fun _ => .current) []).2 ≠ .waits →
    ∃ t r, exec (.callSheetFetch n errs) s = .next t ∧ t.sq? n = some r ∧ r.head = (q.head + 1) % 2 ^ q.logsz ∧ r.tail = q.tail
      ∧ t.get F.TWN_LNUM_NEXT = s.get F.TWN_LNUM_NEXT + 1
      ∧ ∀ b, (s.fetch q.rig q.space (q.addr + 128 * q.head) 128 errs (fun _ => .current) []).2 = .got b →
          (bits (decodeSheet b).ctl 5 5 = (q.wraps + 1) % 2 →
            t.sheets = s.sheets ++ [{ logno := s.get F.TWN_LNUM_NEXT, sq := n, rig := q.rig, cs := decodeSheet b }])
          ∧ (bits (decodeSheet b).ctl 5 5 ≠ (q.wraps + 1) % 2 → t.get F.QUE_STAT_PHERR = 1
            ∧ t.sheets = s.sheets.filter (·.logno ≠ s.get F.TWN_LNUM_NEXT)))
  ∧ (∀ s : State, (s.log.map (·.seq)).Nodup → headSize < 2 * s.headUsed →
    ∃ t r, exec .logHeadMigrate s = .next t ∧ r ∈ s.log ∧ r.ring = false ∧ (∀ x ∈ s.log, x.ring = false → r.logno ≤ x.logno)
      ∧ t.log = s.log.map (fun x => if x.seq = r.seq then { x with ring := true, bad := if 2 ≤ x.bad then 2 else 0 } else x) ∧ t.headUsed < s.headUsed
      ∧ { t with log := s.log, regs := s.regs } = s)

/-- Interrupts (R340, R320, R319): a GO counts; a time limit reached makes the vector due; a vector that is due leaves once GO has come for every
completion written to the queue (that it awaits every one is the model's choice, log entry 75) and a UCIe module is up, its pending count then
being zero; a masked one sets its pending bit instead and leaves when it is unmasked, which the host does once step 6 of start-up has ended. -/
def Obligations.Interrupts : Prop :=
  ∀ (m : Nat) (q : Cq) (s : State), s.RegsOk → FMap.wf none s.cqs = true → FMap.wf false s.msixOpen = true → FMap.wf false s.msixPend = true →
    s.cq? m = some q →
    (q.go < q.written → ∃ t r, exec (.completionGo m) s = .next t ∧ t.cq? m = some r ∧ r.go = q.go + 1
        ∧ (q.due = true → q.go + 1 = q.written → s.ucieWaits = false → s.msixOpen.get false q.vec = true → t.out = s.out ++ [.msix q.vec] ∧ r.pending = 0 ∧ r.due = false)
        ∧ (q.due = true → q.go + 1 = q.written → s.ucieWaits = false → s.msixOpen.get false q.vec = false → t.out = s.out ∧ t.msixPend.get false q.vec = true)
        ∧ (q.due = false ∨ q.go + 1 ≠ q.written ∨ s.ucieWaits = true → t.out = s.out ∧ r.due = q.due))
    ∧ (0 < q.pending → q.ctime ≠ 0 → q.oldest + 1000 * q.ctime ≤ s.now → ∃ t r, exec (.cqCoalesceTimeout m) s = .next t ∧ t.cq? m = some r
        ∧ (q.go = q.written → s.ucieWaits = false → s.msixOpen.get false q.vec = true → t.out = s.out ++ [.msix q.vec] ∧ r.pending = 0)
        ∧ (q.go ≠ q.written ∨ s.ucieWaits = true → t.out = s.out ∧ r.due = true))
    ∧ (∀ v, s.ioReached = true → ∃ t, exec (.msixUnmask v) s = .next t ∧ t.msixOpen.get false v = true
        ∧ (s.msixPend.get false v = true → t.out = s.out ++ [.msix v] ∧ t.msixPend.get false v = false)
        ∧ (s.msixPend.get false v = false → { t with msixOpen := s.msixOpen } = s))

/-- CALL_SHEET_DISPATCH (R329): the queue served is eligible and of the highest priority among the eligible ones, unless it has aged; its oldest
call sheet is dispatched, a queue passed over ages by one, and the rig remembers the queue. Where a read at the dispatch waits, all that happens is that the
wait is noted: the line is being reread, the ascent asked for, the chunk read once more, or an event told that a completion slot is wanted
(R339, R343). Nothing waits for an error-free dispatch while no page has a negative or a ledger, none moves, no print makes pages current, no
controller resets and no activity of the arbiter runs. -/
def Obligations.DispatchServes : Prop :=
  ∀ (n : Nat) (errs : List (Nat × Nat)) (s : State) (q : Nat) (h : Sheet),
    s.RegsOk → FMap.wf none s.sqs = true → FMap.wf {} s.rigs = true →
    let u := s.setReg F.QUE_ARBNOW_AGEMAX (s.get F.QUE_ARB_AGEMAX)
    u.choice n = some q → u.front q = some h →
    let served := fun (t : State) => (t.rig n).lastSq = q ∧ (t.rig n).ran = true ∧ t.ageOf q = 0
      ∧ (∀ x ∈ u.eligibles n, x ≠ q → t.ageOf x = s.ageOf x + 1)
      ∧ (∀ x ∈ t.sheets, x.logno = h.logno → x.dispatched = true)
    q ∈ u.eligibles n ∧ ((∀ x ∈ u.eligibles n, u.prioOf x ≤ u.prioOf q) ∨ (0 < u.get F.QUE_ARBNOW_AGEMAX ∧ u.get F.QUE_ARBNOW_AGEMAX ≤ u.ageOf q))
      ∧ (∃ t, exec (.callSheetDispatch n errs) s = .next t ∧ (served t ∨ (s.waitsAs t = { t with sheets := s.sheets, regs := s.regs }
          ∧ t.sheets.map (fun x => { x with slotWait := false }) = s.sheets.map (fun x => { x with slotWait := false })
          ∧ regsKept (fun f _ => evField f) s t)))
      ∧ (errs = [] → s.ctlReset = [] → s.acts = [] → FMap.wf none s.pages = true → s.moves = [] → (∀ r ∈ s.rigs, r.2.take.state ≠ 7) →
          (∀ k p, s.page? k = some p → p.neg = false ∧ p.ldg = false) →
          ∃ t, exec (.callSheetDispatch n errs) s = .next t ∧ served t)

/-- PART_COMPLETE and OUTPUT_VERSIONS_CURRENT (R336): a part that has nothing left is done; after the last one a call sheet without output
versions is gone, and one with output versions is gone once these have all become current in one step; where the earlier versions that
unfinished parts name find no free frame, all of them wait and are noted as held (R349). -/
def Obligations.PartsAndOutputs : Prop :=
  ∀ (logno : Nat) (h : Sheet) (s : State), s.sheet logno = some h → h.dispatched = true →
    (∀ part q, h.parts[part]? = some q → (h.parts.map (·.lead)).Nodup → s.partOver logno q = true → q.done = false →
        (∃ x ∈ h.parts, x.lead ≠ q.lead ∧ x.done = false) →
        ∃ t g, exec (.partComplete logno part) s = .next t ∧ t.sheet logno = some g ∧ g.parts[part]? = some { q with done := true }
          ∧ (∀ k, k ≠ part → g.parts[k]? = h.parts[k]?) ∧ t.outVers = s.outVers ∧ regsKept (fun f _ => f.id = F.TWN_LSTAT_RFULL.id) s t)
    ∧ (∀ part q, h.parts[part]? = some q → (h.parts.map (·.lead)).Nodup → s.partOver logno q = true → q.done = false →
        (∀ x ∈ h.parts, x.lead ≠ q.lead → x.done = true) → (s.outVers.any (·.logno = logno)) = false →
        ∃ t, exec (.partComplete logno part) s = .next t ∧ t.sheet logno = none)
    ∧ (h.parts ≠ [] → h.parts.all (·.done) = true → h.status = none → FMap.wf none s.pages = true →
        let vs := s.outVers.filter (·.logno = logno)
        vs ≠ [] → (vs.map (·.page)).Nodup → (∀ v ∈ vs, (s.page? v.page).isSome = true ∧ ∀ m ∈ s.moves, m.page ≠ v.page) →
        (s.heldShort (vs.map (·.page)) = true → ∃ t, exec (.outputVersionsCurrent logno) s = .next t ∧ { t with heldQ := s.heldQ } = s
          ∧ ∀ x, x ∈ t.heldQ ↔ x ∈ s.heldQ ∨ x.2 = logno ∧ x.1 ∈ vs.map (·.page))
        ∧ (s.heldShort (vs.map (·.page)) = false → ∃ t, exec (.outputVersionsCurrent logno) s = .next t ∧ t.sheet logno = none ∧ (∀ v ∈ t.outVers, v.logno ≠ logno)
          ∧ ∀ v ∈ vs, (t.page? v.page).map (·.data) = some v.data))

/-! ### Shot lists (R126 to R135, R289) -/

/-- The instructions of a shot list that move nothing (R130): NOP, CNT, BASE, OFS, FMT, DL, POIS, LOOPC and END each change the running generation
of their engine as the table of R130 says, at the place of the list where that instruction stands; nothing else of that engine, of its tile or
of the machine changes. That OFS takes the sum modulo 2^52 is the model's choice (log entry 147). -/
def Obligations.ShotListSettings : Prop :=
  ∀ (p e : Nat) (g : Gen) (s : State), FMap.wf {} s.tiles = true → FMap.wf {} (s.tile p).engs = true → s.gen? p e = some g →
    let goes := fun (c : Instr) (h : Gen) => ∃ t, exec c s = .next t ∧ t.gen? p e = some h
      ∧ { t.eng p e with run := (s.eng p e).run } = s.eng p e ∧ (∀ k, k ≠ e → t.eng p k = s.eng p k)
      ∧ { t.tile p with engs := (s.tile p).engs } = s.tile p ∧ (∀ q, q ≠ p → t.tile q = s.tile q) ∧ { t with tiles := s.tiles } = s
    let at_ := fun (w : Nat) => g.ended = false ∧ g.blks = [] ∧ g.coll = false ∧ g.instrs[g.pc]? = some w
    let n := { g with pc := g.pc + 1, wait := 0 }
    (at_ 0 → goes (.shotNop p e) n)
    ∧ (∀ k lim str, at_ (encCnt k lim str) → goes (.cnt p e k lim str) { n with ctrs := g.ctrs.modify k fun _ => { val := 0, lim := lim, str := str } })
    ∧ (∀ b cls addr, at_ (encBase b cls addr) → goes (.base p e b cls addr) { n with bases := g.bases.modify b fun x => { x with cls := cls, addr := addr } })
    ∧ (∀ b off, at_ (encOfs b off) → goes (.ofs p e b off) { n with bases := g.bases.modify b fun x => { x with addr := wrap 52 (x.addr + off) } })
    ∧ (∀ esz conv, at_ (encFmt esz conv) → goes (.fmt p e esz conv) { n with esz := esz, conv := conv })
    ∧ (∀ time pol, at_ (encDl time pol) → goes (.dl p e time pol) { n with dlTime := time, dlPol := pol })
    ∧ (∀ abt, at_ (encPois abt) → goes (.pois p e abt) { n with abt := abt })
    ∧ (∀ k tgt c, at_ (encLoopc k tgt) → g.ctrs[k]? = some c → c.val + 1 < c.lim →
        goes (.loopc p e k tgt) { g with pc := tgt, ctrs := g.ctrs.modify k fun c => { c with val := c.val + 1 } })
    ∧ (∀ k tgt c, at_ (encLoopc k tgt) → g.ctrs[k]? = some c → c.lim ≤ c.val + 1 →
        goes (.loopc p e k tgt) { g with pc := g.pc + 1, ctrs := g.ctrs.modify k fun c => { c with val := 0 } })
    ∧ (at_ encEnd → goes (.shotEnd p e) { g with ended := true })

/-- The far address of an element (R129, R131). A block that an EMIT emits runs its first `d` counters with c0 innermost: the element reached
with counter values `v` lies esz × Σ v_k × S_k above the base, counted in half bytes, where the counters from `d` on keep their present
value. `radix` is the element's place in iteration order.
EMIT (R131, R135): a good block leaves with as many elements as the product of the limits of its counters; counters 0 to D - 1 hold 0
afterwards, the others and the list's other settings stay, the slot toggle flips exactly under SLOT 0b00 of a slot target; a block
larger than its slot, or one that breaks a bank-target rule, aborts the task with AERR. -/
def Obligations.EmitAddressAndBlock : Prop :=
  (∀ (b : Blk) (v : List Nat), b.d ≤ b.ctrs.length → v.length = b.ctrs.length →
    (∀ k c x, b.ctrs[k]? = some c → v[k]? = some x → if k < b.d then x < c.lim else x = c.val) →
    let radix := ((List.range b.d).map fun k => v.getD k 0 * ((b.ctrs.take k).map (·.lim)).prod).sum
    radix < b.elems →
      b.at_ radix = (false, 2 * (b.base.addr : Int)
        + halfBytes b.esz * ((List.range b.ctrs.length).map fun k => (v.getD k 0 : Int) * (b.ctrs.getD k {}).str).sum))
  ∧ (∀ (p e b d slot near : Nat) (g : Gen) (s : State), FMap.wf {} s.tiles = true → FMap.wf {} (s.tile p).engs = true → s.RegsOk →
    s.gen? p e = some g → s.shotAt p e (encEmit b d slot near) = true → (g.conv = 4 → s.engTarget p e = 5) →
    let k := g.block (s.engTarget p e) b d slot near (Config.freeNat s.fresh 0 % storeSize)
    (s.badBlock p e (s.engTarget p e) k (g.count d) = false → ∃ t h, exec (.emit p e b d slot near) s = .next t ∧ t.gen? p e = some h
        ∧ h.blks = [k] ∧ k.base = g.bases.getD b {} ∧ k.ctrs = g.ctrs ∧ k.next = 0 ∧ k.elems = ((g.ctrs.take d).map (·.lim)).prod
        ∧ h.pc = g.pc + 1 ∧ (∀ i c, g.ctrs[i]? = some c → h.ctrs[i]? = some (if i < d then { c with val := 0 } else c))
        ∧ h.toggle = (if (s.engTarget p e = 2 ∨ s.engTarget p e = 4) ∧ slot = 0 then 1 - g.toggle else g.toggle)
        ∧ h.bases = g.bases ∧ h.esz = g.esz ∧ h.conv = g.conv ∧ h.dlTime = g.dlTime ∧ h.dlPol = g.dlPol ∧ h.abt = g.abt ∧ h.xfers = g.xfers)
    ∧ (s.badBlock p e (s.engTarget p e) k (g.count d) = true → ∃ t, exec (.emit p e b d slot near) s = .next t
        ∧ t.get F.STRM_STAT_AERR (engKey p e) = 1 ∧ t.get F.STRM_STAT_ABRT (engKey p e) = 1
        ∧ ∀ h, s.sheet g.logno = some h → h.status = none → (t.sheet g.logno).map (·.status) = some (some 0x06)))

/-- WAIT, RAISE and RSIG (R133, R134, R287, R296, R299, R351), for an action that no MARK records and a signal that is no barrier's: a WAIT
consumes one count and goes on, or joins the signal's waiters; a RAISE waits for the generation's transfers and then adds one to the
count; an RSIG sends a SIG frame of its stream to the device and signal named, with the number of WR frames the stream has sent as CNT, by the
route and port of that stream, and goes on (it waits while a write of its engine stands in outbound staging; with no valid route it sets REJR);
a WAIT or RAISE of a signal of another rig aborts the task with AERR. -/
def Obligations.ShotSignals : Prop :=
  ∀ (p e sig : Nat) (g : Gen) (s : State), s.RegsOk → FMap.wf {} s.tiles = true → FMap.wf {} (s.tile p).engs = true → FMap.wf 0 s.sigs = true →
    FMap.wf [] s.waiters = true → s.gen? p e = some g → s.shotMarked p e = false →
    (s.shotAt p e (encWait sig) = true → s.ownSig p sig = true → 1 ≤ s.sigs.get 0 sig → ∃ t h, exec (.wait p e sig) s = .next t
        ∧ t.gen? p e = some h ∧ h.pc = g.pc + 1 ∧ t.sigs.get 0 sig = s.sigs.get 0 sig - 1 ∧ (∀ k, k ≠ sig → t.sigs.get 0 k = s.sigs.get 0 k)
        ∧ t.waiters = s.waiters)
    ∧ (s.shotAt p e (encWait sig) = true → s.ownSig p sig = true → s.sigs.get 0 sig = 0 → (s.waiters.get [] sig).contains { tile := p, unit := e } = false →
        ∃ t, exec (.wait p e sig) s = .next t ∧ t.gen? p e = some { g with wait := 1 }
          ∧ t.waiters.get [] sig = s.waiters.get [] sig ++ [{ tile := p, unit := e }] ∧ t.sigs = s.sigs)
    ∧ (s.shotAt p e (encRaise sig) = true → s.ownSig p sig = true → g.xfers ≠ [] →
        ∃ t, exec (.raise p e sig) s = .next t ∧ t.gen? p e = some { g with wait := 6 } ∧ { t with tiles := s.tiles } = s)
    ∧ (s.shotAt p e (encRaise sig) = true → s.ownSig p sig = true → g.xfers = [] → s.obOf sig = none → s.xbOf sig = none →
        s.waiters.get [] sig = [] → s.sigs.get 0 sig < 65535 → ∃ t h, exec (.raise p e sig) s = .next t ∧ t.gen? p e = some h ∧ h.pc = g.pc + 1
          ∧ t.sigs.get 0 sig = s.sigs.get 0 sig + 1 ∧ (∀ k, k ≠ sig → t.sigs.get 0 k = s.sigs.get 0 k)
          ∧ t.get F.SYN_NRAISE_COUNT = (s.get F.SYN_NRAISE_COUNT + 1) % 2 ^ 64)
    ∧ (∀ dev, s.shotAt p e (encRsig dev sig) = true → s.staged? p e = none → dev ≠ s.myId →
        let st := s.sendStreams.get {} (sendKey dev (s.logical p) (e - 6))
        let rt := st.routeOf (s.route dev)
        let q := s.portOf st rt
        ∃ t h, exec (.rsig p e dev sig) s = .next t ∧ t.gen? p e = some h ∧ h.pc = g.pc + 1 ∧ t.sigs = s.sigs
          ∧ (bit rt 31 = true → ∃ f m, f.ftype = ftSIG ∧ f.vc = vcOf ftSIG ∧ f.dst = dev ∧ f.src = s.myId ∧ f.stile = s.logical p ∧ f.seng = e - 6
              ∧ f.cnt = st.seq % 65536 ∧ f.arg = sig ∧ f.payload = [] ∧ t.out = s.out ++ m
              ∧ ((false, f) ∈ (t.link q).queue ∨ .frame q { f with own := none } ∈ m))
          ∧ (bit rt 31 = false → t.get F.FAB_STAT_REJR = 1 ∧ t.get F.FAB_NREJ_COUNT = (s.get F.FAB_NREJ_COUNT + 1) % 2 ^ 64))
    ∧ (∀ dev, s.shotAt p e (encRsig dev sig) = true → (s.staged? p e).isSome = true →
        ∃ t, exec (.rsig p e dev sig) s = .next t ∧ t.gen? p e = some { g with wait := 3 } ∧ { t with tiles := s.tiles } = s)
    ∧ (∀ c, (c = .wait p e sig ∧ s.shotAt p e (encWait sig) = true) ∨ (c = .raise p e sig ∧ s.shotAt p e (encRaise sig) = true) →
        s.ownSig p sig = false → ∃ t, exec c s = .next t
        ∧ t.get F.STRM_STAT_AERR (engKey p e) = 1 ∧ t.get F.STRM_STAT_ABRT (engKey p e) = 1 ∧ t.sigs = s.sigs)

/-- ARM (R139, R140), for an action that no MARK records: an arm takes a free slot of its target; with both occupied it waits at the instruction
under WT 1, and under WT 0 it is refused: ACODE 0b011, RARM and STRM_NREF at the target, ARMF at the arming engine, which goes on; the
target's generations are unchanged.
COLL (R289, R290), for an action that no MARK records: over a group that is not valid, or that this device is not in, the call sheet ends with
the collective error; over a valid one, with local source and destination and no poison, the engine's next collective number is taken
and its data start to move: the collective is in progress, or it is complete and the list goes on. -/
def Obligations.ArmAndCollInstructions : Prop :=
  (∀ (p e tgt : Nat) (wt : Bool) (addr : Nat) (g : Gen) (s : State), s.RegsOk → FMap.wf {} s.tiles = true → FMap.wf {} (s.tile p).engs = true →
    p < 80 → e < 8 → tgt < 8 → tgt ≠ e → s.gen? p e = some g → s.shotMarked p e = false → s.shotAt p e (encArm tgt wt addr) = true →
    (∀ x, (s.eng p tgt).arm { logno := g.logno, lead := g.lead, space := g.slSpace, addr := addr, fromEng := some e } false = some x →
        ∃ t h, exec (.arm p e tgt wt addr) s = .next t ∧ t.eng p tgt = x ∧ t.gen? p e = some h ∧ h.pc = g.pc + 1)
    ∧ ((s.eng p tgt).run ≠ .empty → (s.eng p tgt).shd ≠ .empty → wt = true →
        ∃ t, exec (.arm p e tgt wt addr) s = .next t ∧ t.eng p tgt = s.eng p tgt ∧ t.gen? p e = some { g with wait := 5 } ∧ t.regs = s.regs)
    ∧ ((s.eng p tgt).run ≠ .empty → (s.eng p tgt).shd ≠ .empty → wt = false →
        ∃ t h, exec (.arm p e tgt wt addr) s = .next t ∧ t.eng p tgt = s.eng p tgt ∧ t.gen? p e = some h ∧ h.pc = g.pc + 1
          ∧ t.get F.STRM_STAT_ACODE (engKey p tgt) = 3 ∧ t.get F.STRM_STAT_RARM (engKey p tgt) = 1
          ∧ t.get F.STRM_NREF_COUNT (engKey p tgt) = (s.get F.STRM_NREF_COUNT (engKey p tgt) + 1) % 2 ^ 64
          ∧ t.get F.STRM_STAT_ARMF (engKey p e) = 1))
  ∧ (∀ (p e op form fmt grp count : Nat) (g : Gen) (s : State), s.RegsOk → FMap.wf {} s.tiles = true → FMap.wf {} (s.tile p).engs = true →
    FMap.wf 0 s.collCount = true → s.gen? p e = some g → s.shotMarked p e = false → s.shotAt p e (encColl op form fmt grp count) = true →
    (g.bases.getD 0 {}).cls = 1 → (g.bases.getD 1 {}).cls = 1 →
    (g.bases.getD 0 {}).addr + storeBlk fmt count ≤ storeSize → (g.bases.getD 1 {}).addr + storeBlk fmt count ≤ storeSize →
    ((s.group? grp = none ∨ ∃ ms, s.group? grp = some ms ∧ ms.contains s.myId = false) →
        ∃ t, exec (.coll p e op form fmt grp count) s = .next t ∧ t.get F.STRM_STAT_ABRT (engKey p e) = 1
          ∧ ∀ h, s.sheet g.logno = some h → h.status = none → (t.sheet g.logno).map (·.status) = some (some 0x08))
    ∧ (∀ ms, s.group? grp = some ms → ms.contains s.myId = true → s.staged? p e = none → s.early = [] → s.colls = [] →
        ((s.tile p).store.read (g.bases.getD 0 {}).addr (storeBlk fmt count)).any Prod.snd = false →
        ∃ t h, exec (.coll p e op form fmt grp count) s = .next t ∧ t.gen? p e = some h
          ∧ t.collCount.get 0 (s.collKey grp p e) = s.collCount.get 0 (s.collKey grp p e) + 1
          ∧ ((h.coll = true ∧ h.pc = g.pc ∧ ∃ c ∈ t.colls, c.tile = p ∧ c.eng = e ∧ c.grp = grp
                ∧ c.collid = s.collCount.get 0 (s.collKey grp p e) + 1 ∧ c.op = op ∧ c.form = form ∧ c.fmt = fmt ∧ c.nblk = count)
            ∨ (h.coll = false ∧ h.pc = g.pc + 1))))

/-! ### Stream engines (R131 to R147, R197, R213, R220) -/

/-- ARM_CHECK_COMPLETE and STRM_HALT_WRITE (R139 to R141), for the running slot: an arm whose descriptor and list pass every check becomes the
engine's next generation, with the next 16-bit number; with HALT 0 it runs at once and GENNOW, ACODE show it; a feed's list whose element size is
not the task's ends the call sheet with 0x02; a failed check frees the slot, which another task's shadow then takes, if there is one, and counts
in STRM_NREF (that every refused arm counts is the model's choice, log entry 68); where a read waits for a negative the check comes later.
The check of an arm in the shadow slot of a running engine leaves the running generation as it is. Writing HALT 0, once step 6 of start-up has
ended, starts a shadow that waits in an idle engine, writing 1 leaves a running generation running. -/
def Obligations.ArmsAndHalt : Prop :=
  ∀ (p e : Nat) (s : State), s.RegsOk → FMap.wf {} s.tiles = true → FMap.wf {} (s.tile p).engs = true → p < 80 → e < 8 →
    (∀ a errs u g, (s.eng p e).run = .checking a → s.get F.STRM_CTL_HALT (engKey p e) = 0 → s.fetchArm p e a errs = (u, .got g) →
        u.wrongSize p e g = false → ∃ t h, exec (.armCheckComplete p e false errs) s = .next t ∧ t.gen? p e = some h
          ∧ h = { g with num := ((s.eng p e).count + 1) % 65536 } ∧ (t.eng p e).count = ((s.eng p e).count + 1) % 65536
          ∧ t.get F.STRM_GEN_GENNOW (engKey p e) = ((s.eng p e).count + 1) % 65536 ∧ t.get F.STRM_STAT_ACODE (engKey p e) = 1)
    ∧ (∀ a errs u g h, (s.eng p e).run = .checking a → s.get F.STRM_CTL_HALT (engKey p e) = 0 → s.fetchArm p e a errs = (u, .got g) →
        u.wrongSize p e g = true → s.sheet a.logno = some h → h.status = none →
        ∃ t, exec (.armCheckComplete p e false errs) s = .next t ∧ (t.sheet a.logno).map (·.status) = some (some 0x02))
    ∧ (∀ a errs u g r, (s.eng p e).shd = .checking a → s.gen? p e = some r → (s.eng p e).held = [] → s.fetchArm p e a errs = (u, .got g) →
        u.wrongSize p e g = false → ∃ t, exec (.armCheckComplete p e true errs) s = .next t ∧ t.gen? p e = some r
          ∧ (t.eng p e).shd = .ready { g with num := ((s.eng p e).count + 1) % 65536 }
          ∧ t.get F.STRM_GEN_GENSHD (engKey p e) = ((s.eng p e).count + 1) % 65536 ∧ t.get F.STRM_STAT_ACODE (engKey p e) = 2)
    ∧ (∀ a errs u, (s.eng p e).run = .checking a → s.get F.STRM_CTL_HALT (engKey p e) = 0 → s.fetchArm p e a errs = (u, .waits) →
        exec (.armCheckComplete p e false errs) s = .next u)
    ∧ (∀ a errs u, (s.eng p e).run = .checking a → s.get F.STRM_CTL_HALT (engKey p e) = 0 → s.fetchArm p e a errs = (u, .unusable) →
        ∃ t, exec (.armCheckComplete p e false errs) s = .next t ∧ t.get F.STRM_STAT_ACODE (engKey p e) = 4
          ∧ t.get F.STRM_NREF_COUNT (engKey p e) = (s.get F.STRM_NREF_COUNT (engKey p e) + 1) % 2 ^ 64 ∧ (t.eng p e).count = (s.eng p e).count
          ∧ ((s.eng p e).held = [] → (t.eng p e).shd = .empty ∧ ((s.eng p e).shd = .empty → (t.eng p e).run = .empty)
            ∧ (∀ b, (s.eng p e).shd = .checking b → b.logno ≠ a.logno → (t.eng p e).run = .checking b)
            ∧ (∀ g, (s.eng p e).shd = .ready g → g.logno ≠ a.logno → (t.eng p e).run = .ready g)))
    ∧ (∀ a errs u r, (s.eng p e).shd = .checking a → s.gen? p e = some r → r.logno ≠ a.logno → (s.eng p e).held = [] →
        s.fetchArm p e a errs = (u, .unusable) → ∃ t, exec (.armCheckComplete p e true errs) s = .next t ∧ t.gen? p e = some r
          ∧ (t.eng p e).shd = .empty ∧ t.get F.STRM_STAT_ACODE (engKey p e) = 4
          ∧ t.get F.STRM_NREF_COUNT (engKey p e) = (s.get F.STRM_NREF_COUNT (engKey p e) + 1) % 2 ^ 64)
    ∧ (∀ d : Word, s.ioReached = true → d.toNat % 2 = 1 → ∃ t, exec (.strmHaltWrite p e d) s = .next t ∧ t.get F.STRM_CTL_HALT (engKey p e) = 1
        ∧ t.gen? p e = s.gen? p e)
    ∧ (∀ (d : Word) g, s.ioReached = true → d.toNat % 2 = 0 → (s.eng p e).run = .empty → (s.eng p e).shd = .ready g → (s.eng p e).held = [] →
        ∃ t, exec (.strmHaltWrite p e d) s = .next t ∧ t.get F.STRM_CTL_HALT (engKey p e) = 0 ∧ t.gen? p e = some g ∧ (t.eng p e).shd = .empty)

/-- TRANSFER_ISSUE (R131, R148), for an engine whose transfer can be made: it moves at most 512 bytes, crosses no 4 KiB boundary of its far side and
begins there at the next element of the block (R129); it takes the elements at the front of its block, whose next element moves on by the
number taken; a block that is used up leaves the generation. In its turn a read is requested; a write has its data, from its slot or its place
in the store or from the bank, as it issues. A write to the device range whose turn at the vertical port it is not stands in outbound
staging, and is moved when that turn comes. An engine that has nothing to issue does nothing (model choice, log entry 1), and one that can
neither issue nor stage waits. -/
def Obligations.TransferIssue : Prop :=
  ∀ (p e : Nat) (errs : List (Nat × Nat)) (s : State), FMap.wf {} s.tiles = true → FMap.wf {} (s.tile p).engs = true →
    let moves := ((s.staged? p e).isSome && s.portReady p e && s.portTurnOf p e) = true
    let first := s.staged? p e = none ∧ s.turn p e = true
    (∀ (g : Gen) (b : Blk) (l : List Blk), s.gen? p e = some g → g.blks = b :: l → (∀ y ∈ g.xfers, y.id < g.nxfer) →
      b.next < b.total → b.conv = 0 → (b.esz ≠ 0 → (b.base.addr % (halfBytes b.esz / 2) = 0)) →
      let issued := fun (t : State) (x : Xfer) => ∃ h, t.gen? p e = some h ∧ h.nxfer = g.nxfer + 1 ∧ h.xfers = g.xfers ++ [x]
        ∧ x.id = g.nxfer ∧ x.len ≤ 512 ∧ 1 ≤ x.cnt ∧ x.base = { b.base with addr := x.base.addr } ∧ (2 * x.base.addr : Int) = (b.at_ b.next).2
        ∧ x.base.addr / 4096 = (x.base.addr + x.len - 1) / 4096
        ∧ (if b.next + x.cnt < b.total then ∃ k, h.blks = [k] ∧ k.next = b.next + x.cnt ∧ k.total = b.total ∧ k.ctrs = b.ctrs else h.blks = [])
      let sl := (s.tile p).slots.get {} e
      let a := (if b.near = 4 then b.nearAt else if b.near = 1 then sl.s0 else sl.s1) + b.next * halfBytes b.esz / 2
      let cs := ((s.sheet g.logno).map (·.cs)).getD {}
      let rows := (bankBytes (s.nmode ((s.rigOf p).getD 0) cs.strict) (cs.f19tr && !cs.strict) (s.tile p) b b.run).1
      (s.engClass p e = 0 → first → (∃ u, s.plan p e errs = .go u) →
          ∃ t x, exec (.transferIssue p e errs) s = .next t ∧ issued t x ∧ x.write = false)
      ∧ (s.engClass p e = 1 → b.near = 1 ∨ b.near = 2 → b.base.cls = 0 ∨ b.base.cls = 3 → errs = [] → first → (∃ u, s.plan p e errs = .go u) →
          (∀ n, ((s.tile p).store.read a n).any Prod.snd = false) →
          ∃ t x, exec (.transferIssue p e errs) s = .next t ∧ issued t x ∧ x.write = true ∧ x.staged = false ∧ x.data = (s.tile p).store.read a x.len)
      ∧ (s.engClass p e = 1 → b.near = 3 → b.base.cls = 1 → first → (∃ u, s.plan p e errs = .go u) → rows.any Prod.snd = false →
          ∃ t x, exec (.transferIssue p e errs) s = .next t ∧ issued t x ∧ x.write = true ∧ x.staged = false ∧ x.data = rows)
      ∧ (s.engClass p e = 1 → b.near = 1 ∨ b.near = 2 → b.base.cls = 0 → errs = [] → ¬ first → ¬ moves → s.canStage p e = true →
          s.storeTurnOf p e = true → (∃ u, s.plan p e errs true = .go u) → (∀ n, ((s.tile p).store.read a n).any Prod.snd = false) →
          ∃ t x, exec (.transferIssue p e errs) s = .next t ∧ issued t x ∧ x.write = true ∧ x.staged = true ∧ x.data = (s.tile p).store.read a x.len))
    ∧ (∀ x, moves → s.staged? p e = some x → x.base.cls = 0 → s.xfer? p e x.id = some x →
        ∃ t, exec (.transferIssue p e errs) s = .next t ∧ t.xfer? p e x.id = some { x with staged := false, seq := 0 } ∧ { t with tiles := s.tiles } = s)
    ∧ (¬ moves → s.plan p e errs = .idle → exec (.transferIssue p e errs) s = .next s)
    ∧ (∀ g u, s.gen? p e = some g → ¬ moves → s.plan p e errs = .go u → ¬ first → s.canStage p e = false →
        ∃ t, exec (.transferIssue p e errs) s = .next t ∧ t.gen? p e = some { g with wait := 3 } ∧ { t with tiles := s.tiles } = s)

/-- READ_TRANSFER_COMPLETE and WRITE_TRANSFER_COMPLETE (R134, R135, R31): the oldest read transfer of a generation, once it has arrived whole, is placed:
from the tile store as elements at the end of a feed or as the preloaded elements of a bank, from the device range in its slot, which then
holds what the page read as; a write transfer to a tile's store is read back there and is gone, one to the device range is handed to the
write-combining buffer and is gone; each counts the bytes moved. Other bytes of the store stay. -/
def Obligations.LocalTransfersComplete : Prop :=
  ∀ (p e : Nat) (g : Gen) (x : Xfer) (l : List Xfer) (s : State), s.RegsOk → FMap.wf {} s.tiles = true → FMap.wf {} (s.tile p).engs = true →
    FMap.wf 0 (s.tile p).store.bytes = true → s.gen? p e = some g → g.xfers = x :: l → (∀ y ∈ l, y.id ≠ x.id) → x.repl = [] →
    let counted := fun (t : State) => t.get F.STRM_NBYTE_COUNT (engKey p e) = (s.get F.STRM_NBYTE_COUNT (engKey p e) + x.len) % 2 ^ 64
    let done := fun (t : State) => counted t ∧ ∃ h, t.gen? p e = some h ∧ h.xfers = l
    (x.write = false → x.arrived = false → x.negWait = false → x.base.cls = 1 → l = [] →
        let d := (s.tile p).store.read x.base.addr x.len
        let els := (List.range x.cnt).map fun i => let v := elemOf x.esz d i
          ({ v := BitVec.ofNat 32 v.1, esz := x.esz, p := v.2, prox := x.prox, logno := g.logno, eng := e } : FeedElem)
        d.any Prod.snd = false →
        (x.near = 0 → s.feedSizeOk g.logno (s.engTarget p e) x.esz = true → ∃ t, exec (.readTransferComplete p e x.id [] [] false) s = .next t ∧ done t
          ∧ (s.engTarget p e = 0 → (t.tile p).feedS = (s.tile p).feedS ++ els.drop (min ((s.tile p).skipS.get 0 g.logno) els.length))
          ∧ (s.engTarget p e = 1 → (t.tile p).feedT = (s.tile p).feedT ++ els) ∧ (t.tile p).store = (s.tile p).store)
        ∧ (x.near = 3 → FMap.wf {} (s.tile p).banks = true → (∀ b, FMap.wf {} ((s.tile p).bank b).elems = true) →
          ∃ t, exec (.readTransferComplete p e x.id [] [] false) s = .next t ∧ done t ∧ (t.tile p).store = (s.tile p).store
          ∧ ∀ i, i < x.cnt → ((t.tile p).bank ((x.nearAt + i) / 16384)).elems.get {} ((x.nearAt + i) % 16384)
              = { v := BitVec.ofNat 32 (elemOf 3 d i).1, p := (elemOf 3 d i).2 }))
    ∧ (∀ pg, x.write = false → x.arrived = false → x.negWait = false → x.base.cls = 0 → l = [] → x.near = 1 ∨ x.near = 2 → x.lost = [] →
        let key := keyOf x.base.space x.base.addr
        let w := s.readVer g.logno g.lead key
        let d := (s.readPage key w (x.base.addr % 65536) x.len [] []).data
        let sl := (s.tile p).slots.get {} e
        let a := (if x.near = 1 then sl.s0 else sl.s1) + x.nearAt * halfBytes x.esz / 2
        1 ≤ x.len → x.len ≤ 512 → x.base.addr / 4096 = (x.base.addr + x.len - 1) / 4096 → s.page? key = some pg → s.homeGone key = false →
        s.negReads = [] → s.rangeWaits key w (x.base.addr % 65536) x.len = false → (∀ k n, s.lineOut k n = false) → d.any Prod.snd = false →
        (pg.zero = false → pg.ro = false → d = (s.merged key w).read (x.base.addr % 65536) x.len)
        ∧ ∃ t, exec (.readTransferComplete p e x.id [] [] true) s = .next t ∧ done t ∧ (t.tile p).store.bytesAt a x.len = d.map Prod.fst
          ∧ (∀ k, k < a ∨ a + x.len ≤ k → (t.tile p).store.byte k = (s.tile p).store.byte k))
    ∧ (x.write = true → x.staged = false → x.base.cls = 1 ∨ x.base.cls = 3 → x.data.length = x.len →
        let q := if x.base.cls = 1 then p else s.phys (x.base.addr / 2 ^ 23)
        let a := if x.base.cls = 1 then x.base.addr else x.base.addr % 2 ^ 23
        FMap.wf 0 (s.tile q).store.bytes = true →
        ∃ t, exec (.writeTransferComplete p e x.id) s = .next t ∧ done t ∧ (t.tile q).store.bytesAt a x.len = x.data.map Prod.fst
          ∧ (∀ k, k < a ∨ a + x.len ≤ k → (t.tile q).store.byte k = (s.tile q).store.byte k))
    ∧ (∀ u, x.write = true → x.staged = false → x.base.cls = 0 → s.wcTake p e g.logno ((s.rigOf p).getD 0) x = some u →
        ∃ t, exec (.writeTransferComplete p e x.id) s = .next t ∧ counted t ∧ t.wc = u.wc)

/-- GENERATION_COMPLETE, STREAM_PARITY_ERROR, DEADLINE_EXPIRY and NEGATIVE_READ_COMPLETE (R134, R141, R143, R147, R197): a generation that has executed
END with every transfer complete leaves its engine; a shadow of another task then runs, or with HALT 1 stays in the shadow slot; a parity
error in a running generation sets PERR; under the wait policy an expired line is counted as late and still waited for; a line reread from
the negative is the sealed content, and the second failure of that read clears NEG. -/
def Obligations.GenerationEndsAndFaults : Prop :=
  ∀ (p e : Nat) (s : State), s.RegsOk → FMap.wf {} s.tiles = true → FMap.wf {} (s.tile p).engs = true → FMap.wf none s.pages = true → p < 80 → e < 8 →
    (∀ g, s.gen? p e = some g → g.ended = true → g.blks = [] → g.xfers = [] → (s.eng p e).shd = .empty → (s.eng p e).held = [] →
        ∃ t, exec (.generationComplete p e) s = .next t ∧ (t.eng p e).run = .empty)
    ∧ (∀ g h, s.gen? p e = some g → g.ended = true → g.blks = [] → g.xfers = [] → (s.eng p e).shd = .ready h → h.logno ≠ g.logno → (s.eng p e).held = [] →
        ∃ t, exec (.generationComplete p e) s = .next t
          ∧ (s.get F.STRM_CTL_HALT (engKey p e) = 0 → t.gen? p e = some h ∧ (t.eng p e).shd = .empty)
          ∧ (s.get F.STRM_CTL_HALT (engKey p e) ≠ 0 → (t.eng p e).run = .empty ∧ (t.eng p e).shd = .ready h))
    ∧ (∀ g, s.gen? p e = some g → ∀ unread, ∃ t, exec (.streamParityError p e false unread) s = .next t ∧ t.get F.STRM_STAT_PERR (engKey p e) = 1)
    ∧ (∀ g x line, s.gen? p e = some g → s.xfer? p e x.id = some x → x.write = false → x.arrived = false → x.negWait = false → x.base.cls = 0 →
        x.dlTime ≠ 0 → x.dlPol = 0 → x.firstReq + 64 * x.dlTime ≤ s.now → line ∈ x.lines → line ∉ x.late → x.repl = [] → x.lines ≠ [] → s.negReads = [] →
        (∃ pg, s.page? (keyOf x.base.space (256 * line)) = some pg ∧ pg.zero = false ∧ 1 ≤ pg.tier) →
        s.readVer g.logno g.lead (keyOf x.base.space (256 * line)) = .current →
        ∃ t, exec (.deadlineExpiry p e x.id line true) s = .next t ∧ t.get F.STRM_STAT_DLX (engKey p e) = 1
          ∧ t.get F.STRM_NDL_COUNT (engKey p e) = (s.get F.STRM_NDL_COUNT (engKey p e) + 1) % 2 ^ 64
          ∧ ∃ y, t.xfer? p e x.id = some y ∧ y.late = x.late ++ [line] ∧ y.arrived = false ∧ y.repl = [])
    ∧ (∀ page line pg n, s.negReads.find? (fun n => n.page = page && n.line = line) = some n → n.readers = [] → s.page? page = some pg → pg.neg = true →
        line < 256 → FMap.wf 0 pg.data.bytes = true →
        ∃ t q, exec (.negativeReadComplete page line true) s = .next t ∧ t.page? page = some q ∧ q.neg = true
          ∧ (∀ i, i < 256 → q.data.byte (256 * line + i) = pg.negData.byte (256 * line + i))
          ∧ (∀ a, a < 256 * line ∨ 256 * line + 256 ≤ a → q.data.byte a = pg.data.byte a)
          ∧ t.get F.TIER_NNEG_COUNT = (s.get F.TIER_NNEG_COUNT + 1) % 2 ^ 64)
    ∧ (∀ page line pg n, s.negReads.find? (fun n => n.page = page && n.line = line) = some n → n.readers = [] → s.page? page = some pg →
        1 ≤ n.fails → ∃ t q, exec (.negativeReadComplete page line false) s = .next t ∧ t.page? page = some q ∧ q.neg = false)

/-! ### Arrays (R49 to R96) -/

/-- ARRAY_TASK_START and STATIONARY_ROW_LOAD (R56, R58, R66, R76, R142). R66 selects the oldest task of the list, and the first later one that names
the loaded block where there is one, the oldest does not name it and has been passed over fewer than HOLDMAX times (clause 1). The task
selected starts once its data have come; while they have not, and it has not been passed over HOLDMAX times, the first that names the loaded
block and whose data have come starts in its place; a task passed over counts one; with none to start nothing happens (clauses 2 and 3; premise: a
generation of the task still runs in every member). HOLDMAX comes into force (for this very choice: the model's choice, log entry 65); a task
that names the loaded block starts without a load and counts in NHOLD. A load moves one row of the block in each beat: a row beyond K leaves
the cells as they are and is a gap slot of every member, unless it is one of the 15 slots after a strict row has entered (log entry 149); a
row of F32 operands that name no expansion is truncated to F19 and changes no other cell; the last row counts in NLOAD. -/
def Obligations.ArrayTaskStartAndLoad : Prop :=
  ∀ (p : Nat) (f : Fused) (s : State), s.RegsOk → FMap.wf {} s.tiles = true → s.geo p = some f → p < 80 →
    (let a := s.freshArr (s.tile p).arr
     let hm := s.get F.TILE_ARR_CTL_HOLDMAX p
     let sel := a.select hm
     (∀ o l, a.list = o :: l →
        (a.names o = true ∨ hm ≤ o.passOver ∨ (∀ t ∈ l, a.names t = false) → sel = 0)
        ∧ (∀ k t, a.names o = false → o.passOver < hm → a.list[k]? = some t → a.names t = true →
            (∀ n x, n < k → a.list[n]? = some x → a.names x = false) → sel = k))
     ∧ (∀ i t passed, (s.tile p).arr.run = none → s.get F.TILE_ARR_CTL_HALT p = 0 → a.list[i]? = some t → s.taskReady f a t = true →
        ((i = sel ∧ passed = (if sel = 0 then [] else [0]))
          ∨ (∃ w, a.list[sel]? = some w ∧ s.taskReady f a w = false ∧ w.passOver < hm ∧ a.names t = true ∧ passed = (if sel = 0 then [0] else [0, sel])
            ∧ ∀ n x, n < i → a.list[n]? = some x → a.names x = false ∨ s.taskReady f a x = false)) →
        (∀ m ∈ f.members, (s.tile (s.phys m)).gensOver t.ref.logno = false) →
        ∃ u next_, exec (.arrayTaskStart p) s = .next u
            ∧ (u.tile p).arr.run = some { task := t, loading := !a.names t, nextRow := t.row0 }
            ∧ (u.tile p).arr.list = ((a.list.zipIdx.map fun x => if passed.contains x.2 then { x.1 with passOver := x.1.passOver + 1 } else x.1).eraseIdx i)
                ++ next_
            ∧ (u.tile p).arr.blk = (if a.names t then a.blk else none)
            ∧ u.get F.TILE_ARR_STAT_HOLDNOW p = hm % 256
            ∧ u.get F.TILE_ARR_NHOLD_COUNT p
              = (if a.names t then (s.get F.TILE_ARR_NHOLD_COUNT p + 1) % 2 ^ 64 else s.get F.TILE_ARR_NHOLD_COUNT p)
            ∧ (∀ q, (u.tile q).store = (s.tile q).store) ∧ (∀ q, (u.tile q).banks = (s.tile q).banks) ∧ u.pages = s.pages ∧ u.sigs = s.sigs)
     ∧ (∀ w, a.list[sel]? = some w → s.taskReady f a w = false →
        (hm ≤ w.passOver ∨ ∀ x ∈ a.list, a.names x = false ∨ s.taskReady f a x = false) → exec (.arrayTaskStart p) s = .next s))
    ∧ (∀ r errs, (s.tile p).arr.run = some r → r.loading = true → s.loadFed f r.task r.blk r.loaded = true →
        (f.rows ≤ r.loaded ∨ r.task.klen ≤ r.blk * f.rows + r.loaded) →
        ∃ u, exec (.stationaryRowLoad p errs) s = .next u ∧ (u.tile p).arr.blk = some ((s.tile p).arr.filling r)
          ∧ (u.tile p).arr.run = some { r with loaded := r.loaded + 1, loading := !decide (r.loaded + 1 = loadRows f r.task) }
          ∧ u.get F.TILE_ARR_NLOAD_COUNT p = (if r.loaded + 1 = loadRows f r.task then (s.get F.TILE_ARR_NLOAD_COUNT p + 1) % 2 ^ 64
              else s.get F.TILE_ARR_NLOAD_COUNT p)
          ∧ ((s.tile p).arr.after = 0 → ∀ m ∈ f.members, (u.tile (s.phys m)).arr.inGap = true)
          ∧ (u.tile p).arr.after = (s.tile p).arr.after - 1
          ∧ (∀ q, (u.tile q).feedS = (s.tile q).feedS) ∧ { u with regs := s.regs, tiles := s.tiles } = s)
    ∧ (∀ r errs, (s.tile p).arr.run = some r → r.loading = true → s.loadFed f r.task r.blk r.loaded = true →
        r.loaded < f.rows → r.blk * f.rows + r.loaded < r.task.klen → r.task.xd = none → r.task.pass ≠ 3 →
        FMap.wf 0 ((s.tile p).arr.filling r).w0 = true →
        let els := (List.range f.cg).flatMap fun gc => (feedOf (s.tile (s.mem f (r.loaded / 128) gc)).feedS r.task.ref.logno).take 128
        (∀ x ∈ els, x.esz = 3 ∧ x.p = false) →
        ∃ u b, exec (.stationaryRowLoad p errs) s = .next u ∧ (u.tile p).arr.blk = some b
          ∧ (∀ n x, els[n]? = some x → (b.w0.get 0 (512 * r.loaded + n)).toNat = x.v.toNat / 2 ^ 13 * 2 ^ 13)
          ∧ (∀ k, (k < 512 * r.loaded ∨ 512 * r.loaded + els.length ≤ k) → b.w0.get 0 k = ((s.tile p).arr.filling r).w0.get 0 k)
          ∧ (u.tile p).arr.run = some { r with loaded := r.loaded + 1, loading := !decide (r.loaded + 1 = loadRows f r.task) }
          ∧ u.get F.TILE_ARR_NLOAD_COUNT p = (if r.loaded + 1 = loadRows f r.task then (s.get F.TILE_ARR_NLOAD_COUNT p + 1) % 2 ^ 64
              else s.get F.TILE_ARR_NLOAD_COUNT p))

/-- ROW_ADMIT and ROW_COMPLETE (R60, R64, R69, R79, R82, R91, R92): a row enters once its values have come and its bank rows are reserved in every
bottom member: its values leave the feeds, NROW counts, and the gap ends; after a row of a strict task the next 15 slots are no gap (their count
is the model's choice, log entry 149). The oldest row in flight completes: every output column is the
bank's element with all its chunks added (fast, rounded to nearest) or the ordered products added (strict), poisoned where the bank's
element, the row or the column was; no other element of the bank changes, and after the last block the bank row is no longer reserved. -/
def Obligations.ArrayRows : Prop :=
  ∀ (p : Nat) (f : Fused) (s : State), s.RegsOk → FMap.wf {} s.tiles = true → (∀ q, FMap.wf {} (s.tile q).banks = true) → s.geo p = some f → p < 80 →
    (∀ r, (s.tile p).arr.run = some r → s.admits f r = true → ((List.range f.rg).map fun gr => s.mem f gr 0).Nodup →
        let got := (List.range f.rg).flatMap fun gr =>
          (feedOf (s.tile (s.mem f gr 0)).feedT r.task.ref.logno).take (sliceLen f r.task r.blk gr)
        (∀ x ∈ got, x.esz = 3 ∨ x.esz = 2) → ((∀ x ∈ got, x.p = false) ∨ s.abortPolicy r.task.rig = false) →
        ∃ u row, exec (.rowAdmit p) s = .next u ∧ (u.tile p).arr.fly = (s.tile p).arr.fly ++ [row]
          ∧ row.task = r.task ∧ row.srcRow = r.nextRow ∧ row.lastBlk = decide (r.blk + 1 = r.task.blocks f)
          ∧ row.pois = got.any (·.p) ∧ row.block = (s.tile p).arr.blk.getD {} ∧ row.vals.length = 2 * f.rows
          ∧ (u.tile p).arr.run = r.next f ∧ (u.tile p).arr.blk = (s.tile p).arr.blk ∧ (u.tile p).arr.after = (if r.task.strict then 15 else 0)
          ∧ (∀ gr, gr < f.rg → feedOf (u.tile (s.mem f gr 0)).feedT r.task.ref.logno
              = (feedOf (s.tile (s.mem f gr 0)).feedT r.task.ref.logno).drop (sliceLen f r.task r.blk gr))
          ∧ (∀ m ∈ f.members, (u.tile (s.phys m)).arr.inGap = false)
          ∧ (r.blk = 0 → ∀ m ∈ f.bottoms, let k := (u.tile (s.phys m)).bank (r.task.bankOf r.nextRow)
              k.task = r.task.ref ∧ k.resv.contains (r.nextRow % 128) = true)
          ∧ u.get F.TILE_ARR_NROW_COUNT p = (s.get F.TILE_ARR_NROW_COUNT p + 1) % 2 ^ 64
          ∧ (∀ q, (u.tile q).store = (s.tile q).store) ∧ u.pages = s.pages ∧ u.sigs = s.sigs)
    ∧ (∀ row rest, (s.tile p).arr.fly = row :: rest → (row.task.strict = true ∨ row.task.accn = true) →
        ((List.range f.cg).map fun gc => s.mem f (f.rg - 1) gc).Nodup → f.members.length = f.rg * f.cg →
        (∀ q b, FMap.wf {} ((s.tile q).bank b).elems = true) →
        let b := row.task.bankOf row.srcRow
        let pb := fun (n : Nat) => s.mem f (f.rg - 1) (n / 128)
        let key := fun (n : Nat) => 128 * (row.srcRow % 128) + n % 128
        let out := fun (n : Nat) =>
          if row.task.strict then strictColumn (s.nmode row.task.rig true) row f n (((s.tile (pb n)).bank b).elems.get {} (key n))
          else fastColumn row f n (((s.tile (pb n)).bank b).elems.get {} (key n)) fun _ => 0
        ∃ u, exec (.rowComplete p) s = .next u ∧ (u.tile p).arr.fly = rest
          ∧ (∀ n, n < f.cols → ((u.tile (pb n)).bank b).elems.get {} (key n)
              = { (out n).e with p := (((s.tile (pb n)).bank b).elems.get {} (key n)).p || row.pois || row.block.poisCols.contains n })
          ∧ (∀ q c k, (c ≠ b ∨ k / 128 ≠ row.srcRow % 128 ∨ ∀ n, n < f.cols → q ≠ pb n) →
              ((u.tile q).bank c).elems.get {} k = ((s.tile q).bank c).elems.get {} k)
          ∧ (row.lastBlk = true → ∀ n, n < f.cols → ((u.tile (pb n)).bank b).resv.contains (row.srcRow % 128) = false)
          ∧ (∀ q, (u.tile q).store = (s.tile q).store) ∧ u.pages = s.pages ∧ u.sigs = s.sigs)

/-- BUBBLE, BALLAST_TAPER_STEP and BALLAST_END (R63, R64, R71 to R74, R391): a slot in which no row enters and no stationary row moves counts in NBUB and
is a gap slot of every member, unless it is one of the 15 slots after a strict row has entered (model choice, log entry 149); an enabled tile
that no rig owns has gap slots alone. A gap starts with the mode requested for the tile's island, which is then in force, and full current
unless the mode is off; ballast fills a slot, counted in NBAL, until the last quarter step (that the step at 0 % fills none is the model's
choice, log entry 66); the steps follow the slots of R73.
Array and ballast controls (R75, R76, R170), and ARRAY_PARITY_ERROR, BANK_PARITY_ERROR (R70, R94), once step 6 of start-up is over:
0b11 of a ballast mode is ignored and sets BADW, another mode is requested, and in force at once where no enabled tile of the island is in
a gap; a lead's control word sets HALT and HOLDMAX, another member's is ignored; an error in an array with no task under way clears the
loaded block and sets PERR; an error in a bank that serves no task sets PERR of the banks and is offered to the event counters, no more. -/
def Obligations.ArrayBallastAndControls : Prop :=
  (∀ (p : Nat) (s : State), s.RegsOk → FMap.wf {} s.tiles = true → p < 80 →
    let slot := fun (t : State) (q : Nat) =>
      let a := (s.tile q).arr
      let b := (t.tile q).arr
      b.inGap = true ∧ b.gap = (if a.inGap then a.gap + 1 else 1)
        ∧ (a.inGap = false → b.gapMode = s.get F.PWR_BAL_MODE (islandOf q) ∧ b.step = (if b.gapMode = 0 then 5 else 0)
            ∧ t.get F.PWR_BAL_MODENOW (islandOf q) = s.get F.PWR_BAL_MODE (islandOf q) % 4)
        ∧ (a.inGap = true → b.gapMode = a.gapMode ∧ b.step = a.step)
        ∧ t.get F.TILE_ARR_NBAL_COUNT q = (if b.gapMode ≠ 0 ∧ b.step < 4 ∧ b.gap ≤ fullSlots b.gapMode + 192
            then (s.get F.TILE_ARR_NBAL_COUNT q + 1) % 2 ^ 64 else s.get F.TILE_ARR_NBAL_COUNT q)
    let only := fun (t : State) (l : List Nat) => (∀ q, q ∉ l → t.tile q = s.tile q) ∧ (∀ q, { t.tile q with arr := (s.tile q).arr } = s.tile q)
      ∧ regsKept (fun g i => (g.id = F.TILE_ARR_NBUB_COUNT.id ∧ i = p) ∨ (g.id = F.TILE_ARR_NBAL_COUNT.id ∧ i ∈ l)
          ∨ g.id = F.PWR_BAL_MODENOW.id ∨ evField g) s t
      ∧ { t with regs := s.regs, tiles := s.tiles } = s
    (∀ f, s.geo p = some f → (f.members.map s.phys).Nodup →
        (∀ r, (s.tile p).arr.run = some r → s.admits f r = false ∧ (r.loading = false ∨ s.loadFed f r.task r.blk r.loaded = false)) →
        ∃ t, exec (.bubble p) s = .next t ∧ t.get F.TILE_ARR_NBUB_COUNT p = (s.get F.TILE_ARR_NBUB_COUNT p + 1) % 2 ^ 64
          ∧ ((s.tile p).arr.after = 0 → (∀ m ∈ f.members, slot t (s.phys m)) ∧ only t (f.members.map s.phys))
          ∧ ((s.tile p).arr.after ≠ 0 → (t.tile p).arr = { (s.tile p).arr with after := (s.tile p).arr.after - 1 } ∧ only t [p]))
    ∧ (s.rigOf p = none → s.enabled p = true → ∃ t, exec (.bubble p) s = .next t ∧ slot t p ∧ only t [p]
          ∧ t.get F.TILE_ARR_NBUB_COUNT p = s.get F.TILE_ARR_NBUB_COUNT p)
    ∧ ((s.tile p).arr.inGap = true → (s.tile p).arr.gapMode ≠ 0 → (s.tile p).arr.step < 4 →
        fullSlots (s.tile p).arr.gapMode + 64 * (s.tile p).arr.step ≤ (s.tile p).arr.gap →
        ∃ t, exec (.ballastTaperStep p) s = .next t ∧ (t.tile p).arr.step = (s.tile p).arr.step + 1
          ∧ onlyTile p s t ∧ t.regs = s.regs ∧ { t.tile p with arr := { (t.tile p).arr with step := (s.tile p).arr.step } } = s.tile p)
    ∧ ((s.tile p).arr.inGap = true → (s.tile p).arr.step = 4 → fullSlots (s.tile p).arr.gapMode + 256 ≤ (s.tile p).arr.gap →
        ∃ t, exec (.ballastEnd p) s = .next t ∧ (t.tile p).arr.step = 5
          ∧ onlyTile p s t ∧ t.regs = s.regs ∧ { t.tile p with arr := { (t.tile p).arr with step := 4 } } = s.tile p))
  ∧ (∀ (s : State) (d : Word), s.RegsOk → FMap.wf {} s.tiles = true → s.ioReached = true →
    (∀ i, i < 16 → d.toNat % 4 = 3 → ∃ t, exec (.ballastModeWrite i d) s = .next t ∧ t.get F.PWR_BAL_BADW i = 1
        ∧ onlyRegs s t ∧ regsKept (fun g k => g.id = F.PWR_BAL_BADW.id ∧ k = i) s t)
    ∧ (∀ i, i < 16 → d.toNat % 4 ≠ 3 → ∃ t, exec (.ballastModeWrite i d) s = .next t ∧ t.get F.PWR_BAL_MODE i = d.toNat % 4
        ∧ t.get F.PWR_BAL_MODENOW i = (if ∃ q, q < 80 ∧ q / 5 = i ∧ s.enabled q = true ∧ (s.tile q).arr.inGap = true
            then s.get F.PWR_BAL_MODENOW i else d.toNat % 4)
        ∧ t.get F.PWR_BAL_BADW i = (if d.toNat / 256 % 2 = 1 then 0 else s.get F.PWR_BAL_BADW i)
        ∧ onlyRegs s t ∧ regsKept (fun g k => (g.id = F.PWR_BAL_BADW.id ∨ g.id = F.PWR_BAL_MODE.id ∨ g.id = F.PWR_BAL_MODENOW.id) ∧ k = i) s t)
    ∧ (∀ p, p < 80 → s.leadOf p = p → ∃ t, exec (.arrayHaltWrite p d) s = .next t ∧ t.get F.TILE_ARR_CTL_HALT p = d.toNat % 2
        ∧ t.get F.TILE_ARR_CTL_HOLDMAX p = d.toNat / 256 % 256
        ∧ t.get F.TILE_ARR_STAT_HOLDNOW p = (if (s.tile p).arr.idle then d.toNat / 256 % 256 else s.get F.TILE_ARR_STAT_HOLDNOW p)
        ∧ onlyRegs s t ∧ regsKept (fun g k => (g.id = F.TILE_ARR_CTL_HALT.id ∨ g.id = F.TILE_ARR_CTL_HOLDMAX.id ∨ g.id = F.TILE_ARR_STAT_HOLDNOW.id)
            ∧ k = p) s t)
    ∧ (∀ p, s.leadOf p ≠ p → exec (.arrayHaltWrite p d) s = .next s)
    ∧ (∀ p unread, p < 80 → s.enabled p = true → s.leadOf p < 80 → (s.tile (s.leadOf p)).arr.run = none → (s.tile (s.leadOf p)).arr.fly = [] →
        ∃ t, exec (.arrayParityError p unread) s = .next t ∧ t.get F.TILE_ARR_STAT_PERR p = 1 ∧ (t.tile (s.leadOf p)).arr.blk = none
          ∧ (t.tile (s.leadOf p)).arr.list = (s.tile (s.leadOf p)).arr.list ∧ onlyTile (s.leadOf p) s t
          ∧ regsKept (fun g k => g.id = F.TILE_ARR_STAT_PERR.id ∧ k = p) s t)
    ∧ (∀ p b unread, p < 80 → s.enabled p = true → (s.tile p).bankParts b = [] →
        ∃ t, exec (.bankParityError p b unread) s = .next t ∧ t.get F.TILE_ACC_STAT_PERR p = 1
          ∧ onlyRegs s t ∧ regsKept (fun g k => (g.id = F.TILE_ACC_STAT_PERR.id ∧ k = p) ∨ evField g) s t))

/-! ### The vector engine (R97 to R123) -/

/-- The lane instructions FADD, FSUB, FMUL, FMA, FDIV, FMAX, FMIN, FSQRT, FRSQ, FRCP, FEXP, FLOG, FTANH, FSGN, MOV, EXPD, FOLD, CVT and QDQ (R106, R107,
R109, R111): each active lane of vD becomes the function of the operands and poisoned where an operand it reads is; an inactive lane keeps
its value under MZ 0 and becomes +0 under MZ 1; every other register of the engine is unchanged. Poison in an active lane under the abort
policy stops the routine with ABRT and ends the call sheet with the poison abort. -/
def Obligations.VectorLaneInstructions : Prop :=
  ∀ (c : Instr) (s : State) (x : LaneOp), laneOp s c = some x → s.RegsOk → FMap.wf {} s.tiles = true → s.issues x.p x.word = true →
    let v := (s.tile x.p).vec
    (((∀ l, l < 256 → v.active x.o.msk l = true → x.pois l = false) ∨ s.abortPolicy v.rig = false) →
        ∃ t, exec c s = .next t ∧ vecWent x.p s t ∧ vecOtherRegs x.p x.o.d s t
          ∧ ∀ l, l < 256 → (t.tile x.p).vec.lane x.o.d l
              = (if v.active x.o.msk l then { v := BitVec.ofNat 32 (x.val l), p := x.pois l } else if x.o.mz = 1 then {} else v.lane x.o.d l))
    ∧ ((∃ l, l < 256 ∧ v.active x.o.msk l = true ∧ x.pois l = true) → s.abortPolicy v.rig = true →
        ∃ t, exec c s = .next t ∧ t.get F.VEC_STAT_ABRT x.p = 1 ∧ (t.tile x.p).vec.running = false
          ∧ ∀ h, s.sheet v.task.logno = some h → h.status = none → (t.sheet v.task.logno).map (·.status) = some (some 0x05))

/-- FCMP, FCLS, MLOG, MFIRST, MPOP, FLGM, CHKF, SEL, CMPR and RED (R106, R107, R109, R111, R112, R113, R115): a mask bit of an active lane is the test's,
an inactive one's follows MZ; FLGM with bit 5 of D clears the flags of the active lanes (model choice, log entry 115); MPOP counts; SEL takes vA
where the mask is set and b elsewhere, CMPR moves the active lanes to the front, the rest +0, and counts them, each lane with its poison; CHKF
changes no register and records a non-finite value in the take; RED puts the reduction in a scalar, or the halves' in lanes 2q and 2q + 1. m0
is never written. Where a lane read is poisoned and the policy is to mark, a half's result carries the poison, the scalar of RED is the default
NaN with the call sheet marked, and a mask bit, which holds no poison, is the test of the value (model choice, log entry 171); under the abort policy the routine stops with ABRT and the call sheet ends with the poison abort. -/
def Obligations.VectorMasksAndReductions : Prop :=
  ∀ (p : Nat) (o : VOp) (s : State), s.RegsOk → FMap.wf {} s.tiles = true → FMap.wf 0 (s.tile p).vec.m = true → FMap.wf 0 (s.tile p).vec.sr = true →
    let v := (s.tile p).vec
    ((∀ r l, (v.lane r l).p = false) ∨ s.abortPolicy v.rig = false →
    let md := s.vmode p
    let at_ := fun (op : Nat) => s.issues p (o.word op) = true
    let a := fun (l : Nat) => (v.lane o.a l).v.toNat
    let b := fun (l : Nat) => (v.opB o l).v.toNat
    let mask := fun (c : Instr) (f : Nat → Bool) (msk : Nat) (keep : Bool) => ∃ t, exec c s = .next t ∧ vecWent p s t
      ∧ (∀ l, l < 256 → o.d % 8 ≠ 0 → ((t.tile p).vec.maskAt o.d).getLsbD l
          = (if v.active msk l then f l else keep && (v.maskAt o.d).getLsbD l))
      ∧ (o.d % 8 = 0 → (t.tile p).vec.m = v.m) ∧ (∀ k, k % 8 ≠ o.d % 8 → (t.tile p).vec.maskAt k = v.maskAt k)
      ∧ (t.tile p).vec.v = v.v ∧ (t.tile p).vec.sr = v.sr ∧ (t.tile p).vec.q = v.q
    (at_ 0x10 → mask (.fcmp p o) (fun l => (fcmpLane md o.sub (a l) (b l)).1) o.msk (o.mz = 0))
    ∧ (at_ 0x11 → mask (.fcls p o) (fun l => (fclsLane md o.sub (a l)).1) o.msk (o.mz = 0))
    ∧ (at_ 0x12 → mask (.mlog p o) (fun l => let x := (v.maskAt o.a).getLsbD l
          let y := (v.maskAt o.b).getLsbD l
          if o.sub = 0 then x && y else if o.sub = 1 then x || y else if o.sub = 2 then x != y else x && !y) 0 false)
    ∧ (at_ 0x13 → mask (.mfirst p o) (fun l => decide (l < v.scalar o.a)) 0 false)
    ∧ (at_ 0x1F → o.d < 32 → mask (.flgm p o) (fun l => bit (v.lf.get 0 l) (4 * o.bm + o.sub)) o.msk (o.mz = 0))
    ∧ (at_ 0x1F → 32 ≤ o.d → FMap.wf 0 v.lf = true → ∃ t, exec (.flgm p o) s = .next t ∧ vecWent p s t ∧ vecOtherRegs p 64 s t
        ∧ ∀ l, l < 256 → (t.tile p).vec.lf.get 0 l = (if v.active o.msk l then 0 else v.lf.get 0 l))
    ∧ (at_ 0x14 → ∃ t, exec (.mpop p o) s = .next t ∧ vecWent p s t ∧ (t.tile p).vec.v = v.v ∧ (t.tile p).vec.m = v.m
        ∧ (t.tile p).vec.scalar o.d = ((List.range 256).filter fun l => v.active o.msk l && (v.maskAt o.a).getLsbD l).length
        ∧ ∀ k, k % 32 ≠ o.d % 32 → (t.tile p).vec.scalar k = v.scalar k)
    ∧ (at_ 0x1E → ∃ t, exec (.chkf p o) s = .next t ∧ vecWent p s t ∧ vecOtherRegs p 64 s t
        ∧ ((∃ l, l < 256 ∧ v.active o.msk l = true ∧ fp32.isFinite (a l) = false) → ∀ n, s.inTake v.task.logno = some n →
            FMap.wf {} s.rigs = true → (t.rig n).take.nonfin = true))
    ∧ (at_ 0x16 → ∃ t, exec (.sel p o) s = .next t ∧ vecWent p s t ∧ vecOtherRegs p o.d s t
        ∧ ∀ l, l < 256 → (t.tile p).vec.lane o.d l = (if v.active o.msk l then v.lane o.a l else v.opB o l))
    ∧ (at_ 0x17 → ∃ t, exec (.cmpr p o) s = .next t ∧ vecWent p s t ∧ (∀ r l, r ≠ o.d → l < 256 → (t.tile p).vec.lane r l = v.lane r l)
        ∧ (t.tile p).vec.m = v.m ∧ (t.tile p).vec.scalar o.b = (v.actives o.msk).length
        ∧ (∀ l, l < 256 → v.active o.msk l = true → (t.tile p).vec.lane o.d ((List.range l).filter (v.active o.msk)).length = v.lane o.a l)
        ∧ ∀ i, (v.actives o.msk).length ≤ i → i < 256 → (t.tile p).vec.lane o.d i = {})
    ∧ (at_ 0x1A → let part := fun (i n : Nat) => (List.range n).map fun l => if v.active o.msk (i + l) then some (a (i + l)) else none
        let pois := fun (i n : Nat) => (List.range n).any fun l => v.active o.msk (i + l) && (v.lane o.a (i + l)).p
        (o.bm = 0 → ∃ t, exec (.red p o) s = .next t ∧ vecWent p { s with sheets := t.sheets } t ∧ (t.tile p).vec.v = v.v ∧ (t.tile p).vec.m = v.m
          ∧ t.sheets = (if pois 0 256 then s.markPois v.task.logno else s).sheets
          ∧ (t.tile p).vec.scalar o.d = (if pois 0 256 then fp32.nan else (reduce md o.sub (part 0 256)).1) % 2 ^ 32 ∧ ∀ k, k % 32 ≠ o.d % 32 → (t.tile p).vec.scalar k = v.scalar k)
        ∧ (o.bm = 1 → ∃ t, exec (.red p o) s = .next t ∧ vecWent p s t ∧ vecOtherRegs p o.d s t
          ∧ ∀ l, l < 256 → (t.tile p).vec.lane o.d l = (if l = 2 * v.q then { v := BitVec.ofNat 32 (reduce md o.sub (part 0 128)).1, p := pois 0 128 }
              else if l = 2 * v.q + 1 then { v := BitVec.ofNat 32 (reduce md o.sub (part 128 128)).1, p := pois 128 128 } else v.lane o.d l))))
    ∧ (s.abortPolicy v.rig = true → ∀ c,
        (c = .fcmp p o ∧ s.issues p (o.word 0x10) = true ∧ ∃ l, l < 256 ∧ v.active o.msk l = true ∧ ((v.lane o.a l).p || (v.opB o l).p) = true)
        ∨ (c = .sel p o ∧ s.issues p (o.word 0x16) = true ∧ ∃ l, l < 256 ∧ (if v.active o.msk l then v.lane o.a l else v.opB o l).p = true)
        ∨ (((c = .fcls p o ∧ s.issues p (o.word 0x11) = true) ∨ (c = .chkf p o ∧ s.issues p (o.word 0x1E) = true)
            ∨ (c = .cmpr p o ∧ s.issues p (o.word 0x17) = true) ∨ (c = .red p o ∧ s.issues p (o.word 0x1A) = true))
          ∧ ∃ l, l < 256 ∧ v.active o.msk l = true ∧ (v.lane o.a l).p = true) →
        ∃ t, exec c s = .next t ∧ t.get F.VEC_STAT_ABRT p = 1 ∧ (t.tile p).vec.running = false
          ∧ ∀ h, s.sheet v.task.logno = some h → h.status = none → (t.sheet v.task.logno).map (·.status) = some (some 0x05))

/-- NOP, LOOP, SLI, SORI, SADD, SFOP, SETQ, LDT, STT, TAG, POPT, LDV, STV and END (R103, R109, R114, R117, R120), with no poison read: the scalar
operations; a queue instruction on an entry of the routine's own task reads or writes its row pair or tag, or frees the head, and LDT
waits where it finds no entry; LDV and STV in FP32 move 256 elements from or to the scalar's address, once no stream of the tile has
an access ready or they have waited three times, and LDV else waits for the port; END ends the routine, pops its own entries at the head
of the queue and sets LEFT where there were any. -/
def Obligations.VectorScalarsQueueAndMemory : Prop :=
  ∀ (p : Nat) (s : State), s.RegsOk → FMap.wf {} s.tiles = true → FMap.wf 0 (s.tile p).vec.sr = true → (∀ r l, ((s.tile p).vec.lane r l).p = false) →
    let v := (s.tile p).vec
    let scal := fun (c : Instr) (d n : Nat) => ∃ t, exec c s = .next t ∧ vecWent p s t ∧ (t.tile p).vec.v = v.v ∧ (t.tile p).vec.m = v.m
      ∧ (t.tile p).vec.q = v.q ∧ (t.tile p).vec.scalar d = n % 2 ^ 32 ∧ ∀ k, k % 32 ≠ d % 32 → (t.tile p).vec.scalar k = v.scalar k
    (s.issues p 0 = true → ∃ t, exec (.nop p) s = .next t ∧ vecWent p s t ∧ vecOtherRegs p 64 s t)
    ∧ (∀ cnt len, s.issues p (cWord 0x38 cnt len) = true → ∃ t, exec (.loop p cnt len) s = .next t ∧ vecOnly p s t ∧ vecOtherRegs p 64 s t
        ∧ (t.tile p).vec.pc = ({ v with loops := { first := v.pc + 1, last := v.pc + len, left := cnt } :: v.loops } : Vec).advance.pc)
    ∧ (∀ o, s.issues p (o.word 0x20) = true → scal (.sli p o) o.sd (o.imm * 2 ^ 16))
    ∧ (∀ o, s.issues p (o.word 0x21) = true → scal (.sori p o) o.sd (v.scalar o.sa ||| o.imm))
    ∧ (∀ o, s.issues p (o.word 0x22) = true → o.imm < 2 ^ 16 →
        scal (.sadd p o) o.sd (if o.imm < 2 ^ 15 then v.scalar o.sa + o.imm else v.scalar o.sa + o.imm + (2 ^ 32 - 2 ^ 16)))
    ∧ (∀ o, s.issues p (o.word 0x23) = true →
        scal (.sfop p o) o.sd (sfop (s.vmode p) (Config.freeNat s.fresh 0) (o.imm / 32 % 8) (v.scalar o.sa) (v.scalar (o.imm % 32))).1)
    ∧ (∀ o, s.issues p (o.word 0x2C) = true → ∃ t, exec (.setq p o) s = .next t ∧ vecWent p s t ∧ (t.tile p).vec.v = v.v
        ∧ (t.tile p).vec.m = v.m ∧ (t.tile p).vec.sr = v.sr ∧ (t.tile p).vec.q = (if o.sub = 0 then o.imm % 64 else (v.q + 1) % 64))
    ∧ (∀ o x, s.issues p (o.word 0x28) = true → (s.tile p).ftq[o.e]? = some x → x.task = v.task → (∀ k, (x.vals.get {} k).p = false) →
        ∃ t, exec (.ldt p o) s = .next t ∧ vecWent p s t ∧ vecOtherRegs p o.d s t
          ∧ ∀ l, l < 256 → (t.tile p).vec.lane o.d l = x.vals.get {} (256 * v.q + l))
    ∧ (∀ o x, s.issues p (o.word 0x29) = true → (s.tile p).ftq[o.e]? = some x → x.task = v.task → FMap.wf {} x.vals = true →
        ∃ t y, exec (.stt p o) s = .next t ∧ (t.tile p).ftq = (s.tile p).ftq.set o.e y ∧ y.tag = x.tag ∧ y.task = x.task
          ∧ (∀ l, l < 256 → y.vals.get {} (256 * v.q + l) = v.lane o.d l)
          ∧ (∀ k, k / 256 ≠ v.q → y.vals.get {} k = x.vals.get {} k) ∧ vecOtherRegs p 64 s t ∧ { t with regs := s.regs, tiles := s.tiles } = s)
    ∧ (∀ (o : TOp) x, s.issues p (o.word 0x2B) = true → (s.tile p).ftq[o.e]? = some x → x.task = v.task →
        scal (.tag p o) o.d (if o.sub = 0 then x.tag else x.tag / 2 ^ 32))
    ∧ (∀ x l, s.issues p (({} : TOp).word 0x2A) = true → (s.tile p).ftq = x :: l → x.task = v.task →
        ∃ t, exec (.popt p) s = .next t ∧ (t.tile p).ftq = l ∧ (t.tile p).ftqHead = ((s.tile p).ftqHead + 1) % 8 ∧ vecOtherRegs p 64 s t
          ∧ t.get F.VEC_NINS_COUNT p = (s.get F.VEC_NINS_COUNT p + 1) % 2 ^ 64 ∧ { t with regs := s.regs, tiles := s.tiles } = s)
    ∧ (∀ (o : TOp), s.issues p (o.word 0x28) = true → (s.tile p).ftq[o.e]? = none →
        ∃ t, exec (.ldt p o) s = .next t ∧ t.get F.VEC_NWAIT_COUNT p = (s.get F.VEC_NWAIT_COUNT p + 1) % 2 ^ 64
          ∧ (t.tile p).vec = { v with wait := 1 } ∧ onlyTile p s t)
    ∧ (∀ (o : MOp) errs, s.issues p (o.word 0x30) = true → s.localReady p = true → v.portWait < 3 →
        ∃ t, exec (.ldv p o errs) s = .next t ∧ (t.tile p).vec = { v with wait := 3 } ∧ t.regs = s.regs ∧ onlyTile p s t)
    ∧ (∀ (o : MOp), s.issues p (o.word 0x30) = true → (s.localReady p = false ∨ 3 ≤ v.portWait) → o.fmt = 0 → v.scalar o.sa + 64 * o.imm + 1024 ≤ 6 * 2 ^ 20 →
        ((s.tile p).store.read (v.scalar o.sa + 64 * o.imm) 1024).any Prod.snd = false → (s.tile p).proxIn (v.scalar o.sa + 64 * o.imm) 1024 = false →
        ∃ t, exec (.ldv p o []) s = .next t ∧ vecWent p ({ s with scrubs := t.scrubs }.modVec p fun u => { u with portWait := 0 }) t ∧ vecOtherRegs p o.d s t
          ∧ ∀ l, l < 256 → ((t.tile p).vec.lane o.d l).v.toNat
              = leNat (((s.tile p).store.read (v.scalar o.sa + 64 * o.imm + 4 * l) 4).map Prod.fst))
    ∧ (∀ (o : MOp), s.issues p (o.word 0x31) = true → (s.localReady p = false ∨ 3 ≤ v.portWait) → o.fmt = 0 → v.scalar o.sa + 64 * o.imm + 1024 ≤ 6 * 2 ^ 20 →
        FMap.wf 0 (s.tile p).store.bytes = true → FMap.wf false (s.tile p).store.pois = true →
        let A := v.scalar o.sa + 64 * o.imm
        ∃ t, exec (.stv p o) s = .next t ∧ vecOtherRegs p 64 s t ∧ (∀ q, q ≠ p → t.tile q = s.tile q) ∧ (t.tile p).vec.pc = v.advance.pc
          ∧ t.get F.VEC_NINS_COUNT p = (s.get F.VEC_NINS_COUNT p + 1) % 2 ^ 64
          ∧ (∀ l, l < 256 → leNat (((t.tile p).store.read (A + 4 * l) 4).map Prod.fst) = (v.lane o.d l).v.toNat)
          ∧ (∀ k, (k < A ∨ A + 1024 ≤ k) → (t.tile p).store.read k 1 = (s.tile p).store.read k 1)
          ∧ { t with regs := s.regs, tiles := s.tiles, scrubs := s.scrubs } = s)
    ∧ (s.issuesOp p 0x3F = true → (s.tile p).ftq.length ≤ 8 → p < 80 → ∃ t, exec (.endRoutine p) s = .next t
        ∧ (t.tile p).vec.running = false ∧ (t.tile p).ftq = (s.tile p).ftq.dropWhile (fun x => decide (x.task = v.task))
        ∧ t.get F.VEC_STAT_LEFT p = (if (s.tile p).ftq.head?.map (·.task) = some v.task then 1 else s.get F.VEC_STAT_LEFT p) ∧ (∀ q, (t.tile q).store = (s.tile q).store)
        ∧ t.get F.VEC_NINS_COUNT p = (s.get F.VEC_NINS_COUNT p + 1) % 2 ^ 64 ∧ (t.sheet v.task.logno)
          = (s.sheet v.task.logno).map fun h => h.modPart v.task.lead fun q => { q with routLeft := q.routLeft - 1 })

/-- Routines, their signals, the finished-tile queue and faults (R97, R99, R104, R118, R119, R122, R123, R351): the first routine in order starts, with
the call sheet's arguments and the rig's hyper words in the scalars, at its entry point, unless HALT is set; where no MARK records it,
SIGR raises a signal of the rig, here one that no barrier takes, nobody waits for and is below its limit, and SIGW consumes a count or
joins the waiters; a finished bank is copied while an entry is free (those pushed before a
replayed error are the first to go: the model's choice, log entry 117), enters the queue behind the last with its tag, wakes a routine that
sleeps for an entry (R303), and is free, its content unchanged; a parity error stops the routine, sets PERR and hands its part to replay,
where the part has been replayed less than twice and no record of it is lost; a host's write sets HALT once step 6 of start-up is over. -/
def Obligations.VectorRoutinesAndQueue : Prop :=
  ∀ (p : Nat) (s : State), s.RegsOk → FMap.wf {} s.tiles = true → p < 80 →
    let v := (s.tile p).vec
    (∀ r rest h, v.running = false → v.order = r :: rest → s.get F.VEC_CTL_HALT p = 0 → s.sheet r.logno = some h → (s.tile p).badLanes = [] →
        ∃ t, exec (.routineStart p) s = .next t ∧ (let u := (t.tile p).vec
          u.running = true ∧ u.task = r ∧ u.rig = h.rig ∧ u.strict = h.cs.strict ∧ u.order = rest ∧ u.q = 0 ∧ u.loops = [] ∧ u.lf = [] ∧ u.m = []
          ∧ u.pc = v.entries.get 0xFFFF (h.cs.rout % 64) ∧ (∀ k, k < 8 → u.scalar k = h.cs.args.getD k 0 % 2 ^ 32)
          ∧ (∀ k, k < 8 → u.scalar (8 + k) = s.get F.IMG_RHNOW_VALUE (8 * h.rig + k) % 2 ^ 32) ∧ (∀ k, 16 ≤ k → k < 32 → u.scalar k = 0))
          ∧ onlyTile p { s with fresh := s.fresh + 1 } t ∧ t.regs = s.regs)
    ∧ (∀ sig, s.issuesOp p 0x39 = true → bits (v.words.get 0 v.pc).toNat 13 0 = sig → (s.marked v.task.logno v.task.lead (unitKey p 8)).isSome = false →
        s.ownSig p sig = true → s.obOf sig = none → s.xbOf sig = none → s.waiters.get [] sig = [] → s.sigs.get 0 sig < 65535 → FMap.wf 0 s.sigs = true →
        ∃ t, exec (.sigr p sig) s = .next t ∧ t.sigs.get 0 sig = s.sigs.get 0 sig + 1 ∧ (∀ k, k ≠ sig → t.sigs.get 0 k = s.sigs.get 0 k)
          ∧ (t.tile p).vec = v.advance ∧ t.get F.VEC_NINS_COUNT p = (s.get F.VEC_NINS_COUNT p + 1) % 2 ^ 64)
    ∧ (∀ sig, s.issuesOp p 0x3A = true → bits (v.words.get 0 v.pc).toNat 13 0 = sig → (s.marked v.task.logno v.task.lead (unitKey p 8)).isSome = false →
        FMap.wf 0 s.sigs = true → FMap.wf [] s.waiters = true →
        (1 ≤ s.sigs.get 0 sig → ∃ t, exec (.sigw p sig) s = .next t ∧ t.sigs.get 0 sig = s.sigs.get 0 sig - 1
          ∧ (∀ k, k ≠ sig → t.sigs.get 0 k = s.sigs.get 0 k) ∧ (t.tile p).vec = v.advance ∧ t.waiters = s.waiters)
        ∧ (s.sigs.get 0 sig = 0 → (s.waiters.get [] sig).contains { tile := p, unit := 8 } = false →
          ∃ t, exec (.sigw p sig) s = .next t ∧ t.waiters.get [] sig = s.waiters.get [] sig ++ [{ tile := p, unit := 8 }]
            ∧ (t.tile p).vec = { v with wait := 2 } ∧ t.sigs = s.sigs ∧ t.regs = s.regs))
    ∧ (∀ b l, (s.tile p).copy = none → (s.tile p).finQ = b :: l → (s.tile p).dropOld.ftq.length < 8 →
        ∃ t, exec (.ftqPushStart p) s = .next t ∧ (t.tile p).copy = some { bank := b, task := ((s.tile p).bank b).task } ∧ (t.tile p).finQ = l
          ∧ (t.tile p).ftq = (s.tile p).ftq.filter (fun x => !x.old) ∧ (t.tile p).banks = (s.tile p).banks ∧ onlyTile p s t ∧ t.regs = s.regs)
    ∧ (∀ c, (s.tile p).copy = some c → s.routineOver p ((s.tile p).bank c.bank).task = false → FMap.wf {} (s.tile p).banks = true →
        let b := (s.tile p).bank c.bank
        ∃ t e, exec (.ftqPushComplete p) s = .next t ∧ (t.tile p).ftq = (s.tile p).ftq ++ [e] ∧ e.task = b.task
          ∧ (∀ k, e.vals.get {} k = if k < 128 * b.expect then b.elems.get {} k else {}) ∧ e.tag = b.tag c.bank
          ∧ ((t.tile p).bank c.bank).elems = b.elems ∧ ((t.tile p).bank c.bank).task.logno = 0 ∧ ((t.tile p).bank c.bank).fin = false
          ∧ (∀ k, k ≠ c.bank → (t.tile p).bank k = (s.tile p).bank k) ∧ (t.tile p).copy = none
          ∧ (t.tile p).vec = { v with wait := if v.running = true ∧ v.wait = 1 then 0 else v.wait }
          ∧ t.get F.SYN_NWAKE_COUNT = (if v.running = true ∧ v.wait = 1 then (s.get F.SYN_NWAKE_COUNT + 1) % 2 ^ 64 else s.get F.SYN_NWAKE_COUNT)
          ∧ t.get F.VEC_NPUSH_COUNT p = (s.get F.VEC_NPUSH_COUNT p + 1) % 2 ^ 64 ∧ onlyTile p s t
          ∧ regsKept (fun g i => (g.id = F.VEC_NPUSH_COUNT.id ∧ i = p) ∨ (g.id = F.SYN_NWAKE_COUNT.id ∧ i = 0) ∨ evField g) s t)
    ∧ (∀ lane, v.running = true → (∀ q, s.livePart v.task.logno v.task.lead = some q → q.replays < 2) →
        (s.partRecs v.task.logno v.task.lead).any s.recLost = false →
        ∃ t, exec (.vectorParityError p lane []) s = .next t ∧ t.get F.VEC_STAT_PERR p = 1 ∧ (t.tile p).vec.running = false
          ∧ ((s.livePart v.task.logno v.task.lead).isSome = true → (t.sheet v.task.logno).map (·.repl) = some true))
    ∧ (∀ d : Word, s.ioReached = true → ∃ t, exec (.vecHaltWrite p d) s = .next t ∧ t.get F.VEC_CTL_HALT p = d.toNat % 2 ∧ onlyRegs s t
        ∧ regsKept (fun g i => g.id = F.VEC_CTL_HALT.id ∧ i = p) s t)

/-! ### Signals, barriers, groups (R295 to R316) -/

/-- HOST_RAISE, OB_PHASE_COMPLETE and OB_ENABLE_WRITE (R296 to R299, R305 to R307, R169), the host's writes once step 6 of start-up is over: a raise
of a signal that no barrier takes counts, or the oldest waiter consumes it, or at 65,535 it is lost and recorded; a signal of no rig is not
raised and sets BADW. A phase takes one arrival of each member tile, raises RELS and goes up. EN 1 takes effect only where R307
admits it; EN 0 drops every arrival. -/
def Obligations.SignalsAndOnChipBarriers : Prop :=
  ∀ (s : State), s.RegsOk → FMap.wf 0 s.sigs = true → FMap.wf [] s.waiters = true → FMap.wf 0 s.obArr = true →
    (∀ d : Word, s.ioReached = true → let sig := d.toNat % 2 ^ 14
      (s.rigOfSig sig = none → ∃ t, exec (.hostRaise d) s = .next t ∧ t.get F.SYN_STAT_BADW = 1 ∧ onlyRegs s t
          ∧ regsKept (fun g _ => g.id = F.SYN_STAT_BADW.id) s t)
      ∧ ((s.rigOfSig sig).isSome = true → s.obOf sig = none → s.xbOf sig = none →
          (s.waiters.get [] sig = [] → s.sigs.get 0 sig < 65535 → ∃ t, exec (.hostRaise d) s = .next t ∧ t.sigs.get 0 sig = s.sigs.get 0 sig + 1
            ∧ (∀ k, k ≠ sig → t.sigs.get 0 k = s.sigs.get 0 k) ∧ t.get F.SYN_NRAISE_COUNT = (s.get F.SYN_NRAISE_COUNT + 1) % 2 ^ 64
            ∧ { t with regs := s.regs, sigs := s.sigs, evStarted := s.evStarted } = s)
          ∧ (s.waiters.get [] sig = [] → 65535 ≤ s.sigs.get 0 sig → ∃ t, exec (.hostRaise d) s = .next t ∧ t.sigs = s.sigs
            ∧ t.get F.SYN_STAT_SSAT = 1 ∧ t.get F.SYN_SLAST_SIG = sig ∧ t.get F.SYN_NSAT_COUNT = (s.get F.SYN_NSAT_COUNT + 1) % 2 ^ 64)
          ∧ (∀ w ws, s.waiters.get [] sig = w :: ws → FMap.wf {} s.tiles = true → ∃ t, exec (.hostRaise d) s = .next t
            ∧ t.sigs = s.sigs ∧ t.waiters.get [] sig = ws ∧ (w.unit = 8 → (t.tile w.tile).vec = (s.tile w.tile).vec.advance)
            ∧ t.get F.SYN_NWAKE_COUNT = (s.get F.SYN_NWAKE_COUNT + 1) % 2 ^ 64)))
    ∧ (∀ k, let rels := s.get F.SYN_OB_4_RELS k
        let ms := (List.range 80).filter fun p => bit (s.get F.SYN_OB_PM_PMASK k) p
        let n := if s.get F.SYN_OB_4_NREL k = 0 then ms.length else s.get F.SYN_OB_4_NREL k
        s.get F.SYN_OB_0_EN k = 1 → ms ≠ [] → (∀ p ∈ ms, 1 ≤ s.obArr.get 0 (128 * k + p)) → s.obOf rels = none → s.xbOf rels = none →
        s.waiters.get [] rels = [] → s.sigs.get 0 rels + n ≤ 65535 →
        ∃ t, exec (.obPhaseComplete k) s = .next t ∧ t.get F.SYN_OB_PH_PHASE k = (s.get F.SYN_OB_PH_PHASE k + 1) % 2 ^ 32
          ∧ t.get F.SYN_NOBC_COUNT = (s.get F.SYN_NOBC_COUNT + 1) % 2 ^ 64 ∧ t.sigs.get 0 rels = s.sigs.get 0 rels + n
          ∧ (∀ g, g ≠ rels → t.sigs.get 0 g = s.sigs.get 0 g)
          ∧ ∀ j p, p < 128 → t.obArr.get 0 (128 * j + p) = (if j = k ∧ p ∈ ms then s.obArr.get 0 (128 * j + p) - 1 else s.obArr.get 0 (128 * j + p)))
    ∧ (∀ k (d : Word), s.ioReached = true → let u := s.setReg F.SYN_OB_0_ARRS (d.toNat % 2 ^ 14) k
        (d.toNat / 2 ^ 31 % 2 = 0 → ∃ t, exec (.obEnableWrite k d) s = .next t ∧ t.get F.SYN_OB_0_EN k = 0
          ∧ t.get F.SYN_OB_0_ARRS k = d.toNat % 2 ^ 14 ∧ (∀ p, p < 128 → t.obArr.get 0 (128 * k + p) = 0)
          ∧ (∀ j p, p < 128 → j ≠ k → t.obArr.get 0 (128 * j + p) = s.obArr.get 0 (128 * j + p)))
        ∧ (d.toNat / 2 ^ 31 % 2 = 1 → s.get F.SYN_OB_0_EN k = 0 → u.obOk k = true → ∃ t, exec (.obEnableWrite k d) s = .next t
          ∧ t.get F.SYN_OB_0_EN k = 1 ∧ t.get F.SYN_OB_PH_PHASE k = 0 ∧ t.get F.SYN_OB_0_ARRS k = d.toNat % 2 ^ 14
          ∧ t.get F.SYN_OB_PM_PMASK k = s.pmaskOf (s.get F.SYN_OB_LM_LMASK k) % 2 ^ 80 ∧ onlyRegs s t)
        ∧ (d.toNat / 2 ^ 31 % 2 = 1 → s.get F.SYN_OB_0_EN k = 0 → u.obOk k = false → ∃ t, exec (.obEnableWrite k d) s = .next t
          ∧ t.get F.SYN_OB_0_EN k = 0 ∧ t.get F.SYN_OB_ST_BBAD k = 1 ∧ onlyRegs s t)
        ∧ (d.toNat / 2 ^ 31 % 2 = 1 → s.get F.SYN_OB_0_EN k = 1 → s.get F.SYN_OB_0_ARRS k ≠ d.toNat % 2 ^ 14 →
          ∃ t, exec (.obEnableWrite k d) s = .next t ∧ t.get F.SYN_OB_0_EN k = 1 ∧ t.get F.SYN_OB_0_ARRS k = s.get F.SYN_OB_0_ARRS k
          ∧ t.get F.SYN_STAT_SREF = 1 ∧ onlyRegs s t))

/-- Cross-device barriers and groups: XB_ENABLE_WRITE, BAR_ARRIVE, BAR_RELEASE, BAR_RESEND, XB_TIMEOUT and GROUP_VALID_WRITE (R308 to R313). A BAR frame
that matches no enabled barrier is answered with REJ; an arrival of a child is recorded, here before this device's own; a release of the
present phase takes the one arrival, raises RELS by NREL and increases PHASE; a rejected frame goes again after 10 µs; a late phase sets
XTO; a group becomes valid only where its range and order are good, and stays valid while it is in use. The host's writes take effect once
step 6 of start-up is over. -/
def Obligations.CrossDeviceBarriersAndGroups : Prop :=
  ∀ (s : State), s.RegsOk → FMap.wf {} s.xbars = true → FMap.wf 0 s.sigs = true →
    (∀ k (d : Word), s.ioReached = true → s.get F.SYN_XB_0_EN k = 0 → d.toNat / 2 ^ 31 % 2 = 1 →
        let u := (s.setReg F.SYN_XB_0_ARRS (d.toNat % 2 ^ 14) k).setReg F.SYN_XB_0_GRP (d.toNat / 2 ^ 16 % 2 ^ 12) k
        ∃ t, exec (.xbEnableWrite k d) s = .next t ∧ t.get F.SYN_XB_0_EN k = (if u.xbOk k then 1 else 0)
          ∧ t.get F.SYN_XB_0_ARRS k = d.toNat % 2 ^ 14 ∧ t.get F.SYN_XB_0_GRP k = d.toNat / 2 ^ 16 % 2 ^ 12
          ∧ (u.xbOk k = true → t.get F.SYN_XB_PH_PHASE k = 0 ∧ t.xbar k = {}) ∧ (u.xbOk k = false → t.get F.SYN_XB_ST_BBAD k = 1)
          ∧ { t with regs := s.regs, xbars := s.xbars } = s)
    ∧ (∀ k (d : Word), s.ioReached = true → d.toNat / 2 ^ 31 % 2 = 0 → ∃ t, exec (.xbEnableWrite k d) s = .next t ∧ t.get F.SYN_XB_0_EN k = 0 ∧ t.xbar k = {}
        ∧ t.get F.SYN_XB_0_ARRS k = d.toNat % 2 ^ 14 ∧ t.get F.SYN_XB_0_GRP k = d.toNat / 2 ^ 16 % 2 ^ 12)
    ∧ (∀ port f, f.ftype = ftBAR → f.dst = s.myId → s.portUp port = true → s.xbNamed f = none → s.routed f.src = true →
        ∃ t, exec (if bit f.arg 28 then .barRelease port f else .barArrive port f) s = .next t
          ∧ t.get F.FAB_NREJ_COUNT = (s.get F.FAB_NREJ_COUNT + 1) % 2 ^ 64 ∧ t.xbars = s.xbars ∧ t.sigs = s.sigs)
    ∧ (∀ port f k, f.ftype = ftBAR → f.dst = s.myId → s.portUp port = true → bit f.arg 28 = false → s.xbNamed f = some k → (s.xbar k).arr = 0 →
        let j := (s.xbTree k).1.findIdx (· = f.src)
        FMap.wf 0 (s.xbar k).child = true →
        ∃ t, exec (.barArrive port f) s = .next t ∧ (∀ i, (t.xbar k).child.get 0 i
            = (if i = j ∧ (childrenOf (s.xbTree k).1.length (s.xbTree k).2).contains j = true then (s.xbar k).child.get 0 i + 1
               else (s.xbar k).child.get 0 i))
          ∧ (∀ i, i ≠ k → t.xbar i = s.xbar i) ∧ t.sigs = s.sigs ∧ t.regs = s.regs)
    ∧ (∀ port f k, f.ftype = ftBAR → f.dst = s.myId → s.portUp port = true → bit f.arg 28 = true → s.xbNamed f = some k →
        f.arg / 2 ^ 32 % 2 ^ 32 = s.get F.SYN_XB_PH_PHASE k → (s.xbar k).sent = true → (s.xbar k).arr = 1 →
        s.obOf (s.get F.SYN_XB_4_RELS k) = none → s.xbOf (s.get F.SYN_XB_4_RELS k) = none → s.waiters.get [] (s.get F.SYN_XB_4_RELS k) = [] →
        s.sigs.get 0 (s.get F.SYN_XB_4_RELS k) + s.get F.SYN_XB_8_NREL k ≤ 65535 →
        ∃ t, exec (.barRelease port f) s = .next t ∧ t.get F.SYN_XB_PH_PHASE k = (s.get F.SYN_XB_PH_PHASE k + 1) % 2 ^ 32
          ∧ (t.xbar k).arr = 0 ∧ (t.xbar k).sent = false ∧ t.get F.SYN_NXBC_COUNT = (s.get F.SYN_NXBC_COUNT + 1) % 2 ^ 64
          ∧ t.sigs.get 0 (s.get F.SYN_XB_4_RELS k) = s.sigs.get 0 (s.get F.SYN_XB_4_RELS k) + s.get F.SYN_XB_8_NREL k
          ∧ ∀ g, g ≠ s.get F.SYN_XB_4_RELS k → t.sigs.get 0 g = s.sigs.get 0 g)
    ∧ (∀ k a f, s.get F.SYN_XB_0_EN k = 1 → (s.xbar k).rej = [(a, f)] → a + 10000 ≤ s.now → s.routed f.dst = true →
        s.portSends (s.portFor (s.route f.dst)) = false → FMap.wf {} s.links = true →
        ∃ t g, exec (.barResend k) s = .next t ∧ (t.xbar k).rej = [] ∧ g.arg = f.arg ∧ g.dst = f.dst ∧ g.ftype = f.ftype ∧ g.src = s.myId
          ∧ (t.link (s.portFor (s.route f.dst))).queue = (s.link (s.portFor (s.route f.dst))).queue ++ [(false, g)] ∧ t.regs = s.regs)
    ∧ (∀ k a, s.get F.SYN_XB_0_EN k = 1 → s.get F.SYN_XB_8_TIMEOUT k ≠ 0 → (s.xbar k).timedOut = false → (s.xbar k).arrAt.head? = some a →
        a + 1000 * s.get F.SYN_XB_8_TIMEOUT k < s.now →
        ∃ t, exec (.xbTimeout k) s = .next t ∧ t.get F.SYN_XB_ST_XTO k = 1 ∧ t.xbar k = { s.xbar k with timedOut := true }
          ∧ (∀ i, i ≠ k → t.xbar i = s.xbar i) ∧ { t with regs := s.regs, xbars := s.xbars } = s
          ∧ regsKept (fun g i => (g.id = F.SYN_XB_ST_XTO.id ∧ i = k) ∨ evField g) s t)
    ∧ (∀ n (d : Word), s.ioReached = true → n < 4095 → s.get F.SYN_GRP_VALID n = 0 → d.toNat / 2 ^ 31 % 2 = 1 →
        let c := d.toNat / 2 ^ 15 % 2 ^ 13
        let a := d.toNat % 2 ^ 15
        let good := c ≠ 0 ∧ a + c ≤ 32768 ∧ ∀ i, i + 1 < c → s.members.get 0 (a + i) < s.members.get 0 (a + i + 1)
        ∃ t, exec (.groupValidWrite n d) s = .next t ∧ t.get F.SYN_GRP_COUNT n = c ∧ t.get F.SYN_GRP_FIRST n = a
          ∧ (good → t.get F.SYN_GRP_VALID n = 1 ∧ t.get F.SYN_STAT_GBAD = s.get F.SYN_STAT_GBAD)
          ∧ (¬ good → t.get F.SYN_GRP_VALID n = 0 ∧ t.get F.SYN_STAT_GBAD = 1) ∧ onlyRegs s t)
    ∧ (∀ n (d : Word), s.ioReached = true → n < 4095 → s.get F.SYN_GRP_VALID n = 1 → d.toNat / 2 ^ 31 % 2 = 0 →
        ∃ t, exec (.groupValidWrite n d) s = .next t
          ∧ (if s.groupBusy n then t.get F.SYN_GRP_VALID n = 1 ∧ t.get F.SYN_STAT_GBUSY = 1 else t.get F.SYN_GRP_VALID n = 0) ∧ onlyRegs s t)
    ∧ ∀ n d, 4095 ≤ n → exec (.groupValidWrite n d) s = .next s

/-! ### The fabric (R276 to R294) -/

/-- Frames that arrive: FRAME_TRANSIT, WR_FRAME, REMOTE_WRITE_VISIBLE, WACK, SIG, SIG_HOLD_TIMEOUT, REJ, CDATA, READY, MASK and HELLO (R276, R281, R282,
R284 to R288, R293, R299), on a fabric port that is up: a frame in transit, no earlier WR of its stream unacknowledged, goes on with HOPS
one higher, beyond 31 it is dropped; a WR that finds room is pending until it lands, one that finds none waits at its port, one that R284
turns away is rejected; a tile-store WR writes its payload where the window says, and no other byte of any store; a SIG is raised, or held
behind earlier writes of its stream, and discarded after 10 ms; a WACK completes the transfers it covers; a REJ sets REJR; CDATA before
its collective is kept where the floor has room and waits else; CDATA of a collective in progress is added block by block to this member's own
and sent on to the next member in a ring's reduction (R291), and where it is not what the sender sends at that step the COLL fails with 0x08,
as CDATA for a COLL that is over is turned away (R290); READY and MASK of an exchange are recorded, those of a later one kept; HELLO names the
peer. The credits of every frame taken go back to its sender. The model's choices: how a collective's data lie in store and frames (log
entry 30), that a lone REJ ends no transfer (69), REJ cause 2 of a page that may not be written (35), that a refused WR holds its SIG (127), a
route followed while a stream in transit is unacknowledged (126), an exchange's READY after its end (134). -/
def Obligations.FramesReceived : Prop :=
  ∀ (s : State) (port : Nat) (f : Frame), s.RegsOk → port < 8 → s.portUp port = true → FMap.wf {} s.links = true → FMap.wf {} s.tiles = true →
    FMap.wf {} s.sendStreams = true →
    let back := Out.flit port false (((s.link port).expSeq + 4095) % 4096) f.cls f.units
    (∀ c, (f.dst ≠ s.myId ∧ f.ftype ≠ ftHELLO ∧ c = .frameTransit port f)
        ∨ (f.dst = s.myId ∧ ((f.ftype = ftSIG ∧ c = .sig port f) ∨ (f.ftype = ftWACK ∧ c = .wack port f) ∨ (f.ftype = ftREJ ∧ c = .rej port f)
          ∨ (f.ftype = ftREADY ∧ c = .ready port f) ∨ (f.ftype = ftMASK ∧ c = .mask port f))) →
        ∃ t m, exec c s = .next t ∧ t.out = s.out ++ back :: m)
    ∧ (f.dst ≠ s.myId → ftDefined f.ftype = true → f.ftype ≠ ftHELLO →
        (f.hops ≤ 30 → s.routed f.dst = true → (s.passing.get {} f.stream).acked = (s.passing.get {} f.stream).seq → s.portSends (s.portFor (s.route f.dst)) = false →
          ∃ t g, exec (.frameTransit port f) s = .next t ∧ g.hops = f.hops + 1 ∧ g.payload = f.payload ∧ g.dst = f.dst ∧ g.src = f.src
            ∧ (t.link (s.portFor (s.route f.dst))).queue = (s.link (s.portFor (s.route f.dst))).queue ++ [(true, g)]
            ∧ g.lvl = (if f.lvl = 1 ∨ bit (s.route f.dst) 7 = true then 1 else 0) ∧ { t with links := s.links, passing := s.passing, out := s.out } = s)
        ∧ (31 ≤ f.hops → ∃ t, exec (.frameTransit port f) s = .next t ∧ t.get F.FAB_STAT_HOPX = 1 ∧ { t with regs := s.regs, out := s.out } = s
            ∧ regsKept (fun g _ => g.id = F.FAB_STAT_HOPX.id ∨ evField g) s t))
    ∧ (f.dst = s.myId → f.ftype = ftWR → s.wrAllowed f = true → s.wrRoom f = false → (s.link port).inbox = [] → ∃ t, exec (.wrFrame port f) s = .next t
        ∧ (t.link port).inbox = [f] ∧ t.remoteWrs = s.remoteWrs ∧ t.out = s.out ∧ t.regs = s.regs ∧ t.tiles = s.tiles ∧ t.pages = s.pages)
    ∧ (f.dst = s.myId → f.ftype = ftWR → s.wrAllowed f = true → s.wrRoom f = true → (s.link port).inbox = [] →
        ∃ t r, exec (.wrFrame port f) s = .next t ∧ t.remoteWrs = s.remoteWrs ++ [r] ∧ r.frame = f ∧ r.seq = s.wrCount ∧ t.wrCount = s.wrCount + 1
          ∧ (t.streams.contains (streamId f) || t.overflow.contains (streamId f)) = true
          ∧ t.get F.FAB_NWR_COUNT = (s.get F.FAB_NWR_COUNT + 1) % 2 ^ 64 ∧ t.tiles = s.tiles ∧ t.pages = s.pages ∧ t.sigs = s.sigs
          ∧ (t.link port).inbox = [] ∧ ∃ m, t.out = s.out ++ m ∧ back ∈ m)
    ∧ (f.dst = s.myId → f.src ≠ s.myId → s.routed f.src = true → f.ftype = ftWR → s.wrAllowed f = false → (s.link port).inbox = [] → ∃ t, exec (.wrFrame port f) s = .next t
        ∧ t.remoteWrs = s.remoteWrs ∧ t.get F.FAB_NREJ_COUNT = (s.get F.FAB_NREJ_COUNT + 1) % 2 ^ 64 ∧ t.tiles = s.tiles ∧ t.pages = s.pages)
    ∧ (∀ r p errs, r ∈ s.remoteWrs → s.remoteWrs.Pairwise (fun a b => a.seq < b.seq) → s.wrTurn r = true → s.wrTile r.frame = some p →
        s.heldSigs = [] → s.waitingWrs = [] → r.frame.src ≠ s.myId → FMap.wf 0 (s.tile p).store.bytes = true → FMap.wf false (s.tile p).store.pois = true →
        let a := s.wrAddr r.frame
        ∃ t, exec (.remoteWriteVisible r.stream r.seq errs) s = .next t ∧ (t.tile p).store.read a r.frame.payload.length
              = ((s.tile p).store.writeP a r.frame.data).read a r.frame.payload.length
          ∧ ((t.tile p).store.read a r.frame.payload.length).map Prod.fst = r.frame.payload
          ∧ (∀ k, (k < a ∨ a + r.frame.payload.length ≤ k) → ((t.tile p).store.bytes.get 0 k) = (s.tile p).store.bytes.get 0 k)
          ∧ (∀ q, q ≠ p → (t.tile q).store = (s.tile q).store) ∧ t.remoteWrs = s.remoteWrs.filter (·.seq ≠ r.seq))
    ∧ (f.dst = s.myId → f.ftype = ftWACK → f.seng / 2 % 2 = 0 →
        let k := sendKey f.src f.stile f.seng
        let st := s.sendStreams.get {} k
        st.acked ≤ st.seq → st.seq < st.acked + 65536 →
        ∃ t, exec (.wack port f) s = .next t ∧ (t.sendStreams.get {} k).acked
              = max st.acked (st.seq - (st.seq + 65536 - f.cnt % 65536) % 65536)
          ∧ (∀ g, s.gen? (s.phys f.stile) (6 + f.seng % 2) = some g → FMap.wf {} (s.tile (s.phys f.stile)).engs = true →
              ∃ h, t.gen? (s.phys f.stile) (6 + f.seng % 2) = some h
                ∧ h.xfers = g.xfers.filter fun x => !(x.covered f.src (t.sendStreams.get {} k).acked)))
    ∧ (∀ n, f.dst = s.myId → f.ftype = ftSIG → s.rigOfSig (f.arg % 2 ^ 14) = some n → s.rigLive n = true →
        s.inGroup (s.get F.SYN_RIG_RSGRP n) f.src = true →
        ((∀ r ∈ s.remoteWrs, r.stream ≠ streamId f) → (∀ g ∈ s.waitingWrs, streamId g ≠ streamId f) → (∀ r ∈ s.rejWrs, r.1 ≠ streamId f) →
          s.overflow.contains (streamId f) = false → s.obOf (f.arg % 2 ^ 14) = none → s.xbOf (f.arg % 2 ^ 14) = none → s.waiters.get [] (f.arg % 2 ^ 14) = [] →
          s.sigs.get 0 (f.arg % 2 ^ 14) < 65535 → FMap.wf 0 s.sigs = true →
          ∃ t, exec (.sig port f) s = .next t ∧ t.sigs.get 0 (f.arg % 2 ^ 14) = s.sigs.get 0 (f.arg % 2 ^ 14) + 1 ∧ t.heldSigs = s.heldSigs)
        ∧ (∀ r, r ∈ s.remoteWrs → r.stream = streamId f → covers f.cnt r.frame.cnt = true → s.overflow.contains (streamId f) = false →
          ∃ t h, exec (.sig port f) s = .next t ∧ t.heldSigs = s.heldSigs ++ [h] ∧ h.sig = f.arg % 2 ^ 14 ∧ h.stream = streamId f
            ∧ t.get F.FAB_NHOLD_COUNT = (s.get F.FAB_NHOLD_COUNT + 1) % 2 ^ 64 ∧ t.sigs = s.sigs))
    ∧ (f.dst = s.myId → f.src ≠ s.myId → s.routed f.src = true → f.ftype = ftSIG → s.rigOfSig (f.arg % 2 ^ 14) = none → ∃ t, exec (.sig port f) s = .next t
        ∧ t.get F.SYN_STAT_RREJ = 1 ∧ t.get F.FAB_NREJ_COUNT = (s.get F.FAB_NREJ_COUNT + 1) % 2 ^ 64 ∧ t.sigs = s.sigs)
    ∧ (∀ i h, s.heldSigs[i]? = some h → h.at_ + 10000000 < s.now → ∃ t, exec (.sigHoldTimeout i) s = .next t
        ∧ t.heldSigs = s.heldSigs.eraseIdx i ∧ t.get F.FAB_STAT_HTO = 1 ∧ t.sigs = s.sigs ∧ t.remoteWrs = s.remoteWrs)
    ∧ (f.dst = s.myId → f.ftype = ftREJ → f.arg % 256 = 1 → f.seng / 2 % 2 = 0 → ∃ t, exec (.rej port f) s = .next t ∧ t.get F.FAB_STAT_REJR = 1
        ∧ { t with regs := s.regs, out := s.out } = s ∧ regsKept (fun g _ => g.id = F.FAB_STAT_REJR.id) s t)
    ∧ (f.dst = s.myId → f.ftype = ftCDATA → s.colls = [] → f.seng / 2 % 2 = 0 →
        let room := s.earlyHeld f + f.payload.length ≤ s.floor 5 (s.phys f.stile) (engKey (s.phys f.stile) (6 + f.seng % 2))
        (s.groupsWith f ≠ [] → s.collToCome f = true → ¬ room → exec (.cdata port f) s = .next s)
        ∧ (s.groupsWith f ≠ [] → s.collToCome f = true → room → ∃ t, exec (.cdata port f) s = .next t ∧ t.early = s.early ++ [f]
            ∧ { t with early := s.early, out := s.out } = s)
        ∧ (s.groupsWith f ≠ [] → s.collToCome f = false → f.src ≠ s.myId → s.routed f.src = true → ∃ t, exec (.cdata port f) s = .next t
            ∧ t.early = s.early ∧ t.get F.FAB_NREJ_COUNT = (s.get F.FAB_NREJ_COUNT + 1) % 2 ^ 64)
        ∧ (s.groupsWith f = [] → ∃ t, exec (.cdata port f) s = .next t ∧ { t with out := s.out } = s))
    ∧ (∀ c, f.dst = s.myId → f.ftype = ftCDATA → s.colls.find? (fun c => s.collOf f (f.arg % 2 ^ 32) c && c.members.contains f.src) = some c → c.rig = none →
        let step := f.arg / 2 ^ 32 % 2 ^ 15
        let part := f.arg / 2 ^ 48 % 8
        let fits := fun (bl : List (Nat × List (Byte × Bool))) => ∃ a z, State.cdataBlocks c f = some bl ∧ s.cdataDue c step part = some (f.src, a, z)
          ∧ ∀ b ∈ bl, a ≤ b.1 ∧ b.1 < z
        ((∀ bl, ¬ fits bl) → f.src ≠ s.myId → s.routed f.src = true → ∃ t, exec (.cdata port f) s = .next t ∧ c ∉ t.colls
            ∧ t.get F.FAB_NREJ_COUNT = (s.get F.FAB_NREJ_COUNT + 1) % 2 ^ 64 ∧ t.get F.STRM_STAT_ABRT (engKey c.tile c.eng) = 1
            ∧ ∀ h, s.sheet c.logno = some h → h.status = none → (t.sheet c.logno).map (·.status) = some (some 0x08))
        ∧ (∀ bl, fits bl → c.form = 0 → c.op ≠ 2 → step + 2 < c.incl.length →
            let dst := nextIn c.incl (s.myPos c.incl)
            let st := s.sendStreams.get {} (sendKey dst (s.logical c.tile) (c.eng - 6))
            let rt := st.routeOf (s.route dst)
            let q := s.portOf st rt
            bit rt 31 = true → ∃ t g m, exec (.cdata port f) s = .next t ∧ t.out = s.out ++ m
              ∧ ((false, g) ∈ (t.link q).queue ∨ .frame q { g with own := none } ∈ m)
              ∧ g.ftype = ftCDATA ∧ g.dst = dst ∧ g.src = s.myId ∧ g.stile = s.logical c.tile ∧ g.ofs = f.ofs
              ∧ g.arg % 2 ^ 32 = c.collid % 2 ^ 32 ∧ g.payload = bl.flatMap fun b => (blkSum (s.collMode c) c.fmt b.2 (s.collOwn c b.1)).1.map Prod.fst))
    ∧ (f.dst = s.myId → f.ftype = ftREADY → s.exchNow f.stile f.cnt (f.arg % 2 ^ 32) = true →
        (∀ x, s.exch? f.stile f.cnt = some x → x.started = false → x.members.contains f.src = true →
          ∃ t y, exec (.ready port f) s = .next t ∧ t.exch? f.stile f.cnt = some y ∧ y.verdicts.get none f.src = some (f.arg / 2 ^ 60 % 4)
            ∧ { t with exchanges := s.exchanges, out := s.out } = s))
    ∧ (∀ incl late, f.dst = s.myId → f.ftype = ftMASK → f.ext = some (.mask incl late) → s.exchNow f.stile f.cnt (f.arg % 2 ^ 32) = true →
        (∀ x, s.exch? f.stile f.cnt = some x → x.started = false → x.masked = false → f.arg / 2 ^ 60 % 4 ≠ 0 →
          ∃ t y, exec (.mask port f) s = .next t ∧ t.exch? f.stile f.cnt = some y ∧ y.masked = true ∧ y.incl = incl ∧ y.late = late
            ∧ y.verdict = f.arg / 2 ^ 60 % 4 ∧ { t with exchanges := s.exchanges, rigs := s.rigs, out := s.out } = s))
    ∧ (f.dst = s.myId → (f.ftype = ftREADY ∨ f.ftype = ftMASK ∧ ∃ i l, f.ext = some (.mask i l)) → s.exchNow f.stile f.cnt (f.arg % 2 ^ 32) = false →
        ∃ t, exec (if f.ftype = ftREADY then .ready port f else .mask port f) s = .next t
          ∧ t.early = (if s.exchLater f then s.early ++ [f] else s.early)
          ∧ (s.exchLater f = true ∨ f.ftype = ftMASK → { t with early := s.early, out := s.out } = s))
    ∧ (f.ftype = ftHELLO → (s.link port).train = 4 → ∃ t, exec (.hello port f) s = .next t ∧ t.get F.FAB_PSTAT_PEER port = f.src % 2 ^ 12
        ∧ { t with regs := s.regs, out := s.out } = s ∧ regsKept (fun g i => g.id = F.FAB_PSTAT_PEER.id ∧ i = port) s t)

/-! ### Links (R233 to R240, R276 to R279) -/

/-- FLIT_RECEIVE, FAST_RETRAIN_COMPLETE and training (R233, R234, R239, R240, R276, R278), nothing waiting to leave in the clauses on flits: a flit
with a bad CRC is asked for again; a good flit returns credits and retires what it acknowledges; the payload flit due is acknowledged and
any other is asked for again. A port that is down and may train does so (from which step of start-up on it may, and that no failed start-up's may,
is the model's choice, log entry 172): its training sets leave on every lane, a buffer's reset is released; lanes that receive their sets are
noted and reported; with all but one good each way, margins below threshold taken out, training goes on and the bad lane is replaced, else the
link fails, a buffer's for good, as it does when a step takes too long; a new link is up and starts afresh, and a fabric port sends its
HELLO. After a fabric port's fast retrain with lanes enough what is unacknowledged leaves again; after one that failed it trains in full. The
model's choices: one command for a flit (log entry 138), the first sequence number (8), the state shown of a failed port (93), and what is
kept through a full training (94).
The buffers' messages RDR, WRC, FILLC, CFGR, SYNCC and ALERT (R235 to R239), nothing waiting for the buffer: the answer to an outstanding tag of its
kind frees the tag, and an answer that names none has no effect; a capacity read is shown; a GiB filled counts; an alert is shown, and the
status register is asked for where a tag, a credit and room for replay are there (what answers an ALERT is the model's choice, log entry 95). -/
def Obligations.LinksAndBuffers : Prop :=
  (∀ (s : State) (port : Nat), s.RegsOk → FMap.wf {} s.links = true → port < 18 →
    (∀ bs, (s.link port).train = 4 → (s.link port).waiting = [] → (s.link port).queue = [] → FMap.wf 0 (s.link port).credits = true → (s.link port).nextSeq < 4096 →
        let f := readFlit (isBuf port) bs
        let l := s.link port
        let nak : Out := .flit port true ((l.expSeq + 4095) % 4096) 0 0
        (f.crcOk = false → ∃ t, exec (.flitReceive port ⟨bs, false⟩) s = .next t ∧ t.out = s.out ++ [nak]
          ∧ (∀ q, t.link q = s.link q) ∧ { t with out := s.out, links := s.links } = s)
        ∧ (f.crcOk = true → f.typ ≤ 1 → f.nak = false → l.replays < 8 → ∃ t, exec (.flitReceive port ⟨bs, false⟩) s = .next t
          ∧ (t.link port).expSeq = (if f.typ = 1 ∧ f.seq = l.expSeq then (l.expSeq + 1) % 4096 else l.expSeq)
          ∧ t.out = s.out ++ (if f.typ = 0 then [] else if f.seq = l.expSeq then [.flit port false f.seq 0 0] else [nak])
          ∧ (10 ≤ port → (t.link port).credits.get 0 0 = l.credits.get 0 0 + f.crd ∧ (t.link port).credits.get 0 1 = l.credits.get 0 1 + f.lvl)
          ∧ (port < 10 → (t.link port).credits.get 0 (2 * f.cls + f.lvl) = l.credits.get 0 (2 * f.cls + f.lvl) + f.crd)
          ∧ (f.ackv = false → (t.link port).unacked = l.unacked)
          ∧ (∀ i, f.ackv = true → l.unacked.findIdx? (·.seq = f.ackseq) = some i → (t.link port).unacked = l.unacked.drop (i + 1))
          ∧ (∀ q, q ≠ port → t.link q = s.link q) ∧ { t with out := s.out, links := s.links } = s))
    ∧ ((s.link port).train = 0 → (s.link port).dead = false → s.mayTrain port = true → ∃ t, exec (.linkTrainingStart port) s = .next t ∧ (t.link port).train = 1 ∧ (t.link port).rxok = []
        ∧ (port < 8 → t.get F.FAB_PSTAT_STATE port = 1) ∧ (10 ≤ port → t.get F.MEM_BSTAT_STATE (port - 10) = 1)
        ∧ t.out = s.out ++ (if 10 ≤ port then [.bufReset (port - 10) true] else [])
            ++ (List.range (lanesOf port)).map fun l => .trainSet port 1 l (trainBytes 1 l (linkNo port) 0 (s.link port).presets.1 0xFF []))
    ∧ (∀ l, (s.link port).train = 1 → l < lanesOf port → ∃ t, exec (.tsa port l) s = .next t
        ∧ (∀ k, k ∈ (t.link port).rxok ↔ k = l ∨ k ∈ (s.link port).rxok) ∧ { t with links := s.links, out := s.out } = s
        ∧ (∀ q, q ≠ port → t.link q = s.link q) ∧ (l ∉ (s.link port).rxok → t.out = s.out ++ (List.range (lanesOf port)).map fun k =>
            .trainSet port 2 k (trainBytes 2 k (linkNo port) (rateOf port) (s.link port).presets.2 0xFF ((s.link port).rxok ++ [l]))))
    ∧ (∀ (r : TrainReport), (s.link port).train = 1 → r.rate = rateOf port →
        let rx := (s.link port).rxok.filter fun k => !r.low.contains k
        let tx := (r.good.filter fun k => decide (k < lanesOf port)).eraseDups
        (lanesOf port ≤ rx.length + 1 → lanesOf port ≤ tx.length + 1 →
          ∃ t, exec (.tsb port r) s = .next t ∧ (t.link port).train = 3
            ∧ (port < 8 → t.get F.FAB_PSTAT_RXBAD port = badLane port F.FAB_PSTAT_RXBAD.rst rx % 8
              ∧ t.get F.FAB_PSTAT_TXBAD port = badLane port F.FAB_PSTAT_TXBAD.rst tx % 8)
            ∧ (10 ≤ port → t.get F.MEM_BSTAT_RXBAD (port - 10) = badLane port F.MEM_BSTAT_RXBAD.rst rx % 16
              ∧ t.get F.MEM_BSTAT_TXBAD (port - 10) = badLane port F.MEM_BSTAT_TXBAD.rst tx % 16))
        ∧ (rx.length + 1 < lanesOf port ∨ tx.length + 1 < lanesOf port → s.actQ = [] → (s.link port).tags = [] → (s.link port).waiting = [] →
          ∃ t, exec (.tsb port r) s = .next t ∧ (t.link port).train = 0 ∧ (10 ≤ port → (t.link port).dead = true)
            ∧ (10 ≤ port → t.get F.MEM_BSTAT_STATE (port - 10) = 5) ∧ (port < 8 → t.get F.FAB_PSTAT_STATE port = 0)))
    ∧ ((s.link port).train = 3 → s.actQ = [] → (s.link port).full = false →
        ∃ t, exec (.tsc port) s = .next t ∧ (t.link port).train = 4 ∧ (t.link port).expSeq = 0 ∧ .idle port 64 ∈ t.out
          ∧ (port < 8 → t.get F.FAB_PSTAT_STATE port = 3 ∧ ∃ f, f.ftype = ftHELLO ∧ f.src = s.myId ∧ (false, f) ∈ (t.link port).queue)
          ∧ (10 ≤ port → t.get F.MEM_BSTAT_STATE (port - 10) = 2))
    ∧ (((s.link port).train = 1 ∨ (s.link port).train = 3) → s.actQ = [] → (s.link port).tags = [] → (s.link port).waiting = [] →
        ∃ t, exec (.linkTrainingTimeout port) s = .next t ∧ (t.link port).train = 0 ∧ (t.link port).tags = []
          ∧ (10 ≤ port → t.get F.MEM_BSTAT_STATE (port - 10) = 5) ∧ (port < 8 → t.get F.FAB_PSTAT_STATE port = 5))
    ∧ ((s.link port).train = 5 → s.actQ = [] → port < 8 →
        ∀ r : FastReport,
        let rx := (List.range (lanesOf port)).filter fun k => !r.low.contains k
        let tx := (List.range (lanesOf port)).filter fun k => !r.lost.contains k
        (r.ok = true → lanesOf port ≤ rx.length + 1 → lanesOf port ≤ tx.length + 1 →
          ∃ t, exec (.fastRetrainComplete port r) s = .next t ∧ (t.link port).train = 4 ∧ t.get F.FAB_PSTAT_STATE port = 3
          ∧ t.get F.FAB_PSTAT_RXBAD port = badLane port F.FAB_PSTAT_RXBAD.rst rx % 8 ∧ t.get F.FAB_PSTAT_TXBAD port = badLane port F.FAB_PSTAT_TXBAD.rst tx % 8
          ∧ t.get F.FAB_NREPL_COUNT = (s.get F.FAB_NREPL_COUNT + (s.link port).unacked.length) % 2 ^ 64 ∧ .idle port 64 ∈ t.out
          ∧ ∀ q ∈ (s.link port).unacked, .replay port q ∈ t.out)
        ∧ (r.ok = false ∨ rx.length + 1 < lanesOf port ∨ tx.length + 1 < lanesOf port → ∃ t, exec (.fastRetrainComplete port r) s = .next t
          ∧ (t.link port).train = 1 ∧ (t.link port).full = true ∧ t.get F.FAB_PSTAT_STATE port = 1)))
  ∧ (∀ (s : State) (b : Nat) (m : BufMsg), s.RegsOk → FMap.wf {} s.links = true → b < 8 → (s.link (10 + b)).waiting = [] →
    (∀ c, (s.link (10 + b)).tags.lookup m.tag = some c → FMap.wf {} (s.link (10 + b)).tags = true →
      let freed := fun (i : Instr) => ∃ t, exec i s = .next t ∧ (t.link (10 + b)).tags.lookup m.tag = none
        ∧ (∀ k, k ≠ m.tag → (t.link (10 + b)).tags.lookup k = (s.link (10 + b)).tags.lookup k) ∧ (∀ q, q ≠ 10 + b → t.link q = s.link q)
      (c.kind = 1 → m.opc = 0x81 → m.status = 0 → freed (.rdr b m)) ∧ (c.kind = 2 → m.opc = 0x82 → m.status = 0 → freed (.wrc b m))
      ∧ (c.kind = 6 → m.opc = 0x8A → freed (.syncc b m)) ∧ (c.kind = 5 → m.opc = 0x88 → freed (.cfgr b m))
      ∧ (c.kind = 3 → m.opc = 0x84 → m.status = 0 → FMap.wf 0 (s.link (10 + b)).filled = true → ∃ t, exec (.fillc b m) s = .next t
          ∧ (t.link (10 + b)).filled.get 0 c.ch = (s.link (10 + b)).filled.get 0 c.ch + 1)
      ∧ (c.kind = 4 → m.opc = 0x88 → m.status = 0 → c.addr = 1 → ∃ t, exec (.cfgr b m) s = .next t ∧ t.get F.MEM_BCAP_CAP0 b = m.val % 2 ^ 16)
      ∧ (c.kind = 4 → m.opc = 0x88 → m.status = 0 → c.addr = 2 → ∃ t, exec (.cfgr b m) s = .next t ∧ t.get F.MEM_BCAP_CAP1 b = m.val % 2 ^ 16)
      ∧ (c.kind ≠ 1 → exec (.rdr b m) s = .next s) ∧ (c.kind ≠ 2 → exec (.wrc b m) s = .next s) ∧ (c.kind ≠ 3 → exec (.fillc b m) s = .next s)
      ∧ (c.kind ≠ 4 → c.kind ≠ 5 → exec (.cfgr b m) s = .next s) ∧ (c.kind ≠ 6 → exec (.syncc b m) s = .next s))
    ∧ ((s.link (10 + b)).tags.lookup m.tag = none → ∀ i ∈ [.rdr b m, .wrc b m, .fillc b m, .cfgr b m, .syncc b m], exec i s = .next s)
    ∧ ((s.link (10 + b)).train = 4 → m.opc = 0x8F → ∃ t, exec (.alert b m) s = .next t ∧ t.get F.MEM_BSTAT_ALERT b = 1
        ∧ ∀ k, (s.link (10 + b)).freeTag = some k → 1 ≤ (s.link (10 + b)).credits.get 0 0 → (s.link (10 + b)).unacked.length < 128 →
          s.ctlReset.contains (10 + b) = false → ∃ a, (t.link (10 + b)).tags.lookup k = some a ∧ a.kind = 4 ∧ a.addr = 4))

/-! ### The twin (R362 to R372) -/

/-- Pairing and mirroring: TWN_PAIR, TWN_UNPAIR, PAIR, PACK, LREC, PAGE, MACK, UNPR, BEAT, BEAT_SEND and PARTNER_LOST (R362 to R369), a tether port up.
The host's PAIR, once step 6 of start-up is over, starts the training of the tether ports, its UNPAIR ends the pairing; a PAIR frame is
accepted where the reserve offered covers the need, and the reserve is then hosted; else the pairing is refused and a reserve that is not
frozen goes; records and pages that come are stored in the reserve; acknowledgements advance and end the baseline; UNPR frees a reserve
that is not frozen; the loss of the partner is recorded and freezes the reserve. A record or page that has come already is not stored again. The
model's choices: what the frames hold (log entry 18), a PAIR refused while a frozen reserve is held (54) and answered in every state (99), UNPAIR
after a loss (55), UNPR (100), and where the loss is seen (98). -/
def Obligations.TwinPairing : Prop :=
  ∀ (s : State) (port : Nat) (f : Frame) (d : Word), s.RegsOk → FMap.wf {} s.links = true → (port = 8 ∨ port = 9) → (s.link port).train = 4 →
    (s.ioReached = true → d.toNat / 2 ^ 18 % 4 ≠ 3 → d.toNat / 2 % 4 = 1 → s.twState = twUnpaired → s.tether.helloOk = false → ∃ t, exec (.twnPair d) s = .next t
        ∧ t.twState = twTraining ∧ t.get F.TWN_CTL_PROT = d.toNat / 2 ^ 18 % 4 ∧ t.get F.TWN_CTL_TKO = d.toNat / 8 % 2
        ∧ ∀ p, (p = 8 ∨ p = 9) → (t.link p).train = (if (s.link p).train = 0 then 1 else (s.link p).train))
    ∧ (s.ioReached = true → d.toNat / 2 ^ 18 % 4 = 3 → d.toNat / 2 % 4 = 0 → ∃ t, exec (.twnPair d) s = .next t ∧ t.get F.TWN_STAT_BADW = 1
        ∧ t.get F.TWN_CTL_PROT = s.get F.TWN_CTL_PROT ∧ onlyRegs s t)
    ∧ (s.ioReached = true → d.toNat / 2 % 4 = 2 → s.twState = twPaired → ∃ t, exec (.twnUnpair d) s = .next t ∧ t.twState = twUnpairing)
    ∧ (s.ioReached = true → d.toNat / 2 % 4 = 2 → s.twState = twLost → ∃ t, exec (.twnUnpair d) s = .next t ∧ t.twState = twUnpaired)
    ∧ (∀ prot need, f.ftype = 0x20 → f.ext = some (.pair prot need) → ∃ t, exec (.pair port f) s = .next t ∧ t.get F.TWN_RNEED_GIB = need % 2 ^ 20
        ∧ (need ≤ s.get F.TWN_RSV_GIB → s.reserve = none → t.tether.accepted = true ∧ ∃ r, t.reserve = some r ∧ r.frozen = false
            ∧ r.prot = prot ∧ r.gib = s.get F.TWN_RSV_GIB ∧ r.tier = s.get F.TWN_RSV_TIER ∧ r.printed = [] ∧ r.log = [])
        ∧ (s.get F.TWN_RSV_GIB < need → t.twState = twUnpaired ∧ t.get F.TWN_STAT_RSVF = 1 ∧ t.tether.accepted = false
          ∧ t.reserve = s.reserve.filter (·.frozen)))
    ∧ (f.ftype = 0x21 → f.ext = some (.pack true) → s.twState = twPairing → s.tether.accepted = false →
        ∃ t, exec (.pack port f) s = .next t ∧ t.tether.packed = true ∧ { t with tether := s.tether, out := s.out } = s)
    ∧ (f.ftype = 0x21 → f.ext = some (.pack false) → s.twState = twPairing → ∃ t, exec (.pack port f) s = .next t ∧ t.twState = twUnpaired
        ∧ t.get F.TWN_STAT_RSVF = 1)
    ∧ (∀ r x, s.reserve = some r → r.frozen = false → f.ftype = 0x22 → f.ext = some (.lrec [x]) → x.kind.ofTake = false → r.lrecSeq < x.seq →
        ∃ t q, exec (.lrec port f) s = .next t ∧ t.reserve = some q ∧ q.log = r.log ++ [x] ∧ q.lrecSeq = x.seq
          ∧ q.printed = r.printed ∧ q.staged = r.staged ∧ t.pages = s.pages ∧ t.log = s.log ∧ t.tiles = s.tiles)
    ∧ (∀ r seq rig, s.reserve = some r → r.frozen = false → f.ftype = 0x23 → f.ofs = 0 → f.ext = some (.page seq rig) → r.pageSeq < seq →
        let key := keyOf (f.arg / 2 ^ 52) (f.arg % 2 ^ 52)
        ∃ t q, exec (.page port f) s = .next t ∧ t.reserve = some q ∧ q.pageSeq = seq
          ∧ q.printed.get {} key = (r.printed.get {} key).writeP (f.arg % 65536) f.data
          ∧ (∀ k, k ≠ key → q.printed.get {} k = r.printed.get {} k) ∧ q.log = r.log ∧ q.staged = r.staged ∧ t.pages = s.pages ∧ t.tiles = s.tiles)
    ∧ (∀ r c, s.reserve = some r → r.frozen = false →
        (∃ x, c = .lrec port f ∧ f.ftype = 0x22 ∧ f.ext = some (.lrec [x]) ∧ x.seq ≤ r.lrecSeq)
          ∨ (∃ seq rig, c = .page port f ∧ f.ftype = 0x23 ∧ f.ext = some (.page seq rig) ∧ seq ≤ r.pageSeq) →
        ∃ t, exec c s = .next t ∧ t.reserve = some r ∧ t.pages = s.pages ∧ t.tiles = s.tiles)
    ∧ (∀ a b, f.ftype = 0x25 → f.ext = some (.mack a b) → s.compls = [] → ∃ t, exec (.mack port f) s = .next t
        ∧ t.tether.ackSeq = max s.tether.ackSeq a ∧ t.tether.pageAck = max s.tether.pageAck b
        ∧ (∀ r ∈ t.log, r.seq ≤ a → r.acked = true)
        ∧ (s.twState = twBaseline → s.tether.sentSeq ≤ max s.tether.ackSeq a → s.tether.pageSent ≤ max s.tether.pageAck b → t.twState = twPaired))
    ∧ (f.ftype = 0x26 → s.compls = [] → ∃ t, exec (.unpr port f) s = .next t ∧ t.twState = twUnpaired ∧ t.reserve = s.reserve.filter (·.frozen)
        ∧ t.pages = s.pages)
    ∧ (f.ftype = 0x27 → ∃ t, exec (.beat port f) s = .next t ∧ t.tether = { s.tether with lastFrame := s.now } ∧ { t with tether := s.tether, out := s.out } = s)
    ∧ (s.tether.lastSent.get 0 port + 100000 ≤ s.now → (s.link port).credits = [] → ∃ t g, exec (.beatSend (port - 8)) s = .next t
        ∧ (t.link port).queue = (s.link port).queue ++ [(false, g)] ∧ g.ftype = 0x27 ∧ t.tether.lastSent.get 0 port = s.now ∧ t.regs = s.regs)
    ∧ ((s.twState = twPairing ∨ s.twState = twBaseline ∨ s.twState = twPaired ∨ s.twState = twUnpairing) → s.tether.lastFrame + 1000000 ≤ s.now → s.compls = [] →
        ∃ t, exec .partnerLost s = .next t ∧ t.twState = twLost ∧ t.get F.TWN_STAT_LOSTF = 1 ∧ t.get F.TWN_STAT_SUSP = 1
          ∧ (s.reserve.isSome = true → t.get F.TWN_STAT_HOSTF = 1) ∧ (∀ r, t.reserve = some r → r.frozen = true)
          ∧ t.reserve.isSome = s.reserve.isSome ∧ t.pages = s.pages)

/-- Recovery by the twin: RESTORE, RESTORE_COMPLETE, RELEASE and TWN_RSCAL_GO (R369, R371, R372), the host's writes once step 6 of start-up is over: a
restore needs a frozen reserve, and a window for the
space of every page it holds; it then sends each printed page as 128 remote writes, and is done when all are acknowledged; a release frees
the frozen reserve; where restored pages lie in the window, and what GO does with a loss scale beyond 2^32, are the model's choices (log entries 56
and 57); in takeover state the scalars of an idle rig that has run nothing are set. -/
def Obligations.TwinRestoreAndTakeover : Prop :=
  ∀ (s : State) (d : Word), s.RegsOk → FMap.wf {} s.sendStreams = true →
    let dst := d.toNat / 2 % 2 ^ 12
    (s.ioReached = true → d.toNat / 2 ^ 28 = 1 → d.toNat % 2 = 1 → s.get F.TWN_RSTAT_BUSY = 0 →
        ((∀ r, s.reserve = some r → r.frozen = false) → ∃ t, exec (.restore d) s = .next t ∧ t.get F.TWN_RSTAT_ERR = 1
          ∧ t.get F.TWN_RSTAT_ERRF = 1 ∧ t.get F.TWN_RSTAT_BUSY = 0 ∧ t.reserve = s.reserve)
        ∧ (∀ r, s.reserve = some r → r.frozen = true → (∃ x ∈ r.settle.printed, s.get F.TWN_RMAP_VALID (spaceOf x.1) = 0) →
          ∃ t, exec (.restore d) s = .next t ∧ t.get F.TWN_RSTAT_ERR = 2 ∧ t.get F.TWN_RSTAT_ERRF = 1 ∧ t.get F.TWN_RSTAT_BUSY = 0)
        ∧ (∀ r, s.reserve = some r → r.frozen = true → (∀ x ∈ r.settle.printed, s.get F.TWN_RMAP_VALID (spaceOf x.1) ≠ 0) → dst ≠ s.myId →
          ∃ t, exec (.restore d) s = .next t ∧ t.get F.TWN_RSTAT_BUSY = 1 ∧ t.tether.restore = some dst ∧ t.tether.restoreFrom = (s.sendStreams.get {} (sendKey dst 0x7F 2)).seq ∧ t.reserve = some r.settle
            ∧ (t.sendStreams.get {} (sendKey dst 0x7F 2)).seq = (s.sendStreams.get {} (sendKey dst 0x7F 2)).seq + 128 * r.settle.printed.length
            ∧ t.pages = s.pages))
    ∧ (s.ioReached = true → d.toNat / 2 ^ 28 = 2 → d.toNat % 2 = 1 → s.get F.TWN_RSTAT_BUSY = 0 →
        ((∀ r, s.reserve = some r → r.frozen = false) → ∃ t, exec (.release d) s = .next t ∧ t.get F.TWN_RSTAT_ERR = 1
          ∧ t.get F.TWN_RSTAT_ERRF = 1 ∧ t.reserve = s.reserve)
        ∧ (∀ r, s.reserve = some r → r.frozen = true → ∃ t, exec (.release d) s = .next t ∧ t.reserve = none ∧ t.get F.TWN_STAT_HOSTF = 0
          ∧ t.get F.TWN_RSTAT_ERR = 0 ∧ { t with regs := s.regs, reserve := s.reserve } = s))
    ∧ (∀ k, s.tether.restore = some k → (s.sendStreams.get {} (sendKey k 0x7F 2)).acked = (s.sendStreams.get {} (sendKey k 0x7F 2)).seq →
        ∃ t, exec .restoreComplete s = .next t ∧ t.get F.TWN_RSTAT_BUSY = 0 ∧ t.get F.TWN_RSTAT_DONE = 1 ∧ t.get F.TWN_RSTAT_PROG = 255
          ∧ t.tether.restore = none ∧ { t with regs := s.regs, tether := s.tether } = s)
    ∧ (let n := d.toNat / 8 % 2 ^ 7
       s.ioReached = true → d.toNat % 2 = 1 → s.get F.TWN_CTL_TKO = 1 → (s.rig n).exists_ = true → (s.rig n).take.state = 0 → (s.rig n).ran = false →
        d.toNat / 2 ^ 10 % 2 ^ 6 ≤ 32 → ∃ t, exec (.twnRscalGo d) s = .next t ∧ t.get F.IMG_TLS_LOG2 n = d.toNat / 2 ^ 10 % 2 ^ 6
          ∧ t.get F.IMG_TLS_NCONS n = d.toNat / 2 ^ 16 ∧ t.get F.IMG_TNUM_NUM n = s.get F.TWN_RSCAL1_TNUM % 2 ^ 32 ∧ onlyRegs s t
          ∧ regsKept (fun g i => ((g.id = F.IMG_TLS_LOG2.id ∨ g.id = F.IMG_TLS_NCONS.id ∨ g.id = F.IMG_TNUM_NUM.id) ∧ i = n)
              ∨ g.id = F.TWN_RSCAL0_NCONS.id ∨ g.id = F.TWN_RSCAL0_LOG2.id ∨ g.id = F.TWN_RSCAL0_RIG.id) s t)
    ∧ (s.ioReached = true → s.get F.TWN_CTL_TKO = 0 → ∃ t, exec (.twnRscalGo d) s = .next t ∧ t.get F.TWN_STAT_BADW = 1 ∧ onlyRegs s t
        ∧ regsKept (fun g _ => g.id = F.TWN_STAT_BADW.id) s t)

/-! ### The memory tiers (R177 to R217) -/

/-- The mapping commands over one page: MAP, UNMAP, SEAL, PIN, UNPIN, HINT and FOLD (R182, R183, R190, R196, R210), once step 6 of start-up is over and
with no command running. Each does what R182 gives it to the page that VPN names and ends with DONE 1 and BUSY 0, or ends with the error
of R183 and changes no page; a page that moves, must be brought to another tier, must ascend to fold or needs its negative written makes
the command wait with BUSY 1. The model's choices: what tier 0 has free (log entry 20), PIN of a ZERO page (77), that SEAL waits for other versions
(119), and 0x02 before 0x07 (160).
A mapping command while one runs, one that names no space, and the negative's confirmation (R182, R183, R196): a MAP given while a command runs is
ignored and sets BUSYW; an UNMAP of no space ends with ERR 1; NEGATIVE_WRITE_COMPLETE seals the page that SEAL waits for with the merged
content as its negative, where that fits the room held, or ends the command with ERR 8. -/
def Obligations.MappingsAndSeals : Prop :=
  (∀ (s : State) (d : Word) (sp : Space), s.RegsOk → FMap.wf none s.pages = true → s.space? (d.toNat / 2 % 2 ^ 12) = some sp → s.get F.TIER_MSTAT_BUSY = 0 →
    s.mcmd = none → s.ioReached = true → s.get F.TIER_MCMD1_NPAGE = 0 →
    let key := pageKey (d.toNat / 2 % 2 ^ 12) (s.get F.TIER_MCMD1_VPN)
    let arg := d.toNat / 2 ^ 26 % 4
    let ends := fun (c : Instr) (done err : Nat) (q : Option Page) => ∃ t, exec c s = .next t ∧ t.page? key = q
      ∧ (∀ k, k ≠ key → t.page? k = s.page? k) ∧ t.get F.TIER_MSTAT_DONE = done ∧ t.get F.TIER_MSTAT_ERR = err ∧ t.get F.TIER_MSTAT_BUSY = 0 ∧ t.mcmd = none
    let waits := fun (c : Instr) (op : Nat) => ∃ t m, exec c s = .next t ∧ t.mcmd = some m ∧ m.op = op ∧ m.waiting = true ∧ m.done = 0
      ∧ t.get F.TIER_MSTAT_BUSY = 1 ∧ (∀ k, t.page? k = s.page? k)
    (s.page? key = none → s.mapRoom key = true → ends (.map d) 1 0 (some { kind := arg }))
    ∧ (s.page? key = none → s.mapRoom key = false → ends (.map d) 0 4 none) ∧ (∀ p, s.page? key = some p → ends (.map d) 0 3 (some p))
    ∧ (s.page? key = none → ends (.unmap d) 0 2 none ∧ ends (.seal d) 0 2 none ∧ ends (.pin d) 0 2 none ∧ ends (.unpin d) 0 2 none
        ∧ ends (.hint d) 0 2 none ∧ ends (.foldCommand d) 0 2 none)
    ∧ (∀ p, s.page? key = some p →
        (s.moving key = false → ends (.unmap d) 1 0 none) ∧ (s.moving key = true → waits (.unmap d) 2)
        ∧ ((sp.ro = false ∨ p.ro = true ∨ p.neg = true) → ends (.seal d) 0 5 (some p))
        ∧ (sp.ro = true → p.ro = false → p.neg = false → s.sealUnits key ≤ s.freeUnits 3 → waits (.seal d) 3)
        ∧ (sp.ro = true → p.ro = false → p.neg = false → s.freeUnits 3 < s.sealUnits key → ends (.seal d) 0 4 (some p))
        ∧ (p.ro = true ∨ s.inPlace arg = true → (p.zero = true ∨ p.tier = arg ∧ s.moving key = false → ends (.pin d) 1 0 (some { p with pin := true }))
            ∧ (p.zero = false → (p.tier ≠ arg ∨ s.moving key = true) → waits (.pin d) 4))
        ∧ (p.ro = false → s.inPlace arg = false → ends (.pin d) 0 6 (some p))
        ∧ ends (.unpin d) 1 0 (some { p with pin := false })
        ∧ (arg ≠ 3 → ends (.hint d) 1 0 (some { p with hint := arg })) ∧ (arg = 3 → ends (.hint d) 0 7 (some p))
        ∧ (p.ldg = false → ends (.foldCommand d) 1 0 (some p))
        ∧ (p.ldg = true → (s.inPlace p.tier = false ∨ s.moving key = true) → waits (.foldCommand d) 7 ∧ ∃ t, exec (.foldCommand d) s = .next t
            ∧ (t.forcedQ.contains key = true ∨ ∃ m ∈ s.moves, m.page = key ∧ m.kind = .forced))
        ∧ (∀ l, p.ldg = true → s.inPlace p.tier = true → s.moving key = false → s.ledgers.get none key = some l →
            ends (.foldCommand d) 1 0 (some { p with data := l.foldPage (s.pageMode key) (s.merged key .current), ldg := false }))))
  ∧ (∀ (s : State), s.RegsOk → FMap.wf none s.pages = true →
    (∀ d : Word, s.ioReached = true → s.get F.TIER_MSTAT_BUSY = 1 → ∃ t, exec (.map d) s = .next t ∧ t.get F.TIER_MSTAT_BUSYW = 1 ∧ onlyRegs s t
        ∧ regsKept (fun g _ => g.id = F.TIER_MSTAT_BUSYW.id) s t)
    ∧ (∀ d : Word, s.ioReached = true → s.get F.TIER_MSTAT_BUSY = 0 → s.space? (d.toNat / 2 % 2 ^ 12) = none → ∃ t, exec (.unmap d) s = .next t
        ∧ t.get F.TIER_MSTAT_ERR = 1 ∧ t.get F.TIER_MSTAT_ERRF = 1 ∧ t.get F.TIER_MSTAT_BUSY = 0 ∧ t.pages = s.pages)
    ∧ (∀ c p, s.mcmd = some c → c.op = 3 → c.waiting = true → s.page? (pageKey c.space (c.vpn + c.done)) = some p →
        s.sealable (pageKey c.space (c.vpn + c.done)) = true →
        let key := pageKey c.space (c.vpn + c.done)
        (c.npage = c.done + 1 → s.sealUnits key ≤ c.held → ∃ t q, exec (.negativeWriteComplete true) s = .next t ∧ t.page? key = some q ∧ q.neg = true ∧ q.ro = true
            ∧ q.data = s.merged key .current ∧ q.negData = q.data ∧ q.tier = p.tier ∧ (∀ k, k ≠ key → t.page? k = s.page? k)
            ∧ t.get F.TIER_MSTAT_DONE = (c.done + 1) % 2 ^ F.TIER_MSTAT_DONE.width ∧ t.get F.TIER_MSTAT_BUSY = 0 ∧ t.mcmd = none)
        ∧ ∃ t, exec (.negativeWriteComplete false) s = .next t ∧ t.get F.TIER_MSTAT_ERR = 8 ∧ t.get F.TIER_MSTAT_ERRF = 1
            ∧ t.get F.TIER_MSTAT_BUSY = 0 ∧ t.pages = s.pages ∧ t.mcmd = none))

/-- Placement: HEAT_EPOCH_END, DESCENT_SWEEP, MOVE_START, MOVE_LINE_LAND, MOVE_COMPLETE, MOVE_WRITE_FAILURE and WC_FLUSH (R186 to R195, R214, R215). An
epoch halves every heat and brings requested settings into force; a sweep visits a tier's next page, and a cold page that may leave is
queued for descent; a queued move starts in the frame given where the device would choose it; a line of a page without pending update
lands as it is, a tier 1 destination's link taking its WR; at its end, all confirmed, the page has its new home in one step; after a failed
write the move goes on in another frame, and the lines that have landed are sent there again, each as its page holds it; a full entry's bytes, flushed to tier 0, are the line's. The model's choices: the frame is one of those that an open value
names (log entry 105), what a move reads and writes of a stored page (39), what leaves the queues (110), and the unconfirmed SYNC (123). -/
def Obligations.PlacementAndMoves : Prop :=
  ∀ (s : State), s.RegsOk → FMap.wf none s.pages = true →
    (s.get F.IMG_DEV_HEATEPOCH ≠ 0 → s.get F.IMG_DEV_HEATEPOCH * 2 ^ 30 ≤ s.get F.TIER_EBYTE_COUNT → ∃ t, exec .heatEpochEnd s = .next t
        ∧ (∀ k, t.page? k = (s.page? k).map fun p => { p with heat := p.heat / 2 })
        ∧ t.get F.TIER_EPOCH_COUNT = (s.get F.TIER_EPOCH_COUNT + 1) % 2 ^ F.TIER_EPOCH_COUNT.width
        ∧ t.get F.TIER_CFGNOW_ASC = s.get F.TIER_CFG_ASC % 2 ^ F.TIER_CFGNOW_ASC.width
        ∧ t.get F.TIER_CFGNOW_DESC = s.get F.TIER_CFG_DESC % 2 ^ F.TIER_CFGNOW_DESC.width
        ∧ t.get F.TIER_CFGNOW_LOWM = s.get F.TIER_CFG_LOWM % 2 ^ F.TIER_CFGNOW_LOWM.width ∧ t.t3wEpoch = 0)
    ∧ (∀ k key p, k < 3 → s.belowMark k = true → s.nextFrame k (s.sweeps.get {} k).pos = some (key, p) → FMap.wf {} s.sweeps = true →
        let goes := p.pin = false ∧ p.mov = false ∧ (∀ m ∈ s.descentQ, m.page ≠ key) ∧ (p.hint = 2 ∨ p.heat ≤ (s.sweeps.get {} k).d)
        ∃ t, exec (.descentSweep k) s = .next t ∧ (t.sweeps.get {} k).pos = p.frame + 1
          ∧ (∀ e, goes → s.descentTo k p = some e → t.descentQ = s.descentQ ++ [{ page := key, kind := .descent, dest := e }])
          ∧ (¬ goes ∨ s.descentTo k p = none → t.descentQ = s.descentQ) ∧ { t with sweeps := s.sweeps, descentQ := s.descentQ } = s)
    ∧ (∀ k, k < 3 → s.belowMark k = true → s.nextFrame k (s.sweeps.get {} k).pos = none → FMap.wf {} s.sweeps = true →
        ∃ t, exec (.descentSweep k) s = .next t ∧ (t.sweeps.get {} k).pos = 0
          ∧ (t.sweeps.get {} k).d = (if (s.sweeps.get {} k).hit then (s.sweeps.get {} k).d else min 255 (2 * (s.sweeps.get {} k).d))
          ∧ { t with sweeps := s.sweeps } = s)
    ∧ (∀ page frame p m, s.page? page = some p → s.nextMove page = some m → s.moving page = false → s.ctlReset.contains moveCtl = false → p.zero = false → p.tier ≠ m.dest →
        s.moves.length < 64 → s.frameFree m.dest frame (s.moveUnits p m.dest) = true → s.frameChosen m.dest frame = true →
        s.frameOnline m.dest frame (s.moveUnits p m.dest) = true → s.moveUnits p m.dest ≤ s.freeUnits m.dest →
        (m.dest = 3 → s.t3Allowed (4096 * s.moveUnits p m.dest) = true) →
        ∃ t n, exec (.moveStart page frame) s = .next t ∧ n ∈ t.moves ∧ n.page = page ∧ n.frame = frame ∧ n.mp = 0 ∧ n.dest = m.dest
          ∧ t.page? page = some { p with mov := true } ∧ (∀ k, k ≠ page → t.page? k = s.page? k)
          ∧ t.forcedQ.contains page = false ∧ t.ascentQ.contains page = false)
    ∧ (∀ page p m, s.moves.find? (·.page = page) = some m → s.page? page = some p → m.mp < 256 → m.asked = true → (∃ a ∈ s.acts, a.id = m.act) →
        s.lineOut page m.mp = false → s.homeGone page = false → s.homeWaits p.tier p.frame m.mp = false → s.homeWaits m.dest m.frame m.mp = false →
        s.ctlReset.contains moveCtl = false → m.sent = m.mp →
        (let r := s.readPage page .current (256 * m.mp) 256 [] []
         ((r.s.lineCame page m.mp).landWrite m m.mp r.data).isSome = true) →
        (∀ r ∈ s.negReads, r.page ≠ page) → s.wc = [] → p.zero = false → s.ledgers.get none page = none → FMap.wf 0 p.data.bytes = true →
        FMap.wf false p.data.pois = true →
        ∃ t n q, exec (.moveLineLand page [] false) s = .next t ∧ n ∈ t.moves ∧ n.page = page ∧ n.mp = m.mp + 1 ∧ n.sent = m.mp + 1 ∧ n.dest = m.dest
          ∧ t.page? page = some q ∧ (∀ k, q.data.bytes.get 0 k = p.data.bytes.get 0 k) ∧ q.tier = p.tier ∧ q.frame = p.frame
          ∧ ∀ k, k ≠ page → t.page? k = s.page? k)
    ∧ (∀ page p m errs lost, s.moves.find? (·.page = page) = some m → s.page? page = some p → m.sent < m.mp → (∃ a ∈ s.acts, a.id = m.act) →
        s.ctlReset.contains moveCtl = false → s.homeWaits m.dest m.frame (min m.sent 255) = false →
        (s.landWrite m m.sent (p.data.read (256 * m.sent) 256)).isSome = true →
        ∃ t n, exec (.moveLineLand page errs lost) s = .next t ∧ n ∈ t.moves ∧ n.page = page ∧ n.mp = m.mp ∧ n.sent = m.sent + 1
          ∧ ∀ k, t.page? k = s.page? k)
    ∧ (∀ page p m, s.moves.find? (·.page = page) = some m → s.page? page = some p → 256 ≤ m.mp → 256 ≤ m.sent → s.ctlReset.contains moveCtl = false → s.unconfirmed m = false → p.ldg = false → s.mcmd = none → s.actQ = [] →
        ∃ t q, exec (.moveComplete page) s = .next t ∧ t.page? page = some q ∧ q.tier = m.dest ∧ q.mov = false ∧ q.data = p.data
          ∧ q.frame = (if p.toNegative m.dest then p.negFrame else m.frame) ∧ (∀ n ∈ t.moves, n.page ≠ page) ∧ (∀ k, k ≠ page → t.page? k = s.page? k)
          ∧ t.get F.TIER_NASC_COUNT = (if m.dest < p.tier then (s.get F.TIER_NASC_COUNT + 1) % 2 ^ 64 else s.get F.TIER_NASC_COUNT)
          ∧ t.get F.TIER_NDESC_COUNT = (if m.dest < p.tier then s.get F.TIER_NDESC_COUNT else (s.get F.TIER_NDESC_COUNT + 1) % 2 ^ 64))
    ∧ (∀ page frame m, s.moves.find? (·.page = page) = some m → s.frameFree m.dest frame m.units = true → s.frameOnline m.dest frame m.units = true →
        s.frameChosen m.dest frame = true → ∃ t, exec (.moveWriteFailure page frame) s = .next t ∧ (∀ n ∈ t.moves, n.page = page → n.frame = frame ∧ n.sent = 0) ∧ { t with moves := s.moves } = s)
    ∧ (∀ (i : Nat) e p, s.wc[i]? = some e → e.which = .current → s.page? e.page = some p → p.tier = 0 → s.homeWaits 0 p.frame e.line = false → (∀ k, k < 256 → (e.bytes.get none k).isSome = true) →
        (∀ k, 256 ≤ k → e.bytes.get none k = none) → FMap.wf none e.bytes = true → FMap.wf 0 p.data.bytes = true →
        ∃ t q, exec (.wcFlush i []) s = .next t ∧ t.page? e.page = some q
          ∧ (∀ k, k < 256 → some (q.data.bytes.get 0 (256 * e.line + k)) = e.bytes.get none k)
          ∧ (∀ k, (k < 256 * e.line ∨ 256 * e.line + 256 ≤ k) → q.data.bytes.get 0 k = p.data.bytes.get 0 k)
          ∧ (∀ k, k ≠ e.page → t.page? k = s.page? k) ∧ (∀ x ∈ t.wc, x.page = e.page → x.line = e.line → x.which ≠ .current)
          ∧ t.get F.TIER_NWCBF_COUNT = (s.get F.TIER_NWCBF_COUNT + 1) % 2 ^ 64)

/-! ### Takes (R249 to R274) -/

/-- The closing stages PACK_DONE, APPLY_DONE, DERIVE_DONE, STRAGGLER_TIMEOUT and STRIKE (R257, R259 to R264, R269): Pack of one group under GRAD 1,
its pages mapped and not blocked, keeps the packed gradient and goes to Apply, or to Exchange where the group exchanges with another lead;
Apply of one group of a near page without working copies adds the update to each master element in its staged version and changes no
printed page, with the update rules 1, 2 and 3 as R261 gives them; under GRAD 0 Pack adds the error terms, quantizes the sums in blocks of 32 and
stages what is lost as the new error terms (R259); Derive stages the masters of a group with working copies, rounded to F19 (R263), records what
the take is judged by and goes to Printing or Striking; the lead decides an exchange once the straggler time is over, except under the wait policy; a strike
that the host asks for, once step 6 of start-up is over, puts an open take in Striking, and changes nothing otherwise. -/
def Obligations.TakeStages : Prop :=
  ∀ (n : Nat) (s : State), s.RegsOk → FMap.wf {} s.rigs = true →
    let t := (s.rig n).take
    (∀ g, t.state = 3 → t.groups = [g] → g.kind = 1 → s.get F.IMG_RSTC_GRAD n = 1 → s.unmapped (g.grads ++ g.errTerms) = false →
        s.unmapped g.grads = false → s.stageBlocked n g.grads [] = false → FMap.wf 0 t.gc = true →
        (g.xch = false → ∃ u, exec (.packDone n) s = .next u ∧ (u.rig n).take.packed.get [] 0 = (s.packGroup n g).bytes
          ∧ (u.rig n).take.state = 5 ∧ (∀ i v, (s.packGroup n g).vals[i]? = some v → (u.rig n).take.gc.get 0 i = v)
          ∧ (u.rig n).take.nonfin = (t.nonfin || (s.packGroup n g).nonfin) ∧ (u.rig n).take.pois = (t.pois || (s.packGroup n g).pois)
          ∧ u.pages = s.pages)
        ∧ (∀ lead ms, g.xch = true → s.group? g.xgrp = some (lead :: ms) → lead ≠ s.myId → s.myId ∈ ms → s.early = [] → s.exchanges = [] →
          ∃ u y, exec (.packDone n) s = .next u ∧ (u.rig n).take.state = 4 ∧ u.exch? n 0 = some y ∧ y.started = true
            ∧ y.members = lead :: ms ∧ u.pages = s.pages))
    ∧ (∀ g key p, t.state = 5 → t.groups = [g] → g.kind = 1 → g.wk = false → rangePages g.space g.maddr (4 * g.nelem) = [(key, 4 * g.nelem)] →
        s.page? key = some p → p.tier ≤ 1 → s.stageBlocked n [key] [key] = false → s.stagedVer? key n = none → s.wc = [] →
        FMap.wf 0 p.data.bytes = true → (s.groupUpdates n (g, 0)).length = g.nelem →
        ∃ u v, exec (.applyDone n) s = .next u ∧ (u.rig n).take.state = 6 ∧ u.stagedVer? key n = some v ∧ u.pages = s.pages
          ∧ ∀ i, i < g.nelem → leNat (v.data.bytesAt (4 * i) 4)
            = (fAdd (s.nmode n false) (leNat (p.data.bytesAt (4 * i) 4)) ((s.groupUpdates n (g, 0)).getD i 0)).1 % 2 ^ 32)
    ∧ (∀ (md : NMode) (rule rowlen eta lam eps : Nat) (ghat ws : List Nat), ghat.length = ws.length → 0 < rowlen → ghat.length % rowlen = 0 →
        rule = 1 ∨ rule = 2 ∨ rule = 3 → ∀ i x w : Nat, ghat[i]? = some x → ws[i]? = some w →
        let row := (ghat.drop (i / rowlen * rowlen)).take rowlen
        let div := fun a b => exactOp md (fun m => fDivK m 1 0) a b
        let mean := fun (l : List Nat) => div (rowSum md l) (intToFp32 md rowlen).1
        let step := if rule = 1 then x else if rule = 2 then (fMul md (mean (row.map (· % 2 ^ 31))) (sgnOf x)).1
          else div x (fAdd md (exactOp md (fun m x _ => fSqrt m 0 x) (mean (row.map fun g => (fMul md g g).1)) 0) eps).1
        (updates md rule rowlen eta lam eps ghat ws)[i]? = some (fMul md (fNeg eta) (fAdd md step (fMul md lam w).1).1).1)
    ∧ (∀ g key p, t.state = 3 → t.groups = [g] → g.kind = 1 → g.xch = false → s.get F.IMG_RSTC_GRAD n ≠ 1 →
        s.unmapped (g.grads ++ g.errTerms) = false → s.stageBlocked n g.grads g.errTerms = false →
        rangePages g.space g.eaddr (2 * g.nelem) = [(key, 2 * g.nelem)] → s.page? key = some p → s.stagedVer? key n = none → s.wc = [] →
        FMap.wf 0 p.data.bytes = true → FMap.wf 0 t.gc = true → g.nelem % 32 = 0 →
        let gs := s.stageElems n g.space g.gaddr 4 g.nelem
        let es := s.stageElems n g.space g.eaddr 2 g.nelem
        gs.length = g.nelem → es.length = g.nelem →
        let md := s.nmode n false
        let sums := (gs.zip es).map fun x => (fAdd md (fMul md x.1.1 ((127 - t.lsLog) * 2 ^ 23)).1 (s16ToFp32 md x.2.1).1).1
        let code := fun (i : Nat) => let q := g8Quant md ((sums.drop (i / 32 * 32)).take 32); (g8Value md q.1 (q.2.1.getD (i % 32) 0)).1
        ∃ u v, exec (.packDone n) s = .next u ∧ (u.rig n).take.packed.get [] 0 = (s.packGroup n g).bytes ∧ (u.rig n).take.state = 5
          ∧ u.stagedVer? key n = some v ∧ u.pages = s.pages
          ∧ ∀ i x, sums[i]? = some x → (u.rig n).take.gc.get 0 i = code i ∧ leNat (v.data.bytesAt (2 * i) 2) = toS16 md (fSub md x (code i)).1 % 2 ^ 16)
    ∧ (∀ g key p, t.state = 6 → t.derived = none → t.groups = [g] → g.kind = 1 → g.wk = true → s.unmapped (g.masters ++ g.works) = false →
        s.stageBlocked n g.masters g.works = false → rangePages g.space g.waddr (4 * g.nelem) = [(key, 4 * g.nelem)] → s.page? key = some p →
        s.stagedVer? key n = none → s.wc = [] → FMap.wf 0 p.data.bytes = true → s.mirrorsPages = false →
        ∃ u v, exec (.deriveDone n) s = .next u ∧ ((u.rig n).take.state = 7 ∨ (u.rig n).take.state = 8) ∧ u.stagedVer? key n = some v ∧ u.pages = s.pages
          ∧ ∀ i m, (s.stageElems n g.space g.maddr 4 g.nelem)[i]? = some m →
            leNat (v.data.bytesAt (4 * i) 4) = (toF19 (s.nmode n false) false m.1).1 % 2 ^ 32)
    ∧ (t.state = 6 → t.derived = none → t.trainable = [] → s.mirrorsPages = false →
        ∃ u, exec (.deriveDone n) s = .next u ∧ (u.rig n).take.state = (if s.takeCause n = 0 then 7 else 8) ∧ u.pages = s.pages
          ∧ ∃ r ∈ u.log, r.rig = n ∧ (match r.kind with
            | .ddone k rec _ _ _ _ => k = t.num ∧ rec = t.bits
            | _ => False))
    ∧ (∀ g x, s.exch? n g = some x → x.started = true → x.masked = false → x.members.head? = some s.myId →
        x.readyAt + 1000 * s.get F.IMG_TSTRGN_TIME n ≤ s.now →
        (t.strag ≠ 2 → ∃ u, exec (.stragglerTimeout n g) s = .next u ∧ ∀ y, u.exch? n g = some y → y.masked = true)
        ∧ (t.strag = 2 → (∃ i ∈ x.members, x.verdicts.get none i = none) → exec (.stragglerTimeout n g) s = .next s))
    ∧ (∀ d : Word, s.ioReached = true → d.toNat % 2 = 1 → 1 ≤ t.state → t.state ≤ 6 → ∃ u, exec (.strike n d) s = .next u ∧ (u.rig n).take.state = 8
        ∧ (u.rig n).take.driver = true ∧ u.pages = s.pages)
    ∧ ∀ d : Word, (d.toNat % 2 = 0 ∨ t.state = 0 ∨ 7 ≤ t.state) → exec (.strike n d) s = .next s

/-- The end of a take, PRINT_RECORD_WRITTEN, PRINT_COMPLETE and STRIKE_COMPLETE, and EXPORT and IMPORT (R265 to R268, R272, R273): the print's record is
written, with no twin, and LSGROW's new value comes into force; the one staged version becomes the page's content at once and the take is
over with one more take number, unless an earlier version that an unfinished part names finds no free frame, when it waits (R349); a strike, its tasks over, frees the staged versions and leaves every page as it was. Once step 6 of start-up
is over, an export of 64 elements writes the masters rounded to F19, an import of 64 the truncated values over the masters of a state
group; each errs in an open take, for a group that does not exist and for a range that the rig may not use, an export waits while a page
of its group moves, and each is ignored with BUSYW while one waits (how a wait goes on is the model's choice, log entry 109, as are the folds that
it waits for, 42). -/
def Obligations.TakeEnds : Prop :=
  ∀ (n : Nat) (s : State), s.RegsOk → FMap.wf {} s.rigs = true → FMap.wf none s.pages = true →
    let t := (s.rig n).take
    (t.state = 7 → t.recorded = false → s.printRecord n = none → s.mirrors = false → ∃ u, exec (.printRecordWritten n) s = .next u
        ∧ (u.rig n).take.recorded = true ∧ u.get F.IMG_RLNOW_LSGROW n = s.get F.IMG_RLIVE_LSGROW n % 2 ^ F.IMG_RLNOW_LSGROW.width
        ∧ (∃ r ∈ u.log, r.rig = n ∧ ∃ a b, r.kind = .fin true 0 ((t.num + 1) % 2 ^ 32) a b) ∧ u.pages = s.pages)
    ∧ (∀ v p, t.state = 7 → t.recorded = true → s.moves = [] → s.staged = [v] → v.rig = n → s.stagedLedgers = [] → s.page? v.page = some p →
        s.heldShort [v.page] = false → s.wc = [] → s.mcmd = none → s.compls = [] →
        ∃ u q, exec (.printComplete n) s = .next u ∧ u.page? v.page = some q ∧ q.data = v.data ∧ q.ver = p.ver + 1 ∧ q.zero = false
          ∧ (∀ k, k ≠ v.page → u.page? k = s.page? k) ∧ u.staged = [] ∧ (u.rig n).take.state = 0
          ∧ u.get F.IMG_TNUM_NUM n = (s.get F.IMG_TNUM_NUM n + 1) % 2 ^ 32 ∧ u.get F.IMG_TSTAT_CAUSE n = 0
          ∧ u.get F.IMG_TNPRT_COUNT n = (s.get F.IMG_TNPRT_COUNT n + 1) % 2 ^ F.IMG_TNPRT_COUNT.width)
    ∧ (∀ v, t.state = 7 → t.recorded = true → s.moves = [] → s.staged = [v] → v.rig = n → s.stagedLedgers = [] → s.heldShort [v.page] = true →
        ∃ u, exec (.printComplete n) s = .next u ∧ { u with heldQ := s.heldQ } = s ∧ (v.page, 0) ∈ u.heldQ)
    ∧ (t.state = 8 → s.takeTasksOver n 0 = true → s.compls = [] → ∃ u, exec (.strikeComplete n) s = .next u ∧ u.pages = s.pages
        ∧ u.staged = s.staged.filter (·.rig ≠ n) ∧ (u.rig n).take.state = 0 ∧ u.get F.IMG_TNUM_NUM n = (s.get F.IMG_TNUM_NUM n + 1) % 2 ^ 32
        ∧ u.get F.IMG_TSTAT_CAUSE n = s.takeCause n % 2 ^ F.IMG_TSTAT_CAUSE.width
        ∧ u.get F.IMG_TNSTR_COUNT n = (s.get F.IMG_TNSTR_COUNT n + 1) % 2 ^ F.IMG_TNSTR_COUNT.width)
    ∧ (∀ d : Word, s.ioReached = true → s.rigAway n = false → s.txBusy n = true → (∃ u, exec (.exportGroup n d) s = .next u ∧ u.get F.IMG_TXSTAT_BUSYW n = 1 ∧ onlyRegs s u)
        ∧ ∃ u, exec (.importGroup n d) s = .next u ∧ u.get F.IMG_TXSTAT_BUSYW n = 1 ∧ onlyRegs s u)
    ∧ (s.ioReached = true → s.rigAway n = false → s.txs = [] → ∀ d : Word,
        (t.state ≠ 0 → (∃ u, exec (.exportGroup n d) s = .next u ∧ u.get F.IMG_TXSTAT_ERR n = 1 ∧ u.get F.IMG_TXSTAT_ERRF n = 1 ∧ onlyRegs s u)
          ∧ ∃ u, exec (.importGroup n d) s = .next u ∧ u.get F.IMG_TXSTAT_ERR n = 1 ∧ u.get F.IMG_TXSTAT_ERRF n = 1 ∧ onlyRegs s u)
        ∧ (t.state = 0 → t.groups[d.toNat / 2 ^ 16 % 2 ^ 12]? = none →
          (∃ u, exec (.exportGroup n d) s = .next u ∧ u.get F.IMG_TXSTAT_ERR n = 2 ∧ onlyRegs s u)
          ∧ ∃ u, exec (.importGroup n d) s = .next u ∧ u.get F.IMG_TXSTAT_ERR n = 2 ∧ onlyRegs s u)
        ∧ (∀ g, t.state = 0 → t.groups[d.toNat / 2 ^ 16 % 2 ^ 12]? = some g →
          (s.txRange n g.nelem true = none → ∃ u, exec (.exportGroup n d) s = .next u ∧ u.get F.IMG_TXSTAT_ERR n = 3 ∧ onlyRegs s u)
          ∧ (s.txRange n g.nelem false = none → ∃ u, exec (.importGroup n d) s = .next u ∧ u.get F.IMG_TXSTAT_ERR n = 3 ∧ onlyRegs s u))
        ∧ (∀ g sp addr m, t.state = 0 → t.groups[d.toNat / 2 ^ 16 % 2 ^ 12]? = some g → s.unmapped g.masters = false → m ∈ s.moves → m.page ∈ g.masters →
          s.txRange n g.nelem true = some (sp, addr) → ∃ u, exec (.exportGroup n d) s = .next u ∧ u.txBusy n = true ∧ u.pages = s.pages
            ∧ u.txs = [{ rig := n, imp := false, group := d.toNat / 2 ^ 16 % 2 ^ 12, space := sp, addr := addr }])
        ∧ (∀ g sp addr p, t.state = 0 → t.groups[d.toNat / 2 ^ 16 % 2 ^ 12]? = some g → g.nelem = 64 → s.txRange n g.nelem true = some (sp, addr) →
          s.unmapped g.masters = false → s.moves = [] → s.ledgeredOf g.masters = [] → s.wc = [] → s.outVers = [] → s.page? (keyOf sp addr) = some p →
          s.placeReadyAll (rangeSpan sp addr 256) = true → FMap.wf 0 p.data.bytes = true →
          ∃ u q, exec (.exportGroup n d) s = .next u ∧ u.page? (keyOf sp addr) = some q ∧ (∀ k, k ≠ keyOf sp addr → u.page? k = s.page? k)
            ∧ ∀ i m, (s.currentElems g.space g.maddr 4 64)[i]? = some m →
              leNat (q.data.bytesAt (addr % 65536 + 4 * i) 4) = (toF19 (s.nmode n false) false m.1).1 % 2 ^ 32)
        ∧ (∀ g sp addr p, t.state = 0 → t.groups[d.toNat / 2 ^ 16 % 2 ^ 12]? = some g → g.nelem = 64 → g.kind ≠ 1 → g.wk = false →
          s.txRange n g.nelem false = some (sp, addr) → g.maddr % 256 = 0 → g.masters = [keyOf g.space g.maddr] → s.page? (keyOf g.space g.maddr) = some p →
          s.moves = [] → p.ldg = false → s.ledgeredOf (rangeSpan sp addr 256) = [] → s.wc = [] → s.outVers = [] → s.placeReadyAll g.masters = true → FMap.wf 0 p.data.bytes = true →
          ∃ u q, exec (.importGroup n d) s = .next u ∧ u.page? (keyOf g.space g.maddr) = some q
            ∧ (∀ k, k ≠ keyOf g.space g.maddr → u.page? k = s.page? k)
            ∧ ∀ i m, (s.currentElems sp addr 4 64)[i]? = some m → leNat (q.data.bytesAt (g.maddr % 65536 + 4 * i) 4) = m.1 / 2 ^ 13 * 2 ^ 13))

/-! ### Maintenance (R223, R228 to R231, R242 to R247) -/

/-- EVACUATE, RETRAIN, RETIRE, CHANNEL_MARGIN_LOW, EVAC_COPY_COMPLETE and CHANNEL_RETRAIN_COMPLETE (R228, R229, R231): a host's command, once step 6
of start-up is over, without GO or while one is under way only shows its fields; on a channel that is not in service it errs with 2,
without a spare with 1; else it is under way and the arbiter has its activity; a low margin asks for an evacuation. The end of a copy
without errors moves the logical number to the spare in one step; a retired channel is lost to service, another
is retrained and becomes a spare; a retrain in place that fails stops every rig. That the copy is by frame, with CP moving as time passes and its
end the operand of a command, and that no copy ends while the move controller resets, is the model's choice (log entries 91, 132, 162). -/
def Obligations.ChannelMaintenance : Prop :=
  ∀ (s : State), s.RegsOk → FMap.wf {} s.chans = true → FMap.wf {} s.rigs = true →
    (∀ (d : Word) (cmd : Instr) (op c : Nat), s.ioReached = true → op = d.toNat / 2 ^ 28 % 16 → c = d.toNat / 2 % 256 →
      ((cmd = .evacuate d ∧ op = 1) ∨ (cmd = .retrain d ∧ op = 2) ∨ (cmd = .retire d ∧ op = 3)) →
      ((d.toNat % 2 = 0 ∨ s.get F.MEM_CHSTAT_BUSY ≠ 0) → ∃ t, exec cmd s = .next t ∧ t.get F.MEM_CHCMD_OP = op ∧ t.get F.MEM_CHCMD_PCH = c ∧ onlyRegs s t
        ∧ regsKept (fun f i => i = 0 ∧ (f.id = F.MEM_CHCMD_OP.id ∨ f.id = F.MEM_CHCMD_PCH.id)) s t)
      ∧ (d.toNat % 2 = 1 → s.get F.MEM_CHSTAT_BUSY = 0 →
        (s.get F.MEM_CHMAP_ROLE c ≠ 0 → ∃ t, exec cmd s = .next t ∧ t.get F.MEM_CHSTAT_ERR = 2 ∧ t.get F.MEM_CHSTAT_ERRF = 1 ∧ onlyRegs s t)
        ∧ (s.get F.MEM_CHMAP_ROLE c = 0 → (s.chan c).op = 0 → op ≠ 2 → s.sparesOf (c / 32) = [] →
          ∃ t, exec cmd s = .next t ∧ t.get F.MEM_CHSTAT_ERR = 1 ∧ t.get F.MEM_CHSTAT_ERRF = 1 ∧ onlyRegs s t)
        ∧ (s.get F.MEM_CHMAP_ROLE c = 0 → (s.chan c).op = 0 → (op = 2 ∨ s.sparesOf (c / 32) ≠ []) →
          ∃ t, exec cmd s = .next t ∧ t.get F.MEM_CHSTAT_BUSY = 1 ∧ t.get F.MEM_CHSTAT_PCH = c ∧ t.get F.MEM_CHSTAT_ERR = 0 ∧ t.pages = s.pages
            ∧ (t.chan c).cmd = true ∧ (t.chan c).retire = ((s.chan c).retire || decide (op = 3)) ∧ (t.chan c).op = (if op = 2 then 2 else 1)
            ∧ (op ≠ 2 → (t.chan c).dst ∈ s.sparesOf (c / 32))
            ∧ ∃ a ∈ t.acts ++ t.actQ, a.kind = (if op = 2 then 3 else 1) ∧ a.arg = c ∧ c ∈ a.res)))
    ∧ (∀ c, s.online = true → s.get F.MEM_CHMAP_ROLE c = 0 → (s.chan c).op = 0 → s.sparesOf (c / 32) ≠ [] →
        ∃ t, exec (.channelMarginLow c) s = .next t ∧ (t.chan c).op = 1 ∧ (t.chan c).dst ∈ s.sparesOf (c / 32) ∧ t.pages = s.pages
          ∧ ∃ a ∈ t.acts ++ t.actQ, a.kind = 1 ∧ a.arg = c)
    ∧ (∀ c a x, s.actFor 1 c = some a → s.chan c = x → x.dst ≠ c → s.actQ = [] → s.ctlReset.contains moveCtl = false →
        ∃ t, exec (.evacCopyComplete c []) s = .next t ∧ t.get F.MEM_CHMAP_LOGICAL x.dst = s.get F.MEM_CHMAP_LOGICAL c % 2 ^ F.MEM_CHMAP_LOGICAL.width
          ∧ t.get F.MEM_CHMAP_LOGICAL c = 0x1FF ∧ t.get F.MEM_CHMAP_ROLE x.dst = 0
          ∧ (∀ e, e ≠ c → e ≠ x.dst → t.get F.MEM_CHMAP_LOGICAL e = s.get F.MEM_CHMAP_LOGICAL e ∧ t.get F.MEM_CHMAP_ROLE e = s.get F.MEM_CHMAP_ROLE e)
          ∧ t.get F.TWN_NSUB_COUNT = (s.get F.TWN_NSUB_COUNT + 1) % 2 ^ F.TWN_NSUB_COUNT.width ∧ t.pages = s.pages
          ∧ (x.retire = true → t.get F.MEM_CHMAP_ROLE c = 2 ∧ (t.chan c).op = 0)
          ∧ (x.retire = false → (t.chan c).op = 3 ∧ ∃ b ∈ t.acts ++ t.actQ, b.kind = 3 ∧ b.arg = c))
    ∧ (∀ c a ok dq, s.actFor 3 c = some a → s.actQ = [] →
        ∃ t, exec (.channelRetrainComplete c ⟨ok, dq⟩) s = .next t ∧ (t.chan c).op = 0
          ∧ t.get F.MEM_CHMAP_ROLE c = (if !ok then 2 else if (s.chan c).op = 2 then 0 else 1)
          ∧ ((s.chan c).op = 2 → ok = false → ∀ n, (s.rig n).exists_ = true → s.rigLive n = true → (t.rig n).killed = true))
    ∧ (∀ c errs ok dq, s.actFor 1 c = none → s.actFor 3 c = none →
        exec (.evacCopyComplete c errs) s = .next s ∧ exec (.channelRetrainComplete c ⟨ok, dq⟩) s = .next s)

/-- SCRUB_UNIT, SCRUB_PASS and MAINT_UNIT_END (R245 to R247), CONTROLLER_PARITY_ERROR, CONTROLLER_RESET_DONE, CXL_COMPLETION_TIMEOUT, CXL_LINK_DOWN and
NVME_COMMAND_TIMEOUT (R223, R242, R243): a scrub unit that is due, of a tile store or without errors of the staging pool, corrects its words and goes on
to the next unit, stops the scrubber where RATIO has become 0, or waits for what the arbiter runs; a pass, asked for once step 6 of
start-up is over, covers tiers 0 and 1; the copy of a firmware image ends with its first unit, which verifies it: a bad image ends the
operation with an error, a good one leaves the copy in flash at free bytes until it is written; a controller resets, with no read under way,
and after it accepts requests again, and the moves of the move controller send their lines again; a request that fails has lost its line of a
plain page for the reads that wait for it; a CXL device that is gone is offline, its requests are over and the lines of its pages are lost.
The model's choices: what a unit's traffic is (log 51), when the copy ends (log 45), what a controller discards and repeats (log 92), the number
of the move controller (log 162), when a drive's requests go (log 131). -/
def Obligations.MaintenanceUnits : Prop :=
  ∀ (s : State), s.RegsOk →
    (∀ mem errs, s.scrubDue mem = true → (s.scrubs.get {} mem).pos < s.scrubSpan mem →
      s.actWaits 0 mem = false → s.actFor 0 mem = none → FMap.wf {} s.scrubs = true → FMap.wf {} s.tiles = true →
      let x := s.scrubs.get {} mem
      let a : Act := { kind := 0, res := s.scrubRes mem x.pos, arg := mem }
      ((s.acts.any a.bars || s.actQ.any a.bars) = false → s.get F.MEM_SCRB_RATIO = 0 → x.pass = 0 →
        ∃ t, exec (.scrubUnit mem errs) s = .next t ∧ t.get F.MEM_SCRBNOW_RATIO = 0 ∧ onlyRegs s t
          ∧ regsKept (fun g _ => g.id = F.MEM_SCRBNOW_RATIO.id) s t)
      ∧ ((s.acts.any a.bars || s.actQ.any a.bars) = false → (mem = 0 ∨ mem = 1 ∧ errs = []) →
        (s.get F.MEM_SCRB_RATIO % 2 ^ F.MEM_SCRBNOW_RATIO.width ≠ 0 ∨ 0 < x.pass) → ∃ t, exec (.scrubUnit mem errs) s = .next t
          ∧ t.scrubs.get {} mem = { pos := if x.pos + 1 < s.scrubSpan mem then x.pos + 1 else 0, pass := x.pass - 1
                                    traffic := x.traffic - if 0 < x.pass then 0 else 16 * s.get F.MEM_SCRBNOW_RATIO }
          ∧ t.get F.MEM_SCRBNOW_RATIO = s.get F.MEM_SCRB_RATIO % 2 ^ F.MEM_SCRBNOW_RATIO.width ∧ t.pages = s.pages
          ∧ (mem = 0 → errs ≠ [] → (t.tile (x.pos / 1536)).store
              = ((s.tile (x.pos / 1536)).store.ecc (512 * (x.pos % 1536)) 512 errs (Config.freeNat s.fresh)).c))
      ∧ ((s.acts.any a.bars || s.actQ.any a.bars) = true → ∃ t, exec (.scrubUnit mem errs) s = .next t ∧ t.scrubs = s.scrubs ∧ t.tiles = s.tiles
          ∧ t.pages = s.pages ∧ ∃ b ∈ t.actQ, b.kind = 0 ∧ b.arg = mem))
    ∧ (∀ d : Word, s.ioReached = true → FMap.wf {} s.scrubs = true → ∃ t, exec (.scrubPass d) s = .next t ∧ t.get F.MEM_SCRB_RATIO = d.toNat / 2 ^ 16
        ∧ (d.toNat % 2 = 1 → (t.scrubs.get {} 2).pass = s.scrubSpan 2 ∧ (t.scrubs.get {} 3).pass = s.scrubSpan 3 ∧ (t.scrubs.get {} 2).pos = (s.scrubs.get {} 2).pos
            ∧ { t with regs := s.regs, scrubs := s.scrubs } = s)
        ∧ (d.toNat % 2 = 0 → onlyRegs s t))
    ∧ (∀ n, s.acts.find? (·.id = n) = none → exec (.maintUnitEnd n) s = .next s)
    ∧ (∀ n a, s.acts.find? (·.id = n) = some a →
        (a.kind = 5 → s.fwOp = none → exec (.maintUnitEnd n) s = .next s)
        ∧ (∀ f, a.kind = 5 → s.actQ = [] → s.fwOp = some f →
          (f.copying = false → exec (.maintUnitEnd n) s = .next s)
          ∧ (f.copying = true → fwVerifies f.img = true → s.fuseSvn ≤ fwSvnOf f.img → ∃ t, exec (.maintUnitEnd n) s = .next t
              ∧ t.fwOp = some { f with copying := false } ∧ (∃ b, t.flashImg = s.flashImg.set none (1 - s.get F.SEC_BOOT_FWCOPY) (some b) ∧ b.length = f.img.length)
              ∧ { t with fwOp := s.fwOp, flashImg := s.flashImg, fresh := s.fresh } = s)
          ∧ (f.copying = true → (fwVerifies f.img = false ∨ fwSvnOf f.img < s.fuseSvn) → ∃ t, exec (.maintUnitEnd n) s = .next t
              ∧ t.fwOp = none ∧ t.get F.SEC_FWSTAT_BUSY = 0 ∧ t.get F.SEC_FWSTAT_ERRF = 1 ∧ t.flashImg = s.flashImg ∧ t.acts = s.acts.filter (·.id ≠ n)
              ∧ t.get F.SEC_FWSTAT_ERR = (if fwVerifies f.img = false then 1 else 2)))
        ∧ (a.kind = 6 → a.arg < 8 → s.get F.MEM_BSTAT_STATE a.arg ≠ 2 → exec (.maintUnitEnd n) s = .next s)
        ∧ (a.kind ≠ 5 → a.kind ≠ 6 → exec (.maintUnitEnd n) s = .next s))
    ∧ (∀ port unread, (s.ctlReset.contains port = false → (∀ p e g, s.gen? p e = some g → ∀ x ∈ g.xfers, x.write = true ∨ x.arrived = true) →
            ∃ t, exec (.controllerParityError ⟨port, unread⟩) s = .next t ∧ t.ctlReset = s.ctlReset ++ [port] ∧ t.log = (s.noteUnread unread).log
              ∧ { t with regs := s.regs, ctlReset := s.ctlReset, log := s.log } = s ∧ regsKept (fun g _ => evField g) s t)
        ∧ (s.ctlReset.contains port = true → exec (.controllerParityError ⟨port, unread⟩) s = .next s)
        ∧ (s.ctlReset.contains port = true → FMap.wf 0 s.flog.counters = true →
            ∃ t, exec (.controllerResetDone port) s = .next t ∧ t.ctlReset = s.ctlReset.filter (· ≠ port)
              ∧ t.flog.counters.get 0 717 = s.flog.counters.get 0 717 + 1 ∧ t.tiles = s.tiles ∧ t.pages = s.pages
              ∧ (port ≠ moveCtl → t.portReqs = s.portReqs ∧ t.moves = s.moves)
              ∧ (port = moveCtl → t.moves = s.moves.map fun m => { m with sent := if m.dest = 0 then m.sent else 0 }))
        ∧ (s.ctlReset.contains port = false → exec (.controllerResetDone port) s = .next s))
    ∧ (∀ (cmd : Instr) (port dev req : Nat) (r : PortReq) (pg : Page), s.page? r.page = some pg → pg.cmp = false →
        ((∃ x, cmd = .cxlCompletionTimeout x req ∧ port = 18 + x ∧ dev = r.dev) ∨ (cmd = .nvmeCommandTimeout dev req ∧ port = 20)) →
        s.portReqs.filter (fun q => q.id = req) = [r] → r.port = port → r.dev = dev →
        ∃ t, exec cmd s = .next t ∧ t.portReqs = s.portReqs.filter (fun q => q.id ≠ req) ∧ t.regs = s.regs ∧ t.pages = s.pages
          ∧ ∀ p e g, (s.eng p e).run = .ready g → (t.eng p e).run = .ready { g with xfers := g.xfers.map fun x =>
              if (!x.write && !x.arrived && x.base.cls == 0 && x.base.space == spaceOf r.page && x.lines.contains (vpnOf r.page * 256 + r.line)) = true
              then { x with lost := x.lost ++ [vpnOf r.page * 256 + r.line] } else x })
    ∧ ∀ x dev, x < 2 → s.moves = [] → FMap.wf none s.pages = true →
        let gone := fun (i : Nat) (d : MemDev) => d.port = 18 + x ∧ ∀ j, dev = some j → j = i
        ∃ t, exec (.cxlLinkDown ⟨x, dev⟩) s = .next t
          ∧ t.t2 = s.t2.zipIdx.map (fun d => if d.1.port = 18 + x && dev.all (· = d.2) then { d.1 with online := false } else d.1)
          ∧ (∀ r ∈ t.portReqs, r ∈ s.portReqs ∧ ¬ (r.port = 18 + x ∧ ∀ j, dev = some j → j = r.dev))
          ∧ (∀ k p, s.page? k = some p → p.tier ≠ 2 → t.page? k = some p)
          ∧ ∀ k p i d, s.page? k = some p → p.tier = 2 → p.zero = false → p.ro = false → s.t2[i]? = some d → d.online = true → gone i d →
            d.base ≤ p.frame → p.frame < d.base + d.units → ∃ q, t.page? k = some q ∧ q.linePois = (p.linePois ++ List.range 256).eraseDups

/-! ### Voltage points, ramps and temperatures (R380 to R385, R442) -/

/-- POINT_WRITE, RAMP_START, RAMP_COMPLETE and VCMD_REPEAT (R380, R381, R442), the host's write once step 6 of start-up is over: a point that the island does not have is refused with BADW; another is asked for,
and the point in force follows it, less the thermal cap, through a ramp that waits in order behind every thermal one; at most four islands ramp
at once, and a start, or a change of target during a ramp, sends the target's frame twice; the end of a ramp changes no point. The repeated
frame carries the point last sent, so that an island whose ramp waits is not driven to its new point before (log 96). A frame has SYNC 101 on top, ten bits of CODE and even parity
over bits 12 to 0.
THERMAL_SAMPLE for one island among islands that are cool (R384, R385, R421, R438): over the limit the cap goes up by one step and the island ramps; at 110 °C
the island trips, and a trip of an array island stops exactly the rigs with a tile there; below the limit by the hysteresis the cap goes down
by one; a cap holds for 20 samples; TEMP, TMAX and the residency take every sample; the pins show the trip. That only a step that lowers the
point counts in PWR_NTHR is the model's choice (log entry 96). -/
def Obligations.PointsRampsAndTemperatures : Prop :=
  (∀ (s : State) (i : Nat), s.RegsOk → FMap.wf 1 s.driven = true → FMap.wf 800000 s.vtarget = true →
    (∀ d : Word, s.ioReached = true → (d.toNat % 4 = 3 ∨ (i = 17 ∧ d.toNat % 4 ≠ 1)) → ∃ t, exec (.pointWrite i d) s = .next t ∧ t.get F.PWR_VP_BADW i = 1 ∧ onlyRegs s t
        ∧ regsKept (fun f j => j = i ∧ f.id = F.PWR_VP_BADW.id) s t)
    ∧ (∀ (d : Word) (p : Nat), s.ioReached = true → d.toNat % 4 ≠ 3 → i < 17 → s.tripHold = false → s.get F.PWR_VP_TRIPPED i = 0 → p = d.toNat % 4 - s.get F.PWR_VP_CAP i →
        (s.get F.PWR_VP_PTNOW i = p → ∃ t, exec (.pointWrite i d) s = .next t ∧ t.get F.PWR_VP_POINT i = d.toNat % 4 ∧ t.get F.PWR_VP_PTNOW i = p
          ∧ onlyRegs s t ∧ (d.toNat / 2 ^ 8 % 2 = 1 → t.get F.PWR_VP_BADW i = 0))
        ∧ (s.get F.PWR_VP_PTNOW i ≠ p → s.ramping.contains i = false → (∀ r ∈ s.rampQ, r.island ≠ i) →
          ∃ t, exec (.pointWrite i d) s = .next t ∧ t.get F.PWR_VP_POINT i = d.toNat % 4 ∧ t.get F.PWR_VP_PTNOW i = p ∧ t.get F.PWR_VP_RAMP i = 1
            ∧ t.rampQ = s.rampQ ++ [{ island := i, thermal := false }] ∧ { t with regs := s.regs, rampQ := s.rampQ } = s)
        ∧ (s.get F.PWR_VP_PTNOW i ≠ p → s.ramping.contains i = true →
          ∃ t, exec (.pointWrite i d) s = .next t ∧ t.get F.PWR_VP_PTNOW i = p ∧ t.rampQ = s.rampQ ∧ t.ramping = s.ramping
            ∧ t.driven.get 1 i = p ∧ t.vtarget.get 800000 i = 400000 + 1000 * vcode p
            ∧ t.out = s.out ++ [.vcmd i (400000 + 1000 * vcode p) (vframe p), .vcmd i (400000 + 1000 * vcode p) (vframe p)]
            ∧ { t with regs := s.regs, driven := s.driven, vtarget := s.vtarget, out := s.out } = s))
    ∧ (∀ (d : Word), s.ioReached = true → d.toNat % 4 = 1 → i = 17 → s.get F.PWR_VP_PTNOW 17 = 1 →
        ∃ t, exec (.pointWrite i d) s = .next t ∧ t.get F.PWR_VP_POINT 17 = 1 ∧ t.get F.PWR_VP_PTNOW 17 = 1 ∧ onlyRegs s t)
    ∧ (∀ r l p, s.rampQ = r :: l → r.island = i → i < 17 → p = s.get F.PWR_VP_PTNOW i → s.ramping.length < 4 → ∃ t, exec (.rampStart i) s = .next t
        ∧ t.rampQ = l ∧ t.ramping = s.ramping ++ [i]
        ∧ t.out = s.out ++ [.vcmd i (400000 + 1000 * vcode p) (vframe p), .vcmd i (400000 + 1000 * vcode p) (vframe p)]
        ∧ t.driven.get 1 i = p ∧ t.vtarget.get 800000 i = 400000 + 1000 * vcode p ∧ (∀ j, j ≠ i → t.driven.get 1 j = s.driven.get 1 j)
        ∧ { t with regs := s.regs, rampQ := s.rampQ, ramping := s.ramping, out := s.out, driven := s.driven, vtarget := s.vtarget } = s)
    ∧ ((4 ≤ s.ramping.length ∨ s.rampQ.head?.map (·.island) ≠ some i) → exec (.rampStart i) s = .next s)
    ∧ (s.ramping.contains i = true → ∃ t, exec (.rampComplete i) s = .next t ∧ t.get F.PWR_VP_RAMP i = 0 ∧ t.ramping = s.ramping.filter (· ≠ i)
        ∧ regsKept (fun f j => j = i ∧ f.id = F.PWR_VP_RAMP.id) s t ∧ t.volts = s.volts.set 800000 i (s.vtarget.get 800000 i) ∧ { t with regs := s.regs, ramping := s.ramping, volts := s.volts } = s)
    ∧ (s.ramping.contains i = false → exec (.rampComplete i) s = .next s)
    ∧ (i < 17 → exec (.vcmdRepeat i) s = .next { s with
        vtarget := s.vtarget.set 800000 i (400000 + 1000 * vcode (s.driven.get 1 i))
        out := s.out ++ [.vcmd i (400000 + 1000 * vcode (s.driven.get 1 i)) (vframe (s.driven.get 1 i))] })
    ∧ (17 ≤ i → exec (.vcmdRepeat i) s = .next s)
    ∧ ∀ p, p < 3 → vframe p / 2 ^ 13 = 5 ∧ vframe p % 2 ^ 10 = vcode p ∧ ((List.range 13).filter fun b => (vframe p).testBit b).length % 2 = 0
        ∧ 400 + vcode p = (if p = 0 then 660 else if p = 1 then 800 else 900))
  ∧ (∀ (s : State) (i x : Nat) (temps : List Nat), s.RegsOk → FMap.wf 0 s.capHold = true → FMap.wf {} s.rigs = true → temps = (List.range 18).map (fun j => if j = i then x else 0) →
    i < 17 → s.tripHold = false → s.get F.PWR_VP_POINT i < 4 → (∀ j, s.get F.PWR_VP_TRIPPED j = 0 ∧ (j ≠ i → s.get F.PWR_VP_CAP j = 0)) →
    ∃ t, exec (.thermalSample temps) s = .next t ∧ t.get F.PWR_VP_TEMP i = min x 255
      ∧ t.get F.PWR_THERM_TMAX = (if s.tmaxNext then min x 255 else max (min x 255) (s.get F.PWR_THERM_TMAX)) % 2 ^ F.PWR_THERM_TMAX.width
      ∧ (∀ k, FMap.wf 0 s.flog.resid = true → k = 48 * i + 16 * s.get F.PWR_VP_PTNOW i + tempBin x →
          s.get F.PWR_VP_PTNOW i < 3 → (∀ j, s.get F.PWR_VP_PTNOW j < 3) → t.flog.resid.get 0 k = s.flog.resid.get 0 k + 1)
      ∧ (x < 110 → s.get F.PWR_THERM_TLIM < x → s.capHold.get 0 i ≤ 1 → s.get F.PWR_VP_PTNOW i ≠ 0 →
          t.get F.PWR_VP_CAP i = (s.get F.PWR_VP_CAP i + 1) % 4 ∧ t.capHold.get 0 i = 20 ∧ t.get F.PWR_THERM_THROT = 1
            ∧ t.get F.PWR_NTHR_COUNT = (s.get F.PWR_NTHR_COUNT + 1) % 2 ^ F.PWR_NTHR_COUNT.width
            ∧ t.get F.PWR_VP_PTNOW i = s.get F.PWR_VP_POINT i - (s.get F.PWR_VP_CAP i + 1) % 4)
      ∧ (x < 110 → x + s.get F.PWR_THERM_HYST < s.get F.PWR_THERM_TLIM → s.capHold.get 0 i ≤ 1 → s.get F.PWR_VP_CAP i ≠ 0 →
          t.get F.PWR_VP_CAP i = (s.get F.PWR_VP_CAP i - 1) % 4 ∧ t.capHold.get 0 i = 20)
      ∧ (x < 110 → 1 < s.capHold.get 0 i → t.get F.PWR_VP_CAP i = s.get F.PWR_VP_CAP i ∧ t.get F.PWR_VP_PTNOW i = s.get F.PWR_VP_PTNOW i
          ∧ t.capHold.get 0 i = s.capHold.get 0 i - 1)
      ∧ (110 ≤ x → t.get F.PWR_VP_TRIPPED i = 1 ∧ t.get F.PWR_THERM_TRIP = 1 ∧ t.thermtripL = false ∧ t.hotstopL = decide (i < 16)
          ∧ (i < 16 → t.tripHold = false ∧ (∀ n, s.rigLive n = true → (s.rig n).exists_ = true → n ∈ s.rigsIn i → (t.rig n).killed = true)
              ∧ (∀ n, n ∉ s.rigsIn i → (t.rig n).killed = (s.rig n).killed))
          ∧ (i = 16 → t.tripHold = true ∧ ∀ n, s.rigLive n = true → (s.rig n).exists_ = true → (t.rig n).killed = true)))

/-! ### Event counters and the flight log (R410 to R424) -/

/-- CLRALL, FREEZE_WRITE and COUNTER_ENABLE_WRITE (R412, R414, R169), the host's writes once step 6 of start-up is over: CLRALL zeroes every count, the same write sets FREEZE; EN follows its bit, EN 0 forgets
any start, MODE is static while the counter stays enabled. -/
def Obligations.CounterControls : Prop :=
  ∀ (s : State) (d : Word) (c : Nat), s.RegsOk → s.ioReached = true →
    (∀ cmd, (cmd = .clrall d ∨ cmd = .freezeWrite d) → ∃ t, exec cmd s = .next t ∧ t.get F.EVT_GCTL_FREEZE = d.toNat % 2
        ∧ (d.toNat / 2 % 2 = 1 → ∀ k, k < 512 → t.get F.EVT_CNT_COUNT k = 0)
        ∧ (d.toNat / 2 % 2 = 0 → ∀ k, t.get F.EVT_CNT_COUNT k = s.get F.EVT_CNT_COUNT k)
        ∧ onlyRegs s t ∧ regsKept (fun f _ => f.id = F.EVT_GCTL_FREEZE.id ∨ f.id = F.EVT_CNT_COUNT.id) s t)
    ∧ (FMap.wf false s.evStarted = true → ∃ t, exec (.counterEnableWrite c d) s = .next t ∧ t.get F.EVT_CTL_EN c = d.toNat % 2
        ∧ { t with regs := s.regs, evStarted := s.evStarted } = s
        ∧ ((s.get F.EVT_CTL_EN c = 0 ∨ d.toNat % 2 = 0) → t.get F.EVT_CTL_MODE c = d.toNat / 2 % 2 ∧ t.evStarted.get false c = false
            ∧ (d.toNat / 8 % 2 = 1 → t.get F.EVT_CTL_OVF c = 0) ∧ (d.toNat / 4 % 2 = 1 → t.get F.EVT_CTL_SREF c = 0)
            ∧ regsKept (fun f i => i = c ∧ (f.id = F.EVT_CTL_EN.id ∨ f.id = F.EVT_CTL_MODE.id ∨ f.id = F.EVT_CTL_OVF.id ∨ f.id = F.EVT_CTL_SREF.id)) s t)
        ∧ (s.get F.EVT_CTL_EN c ≠ 0 → d.toNat % 2 = 1 → t.evStarted = s.evStarted ∧ t.get F.EVT_CTL_MODE c = s.get F.EVT_CTL_MODE c
            ∧ (s.get F.EVT_CTL_MODE c ≠ d.toNat / 2 % 2 → t.get F.EVT_CTL_SREF c = 1)))

/-- FLIGHT_LOG_COMMIT_CMD, FLOG_COMMIT_DONE and LATENCY_SAMPLE (R418 to R420, R422): a commit command, the host's write once step 6 of start-up is over, asks the arbiter for a commit, one at a time; a commit
writes the waiting journal records in place and puts the working copy of each region that verifies in force; a region that does not verify keeps
the slot in force, and sets WERR where it had changed; each sample counts in its bin of its tile alone. That the end of a commit is a command
with the regions that fail as its operand, and what an unwritten slot reads as, is the model's choice (log entries 97, 76). -/
def Obligations.FlightLogCommits : Prop :=
  ∀ s : State, s.RegsOk →
    (∀ d : Word, s.ioReached = true →
      ((d.toNat % 2 = 0 ∨ (s.get F.EVT_FLSTAT_BUSY = 0 ∧ d.toNat / 2 ^ 28 ≠ 1)) → ∃ t, exec (.flightLogCommitCmd d) s = .next t ∧ t.get F.EVT_FLCMD_OP = d.toNat / 2 ^ 28
        ∧ onlyRegs s t ∧ regsKept (fun f i => i = 0 ∧ f.id = F.EVT_FLCMD_OP.id) s t)
      ∧ (d.toNat % 2 = 1 → s.get F.EVT_FLSTAT_BUSY ≠ 0 → ∃ t, exec (.flightLogCommitCmd d) s = .next t ∧ t.get F.EVT_FLSTAT_BUSYW = 1 ∧ onlyRegs s t)
      ∧ (d.toNat % 2 = 1 → s.get F.EVT_FLSTAT_BUSY = 0 → d.toNat / 2 ^ 28 = 1 → ∃ t, exec (.flightLogCommitCmd d) s = .next t
        ∧ t.get F.EVT_FLSTAT_BUSY = 1 ∧ t.commits = s.commits ++ [{ whole := true, cmd := true }] ∧ t.flog = s.flog ∧ t.pages = s.pages
        ∧ ∃ a ∈ t.acts ++ t.actQ, a.kind = 4))
    ∧ (∀ failed, (s.acts.find? (·.kind = 4) = none ∨ s.commits = []) → exec (.flogCommitDone failed) s = .next s)
    ∧ (∀ a c l failed, s.acts.find? (·.kind = 4) = some a → s.commits = c :: l → s.actQ = [] → FMap.wf {} s.flog.slots = true → FMap.wf none s.flog.journal = true →
        ∃ t, exec (.flogCommitDone failed) s = .next t ∧ t.commits = l ∧ t.flog.waiting = [] ∧ t.get F.EVT_FLSTAT_BUSY = (if l = [] then 0 else 1)
          ∧ t.flog.counters = s.flog.counters ∧ t.pages = s.pages ∧ t.tiles = s.tiles
          ∧ (c.whole = true → (1 ∉ failed → t.flog.committed 1 = .counters s.flog.counters) ∧ (4 ∉ failed → t.flog.committed 4 = .resid s.flog.resid))
          ∧ (2 ∉ failed → t.flog.committed 2 = s.mapsNow)
          ∧ (∀ r, r ∈ failed → t.flog.committed r = s.flog.committed r)
          ∧ (∀ r, (r = 2 ∨ (c.whole = true ∧ (r = 1 ∨ r = 4))) → r ∈ failed → s.flog.committed r ≠ s.regionNow r → t.get F.EVT_FLSTAT_WERR = 1)
          ∧ (failed = [] → t.get F.EVT_FLSTAT_WERR = s.get F.EVT_FLSTAT_WERR)
          ∧ (∀ r, s.flog.waiting = [r] → t.flog.journal.get none s.flog.jhead = some r))
    ∧ ∀ (p : Nat) (ratios : List Nat), FMap.wf {} s.flog.hists = true → FMap.wf 0 (s.flog.hists.get {} p).bins = true → ratios.length = 16 →
        (∀ b, (s.flog.hists.get {} p).bins.get 0 b + 16 < 2 ^ 31) → ∃ t, exec (.latencySample p ratios) s = .next t
          ∧ (∀ b, (t.flog.hists.get {} p).bins.get 0 b = (s.flog.hists.get {} p).bins.get 0 b
              + (ratios.zipIdx.filter fun r => latBin (Config.testRatio p r.2) r.1 = b).length)
          ∧ (∀ q, q ≠ p → t.flog.hists.get {} q = s.flog.hists.get {} q) ∧ { t with flog := s.flog } = s

/-! ### Spares (R17, R358 to R361) -/

/-- TILE_SUBSTITUTION, AGING_SUBSTITUTION and MGMT_CORE_FAILOVER (R17, R358 to R361): the spare takes the logical number, the store and the PMASK bits of the tile it
replaces, in one step, and a part in progress is replayed; a tile for which no spare is held is retired, its rig stopped and its number left without a tile;
the spare management core is brought in once, and a core that fails with no spare left stops every rig that is live or loading. The model's choices: an ageing tile without a
spare is retired (log 102), a report of a core that has failed already changes nothing (log 101), which copies of log records cannot be read is an
operand (log 128), units in the journal (log 139). -/
def Obligations.SparesBroughtIn : Prop :=
  ∀ (s : State) (p t' : Nat) (errs : List (Nat × Nat)) (unread : Unread) (cmd : Instr), s.RegsOk → FMap.wf {} s.tiles = true → FMap.wf {} s.rigs = true → s.enabled p = true → t' = s.logical p → t' < 80 →
    ((cmd = .tileSubstitution ⟨p, errs, unread⟩ ∧ s.tilesNeed.contains p = true)
      ∨ (cmd = .agingSubstitution ⟨p, errs, unread⟩ ∧ s.aged p = true ∧ s.partsOn p = [] ∧ ∀ n, s.rigOf p = some n → (s.rig n).take.state = 0)) →
    (∀ q, s.spareFor p = some q → ∃ u, exec cmd s = .next u
        ∧ u.get F.GLB_TMAP_PHYS t' = q ∧ u.get F.GLB_PMAP_STATE p = 2 ∧ u.get F.GLB_PMAP_LOGICAL p = 0x7F ∧ u.get F.GLB_PMAP_STATE q = 0
        ∧ u.get F.GLB_PMAP_LOGICAL q = t' ∧ (∀ r, r ≠ p → r ≠ q → u.get F.GLB_PMAP_STATE r = s.get F.GLB_PMAP_STATE r)
        ∧ (errs = [] → u.get F.TWN_NSUB_COUNT = (s.get F.TWN_NSUB_COUNT + 1) % 2 ^ F.TWN_NSUB_COUNT.width) ∧ p ∉ u.tilesNeed
        ∧ (∀ k, k < 64 → (s.get F.SYN_OB_PM_PMASK k).testBit p = true →
            (u.get F.SYN_OB_PM_PMASK k).testBit p = false ∧ (u.get F.SYN_OB_PM_PMASK k).testBit q = true)
        ∧ (s.partsOn p = [] → errs = [] → (u.tile q).store = (s.tile p).store ∧ u.pages = s.pages)
        ∧ (s.partsOn p = [] → (u.tile q).store = ((s.storeErrs p 0 (storeSize / 8) errs).tile p).store))
    ∧ (s.spareFor p = none → ∃ u, exec cmd s = .next u
        ∧ u.get F.GLB_PMAP_STATE p = 2 ∧ u.get F.GLB_PMAP_LOGICAL p = 0x7F ∧ u.get F.GLB_TMAP_VALID t' = 0 ∧ u.get F.GLB_TMAP_PHYS t' = 0x7F
        ∧ p ∉ u.tilesNeed ∧ (∀ k, k < 64 → (u.get F.SYN_OB_PM_PMASK k).testBit p = false)
        ∧ (∀ n, s.rigOf p = some n → (u.rig n).killed = true))
    ∧ (∀ c, s.mgmtFailed = [] → ∃ u, exec (.mgmtCoreFailover ⟨c, unread⟩) s = .next u ∧ u.mgmtFailed = [c]
        ∧ ((∀ x ∈ s.tiles, ∀ e, s.gen? x.1 e = none) →
            u.get F.TWN_NSUB_COUNT = (s.get F.TWN_NSUB_COUNT + 1) % 2 ^ F.TWN_NSUB_COUNT.width ∧ u.tiles = s.tiles ∧ u.pages = s.pages))
    ∧ (∀ c, s.mgmtFailed ≠ [] → s.mgmtFailed.contains c = false → ∃ u, exec (.mgmtCoreFailover ⟨c, unread⟩) s = .next u ∧ u.mgmtFailed = s.mgmtFailed ++ [c]
        ∧ ∀ n, (s.rig n).exists_ = true → (s.rigLive n = true ∨ s.rigState n = rigLoading) → (u.rig n).killed = true)
    ∧ (∀ c, s.mgmtFailed.contains c = true → exec (.mgmtCoreFailover ⟨c, unread⟩) s = .next s)
    ∧ (∀ r, (s.tilesNeed.contains r = false ∨ s.enabled r = false) → exec (.tileSubstitution ⟨r, errs, unread⟩) s = .next s)
    ∧ (∀ r, (s.aged r = false ∨ s.enabled r = false ∨ s.partsOn r ≠ [] ∨ ∃ n, s.rigOf r = some n ∧ (s.rig n).take.state ≠ 0) →
        exec (.agingSubstitution ⟨r, errs, unread⟩) s = .next s)

/-! ### Keys, firmware, attestation (R399 to R403) -/

/-- KEY_ENROL, KEY_REVOKE and KEY_FUSE_PROGRAM_DONE (R400, R401), the host's writes once step 6 of start-up is over: a record that fails a condition changes nothing but ERR and ERRF; one that passes is BUSY until
its fuses are programmed: the key and its ENROLLED bit, or its REVOKED bit, or nothing where programming does not verify; no other fuse
changes. That programming never clears a bit is the model's choice (log entry 63). -/
def Obligations.KeyCommands : Prop :=
  ∀ s : State, s.RegsOk →
    (∀ (d : Word) (cmd : Instr), s.ioReached = true → ((cmd = .keyEnrol d ∧ s.krecRevokes = false) ∨ (cmd = .keyRevoke d ∧ s.krecRevokes = true)) →
      (d.toNat % 2 = 0 → exec cmd s = .next s)
      ∧ (d.toNat % 2 = 1 → s.get F.SEC_KSTAT_BUSY ≠ 0 → ∃ t, exec cmd s = .next t ∧ t.get F.SEC_KSTAT_BUSYW = 1 ∧ onlyRegs s t
          ∧ regsKept (fun f i => i = 0 ∧ f.id = F.SEC_KSTAT_BUSYW.id) s t)
      ∧ (d.toNat % 2 = 1 → s.get F.SEC_KSTAT_BUSY = 0 → ∀ r, r = s.wide F.SEC_KREC_BYTES →
        (s.keyErr r ≠ 0 → ∃ t, exec cmd s = .next t ∧ t.get F.SEC_KSTAT_ERR = s.keyErr r ∧ t.get F.SEC_KSTAT_ERRF = 1 ∧ onlyRegs s t)
        ∧ (s.keyErr r = 0 → ∃ t k, exec cmd s = .next t ∧ t.get F.SEC_KSTAT_ERR = 0 ∧ t.get F.SEC_KSTAT_BUSY = 1 ∧ t.keyOp = some k
            ∧ k.enrol = !s.krecRevokes ∧ some k.slot = r[5]?.map (·.toNat) ∧ k.key = slice r 72 57 ∧ t.fuses = s.fuses)))
    ∧ (∀ ok, s.keyOp = none → exec (.keyFuseProgramDone ok) s = .next s)
    ∧ (∀ k ok, s.keyOp = some k → k.slot < 4 → k.key.length = 57 →
        ∃ t, exec (.keyFuseProgramDone ok) s = .next t ∧ t.keyOp = none ∧ t.get F.SEC_KSTAT_BUSY = 0
          ∧ (ok = false → t.fuses = s.fuses ∧ t.get F.SEC_KSTAT_ERR = 6 ∧ t.get F.SEC_KSTAT_ERRF = 1)
          ∧ (ok = true → k.enrol = true → t.enrolled k.slot = true ∧ (allZero (s.ownerKey k.slot) = true → t.ownerKey k.slot = k.key) ∧ (∀ j, t.revoked j = s.revoked j)
              ∧ ∀ j, j ≠ k.slot → j < 4 → t.enrolled j = s.enrolled j ∧ t.ownerKey j = s.ownerKey j)
          ∧ (ok = true → k.enrol = false → t.revoked k.slot = true ∧ (∀ j, j < 4 → t.enrolled j = s.enrolled j ∧ t.ownerKey j = s.ownerKey j)
              ∧ ∀ j, j ≠ k.slot → j < 4 → t.revoked j = s.revoked j)
          ∧ t.fuseSvn = s.fuseSvn ∧ t.dbgKill = s.dbgKill ∧ t.dbgLock = s.dbgLock)

/-- FIRMWARE_WRITE, FIRMWARE_WRITE_DONE and FIRMWARE_COMMIT (R399), the host's writes once step 6 of start-up is over: a command without GO only shows its OP; while one is BUSY or an image loads it is ignored with BUSYW;
a write copies the image first, which is verified where the copy ends (MaintenanceUnits; the copy and its end are the model's choice, log entry 45), and
becomes, once written, the copy that did not boot and the preferred one, while a write that fails leaves the preference as it was; a commit raises the fuses to the SVN of the running firmware and is refused where that is not above them. -/
def Obligations.FirmwareCommands : Prop :=
  ∀ s : State, s.RegsOk →
    (∀ (d : Word) (cmd : Instr) (op : Nat), s.ioReached = true → op = d.toNat / 2 ^ 28 → ((cmd = .firmwareWrite d ∧ op = 1) ∨ (cmd = .firmwareCommit d ∧ op = 2)) →
      (d.toNat % 2 = 0 → ∃ t, exec cmd s = .next t ∧ t.get F.SEC_FWCMD_OP = op ∧ onlyRegs s t ∧ regsKept (fun f i => i = 0 ∧ f.id = F.SEC_FWCMD_OP.id) s t)
      ∧ (d.toNat % 2 = 1 → (s.get F.SEC_FWSTAT_BUSY ≠ 0 ∨ s.get F.IMG_STAT_STATE ≠ 0) → ∃ t, exec cmd s = .next t ∧ t.get F.SEC_FWSTAT_BUSYW = 1 ∧ onlyRegs s t
          ∧ regsKept (fun f i => i = 0 ∧ (f.id = F.SEC_FWCMD_OP.id ∨ f.id = F.SEC_FWSTAT_BUSYW.id)) s t)
      ∧ (d.toNat % 2 = 1 → s.get F.SEC_FWSTAT_BUSY = 0 → s.get F.IMG_STAT_STATE = 0 → ∀ img, img = s.staging.bytesAt 0 (fwTake (fwLen (s.staging.bytesAt 0 8))) →
        (op = 1 → ∃ t, exec cmd s = .next t ∧ t.get F.SEC_FWSTAT_ERR = 0 ∧ t.get F.SEC_FWSTAT_BUSY = 1
            ∧ t.fwOp = some { img := img, copying := true } ∧ (∃ a ∈ t.acts ++ t.actQ, a.kind = 5)
            ∧ t.flashImg = s.flashImg ∧ t.preferred = s.preferred ∧ t.fuses = s.fuses ∧ t.pages = s.pages)
        ∧ (op = 2 → s.fwSvn ≤ s.fuseSvn → ∃ t, exec cmd s = .next t ∧ t.get F.SEC_FWSTAT_ERR = 3 ∧ t.get F.SEC_FWSTAT_ERRF = 1 ∧ onlyRegs s t)
        ∧ (op = 2 → s.fuseSvn < s.fwSvn → s.fwSvn ≤ 64 → s.fuseBytes fuFWSVN 8 = leBytes 8 (2 ^ s.fuseSvn - 1) →
            ∃ t, exec cmd s = .next t ∧ t.fuseSvn = s.fwSvn ∧ t.get F.SEC_FWSTAT_ERR = 0 ∧ { t with regs := s.regs, fuses := s.fuses } = s
              ∧ ∀ which i, which ≠ fuFWSVN → i < 512 → t.fuse which i = s.fuse which i)))
    ∧ (∀ f a ok, s.fwOp = some f → s.acts.find? (·.kind = 5) = some a → FMap.wf none s.flashImg = true →
        (f.copying = true → exec (.firmwareWriteDone ok) s = .next s)
        ∧ (f.copying = false → ok = true → ∃ t, exec (.firmwareWriteDone ok) s = .next t ∧ t.fwOp = none ∧ t.get F.SEC_FWSTAT_BUSY = 0
            ∧ t.preferred = 1 - s.get F.SEC_BOOT_FWCOPY ∧ t.flashImg.get none (1 - s.get F.SEC_BOOT_FWCOPY) = some f.img
            ∧ ∀ c, c ≠ 1 - s.get F.SEC_BOOT_FWCOPY → t.flashImg.get none c = s.flashImg.get none c)
        ∧ (f.copying = false → ok = false → ∃ t, exec (.firmwareWriteDone ok) s = .next t ∧ t.fwOp = none ∧ t.get F.SEC_FWSTAT_BUSY = 0
            ∧ t.get F.SEC_FWSTAT_ERR = 4 ∧ t.get F.SEC_FWSTAT_ERRF = 1 ∧ t.flashImg = s.flashImg ∧ t.preferred = s.preferred))
    ∧ (∀ ok, (s.fwOp = none ∨ s.acts.find? (·.kind = 5) = none) → exec (.firmwareWriteDone ok) s = .next s)

/-- ATTEST_REQUEST and ATTEST_REPORT_DONE (R403), the host's write once step 6 of start-up is over: a request takes every value of the report at once, counting itself, whatever changes before the report
is placed; it is 640 bytes, its first 512 the values of that moment and the next 114 the signature over them; a GO while BUSY is ignored with BUSYW. The
signature is an open function (log entry 12). -/
def Obligations.Attestation : Prop :=
  ∀ s : State, s.RegsOk →
    (∀ d : Word, s.ioReached = true →
      (d.toNat % 2 = 0 → exec (.attestRequest d) s = .next s)
      ∧ (d.toNat % 2 = 1 → s.get F.SEC_ASTAT_BUSY ≠ 0 → ∃ t, exec (.attestRequest d) s = .next t ∧ t.get F.SEC_ASTAT_BUSYW = 1 ∧ onlyRegs s t)
      ∧ (d.toNat % 2 = 1 → s.get F.SEC_ASTAT_BUSY = 0 → ∃ t b, exec (.attestRequest d) s = .next t ∧ t.get F.SEC_ASTAT_BUSY = 1 ∧ t.reports = s.reports + 1
          ∧ t.report = some b ∧ { t with regs := s.regs, report := s.report, reports := s.reports } = s
          ∧ b.length = 640 ∧ slice b 512 114 = Config.ed448Sign (s.fuseBytes fuIDSEED 57) (Config.shake256 (slice b 0 512) 64)
          ∧ slice b 0 4 = [0x41, 0x54, 0x54, 0x01] ∧ slice b 12 4 = leBytes 4 (s.reports + 1) ∧ slice b 16 64 = s.wide F.SEC_ANONCE_BYTES
          ∧ (∀ u v : State, u.report = some b → exec .attestReportDone u = .next v → u.RegsOk →
              v.get F.SEC_AREP_BYTES = leNat b % 2 ^ F.SEC_AREP_BYTES.width ∧ v.get F.SEC_ASTAT_BUSY = 0 ∧ v.get F.SEC_ASTAT_DONE = 1 ∧ v.report = none)))
    ∧ (s.report = none → exec .attestReportDone s = .next s)
    ∧ (∀ b, s.report = some b → ∃ t, exec .attestReportDone s = .next t ∧ t.get F.SEC_ASTAT_DONE = 1 ∧ t.get F.SEC_ASTAT_BUSY = 0
        ∧ { t with regs := s.regs, report := s.report } = s)

/-! ### Debug sessions and the test access port (R407, R408) -/

/-- DEBUG_OPEN, DBGTOK, DEBUG_END and DEBUG_LIFE_EXPIRY (R408): a token that meets every condition opens a session of its scopes, any other only sets ERR, one presented
while a session is open among them (DEBUG_OPEN and DEBUG_END are the host's writes once step 6 of start-up is over); DBGKILL ends all opening; a session ends by END or when its life is over, and the nonce is then new; a life of 0 does not
end; SCOPE bit 3 takes the vendor key. That END comes before OPEN in one write is the model's choice (log entry 82). -/
def Obligations.DebugSessions : Prop :=
  ∀ s : State, s.RegsOk →
    (∀ (cmd : Instr) (tok : List Byte), (cmd = .dbgtok tok ∨ ((∃ d : Word, s.ioReached = true ∧ cmd = .debugOpen d ∧ d.toNat % 2 = 1 ∧ d.toNat / 2 % 2 = 0) ∧ tok = s.wide F.SEC_DTOK_BYTES)) →
      (s.tokenOk tok = true → ∃ t x, exec cmd s = .next t ∧ t.session = some x ∧ some x.scope = tok[4]?.map (·.toNat) ∧ x.scope < 16
          ∧ x.life = leNat (slice tok 6 2) ∧ x.since = s.now ∧ t.everOpen = true ∧ t.get F.SEC_DSTAT_SCOPE = x.scope ∧ t.get F.SEC_DSTAT_OPENF = 1
          ∧ { t with regs := s.regs, session := s.session, everOpen := s.everOpen, tapIr := s.tapIr } = s)
      ∧ (s.tokenOk tok = false → ∃ t, exec cmd s = .next t ∧ t.get F.SEC_DSTAT_ERR = 1 ∧ { t with regs := s.regs, tapIr := s.tapIr } = s
          ∧ regsKept (fun f i => (i = 0 ∧ f.id = F.SEC_DSTAT_ERR.id) ∨ evField f) s t))
    ∧ (∀ tok, (s.session.isSome = true ∨ s.dbgKill = true ∨ slice tok 8 64 ≠ s.devDig ∨ slice tok 72 64 ≠ s.wide F.SEC_DNONCE_BYTES
          ∨ (∃ b, tok[4]? = some b ∧ b.toNat / 8 % 2 = 1 ∧ tok[5]? ≠ some 0xFF)) → s.tokenOk tok = false)
    ∧ (∀ d : Word, s.ioReached = true → d.toNat % 4 = 2 → s.session.isSome = true → ∃ t, exec (.debugEnd d) s = .next t ∧ t.session = none ∧ t.get F.SEC_DSTAT_SCOPE = 0
        ∧ t.get F.SEC_DSTAT_OPENF = 0 ∧ t.get F.SEC_DNONCE_BYTES = Config.freeNat s.fresh 0 % 2 ^ F.SEC_DNONCE_BYTES.width
        ∧ { t with regs := s.regs, session := s.session, fresh := s.fresh } = s)
    ∧ (∀ d : Word, d.toNat % 4 = 2 → s.session = none → exec (.debugEnd d) s = .next s)
    ∧ (∀ d : Word, d.toNat % 4 = 0 → exec (.debugEnd d) s = .next s ∧ exec (.debugOpen d) s = .next s)
    ∧ (∀ x, s.session = some x → ((x.life = 0 ∨ s.now < x.since + x.life * 10 ^ 9) → exec .debugLifeExpiry s = .next s)
        ∧ (x.life ≠ 0 → x.since + x.life * 10 ^ 9 ≤ s.now → ∃ t, exec .debugLifeExpiry s = .next t ∧ t.session = none ∧ t.get F.SEC_DSTAT_OPENF = 0
          ∧ { t with regs := s.regs, session := s.session, fresh := s.fresh } = s))
    ∧ (s.session = none → exec .debugLifeExpiry s = .next s)

/-- TAP_IDCODE, TAP_BYPASS, BOUNDARY_SCAN and DEBUG_SCOPE_ACCESS (R407): the identity of R407 comes out; bypass delays by one bit; a boundary scan changes nothing of
the machine; on a locked part a scope that no session opens does nothing at all; through an open one memory and stores are read, and written at the named bytes alone. What
a scan shows is a free value, and the instruction register's numbers are the model's (log entries 5 and 46). -/
def Obligations.TestAccessPort : Prop :=
  ∀ s : State,
    (∃ t, exec .tapIdcode s = .next t ∧ t.out = s.out ++ [.tdo 0x0C1874A1] ∧ { t with tapIr := s.tapIr, out := s.out } = s)
    ∧ (∀ tdi : List Bool, ∃ t v, exec (.tapBypass tdi) s = .next t ∧ t.out = s.out ++ [.tdo v] ∧ { t with tapIr := s.tapIr, out := s.out } = s
        ∧ v.testBit 0 = false ∧ ∀ i, i + 1 < tdi.length → v.testBit (i + 1) = tdi.getD i false)
    ∧ (∀ kind tdi, ∃ t v, exec (.boundaryScan kind tdi) s = .next t ∧ t.out = s.out ++ [.tdo v] ∧ v < 2 ^ tdi.length
        ∧ { t with tapIr := s.tapIr, out := s.out, fresh := s.fresh } = s)
    ∧ (∀ a b, (b = match a with
          | .scan _ _ => 0
          | .readMem _ _ _ => 1
          | .readTile _ _ _ => 1
          | .writeMem _ _ _ => 2
          | .writeTile _ _ _ => 2
          | .core _ => 3) → s.dbgLock = true → (∀ x, s.session = some x → x.scope.testBit b = false) → exec (.debugScopeAccess a) s = .next s)
    ∧ (∀ chain l, s.scopeOpen 0 = true → ∃ t v, exec (.debugScopeAccess (.scan chain l)) s = .next t ∧ t.out = s.out ++ [.tdo v] ∧ v < 2 ^ l.length
        ∧ { t with tapIr := s.tapIr, out := s.out, fresh := s.fresh } = s)
    ∧ (∀ space addr len, s.scopeOpen 1 = true → ∃ t bs, exec (.debugScopeAccess (.readMem space addr len)) s = .next t ∧ t.out = s.out ++ [.tdoBytes bs]
        ∧ bs.length = len ∧ (∀ i, i < len → bs[i]? = some ((s.merged (keyOf space (addr + i)) .current).byte ((addr + i) % 2 ^ 16)))
        ∧ { t with tapIr := s.tapIr, out := s.out } = s)
    ∧ (∀ p addr len, p < 80 → s.scopeOpen 1 = true → ∃ t, exec (.debugScopeAccess (.readTile p addr len)) s = .next t
        ∧ t.out = s.out ++ [.tdoBytes ((s.tile p).store.bytesAt addr len)] ∧ { t with tapIr := s.tapIr, out := s.out } = s)
    ∧ (∀ p addr data, p < 80 → s.scopeOpen 2 = true → addr + data.length ≤ storeSize → FMap.wf {} s.tiles = true → FMap.wf 0 (s.tile p).store.bytes = true →
        ∃ t, exec (.debugScopeAccess (.writeTile p addr data)) s = .next t
          ∧ (∀ i b, data[i]? = some b → (t.tile p).store.byte (addr + i) = b) ∧ (∀ a, a < addr ∨ addr + data.length ≤ a → (t.tile p).store.byte a = (s.tile p).store.byte a)
          ∧ { t with tiles := s.tiles, tapIr := s.tapIr } = s ∧ ∀ q, q ≠ p → t.tile q = s.tile q)
    ∧ (∀ space addr bs p, s.scopeOpen 2 = true → s.page? (keyOf space addr) = some p → p.zero = false → s.wc = [] → FMap.wf none s.pages = true →
        FMap.wf 0 p.data.bytes = true → bs ≠ [] → addr % 256 + bs.length ≤ 256 →
        ∃ t q, exec (.debugScopeAccess (.writeMem space addr bs)) s = .next t ∧ t.page? (keyOf space addr) = some q
          ∧ (∀ i b, bs[i]? = some b → q.data.byte (addr % 2 ^ 16 + i) = b)
          ∧ (∀ a, a < addr % 2 ^ 16 ∨ addr % 2 ^ 16 + bs.length ≤ a → q.data.byte a = p.data.byte a)
          ∧ ∀ k, k ≠ keyOf space addr → t.page? k = s.page? k)
    ∧ ∀ x, s.scopeOpen 3 = true → ∃ t, exec (.debugScopeAccess (.core x)) s = .next t ∧ { t with tapIr := s.tapIr } = s

/-! ### Rules stated whole (R175, R301) -/

/-- Once the host reaches the control space, a write of 0 to LSGROW, of 0b11 to STRAG or of a SEGLEN that is no multiple of 128 is ignored, leaves the field as it was and sets BADW; any
other value of LSGROW or STRAG is taken. The check of R169 comes first: such a write to SEGLEN while the rig is not stopped sets SREF only (R175). -/
def Obligations.RefusedModeValues : Prop :=
  ∀ (addr n : Nat) (d : Word) (s : State), s.RegsOk → s.ioReached = true →
    (regAt addr = some (R.IMG_RLIVE, [F.IMG_RLIVE_LSGROW, F.IMG_RLIVE_STRAG], n, 0) → s.hidden R.IMG_RLIVE n = false →
      ∃ t, exec (.registerWrite addr d 15) s = .next t ∧ onlyRegs s t
        ∧ (d.toNat / 2 ^ 16 = 0 → t.get F.IMG_RLIVE_LSGROW n = s.get F.IMG_RLIVE_LSGROW n ∧ t.get F.IMG_RSTAT_BADW n = 1)
        ∧ (d.toNat / 2 ^ 16 ≠ 0 → t.get F.IMG_RLIVE_LSGROW n = d.toNat / 2 ^ 16)
        ∧ (d.toNat % 4 = 3 → t.get F.IMG_RLIVE_STRAG n = s.get F.IMG_RLIVE_STRAG n ∧ t.get F.IMG_RSTAT_BADW n = 1)
        ∧ (d.toNat % 4 ≠ 3 → t.get F.IMG_RLIVE_STRAG n = d.toNat % 4)
        ∧ (d.toNat / 2 ^ 16 ≠ 0 → d.toNat % 4 ≠ 3 → t.get F.IMG_RSTAT_BADW n = s.get F.IMG_RSTAT_BADW n))
    ∧ (regAt addr = some (R.IMG_RSTC, [F.IMG_RSTC_SEGLEN, F.IMG_RSTC_GRAD, F.IMG_RSTC_SATNF], n, 0) → s.hidden R.IMG_RSTC n = false →
      d.toNat / 2 ^ 16 % 128 ≠ 0 → d.toNat / 2 ^ 16 ≠ s.get F.IMG_RSTC_SEGLEN n →
      ∃ t, exec (.registerWrite addr d 15) s = .next t ∧ onlyRegs s t ∧ t.get F.IMG_RSTC_SEGLEN n = s.get F.IMG_RSTC_SEGLEN n
        ∧ (s.rigState n = rigStopped → t.get F.IMG_RSTAT_BADW n = 1 ∧ t.get F.IMG_RSTAT_SREF n = s.get F.IMG_RSTAT_SREF n)
        ∧ (s.rigState n ≠ rigStopped → t.get F.IMG_RSTAT_SREF n = 1 ∧ t.get F.IMG_RSTAT_BADW n = s.get F.IMG_RSTAT_BADW n))

/-- An uncorrectable word of the signal region sets SYN_STAT.SUE, stops every rig that owns one of its four signals with an immediate stop, tasks
aborted and an open take struck (R164), and sets these signals to zero; other signals and other rigs are as before (R301). -/
def Obligations.SignalRegionWordLost : Prop :=
  ∀ (w : Nat) (s : State), s.RegsOk → FMap.wf 0 s.sigs = true → FMap.wf {} s.rigs = true →
    ∃ t, exec (.signalRegionUncorrectable w) s = .next t ∧ t.get F.SYN_STAT_SUE = 1
      ∧ (∀ k, k / 4 = w → t.sigs.get 0 k = 0) ∧ (∀ k, k / 4 ≠ w → t.sigs.get 0 k = s.sigs.get 0 k)
      ∧ (∀ n k, k / 4 = w → s.rigOfSig k = some n → (t.rig n).killed = true
          ∧ (s.rigState n = rigRunning ∨ s.rigState n = rigStopping → t.rigState n = rigStopping)
          ∧ (∀ h ∈ t.sheets, h.rig = n → h.dispatched = true → h.status.isSome = true)
          ∧ (1 ≤ (s.rig n).take.state → (s.rig n).take.state ≤ 6 → (t.rig n).take.state = 8 ∧ (t.rig n).take.stop = true))
      ∧ ∀ n, (∀ k, k / 4 = w → s.rigOfSig k ≠ some n) → t.rig n = s.rig n ∧ t.rigState n = s.rigState n
end

