-- ==== Sys2Proof/Laws/Maps.lean ====
section
/-! SUPPORT. Sparse maps: what a read gives after a write, and that every operation keeps the canonical form. -/

namespace Sys2Proof

variable {α : Type}

/-! ### Reads after writes -/

@[simp] theorem FMap.get_nil (d : α) (i : Nat) : FMap.get d ([] : FMap α) i = d := rfl

theorem FMap.get_put (d : α) (m : FMap α) (i j : Nat) (v : α) :
    FMap.get d (FMap.put m i v) j = if j = i then v else FMap.get d m j := by
  induction m with
  | nil => simp [FMap.put, FMap.get]
  | cons e m ih =>
    obtain ⟨k, w⟩ := e
    simp only [FMap.put]
    by_cases h1 : i < k
    · rw [if_pos h1]; simp only [FMap.get]
    · rw [if_neg h1]
      by_cases h2 : i = k
      · rw [if_pos h2]; subst h2; simp only [FMap.get]; grind
      · rw [if_neg h2]; simp only [FMap.get, ih]; grind

/-- A read elsewhere is the same, whatever the form. -/
theorem FMap.get_erase_ne (d : α) (m : FMap α) (i j : Nat) (h : j ≠ i) : FMap.get d (FMap.erase m i) j = FMap.get d m j := by
  induction m with
  | nil => rfl
  | cons e m ih => obtain ⟨k, w⟩ := e; simp only [FMap.erase]; split_ifs with h1 <;> simp only [FMap.get] <;> grind

variable [DecidableEq α]

/-- From a bound on, every key lies at it or above it. -/
theorem FMap.get_of_wfFrom (d : α) (m : FMap α) (b i : Nat) (h : FMap.wfFrom d b m = true) (hi : i < b) : FMap.get d m i = d := by
  induction m generalizing b with
  | nil => rfl
  | cons e m ih =>
    obtain ⟨k, w⟩ := e
    simp only [FMap.wfFrom, Bool.and_eq_true, decide_eq_true_eq] at h
    have : i ≠ k := by omega
    simp only [FMap.get, this, if_false]
    exact ih (k + 1) h.2 (by omega)

theorem FMap.wfFrom_mono (d : α) (m : FMap α) (b c : Nat) (hbc : b ≤ c) (h : FMap.wfFrom d c m = true) : FMap.wfFrom d b m = true := by
  cases m with
  | nil => rfl
  | cons e m =>
    simp only [FMap.wfFrom, Bool.and_eq_true, decide_eq_true_eq] at h ⊢
    exact ⟨⟨by omega, h.1.2⟩, h.2⟩

theorem FMap.get_erase_of_wfFrom (d : α) (m : FMap α) (b i j : Nat) (h : FMap.wfFrom d b m = true) :
    FMap.get d (FMap.erase m i) j = if j = i then d else FMap.get d m j := by
  induction m generalizing b with
  | nil => simp [FMap.erase, FMap.get]
  | cons e m ih =>
    obtain ⟨k, w⟩ := e
    have h' := h
    simp only [FMap.wfFrom, Bool.and_eq_true, decide_eq_true_eq] at h
    simp only [FMap.erase]
    split_ifs with h1 h2 h2
    · subst h1; subst h2; exact FMap.get_of_wfFrom d m (j + 1) j h.2 (by omega)
    · subst h1; simp [FMap.get, h2]
    · subst h2; simp only [FMap.get]; rw [ih (k + 1) h.2]; grind
    · simp only [FMap.get]; rw [ih (k + 1) h.2]; grind

/-- A read after a write of a map in canonical form. -/
theorem FMap.get_set (d : α) (m : FMap α) (i j : Nat) (v : α) (h : FMap.wf d m = true) :
    FMap.get d (FMap.set d m i v) j = if j = i then v else FMap.get d m j := by
  unfold FMap.set
  split_ifs with h1 h2 h2
  · rw [FMap.get_erase_of_wfFrom d m 0 i j h]; simp [h2, h1]
  · rw [FMap.get_erase_of_wfFrom d m 0 i j h]; simp [h2]
  · rw [FMap.get_put]; simp [h2]
  · rw [FMap.get_put]; simp [h2]

@[simp] theorem FMap.get_set_ne (d : α) (m : FMap α) (i j : Nat) (v : α) (h : j ≠ i) :
    FMap.get d (FMap.set d m i v) j = FMap.get d m j := by
  unfold FMap.set
  split_ifs
  · exact FMap.get_erase_ne d m i j h
  · rw [FMap.get_put]; simp [h]

/-- A write of something other than the default reads back, whatever the form. -/
theorem FMap.get_set_of_ne_default (d : α) (m : FMap α) (i : Nat) (v : α) (h : v ≠ d) : FMap.get d (FMap.set d m i v) i = v := by
  unfold FMap.set; rw [if_neg h, FMap.get_put]; simp

@[simp] theorem FMap.get_upd_ne (d : α) (m : FMap α) (i j : Nat) (f : α → α) (h : j ≠ i) :
    FMap.get d (FMap.upd d m i f) j = FMap.get d m j := FMap.get_set_ne d m i j _ h

theorem FMap.get_upd (d : α) (m : FMap α) (i j : Nat) (f : α → α) (h : FMap.wf d m = true) :
    FMap.get d (FMap.upd d m i f) j = if j = i then f (FMap.get d m i) else FMap.get d m j := FMap.get_set d m i j _ h

/-! ### The canonical form -/

theorem FMap.wfFrom_put (d : α) (m : FMap α) (b i : Nat) (v : α) (h : FMap.wfFrom d b m = true) (hb : b ≤ i) (hv : v ≠ d) :
    FMap.wfFrom d b (FMap.put m i v) = true := by
  induction m generalizing b with
  | nil => simp [FMap.put, FMap.wfFrom, hb, hv]
  | cons e m ih =>
    obtain ⟨k, w⟩ := e
    simp only [FMap.wfFrom, Bool.and_eq_true, decide_eq_true_eq] at h
    simp only [FMap.put]
    split_ifs with h1 h2
    · simp only [FMap.wfFrom, Bool.and_eq_true, decide_eq_true_eq]; exact ⟨⟨hb, hv⟩, ⟨by omega, h.1.2⟩, h.2⟩
    · simp only [FMap.wfFrom, Bool.and_eq_true, decide_eq_true_eq]; exact ⟨⟨h.1.1, hv⟩, h.2⟩
    · simp only [FMap.wfFrom, Bool.and_eq_true, decide_eq_true_eq]; exact ⟨h.1, ih (k + 1) h.2 (by omega)⟩

theorem FMap.wfFrom_erase (d : α) (m : FMap α) (b i : Nat) (h : FMap.wfFrom d b m = true) : FMap.wfFrom d b (FMap.erase m i) = true := by
  induction m generalizing b with
  | nil => rfl
  | cons e m ih =>
    obtain ⟨k, w⟩ := e
    simp only [FMap.wfFrom, Bool.and_eq_true, decide_eq_true_eq] at h
    simp only [FMap.erase]
    split_ifs with h1
    · exact FMap.wfFrom_mono d m b (k + 1) (by omega) h.2
    · simp only [FMap.wfFrom, Bool.and_eq_true, decide_eq_true_eq]; exact ⟨h.1, ih (k + 1) h.2⟩

@[simp] theorem FMap.wf_nil (d : α) : FMap.wf d ([] : FMap α) = true := rfl

theorem FMap.wf_set (d : α) (m : FMap α) (i : Nat) (v : α) (h : FMap.wf d m = true) : FMap.wf d (FMap.set d m i v) = true := by
  unfold FMap.set
  split_ifs with h1
  · exact FMap.wfFrom_erase d m 0 i h
  · exact FMap.wfFrom_put d m 0 i v h (Nat.zero_le _) h1

theorem FMap.wf_upd (d : α) (m : FMap α) (i : Nat) (f : α → α) (h : FMap.wf d m = true) : FMap.wf d (FMap.upd d m i f) = true :=
  FMap.wf_set d m i _ h

theorem FMap.wfFrom_filter (d : α) (p : Nat × α → Bool) (m : FMap α) (b : Nat) (h : FMap.wfFrom d b m = true) :
    FMap.wfFrom d b (m.filter p) = true := by
  induction m generalizing b with
  | nil => rfl
  | cons e m ih =>
    obtain ⟨k, w⟩ := e
    simp only [FMap.wfFrom, Bool.and_eq_true, decide_eq_true_eq] at h
    simp only [List.filter]
    split
    · simp only [FMap.wfFrom, Bool.and_eq_true, decide_eq_true_eq]; exact ⟨h.1, ih (k + 1) h.2⟩
    · exact FMap.wfFrom_mono d _ b (k + 1) (by omega) (ih (k + 1) h.2)

theorem FMap.wf_keep (d : α) (p : Nat → α → Bool) (m : FMap α) (h : FMap.wf d m = true) : FMap.wf d (FMap.keep p m) = true :=
  FMap.wfFrom_filter d _ m 0 h

theorem FMap.wfFrom_mapv (d : α) (f : α → α) (m : FMap α) (b : Nat) (h : FMap.wfFrom d b m = true) :
    FMap.wfFrom d b (FMap.mapv d f m) = true := by
  induction m generalizing b with
  | nil => rfl
  | cons e m ih =>
    obtain ⟨k, w⟩ := e
    simp only [FMap.wfFrom, Bool.and_eq_true, decide_eq_true_eq] at h
    simp only [FMap.mapv]
    split_ifs with h1
    · exact FMap.wfFrom_mono d _ b (k + 1) (by omega) (ih (k + 1) h.2)
    · simp only [FMap.wfFrom, Bool.and_eq_true, decide_eq_true_eq]; exact ⟨⟨h.1.1, h1⟩, ih (k + 1) h.2⟩

theorem FMap.wf_mapv (d : α) (f : α → α) (m : FMap α) (h : FMap.wf d m = true) : FMap.wf d (FMap.mapv d f m) = true :=
  FMap.wfFrom_mapv d f m 0 h

end Sys2Proof
end

