-- ==== Sys2Proof/Laws/State.lean ====
section
/-! SUPPORT. What each basic update of the state leaves alone: one lemma per field and update, each true by unfolding. -/

namespace Sys2Proof.Machine

/-! ### setReg -/

@[simp] theorem State.setReg_pending (s : State) (f : Field) (v i : Nat) : (s.setReg f v i).pending = s.pending := rfl
@[simp] theorem State.setReg_fresh (s : State) (f : Field) (v i : Nat) : (s.setReg f v i).fresh = s.fresh := rfl
@[simp] theorem State.setReg_out (s : State) (f : Field) (v i : Nat) : (s.setReg f v i).out = s.out := rfl
@[simp] theorem State.setReg_latch (s : State) (f : Field) (v i : Nat) : (s.setReg f v i).latch = s.latch := rfl
@[simp] theorem State.setReg_smbAddr (s : State) (f : Field) (v i : Nat) : (s.setReg f v i).smbAddr = s.smbAddr := rfl
@[simp] theorem State.setReg_tapIr (s : State) (f : Field) (v i : Nat) : (s.setReg f v i).tapIr = s.tapIr := rfl
@[simp] theorem State.setReg_porst (s : State) (f : Field) (v i : Nat) : (s.setReg f v i).porst = s.porst := rfl
@[simp] theorem State.setReg_resetHeld (s : State) (f : Field) (v i : Nat) : (s.setReg f v i).resetHeld = s.resetHeld := rfl
@[simp] theorem State.setReg_fuses (s : State) (f : Field) (v i : Nat) : (s.setReg f v i).fuses = s.fuses := rfl
@[simp] theorem State.setReg_strapHsp (s : State) (f : Field) (v i : Nat) : (s.setReg f v i).strapHsp = s.strapHsp := rfl
@[simp] theorem State.setReg_strapAsel (s : State) (f : Field) (v i : Nat) : (s.setReg f v i).strapAsel = s.strapAsel := rfl
@[simp] theorem State.setReg_tiles (s : State) (f : Field) (v i : Nat) : (s.setReg f v i).tiles = s.tiles := rfl
@[simp] theorem State.setReg_rigs (s : State) (f : Field) (v i : Nat) : (s.setReg f v i).rigs = s.rigs := rfl
@[simp] theorem State.setReg_sheets (s : State) (f : Field) (v i : Nat) : (s.setReg f v i).sheets = s.sheets := rfl
@[simp] theorem State.setReg_compls (s : State) (f : Field) (v i : Nat) : (s.setReg f v i).compls = s.compls := rfl
@[simp] theorem State.setReg_sqs (s : State) (f : Field) (v i : Nat) : (s.setReg f v i).sqs = s.sqs := rfl
@[simp] theorem State.setReg_cqs (s : State) (f : Field) (v i : Nat) : (s.setReg f v i).cqs = s.cqs := rfl
@[simp] theorem State.setReg_msixOpen (s : State) (f : Field) (v i : Nat) : (s.setReg f v i).msixOpen = s.msixOpen := rfl
@[simp] theorem State.setReg_msixPend (s : State) (f : Field) (v i : Nat) : (s.setReg f v i).msixPend = s.msixPend := rfl
@[simp] theorem State.setReg_spaces (s : State) (f : Field) (v i : Nat) : (s.setReg f v i).spaces = s.spaces := rfl
@[simp] theorem State.setReg_pages (s : State) (f : Field) (v i : Nat) : (s.setReg f v i).pages = s.pages := rfl
@[simp] theorem State.setReg_staged (s : State) (f : Field) (v i : Nat) : (s.setReg f v i).staged = s.staged := rfl
@[simp] theorem State.setReg_outVers (s : State) (f : Field) (v i : Nat) : (s.setReg f v i).outVers = s.outVers := rfl
@[simp] theorem State.setReg_heldVers (s : State) (f : Field) (v i : Nat) : (s.setReg f v i).heldVers = s.heldVers := rfl
@[simp] theorem State.setReg_ledgers (s : State) (f : Field) (v i : Nat) : (s.setReg f v i).ledgers = s.ledgers := rfl
@[simp] theorem State.setReg_stagedLedgers (s : State) (f : Field) (v i : Nat) : (s.setReg f v i).stagedLedgers = s.stagedLedgers := rfl
@[simp] theorem State.setReg_wc (s : State) (f : Field) (v i : Nat) : (s.setReg f v i).wc = s.wc := rfl
@[simp] theorem State.setReg_ascentQ (s : State) (f : Field) (v i : Nat) : (s.setReg f v i).ascentQ = s.ascentQ := rfl
@[simp] theorem State.setReg_forcedQ (s : State) (f : Field) (v i : Nat) : (s.setReg f v i).forcedQ = s.forcedQ := rfl
@[simp] theorem State.setReg_descentQ (s : State) (f : Field) (v i : Nat) : (s.setReg f v i).descentQ = s.descentQ := rfl
@[simp] theorem State.setReg_moves (s : State) (f : Field) (v i : Nat) : (s.setReg f v i).moves = s.moves := rfl
@[simp] theorem State.setReg_mcmd (s : State) (f : Field) (v i : Nat) : (s.setReg f v i).mcmd = s.mcmd := rfl
@[simp] theorem State.setReg_rejWrs (s : State) (f : Field) (v i : Nat) : (s.setReg f v i).rejWrs = s.rejWrs := rfl
@[simp] theorem State.setReg_passing (s : State) (f : Field) (v i : Nat) : (s.setReg f v i).passing = s.passing := rfl
@[simp] theorem State.setReg_msixTab (s : State) (f : Field) (v i : Nat) : (s.setReg f v i).msixTab = s.msixTab := rfl
@[simp] theorem State.setReg_queJob (s : State) (f : Field) (v i : Nat) : (s.setReg f v i).queJob = s.queJob := rfl
@[simp] theorem State.setReg_srSeed (s : State) (f : Field) (v i : Nat) : (s.setReg f v i).srSeed = s.srSeed := rfl
@[simp] theorem State.setReg_bufReqs (s : State) (f : Field) (v i : Nat) : (s.setReg f v i).bufReqs = s.bufReqs := rfl
@[simp] theorem State.setReg_txs (s : State) (f : Field) (v i : Nat) : (s.setReg f v i).txs = s.txs := rfl
@[simp] theorem State.setReg_negReads (s : State) (f : Field) (v i : Nat) : (s.setReg f v i).negReads = s.negReads := rfl
@[simp] theorem State.setReg_heldQ (s : State) (f : Field) (v i : Nat) : (s.setReg f v i).heldQ = s.heldQ := rfl
@[simp] theorem State.setReg_chunkBad (s : State) (f : Field) (v i : Nat) : (s.setReg f v i).chunkBad = s.chunkBad := rfl
@[simp] theorem State.setReg_sigs (s : State) (f : Field) (v i : Nat) : (s.setReg f v i).sigs = s.sigs := rfl
@[simp] theorem State.setReg_waiters (s : State) (f : Field) (v i : Nat) : (s.setReg f v i).waiters = s.waiters := rfl
@[simp] theorem State.setReg_obArr (s : State) (f : Field) (v i : Nat) : (s.setReg f v i).obArr = s.obArr := rfl
@[simp] theorem State.setReg_xbars (s : State) (f : Field) (v i : Nat) : (s.setReg f v i).xbars = s.xbars := rfl
@[simp] theorem State.setReg_members (s : State) (f : Field) (v i : Nat) : (s.setReg f v i).members = s.members := rfl
@[simp] theorem State.setReg_streams (s : State) (f : Field) (v i : Nat) : (s.setReg f v i).streams = s.streams := rfl
@[simp] theorem State.setReg_overflow (s : State) (f : Field) (v i : Nat) : (s.setReg f v i).overflow = s.overflow := rfl
@[simp] theorem State.setReg_wrCount (s : State) (f : Field) (v i : Nat) : (s.setReg f v i).wrCount = s.wrCount := rfl
@[simp] theorem State.setReg_remoteWrs (s : State) (f : Field) (v i : Nat) : (s.setReg f v i).remoteWrs = s.remoteWrs := rfl
@[simp] theorem State.setReg_heldSigs (s : State) (f : Field) (v i : Nat) : (s.setReg f v i).heldSigs = s.heldSigs := rfl
@[simp] theorem State.setReg_sendStreams (s : State) (f : Field) (v i : Nat) : (s.setReg f v i).sendStreams = s.sendStreams := rfl
@[simp] theorem State.setReg_colls (s : State) (f : Field) (v i : Nat) : (s.setReg f v i).colls = s.colls := rfl
@[simp] theorem State.setReg_exchanges (s : State) (f : Field) (v i : Nat) : (s.setReg f v i).exchanges = s.exchanges := rfl
@[simp] theorem State.setReg_early (s : State) (f : Field) (v i : Nat) : (s.setReg f v i).early = s.early := rfl
@[simp] theorem State.setReg_collCount (s : State) (f : Field) (v i : Nat) : (s.setReg f v i).collCount = s.collCount := rfl
@[simp] theorem State.setReg_evStarted (s : State) (f : Field) (v i : Nat) : (s.setReg f v i).evStarted = s.evStarted := rfl
@[simp] theorem State.setReg_floors (s : State) (f : Field) (v i : Nat) : (s.setReg f v i).floors = s.floors := rfl
@[simp] theorem State.setReg_links (s : State) (f : Field) (v i : Nat) : (s.setReg f v i).links = s.links := rfl
@[simp] theorem State.setReg_t2 (s : State) (f : Field) (v i : Nat) : (s.setReg f v i).t2 = s.t2 := rfl
@[simp] theorem State.setReg_t3 (s : State) (f : Field) (v i : Nat) : (s.setReg f v i).t3 = s.t3 := rfl
@[simp] theorem State.setReg_portReqs (s : State) (f : Field) (v i : Nat) : (s.setReg f v i).portReqs = s.portReqs := rfl
@[simp] theorem State.setReg_reqCount (s : State) (f : Field) (v i : Nat) : (s.setReg f v i).reqCount = s.reqCount := rfl
@[simp] theorem State.setReg_chans (s : State) (f : Field) (v i : Nat) : (s.setReg f v i).chans = s.chans := rfl
@[simp] theorem State.setReg_acts (s : State) (f : Field) (v i : Nat) : (s.setReg f v i).acts = s.acts := rfl
@[simp] theorem State.setReg_actQ (s : State) (f : Field) (v i : Nat) : (s.setReg f v i).actQ = s.actQ := rfl
@[simp] theorem State.setReg_actCount (s : State) (f : Field) (v i : Nat) : (s.setReg f v i).actCount = s.actCount := rfl
@[simp] theorem State.setReg_scrubs (s : State) (f : Field) (v i : Nat) : (s.setReg f v i).scrubs = s.scrubs := rfl
@[simp] theorem State.setReg_sweeps (s : State) (f : Field) (v i : Nat) : (s.setReg f v i).sweeps = s.sweeps := rfl
@[simp] theorem State.setReg_t3wEpoch (s : State) (f : Field) (v i : Nat) : (s.setReg f v i).t3wEpoch = s.t3wEpoch := rfl
@[simp] theorem State.setReg_ctlReset (s : State) (f : Field) (v i : Nat) : (s.setReg f v i).ctlReset = s.ctlReset := rfl
@[simp] theorem State.setReg_online (s : State) (f : Field) (v i : Nat) : (s.setReg f v i).online = s.online := rfl
@[simp] theorem State.setReg_log (s : State) (f : Field) (v i : Nat) : (s.setReg f v i).log = s.log := rfl
@[simp] theorem State.setReg_logSeq (s : State) (f : Field) (v i : Nat) : (s.setReg f v i).logSeq = s.logSeq := rfl
@[simp] theorem State.setReg_tilesNeed (s : State) (f : Field) (v i : Nat) : (s.setReg f v i).tilesNeed = s.tilesNeed := rfl
@[simp] theorem State.setReg_mgmtFailed (s : State) (f : Field) (v i : Nat) : (s.setReg f v i).mgmtFailed = s.mgmtFailed := rfl
@[simp] theorem State.setReg_tether (s : State) (f : Field) (v i : Nat) : (s.setReg f v i).tether = s.tether := rfl
@[simp] theorem State.setReg_reserve (s : State) (f : Field) (v i : Nat) : (s.setReg f v i).reserve = s.reserve := rfl
@[simp] theorem State.setReg_ramping (s : State) (f : Field) (v i : Nat) : (s.setReg f v i).ramping = s.ramping := rfl
@[simp] theorem State.setReg_rampQ (s : State) (f : Field) (v i : Nat) : (s.setReg f v i).rampQ = s.rampQ := rfl
@[simp] theorem State.setReg_capHold (s : State) (f : Field) (v i : Nat) : (s.setReg f v i).capHold = s.capHold := rfl
@[simp] theorem State.setReg_driven (s : State) (f : Field) (v i : Nat) : (s.setReg f v i).driven = s.driven := rfl
@[simp] theorem State.setReg_vtarget (s : State) (f : Field) (v i : Nat) : (s.setReg f v i).vtarget = s.vtarget := rfl
@[simp] theorem State.setReg_volts (s : State) (f : Field) (v i : Nat) : (s.setReg f v i).volts = s.volts := rfl
@[simp] theorem State.setReg_beatFrac (s : State) (f : Field) (v i : Nat) : (s.setReg f v i).beatFrac = s.beatFrac := rfl
@[simp] theorem State.setReg_tmaxNext (s : State) (f : Field) (v i : Nat) : (s.setReg f v i).tmaxNext = s.tmaxNext := rfl
@[simp] theorem State.setReg_tripHold (s : State) (f : Field) (v i : Nat) : (s.setReg f v i).tripHold = s.tripHold := rfl
@[simp] theorem State.setReg_keyOp (s : State) (f : Field) (v i : Nat) : (s.setReg f v i).keyOp = s.keyOp := rfl
@[simp] theorem State.setReg_fwOp (s : State) (f : Field) (v i : Nat) : (s.setReg f v i).fwOp = s.fwOp := rfl
@[simp] theorem State.setReg_flashImg (s : State) (f : Field) (v i : Nat) : (s.setReg f v i).flashImg = s.flashImg := rfl
@[simp] theorem State.setReg_preferred (s : State) (f : Field) (v i : Nat) : (s.setReg f v i).preferred = s.preferred := rfl
@[simp] theorem State.setReg_fwKey (s : State) (f : Field) (v i : Nat) : (s.setReg f v i).fwKey = s.fwKey := rfl
@[simp] theorem State.setReg_fwId (s : State) (f : Field) (v i : Nat) : (s.setReg f v i).fwId = s.fwId := rfl
@[simp] theorem State.setReg_fwSvn (s : State) (f : Field) (v i : Nat) : (s.setReg f v i).fwSvn = s.fwSvn := rfl
@[simp] theorem State.setReg_fwDigest (s : State) (f : Field) (v i : Nat) : (s.setReg f v i).fwDigest = s.fwDigest := rfl
@[simp] theorem State.setReg_report (s : State) (f : Field) (v i : Nat) : (s.setReg f v i).report = s.report := rfl
@[simp] theorem State.setReg_reports (s : State) (f : Field) (v i : Nat) : (s.setReg f v i).reports = s.reports := rfl
@[simp] theorem State.setReg_imgDigest (s : State) (f : Field) (v i : Nat) : (s.setReg f v i).imgDigest = s.imgDigest := rfl
@[simp] theorem State.setReg_chain (s : State) (f : Field) (v i : Nat) : (s.setReg f v i).chain = s.chain := rfl
@[simp] theorem State.setReg_imgLoads (s : State) (f : Field) (v i : Nat) : (s.setReg f v i).imgLoads = s.imgLoads := rfl
@[simp] theorem State.setReg_imgSlot (s : State) (f : Field) (v i : Nat) : (s.setReg f v i).imgSlot = s.imgSlot := rfl
@[simp] theorem State.setReg_session (s : State) (f : Field) (v i : Nat) : (s.setReg f v i).session = s.session := rfl
@[simp] theorem State.setReg_everOpen (s : State) (f : Field) (v i : Nat) : (s.setReg f v i).everOpen = s.everOpen := rfl
@[simp] theorem State.setReg_flog (s : State) (f : Field) (v i : Nat) : (s.setReg f v i).flog = s.flog := rfl
@[simp] theorem State.setReg_commits (s : State) (f : Field) (v i : Nat) : (s.setReg f v i).commits = s.commits := rfl
@[simp] theorem State.setReg_staging (s : State) (f : Field) (v i : Nat) : (s.setReg f v i).staging = s.staging := rfl
@[simp] theorem State.setReg_load (s : State) (f : Field) (v i : Nat) : (s.setReg f v i).load = s.load := rfl

/-! ### modTile -/

@[simp] theorem State.modTile_pending (s : State) (p : Nat) (g : Tile → Tile) : (s.modTile p g).pending = s.pending := rfl
@[simp] theorem State.modTile_fresh (s : State) (p : Nat) (g : Tile → Tile) : (s.modTile p g).fresh = s.fresh := rfl
@[simp] theorem State.modTile_out (s : State) (p : Nat) (g : Tile → Tile) : (s.modTile p g).out = s.out := rfl
@[simp] theorem State.modTile_regs (s : State) (p : Nat) (g : Tile → Tile) : (s.modTile p g).regs = s.regs := rfl
@[simp] theorem State.modTile_latch (s : State) (p : Nat) (g : Tile → Tile) : (s.modTile p g).latch = s.latch := rfl
@[simp] theorem State.modTile_smbAddr (s : State) (p : Nat) (g : Tile → Tile) : (s.modTile p g).smbAddr = s.smbAddr := rfl
@[simp] theorem State.modTile_tapIr (s : State) (p : Nat) (g : Tile → Tile) : (s.modTile p g).tapIr = s.tapIr := rfl
@[simp] theorem State.modTile_porst (s : State) (p : Nat) (g : Tile → Tile) : (s.modTile p g).porst = s.porst := rfl
@[simp] theorem State.modTile_resetHeld (s : State) (p : Nat) (g : Tile → Tile) : (s.modTile p g).resetHeld = s.resetHeld := rfl
@[simp] theorem State.modTile_fuses (s : State) (p : Nat) (g : Tile → Tile) : (s.modTile p g).fuses = s.fuses := rfl
@[simp] theorem State.modTile_strapHsp (s : State) (p : Nat) (g : Tile → Tile) : (s.modTile p g).strapHsp = s.strapHsp := rfl
@[simp] theorem State.modTile_strapAsel (s : State) (p : Nat) (g : Tile → Tile) : (s.modTile p g).strapAsel = s.strapAsel := rfl
@[simp] theorem State.modTile_rigs (s : State) (p : Nat) (g : Tile → Tile) : (s.modTile p g).rigs = s.rigs := rfl
@[simp] theorem State.modTile_sheets (s : State) (p : Nat) (g : Tile → Tile) : (s.modTile p g).sheets = s.sheets := rfl
@[simp] theorem State.modTile_compls (s : State) (p : Nat) (g : Tile → Tile) : (s.modTile p g).compls = s.compls := rfl
@[simp] theorem State.modTile_sqs (s : State) (p : Nat) (g : Tile → Tile) : (s.modTile p g).sqs = s.sqs := rfl
@[simp] theorem State.modTile_cqs (s : State) (p : Nat) (g : Tile → Tile) : (s.modTile p g).cqs = s.cqs := rfl
@[simp] theorem State.modTile_msixOpen (s : State) (p : Nat) (g : Tile → Tile) : (s.modTile p g).msixOpen = s.msixOpen := rfl
@[simp] theorem State.modTile_msixPend (s : State) (p : Nat) (g : Tile → Tile) : (s.modTile p g).msixPend = s.msixPend := rfl
@[simp] theorem State.modTile_spaces (s : State) (p : Nat) (g : Tile → Tile) : (s.modTile p g).spaces = s.spaces := rfl
@[simp] theorem State.modTile_pages (s : State) (p : Nat) (g : Tile → Tile) : (s.modTile p g).pages = s.pages := rfl
@[simp] theorem State.modTile_staged (s : State) (p : Nat) (g : Tile → Tile) : (s.modTile p g).staged = s.staged := rfl
@[simp] theorem State.modTile_outVers (s : State) (p : Nat) (g : Tile → Tile) : (s.modTile p g).outVers = s.outVers := rfl
@[simp] theorem State.modTile_heldVers (s : State) (p : Nat) (g : Tile → Tile) : (s.modTile p g).heldVers = s.heldVers := rfl
@[simp] theorem State.modTile_ledgers (s : State) (p : Nat) (g : Tile → Tile) : (s.modTile p g).ledgers = s.ledgers := rfl
@[simp] theorem State.modTile_stagedLedgers (s : State) (p : Nat) (g : Tile → Tile) : (s.modTile p g).stagedLedgers = s.stagedLedgers := rfl
@[simp] theorem State.modTile_wc (s : State) (p : Nat) (g : Tile → Tile) : (s.modTile p g).wc = s.wc := rfl
@[simp] theorem State.modTile_ascentQ (s : State) (p : Nat) (g : Tile → Tile) : (s.modTile p g).ascentQ = s.ascentQ := rfl
@[simp] theorem State.modTile_forcedQ (s : State) (p : Nat) (g : Tile → Tile) : (s.modTile p g).forcedQ = s.forcedQ := rfl
@[simp] theorem State.modTile_descentQ (s : State) (p : Nat) (g : Tile → Tile) : (s.modTile p g).descentQ = s.descentQ := rfl
@[simp] theorem State.modTile_moves (s : State) (p : Nat) (g : Tile → Tile) : (s.modTile p g).moves = s.moves := rfl
@[simp] theorem State.modTile_mcmd (s : State) (p : Nat) (g : Tile → Tile) : (s.modTile p g).mcmd = s.mcmd := rfl
@[simp] theorem State.modTile_rejWrs (s : State) (p : Nat) (g : Tile → Tile) : (s.modTile p g).rejWrs = s.rejWrs := rfl
@[simp] theorem State.modTile_passing (s : State) (p : Nat) (g : Tile → Tile) : (s.modTile p g).passing = s.passing := rfl
@[simp] theorem State.modTile_msixTab (s : State) (p : Nat) (g : Tile → Tile) : (s.modTile p g).msixTab = s.msixTab := rfl
@[simp] theorem State.modTile_queJob (s : State) (p : Nat) (g : Tile → Tile) : (s.modTile p g).queJob = s.queJob := rfl
@[simp] theorem State.modTile_srSeed (s : State) (p : Nat) (g : Tile → Tile) : (s.modTile p g).srSeed = s.srSeed := rfl
@[simp] theorem State.modTile_bufReqs (s : State) (p : Nat) (g : Tile → Tile) : (s.modTile p g).bufReqs = s.bufReqs := rfl
@[simp] theorem State.modTile_txs (s : State) (p : Nat) (g : Tile → Tile) : (s.modTile p g).txs = s.txs := rfl
@[simp] theorem State.modTile_negReads (s : State) (p : Nat) (g : Tile → Tile) : (s.modTile p g).negReads = s.negReads := rfl
@[simp] theorem State.modTile_heldQ (s : State) (p : Nat) (g : Tile → Tile) : (s.modTile p g).heldQ = s.heldQ := rfl
@[simp] theorem State.modTile_chunkBad (s : State) (p : Nat) (g : Tile → Tile) : (s.modTile p g).chunkBad = s.chunkBad := rfl
@[simp] theorem State.modTile_sigs (s : State) (p : Nat) (g : Tile → Tile) : (s.modTile p g).sigs = s.sigs := rfl
@[simp] theorem State.modTile_waiters (s : State) (p : Nat) (g : Tile → Tile) : (s.modTile p g).waiters = s.waiters := rfl
@[simp] theorem State.modTile_obArr (s : State) (p : Nat) (g : Tile → Tile) : (s.modTile p g).obArr = s.obArr := rfl
@[simp] theorem State.modTile_xbars (s : State) (p : Nat) (g : Tile → Tile) : (s.modTile p g).xbars = s.xbars := rfl
@[simp] theorem State.modTile_members (s : State) (p : Nat) (g : Tile → Tile) : (s.modTile p g).members = s.members := rfl
@[simp] theorem State.modTile_streams (s : State) (p : Nat) (g : Tile → Tile) : (s.modTile p g).streams = s.streams := rfl
@[simp] theorem State.modTile_overflow (s : State) (p : Nat) (g : Tile → Tile) : (s.modTile p g).overflow = s.overflow := rfl
@[simp] theorem State.modTile_wrCount (s : State) (p : Nat) (g : Tile → Tile) : (s.modTile p g).wrCount = s.wrCount := rfl
@[simp] theorem State.modTile_remoteWrs (s : State) (p : Nat) (g : Tile → Tile) : (s.modTile p g).remoteWrs = s.remoteWrs := rfl
@[simp] theorem State.modTile_heldSigs (s : State) (p : Nat) (g : Tile → Tile) : (s.modTile p g).heldSigs = s.heldSigs := rfl
@[simp] theorem State.modTile_sendStreams (s : State) (p : Nat) (g : Tile → Tile) : (s.modTile p g).sendStreams = s.sendStreams := rfl
@[simp] theorem State.modTile_colls (s : State) (p : Nat) (g : Tile → Tile) : (s.modTile p g).colls = s.colls := rfl
@[simp] theorem State.modTile_exchanges (s : State) (p : Nat) (g : Tile → Tile) : (s.modTile p g).exchanges = s.exchanges := rfl
@[simp] theorem State.modTile_early (s : State) (p : Nat) (g : Tile → Tile) : (s.modTile p g).early = s.early := rfl
@[simp] theorem State.modTile_collCount (s : State) (p : Nat) (g : Tile → Tile) : (s.modTile p g).collCount = s.collCount := rfl
@[simp] theorem State.modTile_evStarted (s : State) (p : Nat) (g : Tile → Tile) : (s.modTile p g).evStarted = s.evStarted := rfl
@[simp] theorem State.modTile_floors (s : State) (p : Nat) (g : Tile → Tile) : (s.modTile p g).floors = s.floors := rfl
@[simp] theorem State.modTile_links (s : State) (p : Nat) (g : Tile → Tile) : (s.modTile p g).links = s.links := rfl
@[simp] theorem State.modTile_t2 (s : State) (p : Nat) (g : Tile → Tile) : (s.modTile p g).t2 = s.t2 := rfl
@[simp] theorem State.modTile_t3 (s : State) (p : Nat) (g : Tile → Tile) : (s.modTile p g).t3 = s.t3 := rfl
@[simp] theorem State.modTile_portReqs (s : State) (p : Nat) (g : Tile → Tile) : (s.modTile p g).portReqs = s.portReqs := rfl
@[simp] theorem State.modTile_reqCount (s : State) (p : Nat) (g : Tile → Tile) : (s.modTile p g).reqCount = s.reqCount := rfl
@[simp] theorem State.modTile_chans (s : State) (p : Nat) (g : Tile → Tile) : (s.modTile p g).chans = s.chans := rfl
@[simp] theorem State.modTile_acts (s : State) (p : Nat) (g : Tile → Tile) : (s.modTile p g).acts = s.acts := rfl
@[simp] theorem State.modTile_actQ (s : State) (p : Nat) (g : Tile → Tile) : (s.modTile p g).actQ = s.actQ := rfl
@[simp] theorem State.modTile_actCount (s : State) (p : Nat) (g : Tile → Tile) : (s.modTile p g).actCount = s.actCount := rfl
@[simp] theorem State.modTile_scrubs (s : State) (p : Nat) (g : Tile → Tile) : (s.modTile p g).scrubs = s.scrubs := rfl
@[simp] theorem State.modTile_sweeps (s : State) (p : Nat) (g : Tile → Tile) : (s.modTile p g).sweeps = s.sweeps := rfl
@[simp] theorem State.modTile_t3wEpoch (s : State) (p : Nat) (g : Tile → Tile) : (s.modTile p g).t3wEpoch = s.t3wEpoch := rfl
@[simp] theorem State.modTile_ctlReset (s : State) (p : Nat) (g : Tile → Tile) : (s.modTile p g).ctlReset = s.ctlReset := rfl
@[simp] theorem State.modTile_online (s : State) (p : Nat) (g : Tile → Tile) : (s.modTile p g).online = s.online := rfl
@[simp] theorem State.modTile_log (s : State) (p : Nat) (g : Tile → Tile) : (s.modTile p g).log = s.log := rfl
@[simp] theorem State.modTile_logSeq (s : State) (p : Nat) (g : Tile → Tile) : (s.modTile p g).logSeq = s.logSeq := rfl
@[simp] theorem State.modTile_tilesNeed (s : State) (p : Nat) (g : Tile → Tile) : (s.modTile p g).tilesNeed = s.tilesNeed := rfl
@[simp] theorem State.modTile_mgmtFailed (s : State) (p : Nat) (g : Tile → Tile) : (s.modTile p g).mgmtFailed = s.mgmtFailed := rfl
@[simp] theorem State.modTile_tether (s : State) (p : Nat) (g : Tile → Tile) : (s.modTile p g).tether = s.tether := rfl
@[simp] theorem State.modTile_reserve (s : State) (p : Nat) (g : Tile → Tile) : (s.modTile p g).reserve = s.reserve := rfl
@[simp] theorem State.modTile_ramping (s : State) (p : Nat) (g : Tile → Tile) : (s.modTile p g).ramping = s.ramping := rfl
@[simp] theorem State.modTile_rampQ (s : State) (p : Nat) (g : Tile → Tile) : (s.modTile p g).rampQ = s.rampQ := rfl
@[simp] theorem State.modTile_capHold (s : State) (p : Nat) (g : Tile → Tile) : (s.modTile p g).capHold = s.capHold := rfl
@[simp] theorem State.modTile_driven (s : State) (p : Nat) (g : Tile → Tile) : (s.modTile p g).driven = s.driven := rfl
@[simp] theorem State.modTile_vtarget (s : State) (p : Nat) (g : Tile → Tile) : (s.modTile p g).vtarget = s.vtarget := rfl
@[simp] theorem State.modTile_volts (s : State) (p : Nat) (g : Tile → Tile) : (s.modTile p g).volts = s.volts := rfl
@[simp] theorem State.modTile_beatFrac (s : State) (p : Nat) (g : Tile → Tile) : (s.modTile p g).beatFrac = s.beatFrac := rfl
@[simp] theorem State.modTile_tmaxNext (s : State) (p : Nat) (g : Tile → Tile) : (s.modTile p g).tmaxNext = s.tmaxNext := rfl
@[simp] theorem State.modTile_tripHold (s : State) (p : Nat) (g : Tile → Tile) : (s.modTile p g).tripHold = s.tripHold := rfl
@[simp] theorem State.modTile_keyOp (s : State) (p : Nat) (g : Tile → Tile) : (s.modTile p g).keyOp = s.keyOp := rfl
@[simp] theorem State.modTile_fwOp (s : State) (p : Nat) (g : Tile → Tile) : (s.modTile p g).fwOp = s.fwOp := rfl
@[simp] theorem State.modTile_flashImg (s : State) (p : Nat) (g : Tile → Tile) : (s.modTile p g).flashImg = s.flashImg := rfl
@[simp] theorem State.modTile_preferred (s : State) (p : Nat) (g : Tile → Tile) : (s.modTile p g).preferred = s.preferred := rfl
@[simp] theorem State.modTile_fwKey (s : State) (p : Nat) (g : Tile → Tile) : (s.modTile p g).fwKey = s.fwKey := rfl
@[simp] theorem State.modTile_fwId (s : State) (p : Nat) (g : Tile → Tile) : (s.modTile p g).fwId = s.fwId := rfl
@[simp] theorem State.modTile_fwSvn (s : State) (p : Nat) (g : Tile → Tile) : (s.modTile p g).fwSvn = s.fwSvn := rfl
@[simp] theorem State.modTile_fwDigest (s : State) (p : Nat) (g : Tile → Tile) : (s.modTile p g).fwDigest = s.fwDigest := rfl
@[simp] theorem State.modTile_report (s : State) (p : Nat) (g : Tile → Tile) : (s.modTile p g).report = s.report := rfl
@[simp] theorem State.modTile_reports (s : State) (p : Nat) (g : Tile → Tile) : (s.modTile p g).reports = s.reports := rfl
@[simp] theorem State.modTile_imgDigest (s : State) (p : Nat) (g : Tile → Tile) : (s.modTile p g).imgDigest = s.imgDigest := rfl
@[simp] theorem State.modTile_chain (s : State) (p : Nat) (g : Tile → Tile) : (s.modTile p g).chain = s.chain := rfl
@[simp] theorem State.modTile_imgLoads (s : State) (p : Nat) (g : Tile → Tile) : (s.modTile p g).imgLoads = s.imgLoads := rfl
@[simp] theorem State.modTile_imgSlot (s : State) (p : Nat) (g : Tile → Tile) : (s.modTile p g).imgSlot = s.imgSlot := rfl
@[simp] theorem State.modTile_session (s : State) (p : Nat) (g : Tile → Tile) : (s.modTile p g).session = s.session := rfl
@[simp] theorem State.modTile_everOpen (s : State) (p : Nat) (g : Tile → Tile) : (s.modTile p g).everOpen = s.everOpen := rfl
@[simp] theorem State.modTile_flog (s : State) (p : Nat) (g : Tile → Tile) : (s.modTile p g).flog = s.flog := rfl
@[simp] theorem State.modTile_commits (s : State) (p : Nat) (g : Tile → Tile) : (s.modTile p g).commits = s.commits := rfl
@[simp] theorem State.modTile_staging (s : State) (p : Nat) (g : Tile → Tile) : (s.modTile p g).staging = s.staging := rfl
@[simp] theorem State.modTile_load (s : State) (p : Nat) (g : Tile → Tile) : (s.modTile p g).load = s.load := rfl

/-! ### modRig -/

@[simp] theorem State.modRig_pending (s : State) (n : Nat) (g : Rig → Rig) : (s.modRig n g).pending = s.pending := rfl
@[simp] theorem State.modRig_fresh (s : State) (n : Nat) (g : Rig → Rig) : (s.modRig n g).fresh = s.fresh := rfl
@[simp] theorem State.modRig_out (s : State) (n : Nat) (g : Rig → Rig) : (s.modRig n g).out = s.out := rfl
@[simp] theorem State.modRig_regs (s : State) (n : Nat) (g : Rig → Rig) : (s.modRig n g).regs = s.regs := rfl
@[simp] theorem State.modRig_latch (s : State) (n : Nat) (g : Rig → Rig) : (s.modRig n g).latch = s.latch := rfl
@[simp] theorem State.modRig_smbAddr (s : State) (n : Nat) (g : Rig → Rig) : (s.modRig n g).smbAddr = s.smbAddr := rfl
@[simp] theorem State.modRig_tapIr (s : State) (n : Nat) (g : Rig → Rig) : (s.modRig n g).tapIr = s.tapIr := rfl
@[simp] theorem State.modRig_porst (s : State) (n : Nat) (g : Rig → Rig) : (s.modRig n g).porst = s.porst := rfl
@[simp] theorem State.modRig_resetHeld (s : State) (n : Nat) (g : Rig → Rig) : (s.modRig n g).resetHeld = s.resetHeld := rfl
@[simp] theorem State.modRig_fuses (s : State) (n : Nat) (g : Rig → Rig) : (s.modRig n g).fuses = s.fuses := rfl
@[simp] theorem State.modRig_strapHsp (s : State) (n : Nat) (g : Rig → Rig) : (s.modRig n g).strapHsp = s.strapHsp := rfl
@[simp] theorem State.modRig_strapAsel (s : State) (n : Nat) (g : Rig → Rig) : (s.modRig n g).strapAsel = s.strapAsel := rfl
@[simp] theorem State.modRig_tiles (s : State) (n : Nat) (g : Rig → Rig) : (s.modRig n g).tiles = s.tiles := rfl
@[simp] theorem State.modRig_sheets (s : State) (n : Nat) (g : Rig → Rig) : (s.modRig n g).sheets = s.sheets := rfl
@[simp] theorem State.modRig_compls (s : State) (n : Nat) (g : Rig → Rig) : (s.modRig n g).compls = s.compls := rfl
@[simp] theorem State.modRig_sqs (s : State) (n : Nat) (g : Rig → Rig) : (s.modRig n g).sqs = s.sqs := rfl
@[simp] theorem State.modRig_cqs (s : State) (n : Nat) (g : Rig → Rig) : (s.modRig n g).cqs = s.cqs := rfl
@[simp] theorem State.modRig_msixOpen (s : State) (n : Nat) (g : Rig → Rig) : (s.modRig n g).msixOpen = s.msixOpen := rfl
@[simp] theorem State.modRig_msixPend (s : State) (n : Nat) (g : Rig → Rig) : (s.modRig n g).msixPend = s.msixPend := rfl
@[simp] theorem State.modRig_spaces (s : State) (n : Nat) (g : Rig → Rig) : (s.modRig n g).spaces = s.spaces := rfl
@[simp] theorem State.modRig_pages (s : State) (n : Nat) (g : Rig → Rig) : (s.modRig n g).pages = s.pages := rfl
@[simp] theorem State.modRig_staged (s : State) (n : Nat) (g : Rig → Rig) : (s.modRig n g).staged = s.staged := rfl
@[simp] theorem State.modRig_outVers (s : State) (n : Nat) (g : Rig → Rig) : (s.modRig n g).outVers = s.outVers := rfl
@[simp] theorem State.modRig_heldVers (s : State) (n : Nat) (g : Rig → Rig) : (s.modRig n g).heldVers = s.heldVers := rfl
@[simp] theorem State.modRig_ledgers (s : State) (n : Nat) (g : Rig → Rig) : (s.modRig n g).ledgers = s.ledgers := rfl
@[simp] theorem State.modRig_stagedLedgers (s : State) (n : Nat) (g : Rig → Rig) : (s.modRig n g).stagedLedgers = s.stagedLedgers := rfl
@[simp] theorem State.modRig_wc (s : State) (n : Nat) (g : Rig → Rig) : (s.modRig n g).wc = s.wc := rfl
@[simp] theorem State.modRig_ascentQ (s : State) (n : Nat) (g : Rig → Rig) : (s.modRig n g).ascentQ = s.ascentQ := rfl
@[simp] theorem State.modRig_forcedQ (s : State) (n : Nat) (g : Rig → Rig) : (s.modRig n g).forcedQ = s.forcedQ := rfl
@[simp] theorem State.modRig_descentQ (s : State) (n : Nat) (g : Rig → Rig) : (s.modRig n g).descentQ = s.descentQ := rfl
@[simp] theorem State.modRig_moves (s : State) (n : Nat) (g : Rig → Rig) : (s.modRig n g).moves = s.moves := rfl
@[simp] theorem State.modRig_mcmd (s : State) (n : Nat) (g : Rig → Rig) : (s.modRig n g).mcmd = s.mcmd := rfl
@[simp] theorem State.modRig_rejWrs (s : State) (n : Nat) (g : Rig → Rig) : (s.modRig n g).rejWrs = s.rejWrs := rfl
@[simp] theorem State.modRig_passing (s : State) (n : Nat) (g : Rig → Rig) : (s.modRig n g).passing = s.passing := rfl
@[simp] theorem State.modRig_msixTab (s : State) (n : Nat) (g : Rig → Rig) : (s.modRig n g).msixTab = s.msixTab := rfl
@[simp] theorem State.modRig_queJob (s : State) (n : Nat) (g : Rig → Rig) : (s.modRig n g).queJob = s.queJob := rfl
@[simp] theorem State.modRig_srSeed (s : State) (n : Nat) (g : Rig → Rig) : (s.modRig n g).srSeed = s.srSeed := rfl
@[simp] theorem State.modRig_bufReqs (s : State) (n : Nat) (g : Rig → Rig) : (s.modRig n g).bufReqs = s.bufReqs := rfl
@[simp] theorem State.modRig_txs (s : State) (n : Nat) (g : Rig → Rig) : (s.modRig n g).txs = s.txs := rfl
@[simp] theorem State.modRig_negReads (s : State) (n : Nat) (g : Rig → Rig) : (s.modRig n g).negReads = s.negReads := rfl
@[simp] theorem State.modRig_heldQ (s : State) (n : Nat) (g : Rig → Rig) : (s.modRig n g).heldQ = s.heldQ := rfl
@[simp] theorem State.modRig_chunkBad (s : State) (n : Nat) (g : Rig → Rig) : (s.modRig n g).chunkBad = s.chunkBad := rfl
@[simp] theorem State.modRig_sigs (s : State) (n : Nat) (g : Rig → Rig) : (s.modRig n g).sigs = s.sigs := rfl
@[simp] theorem State.modRig_waiters (s : State) (n : Nat) (g : Rig → Rig) : (s.modRig n g).waiters = s.waiters := rfl
@[simp] theorem State.modRig_obArr (s : State) (n : Nat) (g : Rig → Rig) : (s.modRig n g).obArr = s.obArr := rfl
@[simp] theorem State.modRig_xbars (s : State) (n : Nat) (g : Rig → Rig) : (s.modRig n g).xbars = s.xbars := rfl
@[simp] theorem State.modRig_members (s : State) (n : Nat) (g : Rig → Rig) : (s.modRig n g).members = s.members := rfl
@[simp] theorem State.modRig_streams (s : State) (n : Nat) (g : Rig → Rig) : (s.modRig n g).streams = s.streams := rfl
@[simp] theorem State.modRig_overflow (s : State) (n : Nat) (g : Rig → Rig) : (s.modRig n g).overflow = s.overflow := rfl
@[simp] theorem State.modRig_wrCount (s : State) (n : Nat) (g : Rig → Rig) : (s.modRig n g).wrCount = s.wrCount := rfl
@[simp] theorem State.modRig_remoteWrs (s : State) (n : Nat) (g : Rig → Rig) : (s.modRig n g).remoteWrs = s.remoteWrs := rfl
@[simp] theorem State.modRig_heldSigs (s : State) (n : Nat) (g : Rig → Rig) : (s.modRig n g).heldSigs = s.heldSigs := rfl
@[simp] theorem State.modRig_sendStreams (s : State) (n : Nat) (g : Rig → Rig) : (s.modRig n g).sendStreams = s.sendStreams := rfl
@[simp] theorem State.modRig_colls (s : State) (n : Nat) (g : Rig → Rig) : (s.modRig n g).colls = s.colls := rfl
@[simp] theorem State.modRig_exchanges (s : State) (n : Nat) (g : Rig → Rig) : (s.modRig n g).exchanges = s.exchanges := rfl
@[simp] theorem State.modRig_early (s : State) (n : Nat) (g : Rig → Rig) : (s.modRig n g).early = s.early := rfl
@[simp] theorem State.modRig_collCount (s : State) (n : Nat) (g : Rig → Rig) : (s.modRig n g).collCount = s.collCount := rfl
@[simp] theorem State.modRig_evStarted (s : State) (n : Nat) (g : Rig → Rig) : (s.modRig n g).evStarted = s.evStarted := rfl
@[simp] theorem State.modRig_floors (s : State) (n : Nat) (g : Rig → Rig) : (s.modRig n g).floors = s.floors := rfl
@[simp] theorem State.modRig_links (s : State) (n : Nat) (g : Rig → Rig) : (s.modRig n g).links = s.links := rfl
@[simp] theorem State.modRig_t2 (s : State) (n : Nat) (g : Rig → Rig) : (s.modRig n g).t2 = s.t2 := rfl
@[simp] theorem State.modRig_t3 (s : State) (n : Nat) (g : Rig → Rig) : (s.modRig n g).t3 = s.t3 := rfl
@[simp] theorem State.modRig_portReqs (s : State) (n : Nat) (g : Rig → Rig) : (s.modRig n g).portReqs = s.portReqs := rfl
@[simp] theorem State.modRig_reqCount (s : State) (n : Nat) (g : Rig → Rig) : (s.modRig n g).reqCount = s.reqCount := rfl
@[simp] theorem State.modRig_chans (s : State) (n : Nat) (g : Rig → Rig) : (s.modRig n g).chans = s.chans := rfl
@[simp] theorem State.modRig_acts (s : State) (n : Nat) (g : Rig → Rig) : (s.modRig n g).acts = s.acts := rfl
@[simp] theorem State.modRig_actQ (s : State) (n : Nat) (g : Rig → Rig) : (s.modRig n g).actQ = s.actQ := rfl
@[simp] theorem State.modRig_actCount (s : State) (n : Nat) (g : Rig → Rig) : (s.modRig n g).actCount = s.actCount := rfl
@[simp] theorem State.modRig_scrubs (s : State) (n : Nat) (g : Rig → Rig) : (s.modRig n g).scrubs = s.scrubs := rfl
@[simp] theorem State.modRig_sweeps (s : State) (n : Nat) (g : Rig → Rig) : (s.modRig n g).sweeps = s.sweeps := rfl
@[simp] theorem State.modRig_t3wEpoch (s : State) (n : Nat) (g : Rig → Rig) : (s.modRig n g).t3wEpoch = s.t3wEpoch := rfl
@[simp] theorem State.modRig_ctlReset (s : State) (n : Nat) (g : Rig → Rig) : (s.modRig n g).ctlReset = s.ctlReset := rfl
@[simp] theorem State.modRig_online (s : State) (n : Nat) (g : Rig → Rig) : (s.modRig n g).online = s.online := rfl
@[simp] theorem State.modRig_log (s : State) (n : Nat) (g : Rig → Rig) : (s.modRig n g).log = s.log := rfl
@[simp] theorem State.modRig_logSeq (s : State) (n : Nat) (g : Rig → Rig) : (s.modRig n g).logSeq = s.logSeq := rfl
@[simp] theorem State.modRig_tilesNeed (s : State) (n : Nat) (g : Rig → Rig) : (s.modRig n g).tilesNeed = s.tilesNeed := rfl
@[simp] theorem State.modRig_mgmtFailed (s : State) (n : Nat) (g : Rig → Rig) : (s.modRig n g).mgmtFailed = s.mgmtFailed := rfl
@[simp] theorem State.modRig_tether (s : State) (n : Nat) (g : Rig → Rig) : (s.modRig n g).tether = s.tether := rfl
@[simp] theorem State.modRig_reserve (s : State) (n : Nat) (g : Rig → Rig) : (s.modRig n g).reserve = s.reserve := rfl
@[simp] theorem State.modRig_ramping (s : State) (n : Nat) (g : Rig → Rig) : (s.modRig n g).ramping = s.ramping := rfl
@[simp] theorem State.modRig_rampQ (s : State) (n : Nat) (g : Rig → Rig) : (s.modRig n g).rampQ = s.rampQ := rfl
@[simp] theorem State.modRig_capHold (s : State) (n : Nat) (g : Rig → Rig) : (s.modRig n g).capHold = s.capHold := rfl
@[simp] theorem State.modRig_driven (s : State) (n : Nat) (g : Rig → Rig) : (s.modRig n g).driven = s.driven := rfl
@[simp] theorem State.modRig_vtarget (s : State) (n : Nat) (g : Rig → Rig) : (s.modRig n g).vtarget = s.vtarget := rfl
@[simp] theorem State.modRig_volts (s : State) (n : Nat) (g : Rig → Rig) : (s.modRig n g).volts = s.volts := rfl
@[simp] theorem State.modRig_beatFrac (s : State) (n : Nat) (g : Rig → Rig) : (s.modRig n g).beatFrac = s.beatFrac := rfl
@[simp] theorem State.modRig_tmaxNext (s : State) (n : Nat) (g : Rig → Rig) : (s.modRig n g).tmaxNext = s.tmaxNext := rfl
@[simp] theorem State.modRig_tripHold (s : State) (n : Nat) (g : Rig → Rig) : (s.modRig n g).tripHold = s.tripHold := rfl
@[simp] theorem State.modRig_keyOp (s : State) (n : Nat) (g : Rig → Rig) : (s.modRig n g).keyOp = s.keyOp := rfl
@[simp] theorem State.modRig_fwOp (s : State) (n : Nat) (g : Rig → Rig) : (s.modRig n g).fwOp = s.fwOp := rfl
@[simp] theorem State.modRig_flashImg (s : State) (n : Nat) (g : Rig → Rig) : (s.modRig n g).flashImg = s.flashImg := rfl
@[simp] theorem State.modRig_preferred (s : State) (n : Nat) (g : Rig → Rig) : (s.modRig n g).preferred = s.preferred := rfl
@[simp] theorem State.modRig_fwKey (s : State) (n : Nat) (g : Rig → Rig) : (s.modRig n g).fwKey = s.fwKey := rfl
@[simp] theorem State.modRig_fwId (s : State) (n : Nat) (g : Rig → Rig) : (s.modRig n g).fwId = s.fwId := rfl
@[simp] theorem State.modRig_fwSvn (s : State) (n : Nat) (g : Rig → Rig) : (s.modRig n g).fwSvn = s.fwSvn := rfl
@[simp] theorem State.modRig_fwDigest (s : State) (n : Nat) (g : Rig → Rig) : (s.modRig n g).fwDigest = s.fwDigest := rfl
@[simp] theorem State.modRig_report (s : State) (n : Nat) (g : Rig → Rig) : (s.modRig n g).report = s.report := rfl
@[simp] theorem State.modRig_reports (s : State) (n : Nat) (g : Rig → Rig) : (s.modRig n g).reports = s.reports := rfl
@[simp] theorem State.modRig_imgDigest (s : State) (n : Nat) (g : Rig → Rig) : (s.modRig n g).imgDigest = s.imgDigest := rfl
@[simp] theorem State.modRig_chain (s : State) (n : Nat) (g : Rig → Rig) : (s.modRig n g).chain = s.chain := rfl
@[simp] theorem State.modRig_imgLoads (s : State) (n : Nat) (g : Rig → Rig) : (s.modRig n g).imgLoads = s.imgLoads := rfl
@[simp] theorem State.modRig_imgSlot (s : State) (n : Nat) (g : Rig → Rig) : (s.modRig n g).imgSlot = s.imgSlot := rfl
@[simp] theorem State.modRig_session (s : State) (n : Nat) (g : Rig → Rig) : (s.modRig n g).session = s.session := rfl
@[simp] theorem State.modRig_everOpen (s : State) (n : Nat) (g : Rig → Rig) : (s.modRig n g).everOpen = s.everOpen := rfl
@[simp] theorem State.modRig_flog (s : State) (n : Nat) (g : Rig → Rig) : (s.modRig n g).flog = s.flog := rfl
@[simp] theorem State.modRig_commits (s : State) (n : Nat) (g : Rig → Rig) : (s.modRig n g).commits = s.commits := rfl
@[simp] theorem State.modRig_staging (s : State) (n : Nat) (g : Rig → Rig) : (s.modRig n g).staging = s.staging := rfl
@[simp] theorem State.modRig_load (s : State) (n : Nat) (g : Rig → Rig) : (s.modRig n g).load = s.load := rfl

/-! ### emit -/

@[simp] theorem State.emit_pending (s : State) (o : Out) : (s.emit o).pending = s.pending := rfl
@[simp] theorem State.emit_fresh (s : State) (o : Out) : (s.emit o).fresh = s.fresh := rfl
@[simp] theorem State.emit_regs (s : State) (o : Out) : (s.emit o).regs = s.regs := rfl
@[simp] theorem State.emit_latch (s : State) (o : Out) : (s.emit o).latch = s.latch := rfl
@[simp] theorem State.emit_smbAddr (s : State) (o : Out) : (s.emit o).smbAddr = s.smbAddr := rfl
@[simp] theorem State.emit_tapIr (s : State) (o : Out) : (s.emit o).tapIr = s.tapIr := rfl
@[simp] theorem State.emit_porst (s : State) (o : Out) : (s.emit o).porst = s.porst := rfl
@[simp] theorem State.emit_resetHeld (s : State) (o : Out) : (s.emit o).resetHeld = s.resetHeld := rfl
@[simp] theorem State.emit_fuses (s : State) (o : Out) : (s.emit o).fuses = s.fuses := rfl
@[simp] theorem State.emit_strapHsp (s : State) (o : Out) : (s.emit o).strapHsp = s.strapHsp := rfl
@[simp] theorem State.emit_strapAsel (s : State) (o : Out) : (s.emit o).strapAsel = s.strapAsel := rfl
@[simp] theorem State.emit_tiles (s : State) (o : Out) : (s.emit o).tiles = s.tiles := rfl
@[simp] theorem State.emit_rigs (s : State) (o : Out) : (s.emit o).rigs = s.rigs := rfl
@[simp] theorem State.emit_sheets (s : State) (o : Out) : (s.emit o).sheets = s.sheets := rfl
@[simp] theorem State.emit_compls (s : State) (o : Out) : (s.emit o).compls = s.compls := rfl
@[simp] theorem State.emit_sqs (s : State) (o : Out) : (s.emit o).sqs = s.sqs := rfl
@[simp] theorem State.emit_cqs (s : State) (o : Out) : (s.emit o).cqs = s.cqs := rfl
@[simp] theorem State.emit_msixOpen (s : State) (o : Out) : (s.emit o).msixOpen = s.msixOpen := rfl
@[simp] theorem State.emit_msixPend (s : State) (o : Out) : (s.emit o).msixPend = s.msixPend := rfl
@[simp] theorem State.emit_spaces (s : State) (o : Out) : (s.emit o).spaces = s.spaces := rfl
@[simp] theorem State.emit_pages (s : State) (o : Out) : (s.emit o).pages = s.pages := rfl
@[simp] theorem State.emit_staged (s : State) (o : Out) : (s.emit o).staged = s.staged := rfl
@[simp] theorem State.emit_outVers (s : State) (o : Out) : (s.emit o).outVers = s.outVers := rfl
@[simp] theorem State.emit_heldVers (s : State) (o : Out) : (s.emit o).heldVers = s.heldVers := rfl
@[simp] theorem State.emit_ledgers (s : State) (o : Out) : (s.emit o).ledgers = s.ledgers := rfl
@[simp] theorem State.emit_stagedLedgers (s : State) (o : Out) : (s.emit o).stagedLedgers = s.stagedLedgers := rfl
@[simp] theorem State.emit_wc (s : State) (o : Out) : (s.emit o).wc = s.wc := rfl
@[simp] theorem State.emit_ascentQ (s : State) (o : Out) : (s.emit o).ascentQ = s.ascentQ := rfl
@[simp] theorem State.emit_forcedQ (s : State) (o : Out) : (s.emit o).forcedQ = s.forcedQ := rfl
@[simp] theorem State.emit_descentQ (s : State) (o : Out) : (s.emit o).descentQ = s.descentQ := rfl
@[simp] theorem State.emit_moves (s : State) (o : Out) : (s.emit o).moves = s.moves := rfl
@[simp] theorem State.emit_mcmd (s : State) (o : Out) : (s.emit o).mcmd = s.mcmd := rfl
@[simp] theorem State.emit_rejWrs (s : State) (o : Out) : (s.emit o).rejWrs = s.rejWrs := rfl
@[simp] theorem State.emit_passing (s : State) (o : Out) : (s.emit o).passing = s.passing := rfl
@[simp] theorem State.emit_msixTab (s : State) (o : Out) : (s.emit o).msixTab = s.msixTab := rfl
@[simp] theorem State.emit_queJob (s : State) (o : Out) : (s.emit o).queJob = s.queJob := rfl
@[simp] theorem State.emit_srSeed (s : State) (o : Out) : (s.emit o).srSeed = s.srSeed := rfl
@[simp] theorem State.emit_bufReqs (s : State) (o : Out) : (s.emit o).bufReqs = s.bufReqs := rfl
@[simp] theorem State.emit_txs (s : State) (o : Out) : (s.emit o).txs = s.txs := rfl
@[simp] theorem State.emit_negReads (s : State) (o : Out) : (s.emit o).negReads = s.negReads := rfl
@[simp] theorem State.emit_heldQ (s : State) (o : Out) : (s.emit o).heldQ = s.heldQ := rfl
@[simp] theorem State.emit_chunkBad (s : State) (o : Out) : (s.emit o).chunkBad = s.chunkBad := rfl
@[simp] theorem State.emit_sigs (s : State) (o : Out) : (s.emit o).sigs = s.sigs := rfl
@[simp] theorem State.emit_waiters (s : State) (o : Out) : (s.emit o).waiters = s.waiters := rfl
@[simp] theorem State.emit_obArr (s : State) (o : Out) : (s.emit o).obArr = s.obArr := rfl
@[simp] theorem State.emit_xbars (s : State) (o : Out) : (s.emit o).xbars = s.xbars := rfl
@[simp] theorem State.emit_members (s : State) (o : Out) : (s.emit o).members = s.members := rfl
@[simp] theorem State.emit_streams (s : State) (o : Out) : (s.emit o).streams = s.streams := rfl
@[simp] theorem State.emit_overflow (s : State) (o : Out) : (s.emit o).overflow = s.overflow := rfl
@[simp] theorem State.emit_wrCount (s : State) (o : Out) : (s.emit o).wrCount = s.wrCount := rfl
@[simp] theorem State.emit_remoteWrs (s : State) (o : Out) : (s.emit o).remoteWrs = s.remoteWrs := rfl
@[simp] theorem State.emit_heldSigs (s : State) (o : Out) : (s.emit o).heldSigs = s.heldSigs := rfl
@[simp] theorem State.emit_sendStreams (s : State) (o : Out) : (s.emit o).sendStreams = s.sendStreams := rfl
@[simp] theorem State.emit_colls (s : State) (o : Out) : (s.emit o).colls = s.colls := rfl
@[simp] theorem State.emit_exchanges (s : State) (o : Out) : (s.emit o).exchanges = s.exchanges := rfl
@[simp] theorem State.emit_early (s : State) (o : Out) : (s.emit o).early = s.early := rfl
@[simp] theorem State.emit_collCount (s : State) (o : Out) : (s.emit o).collCount = s.collCount := rfl
@[simp] theorem State.emit_evStarted (s : State) (o : Out) : (s.emit o).evStarted = s.evStarted := rfl
@[simp] theorem State.emit_floors (s : State) (o : Out) : (s.emit o).floors = s.floors := rfl
@[simp] theorem State.emit_links (s : State) (o : Out) : (s.emit o).links = s.links := rfl
@[simp] theorem State.emit_t2 (s : State) (o : Out) : (s.emit o).t2 = s.t2 := rfl
@[simp] theorem State.emit_t3 (s : State) (o : Out) : (s.emit o).t3 = s.t3 := rfl
@[simp] theorem State.emit_portReqs (s : State) (o : Out) : (s.emit o).portReqs = s.portReqs := rfl
@[simp] theorem State.emit_reqCount (s : State) (o : Out) : (s.emit o).reqCount = s.reqCount := rfl
@[simp] theorem State.emit_chans (s : State) (o : Out) : (s.emit o).chans = s.chans := rfl
@[simp] theorem State.emit_acts (s : State) (o : Out) : (s.emit o).acts = s.acts := rfl
@[simp] theorem State.emit_actQ (s : State) (o : Out) : (s.emit o).actQ = s.actQ := rfl
@[simp] theorem State.emit_actCount (s : State) (o : Out) : (s.emit o).actCount = s.actCount := rfl
@[simp] theorem State.emit_scrubs (s : State) (o : Out) : (s.emit o).scrubs = s.scrubs := rfl
@[simp] theorem State.emit_sweeps (s : State) (o : Out) : (s.emit o).sweeps = s.sweeps := rfl
@[simp] theorem State.emit_t3wEpoch (s : State) (o : Out) : (s.emit o).t3wEpoch = s.t3wEpoch := rfl
@[simp] theorem State.emit_ctlReset (s : State) (o : Out) : (s.emit o).ctlReset = s.ctlReset := rfl
@[simp] theorem State.emit_online (s : State) (o : Out) : (s.emit o).online = s.online := rfl
@[simp] theorem State.emit_log (s : State) (o : Out) : (s.emit o).log = s.log := rfl
@[simp] theorem State.emit_logSeq (s : State) (o : Out) : (s.emit o).logSeq = s.logSeq := rfl
@[simp] theorem State.emit_tilesNeed (s : State) (o : Out) : (s.emit o).tilesNeed = s.tilesNeed := rfl
@[simp] theorem State.emit_mgmtFailed (s : State) (o : Out) : (s.emit o).mgmtFailed = s.mgmtFailed := rfl
@[simp] theorem State.emit_tether (s : State) (o : Out) : (s.emit o).tether = s.tether := rfl
@[simp] theorem State.emit_reserve (s : State) (o : Out) : (s.emit o).reserve = s.reserve := rfl
@[simp] theorem State.emit_ramping (s : State) (o : Out) : (s.emit o).ramping = s.ramping := rfl
@[simp] theorem State.emit_rampQ (s : State) (o : Out) : (s.emit o).rampQ = s.rampQ := rfl
@[simp] theorem State.emit_capHold (s : State) (o : Out) : (s.emit o).capHold = s.capHold := rfl
@[simp] theorem State.emit_driven (s : State) (o : Out) : (s.emit o).driven = s.driven := rfl
@[simp] theorem State.emit_vtarget (s : State) (o : Out) : (s.emit o).vtarget = s.vtarget := rfl
@[simp] theorem State.emit_volts (s : State) (o : Out) : (s.emit o).volts = s.volts := rfl
@[simp] theorem State.emit_beatFrac (s : State) (o : Out) : (s.emit o).beatFrac = s.beatFrac := rfl
@[simp] theorem State.emit_tmaxNext (s : State) (o : Out) : (s.emit o).tmaxNext = s.tmaxNext := rfl
@[simp] theorem State.emit_tripHold (s : State) (o : Out) : (s.emit o).tripHold = s.tripHold := rfl
@[simp] theorem State.emit_keyOp (s : State) (o : Out) : (s.emit o).keyOp = s.keyOp := rfl
@[simp] theorem State.emit_fwOp (s : State) (o : Out) : (s.emit o).fwOp = s.fwOp := rfl
@[simp] theorem State.emit_flashImg (s : State) (o : Out) : (s.emit o).flashImg = s.flashImg := rfl
@[simp] theorem State.emit_preferred (s : State) (o : Out) : (s.emit o).preferred = s.preferred := rfl
@[simp] theorem State.emit_fwKey (s : State) (o : Out) : (s.emit o).fwKey = s.fwKey := rfl
@[simp] theorem State.emit_fwId (s : State) (o : Out) : (s.emit o).fwId = s.fwId := rfl
@[simp] theorem State.emit_fwSvn (s : State) (o : Out) : (s.emit o).fwSvn = s.fwSvn := rfl
@[simp] theorem State.emit_fwDigest (s : State) (o : Out) : (s.emit o).fwDigest = s.fwDigest := rfl
@[simp] theorem State.emit_report (s : State) (o : Out) : (s.emit o).report = s.report := rfl
@[simp] theorem State.emit_reports (s : State) (o : Out) : (s.emit o).reports = s.reports := rfl
@[simp] theorem State.emit_imgDigest (s : State) (o : Out) : (s.emit o).imgDigest = s.imgDigest := rfl
@[simp] theorem State.emit_chain (s : State) (o : Out) : (s.emit o).chain = s.chain := rfl
@[simp] theorem State.emit_imgLoads (s : State) (o : Out) : (s.emit o).imgLoads = s.imgLoads := rfl
@[simp] theorem State.emit_imgSlot (s : State) (o : Out) : (s.emit o).imgSlot = s.imgSlot := rfl
@[simp] theorem State.emit_session (s : State) (o : Out) : (s.emit o).session = s.session := rfl
@[simp] theorem State.emit_everOpen (s : State) (o : Out) : (s.emit o).everOpen = s.everOpen := rfl
@[simp] theorem State.emit_flog (s : State) (o : Out) : (s.emit o).flog = s.flog := rfl
@[simp] theorem State.emit_commits (s : State) (o : Out) : (s.emit o).commits = s.commits := rfl
@[simp] theorem State.emit_staging (s : State) (o : Out) : (s.emit o).staging = s.staging := rfl
@[simp] theorem State.emit_load (s : State) (o : Out) : (s.emit o).load = s.load := rfl

/-! ### spend -/

@[simp] theorem State.spend_pending (s : State) : (s.spend).pending = s.pending := rfl
@[simp] theorem State.spend_out (s : State) : (s.spend).out = s.out := rfl
@[simp] theorem State.spend_regs (s : State) : (s.spend).regs = s.regs := rfl
@[simp] theorem State.spend_latch (s : State) : (s.spend).latch = s.latch := rfl
@[simp] theorem State.spend_smbAddr (s : State) : (s.spend).smbAddr = s.smbAddr := rfl
@[simp] theorem State.spend_tapIr (s : State) : (s.spend).tapIr = s.tapIr := rfl
@[simp] theorem State.spend_porst (s : State) : (s.spend).porst = s.porst := rfl
@[simp] theorem State.spend_resetHeld (s : State) : (s.spend).resetHeld = s.resetHeld := rfl
@[simp] theorem State.spend_fuses (s : State) : (s.spend).fuses = s.fuses := rfl
@[simp] theorem State.spend_strapHsp (s : State) : (s.spend).strapHsp = s.strapHsp := rfl
@[simp] theorem State.spend_strapAsel (s : State) : (s.spend).strapAsel = s.strapAsel := rfl
@[simp] theorem State.spend_tiles (s : State) : (s.spend).tiles = s.tiles := rfl
@[simp] theorem State.spend_rigs (s : State) : (s.spend).rigs = s.rigs := rfl
@[simp] theorem State.spend_sheets (s : State) : (s.spend).sheets = s.sheets := rfl
@[simp] theorem State.spend_compls (s : State) : (s.spend).compls = s.compls := rfl
@[simp] theorem State.spend_sqs (s : State) : (s.spend).sqs = s.sqs := rfl
@[simp] theorem State.spend_cqs (s : State) : (s.spend).cqs = s.cqs := rfl
@[simp] theorem State.spend_msixOpen (s : State) : (s.spend).msixOpen = s.msixOpen := rfl
@[simp] theorem State.spend_msixPend (s : State) : (s.spend).msixPend = s.msixPend := rfl
@[simp] theorem State.spend_spaces (s : State) : (s.spend).spaces = s.spaces := rfl
@[simp] theorem State.spend_pages (s : State) : (s.spend).pages = s.pages := rfl
@[simp] theorem State.spend_staged (s : State) : (s.spend).staged = s.staged := rfl
@[simp] theorem State.spend_outVers (s : State) : (s.spend).outVers = s.outVers := rfl
@[simp] theorem State.spend_heldVers (s : State) : (s.spend).heldVers = s.heldVers := rfl
@[simp] theorem State.spend_ledgers (s : State) : (s.spend).ledgers = s.ledgers := rfl
@[simp] theorem State.spend_stagedLedgers (s : State) : (s.spend).stagedLedgers = s.stagedLedgers := rfl
@[simp] theorem State.spend_wc (s : State) : (s.spend).wc = s.wc := rfl
@[simp] theorem State.spend_ascentQ (s : State) : (s.spend).ascentQ = s.ascentQ := rfl
@[simp] theorem State.spend_forcedQ (s : State) : (s.spend).forcedQ = s.forcedQ := rfl
@[simp] theorem State.spend_descentQ (s : State) : (s.spend).descentQ = s.descentQ := rfl
@[simp] theorem State.spend_moves (s : State) : (s.spend).moves = s.moves := rfl
@[simp] theorem State.spend_mcmd (s : State) : (s.spend).mcmd = s.mcmd := rfl
@[simp] theorem State.spend_rejWrs (s : State) : (s.spend).rejWrs = s.rejWrs := rfl
@[simp] theorem State.spend_passing (s : State) : (s.spend).passing = s.passing := rfl
@[simp] theorem State.spend_msixTab (s : State) : (s.spend).msixTab = s.msixTab := rfl
@[simp] theorem State.spend_queJob (s : State) : (s.spend).queJob = s.queJob := rfl
@[simp] theorem State.spend_srSeed (s : State) : (s.spend).srSeed = s.srSeed := rfl
@[simp] theorem State.spend_bufReqs (s : State) : (s.spend).bufReqs = s.bufReqs := rfl
@[simp] theorem State.spend_txs (s : State) : (s.spend).txs = s.txs := rfl
@[simp] theorem State.spend_negReads (s : State) : (s.spend).negReads = s.negReads := rfl
@[simp] theorem State.spend_heldQ (s : State) : (s.spend).heldQ = s.heldQ := rfl
@[simp] theorem State.spend_chunkBad (s : State) : (s.spend).chunkBad = s.chunkBad := rfl
@[simp] theorem State.spend_sigs (s : State) : (s.spend).sigs = s.sigs := rfl
@[simp] theorem State.spend_waiters (s : State) : (s.spend).waiters = s.waiters := rfl
@[simp] theorem State.spend_obArr (s : State) : (s.spend).obArr = s.obArr := rfl
@[simp] theorem State.spend_xbars (s : State) : (s.spend).xbars = s.xbars := rfl
@[simp] theorem State.spend_members (s : State) : (s.spend).members = s.members := rfl
@[simp] theorem State.spend_streams (s : State) : (s.spend).streams = s.streams := rfl
@[simp] theorem State.spend_overflow (s : State) : (s.spend).overflow = s.overflow := rfl
@[simp] theorem State.spend_wrCount (s : State) : (s.spend).wrCount = s.wrCount := rfl
@[simp] theorem State.spend_remoteWrs (s : State) : (s.spend).remoteWrs = s.remoteWrs := rfl
@[simp] theorem State.spend_heldSigs (s : State) : (s.spend).heldSigs = s.heldSigs := rfl
@[simp] theorem State.spend_sendStreams (s : State) : (s.spend).sendStreams = s.sendStreams := rfl
@[simp] theorem State.spend_colls (s : State) : (s.spend).colls = s.colls := rfl
@[simp] theorem State.spend_exchanges (s : State) : (s.spend).exchanges = s.exchanges := rfl
@[simp] theorem State.spend_early (s : State) : (s.spend).early = s.early := rfl
@[simp] theorem State.spend_collCount (s : State) : (s.spend).collCount = s.collCount := rfl
@[simp] theorem State.spend_evStarted (s : State) : (s.spend).evStarted = s.evStarted := rfl
@[simp] theorem State.spend_floors (s : State) : (s.spend).floors = s.floors := rfl
@[simp] theorem State.spend_links (s : State) : (s.spend).links = s.links := rfl
@[simp] theorem State.spend_t2 (s : State) : (s.spend).t2 = s.t2 := rfl
@[simp] theorem State.spend_t3 (s : State) : (s.spend).t3 = s.t3 := rfl
@[simp] theorem State.spend_portReqs (s : State) : (s.spend).portReqs = s.portReqs := rfl
@[simp] theorem State.spend_reqCount (s : State) : (s.spend).reqCount = s.reqCount := rfl
@[simp] theorem State.spend_chans (s : State) : (s.spend).chans = s.chans := rfl
@[simp] theorem State.spend_acts (s : State) : (s.spend).acts = s.acts := rfl
@[simp] theorem State.spend_actQ (s : State) : (s.spend).actQ = s.actQ := rfl
@[simp] theorem State.spend_actCount (s : State) : (s.spend).actCount = s.actCount := rfl
@[simp] theorem State.spend_scrubs (s : State) : (s.spend).scrubs = s.scrubs := rfl
@[simp] theorem State.spend_sweeps (s : State) : (s.spend).sweeps = s.sweeps := rfl
@[simp] theorem State.spend_t3wEpoch (s : State) : (s.spend).t3wEpoch = s.t3wEpoch := rfl
@[simp] theorem State.spend_ctlReset (s : State) : (s.spend).ctlReset = s.ctlReset := rfl
@[simp] theorem State.spend_online (s : State) : (s.spend).online = s.online := rfl
@[simp] theorem State.spend_log (s : State) : (s.spend).log = s.log := rfl
@[simp] theorem State.spend_logSeq (s : State) : (s.spend).logSeq = s.logSeq := rfl
@[simp] theorem State.spend_tilesNeed (s : State) : (s.spend).tilesNeed = s.tilesNeed := rfl
@[simp] theorem State.spend_mgmtFailed (s : State) : (s.spend).mgmtFailed = s.mgmtFailed := rfl
@[simp] theorem State.spend_tether (s : State) : (s.spend).tether = s.tether := rfl
@[simp] theorem State.spend_reserve (s : State) : (s.spend).reserve = s.reserve := rfl
@[simp] theorem State.spend_ramping (s : State) : (s.spend).ramping = s.ramping := rfl
@[simp] theorem State.spend_rampQ (s : State) : (s.spend).rampQ = s.rampQ := rfl
@[simp] theorem State.spend_capHold (s : State) : (s.spend).capHold = s.capHold := rfl
@[simp] theorem State.spend_driven (s : State) : (s.spend).driven = s.driven := rfl
@[simp] theorem State.spend_vtarget (s : State) : (s.spend).vtarget = s.vtarget := rfl
@[simp] theorem State.spend_volts (s : State) : (s.spend).volts = s.volts := rfl
@[simp] theorem State.spend_beatFrac (s : State) : (s.spend).beatFrac = s.beatFrac := rfl
@[simp] theorem State.spend_tmaxNext (s : State) : (s.spend).tmaxNext = s.tmaxNext := rfl
@[simp] theorem State.spend_tripHold (s : State) : (s.spend).tripHold = s.tripHold := rfl
@[simp] theorem State.spend_keyOp (s : State) : (s.spend).keyOp = s.keyOp := rfl
@[simp] theorem State.spend_fwOp (s : State) : (s.spend).fwOp = s.fwOp := rfl
@[simp] theorem State.spend_flashImg (s : State) : (s.spend).flashImg = s.flashImg := rfl
@[simp] theorem State.spend_preferred (s : State) : (s.spend).preferred = s.preferred := rfl
@[simp] theorem State.spend_fwKey (s : State) : (s.spend).fwKey = s.fwKey := rfl
@[simp] theorem State.spend_fwId (s : State) : (s.spend).fwId = s.fwId := rfl
@[simp] theorem State.spend_fwSvn (s : State) : (s.spend).fwSvn = s.fwSvn := rfl
@[simp] theorem State.spend_fwDigest (s : State) : (s.spend).fwDigest = s.fwDigest := rfl
@[simp] theorem State.spend_report (s : State) : (s.spend).report = s.report := rfl
@[simp] theorem State.spend_reports (s : State) : (s.spend).reports = s.reports := rfl
@[simp] theorem State.spend_imgDigest (s : State) : (s.spend).imgDigest = s.imgDigest := rfl
@[simp] theorem State.spend_chain (s : State) : (s.spend).chain = s.chain := rfl
@[simp] theorem State.spend_imgLoads (s : State) : (s.spend).imgLoads = s.imgLoads := rfl
@[simp] theorem State.spend_imgSlot (s : State) : (s.spend).imgSlot = s.imgSlot := rfl
@[simp] theorem State.spend_session (s : State) : (s.spend).session = s.session := rfl
@[simp] theorem State.spend_everOpen (s : State) : (s.spend).everOpen = s.everOpen := rfl
@[simp] theorem State.spend_flog (s : State) : (s.spend).flog = s.flog := rfl
@[simp] theorem State.spend_commits (s : State) : (s.spend).commits = s.commits := rfl
@[simp] theorem State.spend_staging (s : State) : (s.spend).staging = s.staging := rfl
@[simp] theorem State.spend_load (s : State) : (s.spend).load = s.load := rfl

/-! ### modSheet -/

@[simp] theorem State.modSheet_pending (s : State) (l : Nat) (g : Sheet → Sheet) : (s.modSheet l g).pending = s.pending := rfl
@[simp] theorem State.modSheet_fresh (s : State) (l : Nat) (g : Sheet → Sheet) : (s.modSheet l g).fresh = s.fresh := rfl
@[simp] theorem State.modSheet_out (s : State) (l : Nat) (g : Sheet → Sheet) : (s.modSheet l g).out = s.out := rfl
@[simp] theorem State.modSheet_regs (s : State) (l : Nat) (g : Sheet → Sheet) : (s.modSheet l g).regs = s.regs := rfl
@[simp] theorem State.modSheet_latch (s : State) (l : Nat) (g : Sheet → Sheet) : (s.modSheet l g).latch = s.latch := rfl
@[simp] theorem State.modSheet_smbAddr (s : State) (l : Nat) (g : Sheet → Sheet) : (s.modSheet l g).smbAddr = s.smbAddr := rfl
@[simp] theorem State.modSheet_tapIr (s : State) (l : Nat) (g : Sheet → Sheet) : (s.modSheet l g).tapIr = s.tapIr := rfl
@[simp] theorem State.modSheet_porst (s : State) (l : Nat) (g : Sheet → Sheet) : (s.modSheet l g).porst = s.porst := rfl
@[simp] theorem State.modSheet_resetHeld (s : State) (l : Nat) (g : Sheet → Sheet) : (s.modSheet l g).resetHeld = s.resetHeld := rfl
@[simp] theorem State.modSheet_fuses (s : State) (l : Nat) (g : Sheet → Sheet) : (s.modSheet l g).fuses = s.fuses := rfl
@[simp] theorem State.modSheet_strapHsp (s : State) (l : Nat) (g : Sheet → Sheet) : (s.modSheet l g).strapHsp = s.strapHsp := rfl
@[simp] theorem State.modSheet_strapAsel (s : State) (l : Nat) (g : Sheet → Sheet) : (s.modSheet l g).strapAsel = s.strapAsel := rfl
@[simp] theorem State.modSheet_tiles (s : State) (l : Nat) (g : Sheet → Sheet) : (s.modSheet l g).tiles = s.tiles := rfl
@[simp] theorem State.modSheet_rigs (s : State) (l : Nat) (g : Sheet → Sheet) : (s.modSheet l g).rigs = s.rigs := rfl
@[simp] theorem State.modSheet_compls (s : State) (l : Nat) (g : Sheet → Sheet) : (s.modSheet l g).compls = s.compls := rfl
@[simp] theorem State.modSheet_sqs (s : State) (l : Nat) (g : Sheet → Sheet) : (s.modSheet l g).sqs = s.sqs := rfl
@[simp] theorem State.modSheet_cqs (s : State) (l : Nat) (g : Sheet → Sheet) : (s.modSheet l g).cqs = s.cqs := rfl
@[simp] theorem State.modSheet_msixOpen (s : State) (l : Nat) (g : Sheet → Sheet) : (s.modSheet l g).msixOpen = s.msixOpen := rfl
@[simp] theorem State.modSheet_msixPend (s : State) (l : Nat) (g : Sheet → Sheet) : (s.modSheet l g).msixPend = s.msixPend := rfl
@[simp] theorem State.modSheet_spaces (s : State) (l : Nat) (g : Sheet → Sheet) : (s.modSheet l g).spaces = s.spaces := rfl
@[simp] theorem State.modSheet_pages (s : State) (l : Nat) (g : Sheet → Sheet) : (s.modSheet l g).pages = s.pages := rfl
@[simp] theorem State.modSheet_staged (s : State) (l : Nat) (g : Sheet → Sheet) : (s.modSheet l g).staged = s.staged := rfl
@[simp] theorem State.modSheet_outVers (s : State) (l : Nat) (g : Sheet → Sheet) : (s.modSheet l g).outVers = s.outVers := rfl
@[simp] theorem State.modSheet_heldVers (s : State) (l : Nat) (g : Sheet → Sheet) : (s.modSheet l g).heldVers = s.heldVers := rfl
@[simp] theorem State.modSheet_ledgers (s : State) (l : Nat) (g : Sheet → Sheet) : (s.modSheet l g).ledgers = s.ledgers := rfl
@[simp] theorem State.modSheet_stagedLedgers (s : State) (l : Nat) (g : Sheet → Sheet) : (s.modSheet l g).stagedLedgers = s.stagedLedgers := rfl
@[simp] theorem State.modSheet_wc (s : State) (l : Nat) (g : Sheet → Sheet) : (s.modSheet l g).wc = s.wc := rfl
@[simp] theorem State.modSheet_ascentQ (s : State) (l : Nat) (g : Sheet → Sheet) : (s.modSheet l g).ascentQ = s.ascentQ := rfl
@[simp] theorem State.modSheet_forcedQ (s : State) (l : Nat) (g : Sheet → Sheet) : (s.modSheet l g).forcedQ = s.forcedQ := rfl
@[simp] theorem State.modSheet_descentQ (s : State) (l : Nat) (g : Sheet → Sheet) : (s.modSheet l g).descentQ = s.descentQ := rfl
@[simp] theorem State.modSheet_moves (s : State) (l : Nat) (g : Sheet → Sheet) : (s.modSheet l g).moves = s.moves := rfl
@[simp] theorem State.modSheet_mcmd (s : State) (l : Nat) (g : Sheet → Sheet) : (s.modSheet l g).mcmd = s.mcmd := rfl
@[simp] theorem State.modSheet_rejWrs (s : State) (l : Nat) (g : Sheet → Sheet) : (s.modSheet l g).rejWrs = s.rejWrs := rfl
@[simp] theorem State.modSheet_passing (s : State) (l : Nat) (g : Sheet → Sheet) : (s.modSheet l g).passing = s.passing := rfl
@[simp] theorem State.modSheet_msixTab (s : State) (l : Nat) (g : Sheet → Sheet) : (s.modSheet l g).msixTab = s.msixTab := rfl
@[simp] theorem State.modSheet_queJob (s : State) (l : Nat) (g : Sheet → Sheet) : (s.modSheet l g).queJob = s.queJob := rfl
@[simp] theorem State.modSheet_srSeed (s : State) (l : Nat) (g : Sheet → Sheet) : (s.modSheet l g).srSeed = s.srSeed := rfl
@[simp] theorem State.modSheet_bufReqs (s : State) (l : Nat) (g : Sheet → Sheet) : (s.modSheet l g).bufReqs = s.bufReqs := rfl
@[simp] theorem State.modSheet_txs (s : State) (l : Nat) (g : Sheet → Sheet) : (s.modSheet l g).txs = s.txs := rfl
@[simp] theorem State.modSheet_negReads (s : State) (l : Nat) (g : Sheet → Sheet) : (s.modSheet l g).negReads = s.negReads := rfl
@[simp] theorem State.modSheet_heldQ (s : State) (l : Nat) (g : Sheet → Sheet) : (s.modSheet l g).heldQ = s.heldQ := rfl
@[simp] theorem State.modSheet_chunkBad (s : State) (l : Nat) (g : Sheet → Sheet) : (s.modSheet l g).chunkBad = s.chunkBad := rfl
@[simp] theorem State.modSheet_sigs (s : State) (l : Nat) (g : Sheet → Sheet) : (s.modSheet l g).sigs = s.sigs := rfl
@[simp] theorem State.modSheet_waiters (s : State) (l : Nat) (g : Sheet → Sheet) : (s.modSheet l g).waiters = s.waiters := rfl
@[simp] theorem State.modSheet_obArr (s : State) (l : Nat) (g : Sheet → Sheet) : (s.modSheet l g).obArr = s.obArr := rfl
@[simp] theorem State.modSheet_xbars (s : State) (l : Nat) (g : Sheet → Sheet) : (s.modSheet l g).xbars = s.xbars := rfl
@[simp] theorem State.modSheet_members (s : State) (l : Nat) (g : Sheet → Sheet) : (s.modSheet l g).members = s.members := rfl
@[simp] theorem State.modSheet_streams (s : State) (l : Nat) (g : Sheet → Sheet) : (s.modSheet l g).streams = s.streams := rfl
@[simp] theorem State.modSheet_overflow (s : State) (l : Nat) (g : Sheet → Sheet) : (s.modSheet l g).overflow = s.overflow := rfl
@[simp] theorem State.modSheet_wrCount (s : State) (l : Nat) (g : Sheet → Sheet) : (s.modSheet l g).wrCount = s.wrCount := rfl
@[simp] theorem State.modSheet_remoteWrs (s : State) (l : Nat) (g : Sheet → Sheet) : (s.modSheet l g).remoteWrs = s.remoteWrs := rfl
@[simp] theorem State.modSheet_heldSigs (s : State) (l : Nat) (g : Sheet → Sheet) : (s.modSheet l g).heldSigs = s.heldSigs := rfl
@[simp] theorem State.modSheet_sendStreams (s : State) (l : Nat) (g : Sheet → Sheet) : (s.modSheet l g).sendStreams = s.sendStreams := rfl
@[simp] theorem State.modSheet_colls (s : State) (l : Nat) (g : Sheet → Sheet) : (s.modSheet l g).colls = s.colls := rfl
@[simp] theorem State.modSheet_exchanges (s : State) (l : Nat) (g : Sheet → Sheet) : (s.modSheet l g).exchanges = s.exchanges := rfl
@[simp] theorem State.modSheet_early (s : State) (l : Nat) (g : Sheet → Sheet) : (s.modSheet l g).early = s.early := rfl
@[simp] theorem State.modSheet_collCount (s : State) (l : Nat) (g : Sheet → Sheet) : (s.modSheet l g).collCount = s.collCount := rfl
@[simp] theorem State.modSheet_evStarted (s : State) (l : Nat) (g : Sheet → Sheet) : (s.modSheet l g).evStarted = s.evStarted := rfl
@[simp] theorem State.modSheet_floors (s : State) (l : Nat) (g : Sheet → Sheet) : (s.modSheet l g).floors = s.floors := rfl
@[simp] theorem State.modSheet_links (s : State) (l : Nat) (g : Sheet → Sheet) : (s.modSheet l g).links = s.links := rfl
@[simp] theorem State.modSheet_t2 (s : State) (l : Nat) (g : Sheet → Sheet) : (s.modSheet l g).t2 = s.t2 := rfl
@[simp] theorem State.modSheet_t3 (s : State) (l : Nat) (g : Sheet → Sheet) : (s.modSheet l g).t3 = s.t3 := rfl
@[simp] theorem State.modSheet_portReqs (s : State) (l : Nat) (g : Sheet → Sheet) : (s.modSheet l g).portReqs = s.portReqs := rfl
@[simp] theorem State.modSheet_reqCount (s : State) (l : Nat) (g : Sheet → Sheet) : (s.modSheet l g).reqCount = s.reqCount := rfl
@[simp] theorem State.modSheet_chans (s : State) (l : Nat) (g : Sheet → Sheet) : (s.modSheet l g).chans = s.chans := rfl
@[simp] theorem State.modSheet_acts (s : State) (l : Nat) (g : Sheet → Sheet) : (s.modSheet l g).acts = s.acts := rfl
@[simp] theorem State.modSheet_actQ (s : State) (l : Nat) (g : Sheet → Sheet) : (s.modSheet l g).actQ = s.actQ := rfl
@[simp] theorem State.modSheet_actCount (s : State) (l : Nat) (g : Sheet → Sheet) : (s.modSheet l g).actCount = s.actCount := rfl
@[simp] theorem State.modSheet_scrubs (s : State) (l : Nat) (g : Sheet → Sheet) : (s.modSheet l g).scrubs = s.scrubs := rfl
@[simp] theorem State.modSheet_sweeps (s : State) (l : Nat) (g : Sheet → Sheet) : (s.modSheet l g).sweeps = s.sweeps := rfl
@[simp] theorem State.modSheet_t3wEpoch (s : State) (l : Nat) (g : Sheet → Sheet) : (s.modSheet l g).t3wEpoch = s.t3wEpoch := rfl
@[simp] theorem State.modSheet_ctlReset (s : State) (l : Nat) (g : Sheet → Sheet) : (s.modSheet l g).ctlReset = s.ctlReset := rfl
@[simp] theorem State.modSheet_online (s : State) (l : Nat) (g : Sheet → Sheet) : (s.modSheet l g).online = s.online := rfl
@[simp] theorem State.modSheet_log (s : State) (l : Nat) (g : Sheet → Sheet) : (s.modSheet l g).log = s.log := rfl
@[simp] theorem State.modSheet_logSeq (s : State) (l : Nat) (g : Sheet → Sheet) : (s.modSheet l g).logSeq = s.logSeq := rfl
@[simp] theorem State.modSheet_tilesNeed (s : State) (l : Nat) (g : Sheet → Sheet) : (s.modSheet l g).tilesNeed = s.tilesNeed := rfl
@[simp] theorem State.modSheet_mgmtFailed (s : State) (l : Nat) (g : Sheet → Sheet) : (s.modSheet l g).mgmtFailed = s.mgmtFailed := rfl
@[simp] theorem State.modSheet_tether (s : State) (l : Nat) (g : Sheet → Sheet) : (s.modSheet l g).tether = s.tether := rfl
@[simp] theorem State.modSheet_reserve (s : State) (l : Nat) (g : Sheet → Sheet) : (s.modSheet l g).reserve = s.reserve := rfl
@[simp] theorem State.modSheet_ramping (s : State) (l : Nat) (g : Sheet → Sheet) : (s.modSheet l g).ramping = s.ramping := rfl
@[simp] theorem State.modSheet_rampQ (s : State) (l : Nat) (g : Sheet → Sheet) : (s.modSheet l g).rampQ = s.rampQ := rfl
@[simp] theorem State.modSheet_capHold (s : State) (l : Nat) (g : Sheet → Sheet) : (s.modSheet l g).capHold = s.capHold := rfl
@[simp] theorem State.modSheet_driven (s : State) (l : Nat) (g : Sheet → Sheet) : (s.modSheet l g).driven = s.driven := rfl
@[simp] theorem State.modSheet_vtarget (s : State) (l : Nat) (g : Sheet → Sheet) : (s.modSheet l g).vtarget = s.vtarget := rfl
@[simp] theorem State.modSheet_volts (s : State) (l : Nat) (g : Sheet → Sheet) : (s.modSheet l g).volts = s.volts := rfl
@[simp] theorem State.modSheet_beatFrac (s : State) (l : Nat) (g : Sheet → Sheet) : (s.modSheet l g).beatFrac = s.beatFrac := rfl
@[simp] theorem State.modSheet_tmaxNext (s : State) (l : Nat) (g : Sheet → Sheet) : (s.modSheet l g).tmaxNext = s.tmaxNext := rfl
@[simp] theorem State.modSheet_tripHold (s : State) (l : Nat) (g : Sheet → Sheet) : (s.modSheet l g).tripHold = s.tripHold := rfl
@[simp] theorem State.modSheet_keyOp (s : State) (l : Nat) (g : Sheet → Sheet) : (s.modSheet l g).keyOp = s.keyOp := rfl
@[simp] theorem State.modSheet_fwOp (s : State) (l : Nat) (g : Sheet → Sheet) : (s.modSheet l g).fwOp = s.fwOp := rfl
@[simp] theorem State.modSheet_flashImg (s : State) (l : Nat) (g : Sheet → Sheet) : (s.modSheet l g).flashImg = s.flashImg := rfl
@[simp] theorem State.modSheet_preferred (s : State) (l : Nat) (g : Sheet → Sheet) : (s.modSheet l g).preferred = s.preferred := rfl
@[simp] theorem State.modSheet_fwKey (s : State) (l : Nat) (g : Sheet → Sheet) : (s.modSheet l g).fwKey = s.fwKey := rfl
@[simp] theorem State.modSheet_fwId (s : State) (l : Nat) (g : Sheet → Sheet) : (s.modSheet l g).fwId = s.fwId := rfl
@[simp] theorem State.modSheet_fwSvn (s : State) (l : Nat) (g : Sheet → Sheet) : (s.modSheet l g).fwSvn = s.fwSvn := rfl
@[simp] theorem State.modSheet_fwDigest (s : State) (l : Nat) (g : Sheet → Sheet) : (s.modSheet l g).fwDigest = s.fwDigest := rfl
@[simp] theorem State.modSheet_report (s : State) (l : Nat) (g : Sheet → Sheet) : (s.modSheet l g).report = s.report := rfl
@[simp] theorem State.modSheet_reports (s : State) (l : Nat) (g : Sheet → Sheet) : (s.modSheet l g).reports = s.reports := rfl
@[simp] theorem State.modSheet_imgDigest (s : State) (l : Nat) (g : Sheet → Sheet) : (s.modSheet l g).imgDigest = s.imgDigest := rfl
@[simp] theorem State.modSheet_chain (s : State) (l : Nat) (g : Sheet → Sheet) : (s.modSheet l g).chain = s.chain := rfl
@[simp] theorem State.modSheet_imgLoads (s : State) (l : Nat) (g : Sheet → Sheet) : (s.modSheet l g).imgLoads = s.imgLoads := rfl
@[simp] theorem State.modSheet_imgSlot (s : State) (l : Nat) (g : Sheet → Sheet) : (s.modSheet l g).imgSlot = s.imgSlot := rfl
@[simp] theorem State.modSheet_session (s : State) (l : Nat) (g : Sheet → Sheet) : (s.modSheet l g).session = s.session := rfl
@[simp] theorem State.modSheet_everOpen (s : State) (l : Nat) (g : Sheet → Sheet) : (s.modSheet l g).everOpen = s.everOpen := rfl
@[simp] theorem State.modSheet_flog (s : State) (l : Nat) (g : Sheet → Sheet) : (s.modSheet l g).flog = s.flog := rfl
@[simp] theorem State.modSheet_commits (s : State) (l : Nat) (g : Sheet → Sheet) : (s.modSheet l g).commits = s.commits := rfl
@[simp] theorem State.modSheet_staging (s : State) (l : Nat) (g : Sheet → Sheet) : (s.modSheet l g).staging = s.staging := rfl
@[simp] theorem State.modSheet_load (s : State) (l : Nat) (g : Sheet → Sheet) : (s.modSheet l g).load = s.load := rfl

/-! ### traffic -/

@[simp] theorem State.traffic_pending (s : State) (m n : Nat) : (s.traffic m n).pending = s.pending := rfl
@[simp] theorem State.traffic_out (s : State) (m n : Nat) : (s.traffic m n).out = s.out := rfl
@[simp] theorem State.traffic_regs (s : State) (m n : Nat) : (s.traffic m n).regs = s.regs := rfl
@[simp] theorem State.traffic_latch (s : State) (m n : Nat) : (s.traffic m n).latch = s.latch := rfl
@[simp] theorem State.traffic_smbAddr (s : State) (m n : Nat) : (s.traffic m n).smbAddr = s.smbAddr := rfl
@[simp] theorem State.traffic_tapIr (s : State) (m n : Nat) : (s.traffic m n).tapIr = s.tapIr := rfl
@[simp] theorem State.traffic_porst (s : State) (m n : Nat) : (s.traffic m n).porst = s.porst := rfl
@[simp] theorem State.traffic_resetHeld (s : State) (m n : Nat) : (s.traffic m n).resetHeld = s.resetHeld := rfl
@[simp] theorem State.traffic_fuses (s : State) (m n : Nat) : (s.traffic m n).fuses = s.fuses := rfl
@[simp] theorem State.traffic_strapHsp (s : State) (m n : Nat) : (s.traffic m n).strapHsp = s.strapHsp := rfl
@[simp] theorem State.traffic_strapAsel (s : State) (m n : Nat) : (s.traffic m n).strapAsel = s.strapAsel := rfl
@[simp] theorem State.traffic_tiles (s : State) (m n : Nat) : (s.traffic m n).tiles = s.tiles := rfl
@[simp] theorem State.traffic_rigs (s : State) (m n : Nat) : (s.traffic m n).rigs = s.rigs := rfl
@[simp] theorem State.traffic_sheets (s : State) (m n : Nat) : (s.traffic m n).sheets = s.sheets := rfl
@[simp] theorem State.traffic_compls (s : State) (m n : Nat) : (s.traffic m n).compls = s.compls := rfl
@[simp] theorem State.traffic_sqs (s : State) (m n : Nat) : (s.traffic m n).sqs = s.sqs := rfl
@[simp] theorem State.traffic_cqs (s : State) (m n : Nat) : (s.traffic m n).cqs = s.cqs := rfl
@[simp] theorem State.traffic_msixOpen (s : State) (m n : Nat) : (s.traffic m n).msixOpen = s.msixOpen := rfl
@[simp] theorem State.traffic_msixPend (s : State) (m n : Nat) : (s.traffic m n).msixPend = s.msixPend := rfl
@[simp] theorem State.traffic_spaces (s : State) (m n : Nat) : (s.traffic m n).spaces = s.spaces := rfl
@[simp] theorem State.traffic_pages (s : State) (m n : Nat) : (s.traffic m n).pages = s.pages := rfl
@[simp] theorem State.traffic_staged (s : State) (m n : Nat) : (s.traffic m n).staged = s.staged := rfl
@[simp] theorem State.traffic_outVers (s : State) (m n : Nat) : (s.traffic m n).outVers = s.outVers := rfl
@[simp] theorem State.traffic_heldVers (s : State) (m n : Nat) : (s.traffic m n).heldVers = s.heldVers := rfl
@[simp] theorem State.traffic_ledgers (s : State) (m n : Nat) : (s.traffic m n).ledgers = s.ledgers := rfl
@[simp] theorem State.traffic_stagedLedgers (s : State) (m n : Nat) : (s.traffic m n).stagedLedgers = s.stagedLedgers := rfl
@[simp] theorem State.traffic_wc (s : State) (m n : Nat) : (s.traffic m n).wc = s.wc := rfl
@[simp] theorem State.traffic_ascentQ (s : State) (m n : Nat) : (s.traffic m n).ascentQ = s.ascentQ := rfl
@[simp] theorem State.traffic_forcedQ (s : State) (m n : Nat) : (s.traffic m n).forcedQ = s.forcedQ := rfl
@[simp] theorem State.traffic_descentQ (s : State) (m n : Nat) : (s.traffic m n).descentQ = s.descentQ := rfl
@[simp] theorem State.traffic_moves (s : State) (m n : Nat) : (s.traffic m n).moves = s.moves := rfl
@[simp] theorem State.traffic_mcmd (s : State) (m n : Nat) : (s.traffic m n).mcmd = s.mcmd := rfl
@[simp] theorem State.traffic_rejWrs (s : State) (m n : Nat) : (s.traffic m n).rejWrs = s.rejWrs := rfl
@[simp] theorem State.traffic_passing (s : State) (m n : Nat) : (s.traffic m n).passing = s.passing := rfl
@[simp] theorem State.traffic_msixTab (s : State) (m n : Nat) : (s.traffic m n).msixTab = s.msixTab := rfl
@[simp] theorem State.traffic_queJob (s : State) (m n : Nat) : (s.traffic m n).queJob = s.queJob := rfl
@[simp] theorem State.traffic_srSeed (s : State) (m n : Nat) : (s.traffic m n).srSeed = s.srSeed := rfl
@[simp] theorem State.traffic_bufReqs (s : State) (m n : Nat) : (s.traffic m n).bufReqs = s.bufReqs := rfl
@[simp] theorem State.traffic_txs (s : State) (m n : Nat) : (s.traffic m n).txs = s.txs := rfl
@[simp] theorem State.traffic_negReads (s : State) (m n : Nat) : (s.traffic m n).negReads = s.negReads := rfl
@[simp] theorem State.traffic_heldQ (s : State) (m n : Nat) : (s.traffic m n).heldQ = s.heldQ := rfl
@[simp] theorem State.traffic_chunkBad (s : State) (m n : Nat) : (s.traffic m n).chunkBad = s.chunkBad := rfl
@[simp] theorem State.traffic_sigs (s : State) (m n : Nat) : (s.traffic m n).sigs = s.sigs := rfl
@[simp] theorem State.traffic_waiters (s : State) (m n : Nat) : (s.traffic m n).waiters = s.waiters := rfl
@[simp] theorem State.traffic_obArr (s : State) (m n : Nat) : (s.traffic m n).obArr = s.obArr := rfl
@[simp] theorem State.traffic_xbars (s : State) (m n : Nat) : (s.traffic m n).xbars = s.xbars := rfl
@[simp] theorem State.traffic_members (s : State) (m n : Nat) : (s.traffic m n).members = s.members := rfl
@[simp] theorem State.traffic_streams (s : State) (m n : Nat) : (s.traffic m n).streams = s.streams := rfl
@[simp] theorem State.traffic_overflow (s : State) (m n : Nat) : (s.traffic m n).overflow = s.overflow := rfl
@[simp] theorem State.traffic_wrCount (s : State) (m n : Nat) : (s.traffic m n).wrCount = s.wrCount := rfl
@[simp] theorem State.traffic_remoteWrs (s : State) (m n : Nat) : (s.traffic m n).remoteWrs = s.remoteWrs := rfl
@[simp] theorem State.traffic_heldSigs (s : State) (m n : Nat) : (s.traffic m n).heldSigs = s.heldSigs := rfl
@[simp] theorem State.traffic_sendStreams (s : State) (m n : Nat) : (s.traffic m n).sendStreams = s.sendStreams := rfl
@[simp] theorem State.traffic_colls (s : State) (m n : Nat) : (s.traffic m n).colls = s.colls := rfl
@[simp] theorem State.traffic_exchanges (s : State) (m n : Nat) : (s.traffic m n).exchanges = s.exchanges := rfl
@[simp] theorem State.traffic_early (s : State) (m n : Nat) : (s.traffic m n).early = s.early := rfl
@[simp] theorem State.traffic_collCount (s : State) (m n : Nat) : (s.traffic m n).collCount = s.collCount := rfl
@[simp] theorem State.traffic_evStarted (s : State) (m n : Nat) : (s.traffic m n).evStarted = s.evStarted := rfl
@[simp] theorem State.traffic_floors (s : State) (m n : Nat) : (s.traffic m n).floors = s.floors := rfl
@[simp] theorem State.traffic_links (s : State) (m n : Nat) : (s.traffic m n).links = s.links := rfl
@[simp] theorem State.traffic_t2 (s : State) (m n : Nat) : (s.traffic m n).t2 = s.t2 := rfl
@[simp] theorem State.traffic_t3 (s : State) (m n : Nat) : (s.traffic m n).t3 = s.t3 := rfl
@[simp] theorem State.traffic_portReqs (s : State) (m n : Nat) : (s.traffic m n).portReqs = s.portReqs := rfl
@[simp] theorem State.traffic_reqCount (s : State) (m n : Nat) : (s.traffic m n).reqCount = s.reqCount := rfl
@[simp] theorem State.traffic_chans (s : State) (m n : Nat) : (s.traffic m n).chans = s.chans := rfl
@[simp] theorem State.traffic_acts (s : State) (m n : Nat) : (s.traffic m n).acts = s.acts := rfl
@[simp] theorem State.traffic_actQ (s : State) (m n : Nat) : (s.traffic m n).actQ = s.actQ := rfl
@[simp] theorem State.traffic_actCount (s : State) (m n : Nat) : (s.traffic m n).actCount = s.actCount := rfl
@[simp] theorem State.traffic_fresh (s : State) (m n : Nat) : (s.traffic m n).fresh = s.fresh := rfl
@[simp] theorem State.traffic_sweeps (s : State) (m n : Nat) : (s.traffic m n).sweeps = s.sweeps := rfl
@[simp] theorem State.traffic_t3wEpoch (s : State) (m n : Nat) : (s.traffic m n).t3wEpoch = s.t3wEpoch := rfl
@[simp] theorem State.traffic_ctlReset (s : State) (m n : Nat) : (s.traffic m n).ctlReset = s.ctlReset := rfl
@[simp] theorem State.traffic_online (s : State) (m n : Nat) : (s.traffic m n).online = s.online := rfl
@[simp] theorem State.traffic_log (s : State) (m n : Nat) : (s.traffic m n).log = s.log := rfl
@[simp] theorem State.traffic_logSeq (s : State) (m n : Nat) : (s.traffic m n).logSeq = s.logSeq := rfl
@[simp] theorem State.traffic_tilesNeed (s : State) (m n : Nat) : (s.traffic m n).tilesNeed = s.tilesNeed := rfl
@[simp] theorem State.traffic_mgmtFailed (s : State) (m n : Nat) : (s.traffic m n).mgmtFailed = s.mgmtFailed := rfl
@[simp] theorem State.traffic_tether (s : State) (m n : Nat) : (s.traffic m n).tether = s.tether := rfl
@[simp] theorem State.traffic_reserve (s : State) (m n : Nat) : (s.traffic m n).reserve = s.reserve := rfl
@[simp] theorem State.traffic_ramping (s : State) (m n : Nat) : (s.traffic m n).ramping = s.ramping := rfl
@[simp] theorem State.traffic_rampQ (s : State) (m n : Nat) : (s.traffic m n).rampQ = s.rampQ := rfl
@[simp] theorem State.traffic_capHold (s : State) (m n : Nat) : (s.traffic m n).capHold = s.capHold := rfl
@[simp] theorem State.traffic_driven (s : State) (m n : Nat) : (s.traffic m n).driven = s.driven := rfl
@[simp] theorem State.traffic_vtarget (s : State) (m n : Nat) : (s.traffic m n).vtarget = s.vtarget := rfl
@[simp] theorem State.traffic_volts (s : State) (m n : Nat) : (s.traffic m n).volts = s.volts := rfl
@[simp] theorem State.traffic_beatFrac (s : State) (m n : Nat) : (s.traffic m n).beatFrac = s.beatFrac := rfl
@[simp] theorem State.traffic_tmaxNext (s : State) (m n : Nat) : (s.traffic m n).tmaxNext = s.tmaxNext := rfl
@[simp] theorem State.traffic_tripHold (s : State) (m n : Nat) : (s.traffic m n).tripHold = s.tripHold := rfl
@[simp] theorem State.traffic_keyOp (s : State) (m n : Nat) : (s.traffic m n).keyOp = s.keyOp := rfl
@[simp] theorem State.traffic_fwOp (s : State) (m n : Nat) : (s.traffic m n).fwOp = s.fwOp := rfl
@[simp] theorem State.traffic_flashImg (s : State) (m n : Nat) : (s.traffic m n).flashImg = s.flashImg := rfl
@[simp] theorem State.traffic_preferred (s : State) (m n : Nat) : (s.traffic m n).preferred = s.preferred := rfl
@[simp] theorem State.traffic_fwKey (s : State) (m n : Nat) : (s.traffic m n).fwKey = s.fwKey := rfl
@[simp] theorem State.traffic_fwId (s : State) (m n : Nat) : (s.traffic m n).fwId = s.fwId := rfl
@[simp] theorem State.traffic_fwSvn (s : State) (m n : Nat) : (s.traffic m n).fwSvn = s.fwSvn := rfl
@[simp] theorem State.traffic_fwDigest (s : State) (m n : Nat) : (s.traffic m n).fwDigest = s.fwDigest := rfl
@[simp] theorem State.traffic_report (s : State) (m n : Nat) : (s.traffic m n).report = s.report := rfl
@[simp] theorem State.traffic_reports (s : State) (m n : Nat) : (s.traffic m n).reports = s.reports := rfl
@[simp] theorem State.traffic_imgDigest (s : State) (m n : Nat) : (s.traffic m n).imgDigest = s.imgDigest := rfl
@[simp] theorem State.traffic_chain (s : State) (m n : Nat) : (s.traffic m n).chain = s.chain := rfl
@[simp] theorem State.traffic_imgLoads (s : State) (m n : Nat) : (s.traffic m n).imgLoads = s.imgLoads := rfl
@[simp] theorem State.traffic_imgSlot (s : State) (m n : Nat) : (s.traffic m n).imgSlot = s.imgSlot := rfl
@[simp] theorem State.traffic_session (s : State) (m n : Nat) : (s.traffic m n).session = s.session := rfl
@[simp] theorem State.traffic_everOpen (s : State) (m n : Nat) : (s.traffic m n).everOpen = s.everOpen := rfl
@[simp] theorem State.traffic_flog (s : State) (m n : Nat) : (s.traffic m n).flog = s.flog := rfl
@[simp] theorem State.traffic_commits (s : State) (m n : Nat) : (s.traffic m n).commits = s.commits := rfl
@[simp] theorem State.traffic_staging (s : State) (m n : Nat) : (s.traffic m n).staging = s.staging := rfl
@[simp] theorem State.traffic_load (s : State) (m n : Nat) : (s.traffic m n).load = s.load := rfl

end Sys2Proof.Machine
end

