-- ==== Sys2Proof/Laws/Regs.lean ====
section
/-! SUPPORT. The register file: what a read gives after a write, and that every write keeps the canonical form. -/

namespace Sys2Proof.Machine

/-- Two fields of the table have one place only where they are one field and one instance. -/
theorem Field.key_inj {f g : Field} {i j : Nat} (hf : f.id < 1024) (hg : g.id < 1024) :
    f.key i = g.key j ↔ f.id = g.id ∧ i = j := by unfold Field.key; omega

theorem Field.key_ne_of_id {f g : Field} (i j : Nat) (hf : f.id < 1024) (hg : g.id < 1024) (h : f.id ≠ g.id) : f.key i ≠ g.key j := by
  rw [Ne, Field.key_inj hf hg]; exact fun x => h x.1

theorem Field.key_ne_of_idx {f : Field} {i j : Nat} (h : i ≠ j) : f.key i ≠ f.key j := by unfold Field.key; omega

/-- A write leaves every other place alone. -/
theorem State.get_setReg_ne (s : State) (f g : Field) (v i j : Nat) (h : g.key j ≠ f.key i) : (s.setReg f v i).get g j = s.get g j := by
  unfold State.get State.setReg; rw [FMap.get_set_ne _ _ _ _ _ h]

theorem State.get_setReg_id (s : State) (f g : Field) (v i j : Nat) (hf : f.id < 1024) (hg : g.id < 1024) (h : g.id ≠ f.id) :
    (s.setReg f v i).get g j = s.get g j := s.get_setReg_ne f g v i j (Field.key_ne_of_id j i hg hf h)

theorem State.get_setReg_idx (s : State) (f : Field) (v i j : Nat) (h : j ≠ i) : (s.setReg f v i).get f j = s.get f j :=
  s.get_setReg_ne f f v i j (Field.key_ne_of_idx h)

/-- A read after a write to the same place gives the value written, modulo the field's width. -/
theorem State.get_setReg_same (s : State) (f : Field) (v i : Nat) (h : s.RegsOk) : (s.setReg f v i).get f i = v % 2 ^ f.width := by
  unfold State.get State.setReg; rw [FMap.get_set _ _ _ _ _ h]; simp

@[simp] theorem State.setReg_regsOk (s : State) (f : Field) (v i : Nat) (h : s.RegsOk) : (s.setReg f v i).RegsOk := FMap.wf_set 0 _ _ _ h

theorem State.raiseFlag_eq (s : State) (f : Field) (i : Nat) : s.raiseFlag f i = s.setReg f 1 i := rfl
theorem State.orReg_eq (s : State) (f : Field) (b i : Nat) : s.orReg f b i = s.setReg f (s.get f i ||| 2 ^ b) i := rfl
theorem State.bump_eq (s : State) (f : Field) (n i : Nat) : s.bump f n i = s.setReg f (s.get f i + n) i := rfl

/-! ### A property kept through `each` and `when` -/

theorem each_ind {α σ : Type} (P : σ → Prop) (l : List α) (f : σ → α → σ) (s : σ) (h0 : P s) (h : ∀ t a, a ∈ l → P t → P (f t a)) :
    P (each l f s) := by
  unfold each
  induction l generalizing s with
  | nil => exact h0
  | cons a l ih => exact ih (f s a) (h s a (by simp) h0) fun t b hb => h t b (by simp [hb])

theorem when_ind {σ : Type} (P : σ → Prop) (c : Bool) (f : σ → σ) (s : σ) (h0 : P s) (h : P s → P (f s)) : P (when c f s) := by
  unfold when; split
  · exact h h0
  · exact h0

@[simp] theorem when_true {σ : Type} (f : σ → σ) (s : σ) : when true f s = f s := rfl
@[simp] theorem when_false {σ : Type} (f : σ → σ) (s : σ) : when false f s = s := rfl
@[simp] theorem each_nil {α σ : Type} (f : σ → α → σ) (s : σ) : each [] f s = s := rfl
@[simp] theorem each_cons {α σ : Type} (a : α) (l : List α) (f : σ → α → σ) (s : σ) : each (a :: l) f s = each l f (f s a) := rfl

/-! ### Events offered to the counters -/

/-- All that an offer can change is the count and the overflow bit of counters. -/
theorem State.offer_spec (s : State) (code : Nat) (a : EvAttr) (inc : Nat) :
    onlyRegs s (s.offer code a inc) ∧ regsKept (fun f _ => evField f) s (s.offer code a inc)
      ∧ (s.RegsOk → (s.offer code a inc).RegsOk) := by
  unfold State.offer
  refine each_ind (fun t => onlyRegs s t ∧ regsKept (fun f _ => evField f) s t ∧ (s.RegsOk → t.RegsOk)) _ _ _
    ⟨rfl, fun _ _ _ _ => rfl, id⟩ ?_
  intro t c _ ⟨h1, h2, h3⟩
  unfold State.countOffer
  split
  · refine when_ind (fun t => onlyRegs s t ∧ regsKept (fun f _ => evField f) s t ∧ (s.RegsOk → t.RegsOk)) _ _ _ ?_ ?_
    · refine ⟨h1, fun f i hf hn => ?_, fun h => State.setReg_regsOk _ _ _ _ (h3 h)⟩
      rw [State.get_setReg_id _ _ _ _ _ _ (by decide) hf (fun h => hn (Or.inl h)), h2 f i hf hn]
    · intro ⟨k1, k2, k3⟩
      refine ⟨k1, fun f i hf hn => ?_, fun h => State.setReg_regsOk _ _ _ _ (k3 h)⟩
      rw [State.raiseFlag_eq, State.get_setReg_id _ _ _ _ _ _ (by decide) hf (fun h => hn (Or.inr h)), k2 f i hf hn]
  · exact ⟨h1, h2, h3⟩

theorem State.offer_eq (s : State) (code : Nat) (a : EvAttr) (inc : Nat) :
    s.offer code a inc = { s with regs := (s.offer code a inc).regs } := by
  have h := (s.offer_spec code a inc).1
  unfold onlyRegs at h
  conv_lhs => rw [show s.offer code a inc = { ({ s.offer code a inc with regs := s.regs } : State) with regs := (s.offer code a inc).regs } from rfl]
  rw [h]

@[simp] theorem State.offer_regsOk (s : State) (code : Nat) (a : EvAttr) (inc : Nat) (h : s.RegsOk) : (s.offer code a inc).RegsOk :=
  (s.offer_spec code a inc).2.2 h

theorem State.get_offer (s : State) (code : Nat) (a : EvAttr) (inc : Nat) (f : Field) (i : Nat) (hf : f.id < 1024) (hn : ¬ evField f) :
    (s.offer code a inc).get f i = s.get f i := (s.offer_spec code a inc).2.1 f i hf hn

end Sys2Proof.Machine
end

