-- ==== Sys2Proof/Laws/Memory.lean ====
section
/-! SUPPORT. The memories: what a byte reads as after a write, and that every operation keeps the canonical form. -/

namespace Sys2Proof.Machine

/-! ### One content -/

theorem Content.wf_iff (c : Content) : c.wf = true ↔ FMap.wf 0 c.bytes = true ∧ FMap.wf false c.pois = true := by
  unfold Content.wf; exact Bool.and_eq_true_iff

theorem Content.wf_setByte (c : Content) (a : Nat) (b : Byte) (h : c.wf = true) : (c.setByte a b).wf = true := by
  rw [Content.wf_iff] at *; exact ⟨FMap.wf_set _ _ _ _ h.1, h.2⟩

theorem Content.wf_setPois (c : Content) (w : Nat) (p : Bool) (h : c.wf = true) : (c.setPois w p).wf = true := by
  rw [Content.wf_iff] at *; exact ⟨h.1, FMap.wf_set _ _ _ _ h.2⟩

theorem Content.byte_setByte (c : Content) (a x : Nat) (b : Byte) (h : FMap.wf 0 c.bytes = true) :
    (c.setByte a b).byte x = if x = a then b else c.byte x := FMap.get_set _ _ _ _ _ h

@[simp] theorem Content.byte_setPois (c : Content) (w a : Nat) (p : Bool) : (c.setPois w p).byte a = c.byte a := rfl

theorem Content.wf_putBytes (bs : List Byte) : ∀ (c : Content) (a : Nat), c.wf = true → (c.putBytes a bs).wf = true := by
  induction bs with
  | nil => exact fun _ _ h => h
  | cons b bs ih => exact fun c a h => ih _ _ (Content.wf_setByte c a b h)

/-- A byte after a write of bytes: the byte written there, or the old one. -/
theorem Content.byte_putBytes (bs : List Byte) : ∀ (c : Content) (a x : Nat), FMap.wf 0 c.bytes = true →
    (c.putBytes a bs).byte x = if a ≤ x ∧ x < a + bs.length then bs.getD (x - a) 0 else c.byte x := by
  induction bs with
  | nil => intro c a x _; rw [if_neg (by simp)]; rfl
  | cons b bs ih =>
    intro c a x h
    have h' : FMap.wf 0 (c.setByte a b).bytes = true := FMap.wf_set _ _ _ _ h
    rw [Content.putBytes, ih _ _ _ h', Content.byte_setByte _ _ _ _ h]
    by_cases hx : x = a
    · subst hx; simp
    · by_cases hr : a + 1 ≤ x ∧ x < a + 1 + bs.length
      · have : x - a = (x - (a + 1)) + 1 := by omega
        rw [if_pos hr, if_pos (by simp only [List.length_cons]; omega), this]; rfl
      · rw [if_neg hr, if_neg hx, if_neg (by simp only [List.length_cons]; omega)]

theorem Content.wf_settlePois (c : Content) (a n : Nat) (pw : Nat → Bool) (h : c.wf = true) : (c.settlePois a n pw).wf = true := by
  unfold Content.settlePois
  split
  · exact h
  · exact each_ind (fun c : Content => c.wf = true) _ _ _ h fun t k _ ht => Content.wf_setPois t _ _ ht

@[simp] theorem Content.byte_settlePois (c : Content) (a n x : Nat) (pw : Nat → Bool) : (c.settlePois a n pw).byte x = c.byte x := by
  unfold Content.settlePois
  split
  · rfl
  · exact each_ind (fun t : Content => t.byte x = c.byte x) _ _ _ rfl fun t k _ ht => ht

/-- A write keeps the canonical form. -/
theorem Content.wf_write (c : Content) (a : Nat) (bs : List Byte) (pw : Nat → Bool) (h : c.wf = true) : (c.write a bs pw).wf = true :=
  Content.wf_settlePois _ _ _ _ (Content.wf_putBytes bs c a h)

/-- A read after a write gives what was written there, and elsewhere what was there before. -/
theorem Content.byte_write (c : Content) (a x : Nat) (bs : List Byte) (pw : Nat → Bool) (h : FMap.wf 0 c.bytes = true) :
    (c.write a bs pw).byte x = if a ≤ x ∧ x < a + bs.length then bs.getD (x - a) 0 else c.byte x := by
  unfold Content.write; rw [Content.byte_settlePois]; exact Content.byte_putBytes bs c a x h

theorem Content.wf_writeP (c : Content) (a : Nat) (bs : List (Byte × Bool)) (h : c.wf = true) : (c.writeP a bs).wf = true :=
  Content.wf_write _ _ _ _ h

/-- What the word code writes back keeps the canonical form. -/
theorem Content.wf_ecc (c : Content) (w0 nw : Nat) (errs : List (Nat × Nat)) (pick : Nat → Nat) (h : c.wf = true) :
    (c.ecc w0 nw errs pick).c.wf = true := by
  unfold Content.ecc
  refine each_ind (fun o : EccOut => o.c.wf = true) _ _ _ h fun o e _ ho => ?_
  dsimp only
  split
  · exact ho
  · exact ho
  · exact Content.wf_setPois _ _ _ (Content.wf_putBytes _ _ _ ho)
  · exact Content.wf_putBytes _ _ _ ho

@[simp] theorem Content.wf_empty : ({} : Content).wf = true := rfl

/-! ### The machine's memories -/

theorem Memory.wf_reset : Memory.wf State.reset = true := rfl

/-- What the entries of a map satisfy, those of the map with one written satisfy. -/
theorem FMap.all_put {α : Type} (q : Nat × α → Bool) (i : Nat) (v : α) (hv : q (i, v) = true) :
    ∀ m : FMap α, m.all q = true → (FMap.put m i v).all q = true := by
  intro m
  induction m with
  | nil => intro _; simp only [FMap.put, List.all_cons, List.all_nil, hv, Bool.and_self]
  | cons e m ih =>
    obtain ⟨k, w⟩ := e
    intro h
    simp only [List.all_cons, Bool.and_eq_true] at h
    unfold FMap.put
    split
    · simp only [List.all_cons, hv, h.1, h.2, Bool.and_self]
    · split
      · simp only [List.all_cons, h.2, Bool.and_true]; rename_i hk; rw [← hk]; exact hv
      · simp only [List.all_cons, h.1, ih h.2, Bool.and_self]

theorem FMap.all_erase {α : Type} (q : Nat × α → Bool) (i : Nat) : ∀ m : FMap α, m.all q = true → (FMap.erase m i).all q = true := by
  intro m
  induction m with
  | nil => exact fun h => h
  | cons e m ih =>
    obtain ⟨k, w⟩ := e
    intro h
    simp only [List.all_cons, Bool.and_eq_true] at h
    unfold FMap.erase
    split
    · exact h.2
    · simp only [List.all_cons, h.1, ih h.2, Bool.and_self]

theorem FMap.all_set {α : Type} [DecidableEq α] (d : α) (q : Nat × α → Bool) (i : Nat) (v : α) (hv : q (i, v) = true) (m : FMap α)
    (h : m.all q = true) : (FMap.set d m i v).all q = true := by
  unfold FMap.set
  split
  · exact FMap.all_erase q i m h
  · exact FMap.all_put q i v hv m h

theorem FMap.get_of_all {α : Type} (d : α) (q : α → Bool) (hd : q d = true) (i : Nat) :
    ∀ m : FMap α, (m.all fun e => q e.2) = true → q (FMap.get d m i) = true := by
  intro m
  induction m with
  | nil => exact fun _ => hd
  | cons e m ih =>
    obtain ⟨k, w⟩ := e
    intro h
    simp only [List.all_cons, Bool.and_eq_true] at h
    unfold FMap.get
    split
    · exact h.1
    · exact ih h.2

/-- A tile changed so that its store and banks keep the form keeps the memories' form. -/
theorem Memory.wf_modTile (s : State) (p : Nat) (f : Tile → Tile) (h : Memory.wf s = true)
    (hf : ∀ t : Tile, t.memWf = true → (f t).memWf = true) : Memory.wf (s.modTile p f) = true := by
  unfold Memory.wf at *
  simp only [Bool.and_eq_true] at h ⊢
  refine ⟨⟨⟨⟨⟨h.1.1.1.1.1, ?_⟩, h.1.1.1.2⟩, h.1.1.2⟩, h.1.2⟩, h.2⟩
  have ht := h.1.1.1.1.2
  simp only [tilesWf, Bool.and_eq_true] at ht ⊢
  exact ⟨FMap.wf_upd _ _ _ _ ht.1, FMap.all_set _ _ _ _ (hf _ (FMap.get_of_all {} Tile.memWf rfl p s.tiles ht.2)) _ ht.2⟩

/-- A bank changed so that its elements keep the form keeps the memories' form. -/
theorem Memory.wf_modBank (s : State) (p b : Nat) (f : Bank → Bank) (h : Memory.wf s = true)
    (hf : ∀ k : Bank, FMap.wf {} k.elems = true → FMap.wf {} (f k).elems = true) : Memory.wf (s.modBank p b f) = true := by
  refine Memory.wf_modTile s p _ h fun t ht => ?_
  simp only [Tile.memWf, Tile.modBank, Bool.and_eq_true] at ht ⊢
  exact ⟨ht.1, FMap.all_set _ _ _ _ (hf _ (FMap.get_of_all {} (fun k : Bank => FMap.wf {} k.elems) rfl b t.banks ht.2)) _ ht.2⟩

/-- Counting traffic leaves the memories alone. -/
theorem Memory.wf_traffic (s : State) (m n : Nat) : Memory.wf (s.traffic m n) = Memory.wf s := by
  simp only [Memory.wf, State.traffic_staging, State.traffic_tiles, State.traffic_pages, State.traffic_staged, State.traffic_outVers,
    State.traffic_heldVers, State.traffic_log, State.traffic_reserve]

/-- A write to a tile's store keeps the memories' form. -/
theorem Memory.wf_storeWrite (s : State) (p a : Nat) (bs : List (Byte × Bool)) (h : Memory.wf s = true) :
    Memory.wf (s.storeWrite p a bs) = true := by
  unfold State.storeWrite
  rw [Memory.wf_traffic]
  refine Memory.wf_modTile s p _ h fun t ht => ?_
  simp only [Tile.memWf, Bool.and_eq_true] at ht ⊢
  exact ⟨Content.wf_writeP _ _ _ ht.1, ht.2⟩

/-- Versions changed so that each keeps the form. -/
theorem Memory.modVersions_all (l : List Version) (q : Version → Bool) (f : Content → Content)
    (hf : ∀ c : Content, c.wf = true → (f c).wf = true) (h : (l.all fun v => v.data.wf) = true) :
    ((modVersions l q f).all fun v => v.data.wf) = true := by
  unfold modVersions
  rw [List.all_eq_true] at *
  intro v hv
  obtain ⟨w, hw, rfl⟩ := List.mem_map.1 hv
  split
  · exact hf _ (h w hw)
  · exact h w hw

/-- A page changed so that its content and negative keep the form keeps the memories' form. -/
theorem Memory.wf_modPage (s : State) (key : Nat) (f : Page → Page) (h : Memory.wf s = true)
    (hf : ∀ p : Page, pageWf (some p) = true → pageWf (some (f p)) = true) : Memory.wf (s.modPage key f) = true := by
  unfold State.modPage
  split
  · rename_i p hp
    unfold Memory.wf at *
    simp only [Bool.and_eq_true] at h ⊢
    refine ⟨⟨⟨⟨⟨h.1.1.1.1.1, h.1.1.1.1.2⟩, ?_⟩, h.1.1.2⟩, h.1.2⟩, h.2⟩
    have hp' := h.1.1.1.2
    simp only [pagesWf, Bool.and_eq_true] at hp' ⊢
    refine ⟨FMap.wf_set _ _ _ _ hp'.1, FMap.all_set none (fun e => pageWf e.2) key _ (hf p ?_) _ hp'.2⟩
    have := FMap.get_of_all none pageWf rfl key s.pages hp'.2
    rwa [show FMap.get none s.pages key = some p from hp] at this
  · exact h

/-- A version of a page changed so that it keeps the form keeps the memories' form. -/
theorem Memory.wf_modVer (s : State) (key : Nat) (w : Which) (f : Content → Content) (h : Memory.wf s = true)
    (hf : ∀ c : Content, c.wf = true → (f c).wf = true) : Memory.wf (s.modVer key w f) = true := by
  cases w with
  | current =>
    refine Memory.wf_modPage s key _ h fun p hp => ?_
    unfold pageWf at *
    rw [Bool.and_eq_true] at *
    exact ⟨hf _ hp.1, hp.2⟩
  | staged r =>
    unfold Memory.wf State.modVer at *
    simp only [Bool.and_eq_true] at h ⊢
    exact ⟨⟨⟨⟨⟨h.1.1.1.1.1, h.1.1.1.1.2⟩, h.1.1.1.2⟩, Memory.modVersions_all _ _ f hf h.1.1.2⟩, h.1.2⟩, h.2⟩
  | out l =>
    unfold Memory.wf State.modVer at *
    simp only [Bool.and_eq_true] at h ⊢
    exact ⟨⟨⟨⟨⟨h.1.1.1.1.1, h.1.1.1.1.2⟩, h.1.1.1.2⟩, h.1.1.2⟩, Memory.modVersions_all _ _ f hf h.1.2⟩, h.2⟩
  | held n =>
    unfold Memory.wf State.modVer at *
    simp only [Bool.and_eq_true] at h ⊢
    exact ⟨⟨⟨⟨⟨h.1.1.1.1.1, h.1.1.1.1.2⟩, h.1.1.1.2⟩, h.1.1.2⟩, h.1.2⟩, Memory.modVersions_all _ _ f hf h.2⟩

end Sys2Proof.Machine
end

