-- ==== Sys2Proof/Laws/Offer.lean ====
section
/-! SUPPORT. An event offered to the counters leaves every part of the state but the register file alone. -/

namespace Sys2Proof.Machine

@[simp] theorem State.offer_pending (s : State) (c : Nat) (a : EvAttr) (n : Nat) : (s.offer c a n).pending = s.pending := by rw [State.offer_eq]
@[simp] theorem State.offer_fresh (s : State) (c : Nat) (a : EvAttr) (n : Nat) : (s.offer c a n).fresh = s.fresh := by rw [State.offer_eq]
@[simp] theorem State.offer_out (s : State) (c : Nat) (a : EvAttr) (n : Nat) : (s.offer c a n).out = s.out := by rw [State.offer_eq]
@[simp] theorem State.offer_latch (s : State) (c : Nat) (a : EvAttr) (n : Nat) : (s.offer c a n).latch = s.latch := by rw [State.offer_eq]
@[simp] theorem State.offer_smbAddr (s : State) (c : Nat) (a : EvAttr) (n : Nat) : (s.offer c a n).smbAddr = s.smbAddr := by rw [State.offer_eq]
@[simp] theorem State.offer_tapIr (s : State) (c : Nat) (a : EvAttr) (n : Nat) : (s.offer c a n).tapIr = s.tapIr := by rw [State.offer_eq]
@[simp] theorem State.offer_porst (s : State) (c : Nat) (a : EvAttr) (n : Nat) : (s.offer c a n).porst = s.porst := by rw [State.offer_eq]
@[simp] theorem State.offer_resetHeld (s : State) (c : Nat) (a : EvAttr) (n : Nat) : (s.offer c a n).resetHeld = s.resetHeld := by rw [State.offer_eq]
@[simp] theorem State.offer_fuses (s : State) (c : Nat) (a : EvAttr) (n : Nat) : (s.offer c a n).fuses = s.fuses := by rw [State.offer_eq]
@[simp] theorem State.offer_strapHsp (s : State) (c : Nat) (a : EvAttr) (n : Nat) : (s.offer c a n).strapHsp = s.strapHsp := by rw [State.offer_eq]
@[simp] theorem State.offer_strapAsel (s : State) (c : Nat) (a : EvAttr) (n : Nat) : (s.offer c a n).strapAsel = s.strapAsel := by rw [State.offer_eq]
@[simp] theorem State.offer_tiles (s : State) (c : Nat) (a : EvAttr) (n : Nat) : (s.offer c a n).tiles = s.tiles := by rw [State.offer_eq]
@[simp] theorem State.offer_rigs (s : State) (c : Nat) (a : EvAttr) (n : Nat) : (s.offer c a n).rigs = s.rigs := by rw [State.offer_eq]
@[simp] theorem State.offer_sheets (s : State) (c : Nat) (a : EvAttr) (n : Nat) : (s.offer c a n).sheets = s.sheets := by rw [State.offer_eq]
@[simp] theorem State.offer_compls (s : State) (c : Nat) (a : EvAttr) (n : Nat) : (s.offer c a n).compls = s.compls := by rw [State.offer_eq]
@[simp] theorem State.offer_sqs (s : State) (c : Nat) (a : EvAttr) (n : Nat) : (s.offer c a n).sqs = s.sqs := by rw [State.offer_eq]
@[simp] theorem State.offer_cqs (s : State) (c : Nat) (a : EvAttr) (n : Nat) : (s.offer c a n).cqs = s.cqs := by rw [State.offer_eq]
@[simp] theorem State.offer_msixOpen (s : State) (c : Nat) (a : EvAttr) (n : Nat) : (s.offer c a n).msixOpen = s.msixOpen := by rw [State.offer_eq]
@[simp] theorem State.offer_msixPend (s : State) (c : Nat) (a : EvAttr) (n : Nat) : (s.offer c a n).msixPend = s.msixPend := by rw [State.offer_eq]
@[simp] theorem State.offer_spaces (s : State) (c : Nat) (a : EvAttr) (n : Nat) : (s.offer c a n).spaces = s.spaces := by rw [State.offer_eq]
@[simp] theorem State.offer_pages (s : State) (c : Nat) (a : EvAttr) (n : Nat) : (s.offer c a n).pages = s.pages := by rw [State.offer_eq]
@[simp] theorem State.offer_staged (s : State) (c : Nat) (a : EvAttr) (n : Nat) : (s.offer c a n).staged = s.staged := by rw [State.offer_eq]
@[simp] theorem State.offer_outVers (s : State) (c : Nat) (a : EvAttr) (n : Nat) : (s.offer c a n).outVers = s.outVers := by rw [State.offer_eq]
@[simp] theorem State.offer_heldVers (s : State) (c : Nat) (a : EvAttr) (n : Nat) : (s.offer c a n).heldVers = s.heldVers := by rw [State.offer_eq]
@[simp] theorem State.offer_ledgers (s : State) (c : Nat) (a : EvAttr) (n : Nat) : (s.offer c a n).ledgers = s.ledgers := by rw [State.offer_eq]
@[simp] theorem State.offer_stagedLedgers (s : State) (c : Nat) (a : EvAttr) (n : Nat) : (s.offer c a n).stagedLedgers = s.stagedLedgers := by rw [State.offer_eq]
@[simp] theorem State.offer_wc (s : State) (c : Nat) (a : EvAttr) (n : Nat) : (s.offer c a n).wc = s.wc := by rw [State.offer_eq]
@[simp] theorem State.offer_ascentQ (s : State) (c : Nat) (a : EvAttr) (n : Nat) : (s.offer c a n).ascentQ = s.ascentQ := by rw [State.offer_eq]
@[simp] theorem State.offer_forcedQ (s : State) (c : Nat) (a : EvAttr) (n : Nat) : (s.offer c a n).forcedQ = s.forcedQ := by rw [State.offer_eq]
@[simp] theorem State.offer_descentQ (s : State) (c : Nat) (a : EvAttr) (n : Nat) : (s.offer c a n).descentQ = s.descentQ := by rw [State.offer_eq]
@[simp] theorem State.offer_moves (s : State) (c : Nat) (a : EvAttr) (n : Nat) : (s.offer c a n).moves = s.moves := by rw [State.offer_eq]
@[simp] theorem State.offer_mcmd (s : State) (c : Nat) (a : EvAttr) (n : Nat) : (s.offer c a n).mcmd = s.mcmd := by rw [State.offer_eq]
@[simp] theorem State.offer_rejWrs (s : State) (c : Nat) (a : EvAttr) (n : Nat) : (s.offer c a n).rejWrs = s.rejWrs := by rw [State.offer_eq]
@[simp] theorem State.offer_passing (s : State) (c : Nat) (a : EvAttr) (n : Nat) : (s.offer c a n).passing = s.passing := by rw [State.offer_eq]
@[simp] theorem State.offer_msixTab (s : State) (c : Nat) (a : EvAttr) (n : Nat) : (s.offer c a n).msixTab = s.msixTab := by rw [State.offer_eq]
@[simp] theorem State.offer_queJob (s : State) (c : Nat) (a : EvAttr) (n : Nat) : (s.offer c a n).queJob = s.queJob := by rw [State.offer_eq]
@[simp] theorem State.offer_srSeed (s : State) (c : Nat) (a : EvAttr) (n : Nat) : (s.offer c a n).srSeed = s.srSeed := by rw [State.offer_eq]
@[simp] theorem State.offer_bufReqs (s : State) (c : Nat) (a : EvAttr) (n : Nat) : (s.offer c a n).bufReqs = s.bufReqs := by rw [State.offer_eq]
@[simp] theorem State.offer_txs (s : State) (c : Nat) (a : EvAttr) (n : Nat) : (s.offer c a n).txs = s.txs := by rw [State.offer_eq]
@[simp] theorem State.offer_negReads (s : State) (c : Nat) (a : EvAttr) (n : Nat) : (s.offer c a n).negReads = s.negReads := by rw [State.offer_eq]
@[simp] theorem State.offer_heldQ (s : State) (c : Nat) (a : EvAttr) (n : Nat) : (s.offer c a n).heldQ = s.heldQ := by rw [State.offer_eq]
@[simp] theorem State.offer_chunkBad (s : State) (c : Nat) (a : EvAttr) (n : Nat) : (s.offer c a n).chunkBad = s.chunkBad := by rw [State.offer_eq]
@[simp] theorem State.offer_sigs (s : State) (c : Nat) (a : EvAttr) (n : Nat) : (s.offer c a n).sigs = s.sigs := by rw [State.offer_eq]
@[simp] theorem State.offer_waiters (s : State) (c : Nat) (a : EvAttr) (n : Nat) : (s.offer c a n).waiters = s.waiters := by rw [State.offer_eq]
@[simp] theorem State.offer_obArr (s : State) (c : Nat) (a : EvAttr) (n : Nat) : (s.offer c a n).obArr = s.obArr := by rw [State.offer_eq]
@[simp] theorem State.offer_xbars (s : State) (c : Nat) (a : EvAttr) (n : Nat) : (s.offer c a n).xbars = s.xbars := by rw [State.offer_eq]
@[simp] theorem State.offer_members (s : State) (c : Nat) (a : EvAttr) (n : Nat) : (s.offer c a n).members = s.members := by rw [State.offer_eq]
@[simp] theorem State.offer_streams (s : State) (c : Nat) (a : EvAttr) (n : Nat) : (s.offer c a n).streams = s.streams := by rw [State.offer_eq]
@[simp] theorem State.offer_overflow (s : State) (c : Nat) (a : EvAttr) (n : Nat) : (s.offer c a n).overflow = s.overflow := by rw [State.offer_eq]
@[simp] theorem State.offer_wrCount (s : State) (c : Nat) (a : EvAttr) (n : Nat) : (s.offer c a n).wrCount = s.wrCount := by rw [State.offer_eq]
@[simp] theorem State.offer_remoteWrs (s : State) (c : Nat) (a : EvAttr) (n : Nat) : (s.offer c a n).remoteWrs = s.remoteWrs := by rw [State.offer_eq]
@[simp] theorem State.offer_heldSigs (s : State) (c : Nat) (a : EvAttr) (n : Nat) : (s.offer c a n).heldSigs = s.heldSigs := by rw [State.offer_eq]
@[simp] theorem State.offer_sendStreams (s : State) (c : Nat) (a : EvAttr) (n : Nat) : (s.offer c a n).sendStreams = s.sendStreams := by rw [State.offer_eq]
@[simp] theorem State.offer_colls (s : State) (c : Nat) (a : EvAttr) (n : Nat) : (s.offer c a n).colls = s.colls := by rw [State.offer_eq]
@[simp] theorem State.offer_exchanges (s : State) (c : Nat) (a : EvAttr) (n : Nat) : (s.offer c a n).exchanges = s.exchanges := by rw [State.offer_eq]
@[simp] theorem State.offer_early (s : State) (c : Nat) (a : EvAttr) (n : Nat) : (s.offer c a n).early = s.early := by rw [State.offer_eq]
@[simp] theorem State.offer_collCount (s : State) (c : Nat) (a : EvAttr) (n : Nat) : (s.offer c a n).collCount = s.collCount := by rw [State.offer_eq]
@[simp] theorem State.offer_evStarted (s : State) (c : Nat) (a : EvAttr) (n : Nat) : (s.offer c a n).evStarted = s.evStarted := by rw [State.offer_eq]
@[simp] theorem State.offer_floors (s : State) (c : Nat) (a : EvAttr) (n : Nat) : (s.offer c a n).floors = s.floors := by rw [State.offer_eq]
@[simp] theorem State.offer_links (s : State) (c : Nat) (a : EvAttr) (n : Nat) : (s.offer c a n).links = s.links := by rw [State.offer_eq]
@[simp] theorem State.offer_t2 (s : State) (c : Nat) (a : EvAttr) (n : Nat) : (s.offer c a n).t2 = s.t2 := by rw [State.offer_eq]
@[simp] theorem State.offer_t3 (s : State) (c : Nat) (a : EvAttr) (n : Nat) : (s.offer c a n).t3 = s.t3 := by rw [State.offer_eq]
@[simp] theorem State.offer_portReqs (s : State) (c : Nat) (a : EvAttr) (n : Nat) : (s.offer c a n).portReqs = s.portReqs := by rw [State.offer_eq]
@[simp] theorem State.offer_reqCount (s : State) (c : Nat) (a : EvAttr) (n : Nat) : (s.offer c a n).reqCount = s.reqCount := by rw [State.offer_eq]
@[simp] theorem State.offer_chans (s : State) (c : Nat) (a : EvAttr) (n : Nat) : (s.offer c a n).chans = s.chans := by rw [State.offer_eq]
@[simp] theorem State.offer_acts (s : State) (c : Nat) (a : EvAttr) (n : Nat) : (s.offer c a n).acts = s.acts := by rw [State.offer_eq]
@[simp] theorem State.offer_actQ (s : State) (c : Nat) (a : EvAttr) (n : Nat) : (s.offer c a n).actQ = s.actQ := by rw [State.offer_eq]
@[simp] theorem State.offer_actCount (s : State) (c : Nat) (a : EvAttr) (n : Nat) : (s.offer c a n).actCount = s.actCount := by rw [State.offer_eq]
@[simp] theorem State.offer_scrubs (s : State) (c : Nat) (a : EvAttr) (n : Nat) : (s.offer c a n).scrubs = s.scrubs := by rw [State.offer_eq]
@[simp] theorem State.offer_sweeps (s : State) (c : Nat) (a : EvAttr) (n : Nat) : (s.offer c a n).sweeps = s.sweeps := by rw [State.offer_eq]
@[simp] theorem State.offer_t3wEpoch (s : State) (c : Nat) (a : EvAttr) (n : Nat) : (s.offer c a n).t3wEpoch = s.t3wEpoch := by rw [State.offer_eq]
@[simp] theorem State.offer_ctlReset (s : State) (c : Nat) (a : EvAttr) (n : Nat) : (s.offer c a n).ctlReset = s.ctlReset := by rw [State.offer_eq]
@[simp] theorem State.offer_online (s : State) (c : Nat) (a : EvAttr) (n : Nat) : (s.offer c a n).online = s.online := by rw [State.offer_eq]
@[simp] theorem State.offer_log (s : State) (c : Nat) (a : EvAttr) (n : Nat) : (s.offer c a n).log = s.log := by rw [State.offer_eq]
@[simp] theorem State.offer_logSeq (s : State) (c : Nat) (a : EvAttr) (n : Nat) : (s.offer c a n).logSeq = s.logSeq := by rw [State.offer_eq]
@[simp] theorem State.offer_tilesNeed (s : State) (c : Nat) (a : EvAttr) (n : Nat) : (s.offer c a n).tilesNeed = s.tilesNeed := by rw [State.offer_eq]
@[simp] theorem State.offer_mgmtFailed (s : State) (c : Nat) (a : EvAttr) (n : Nat) : (s.offer c a n).mgmtFailed = s.mgmtFailed := by rw [State.offer_eq]
@[simp] theorem State.offer_tether (s : State) (c : Nat) (a : EvAttr) (n : Nat) : (s.offer c a n).tether = s.tether := by rw [State.offer_eq]
@[simp] theorem State.offer_reserve (s : State) (c : Nat) (a : EvAttr) (n : Nat) : (s.offer c a n).reserve = s.reserve := by rw [State.offer_eq]
@[simp] theorem State.offer_ramping (s : State) (c : Nat) (a : EvAttr) (n : Nat) : (s.offer c a n).ramping = s.ramping := by rw [State.offer_eq]
@[simp] theorem State.offer_rampQ (s : State) (c : Nat) (a : EvAttr) (n : Nat) : (s.offer c a n).rampQ = s.rampQ := by rw [State.offer_eq]
@[simp] theorem State.offer_capHold (s : State) (c : Nat) (a : EvAttr) (n : Nat) : (s.offer c a n).capHold = s.capHold := by rw [State.offer_eq]
@[simp] theorem State.offer_driven (s : State) (c : Nat) (a : EvAttr) (n : Nat) : (s.offer c a n).driven = s.driven := by rw [State.offer_eq]
@[simp] theorem State.offer_vtarget (s : State) (c : Nat) (a : EvAttr) (n : Nat) : (s.offer c a n).vtarget = s.vtarget := by rw [State.offer_eq]
@[simp] theorem State.offer_volts (s : State) (c : Nat) (a : EvAttr) (n : Nat) : (s.offer c a n).volts = s.volts := by rw [State.offer_eq]
@[simp] theorem State.offer_beatFrac (s : State) (c : Nat) (a : EvAttr) (n : Nat) : (s.offer c a n).beatFrac = s.beatFrac := by rw [State.offer_eq]
@[simp] theorem State.offer_tmaxNext (s : State) (c : Nat) (a : EvAttr) (n : Nat) : (s.offer c a n).tmaxNext = s.tmaxNext := by rw [State.offer_eq]
@[simp] theorem State.offer_tripHold (s : State) (c : Nat) (a : EvAttr) (n : Nat) : (s.offer c a n).tripHold = s.tripHold := by rw [State.offer_eq]
@[simp] theorem State.offer_keyOp (s : State) (c : Nat) (a : EvAttr) (n : Nat) : (s.offer c a n).keyOp = s.keyOp := by rw [State.offer_eq]
@[simp] theorem State.offer_fwOp (s : State) (c : Nat) (a : EvAttr) (n : Nat) : (s.offer c a n).fwOp = s.fwOp := by rw [State.offer_eq]
@[simp] theorem State.offer_flashImg (s : State) (c : Nat) (a : EvAttr) (n : Nat) : (s.offer c a n).flashImg = s.flashImg := by rw [State.offer_eq]
@[simp] theorem State.offer_preferred (s : State) (c : Nat) (a : EvAttr) (n : Nat) : (s.offer c a n).preferred = s.preferred := by rw [State.offer_eq]
@[simp] theorem State.offer_fwKey (s : State) (c : Nat) (a : EvAttr) (n : Nat) : (s.offer c a n).fwKey = s.fwKey := by rw [State.offer_eq]
@[simp] theorem State.offer_fwId (s : State) (c : Nat) (a : EvAttr) (n : Nat) : (s.offer c a n).fwId = s.fwId := by rw [State.offer_eq]
@[simp] theorem State.offer_fwSvn (s : State) (c : Nat) (a : EvAttr) (n : Nat) : (s.offer c a n).fwSvn = s.fwSvn := by rw [State.offer_eq]
@[simp] theorem State.offer_fwDigest (s : State) (c : Nat) (a : EvAttr) (n : Nat) : (s.offer c a n).fwDigest = s.fwDigest := by rw [State.offer_eq]
@[simp] theorem State.offer_report (s : State) (c : Nat) (a : EvAttr) (n : Nat) : (s.offer c a n).report = s.report := by rw [State.offer_eq]
@[simp] theorem State.offer_reports (s : State) (c : Nat) (a : EvAttr) (n : Nat) : (s.offer c a n).reports = s.reports := by rw [State.offer_eq]
@[simp] theorem State.offer_imgDigest (s : State) (c : Nat) (a : EvAttr) (n : Nat) : (s.offer c a n).imgDigest = s.imgDigest := by rw [State.offer_eq]
@[simp] theorem State.offer_chain (s : State) (c : Nat) (a : EvAttr) (n : Nat) : (s.offer c a n).chain = s.chain := by rw [State.offer_eq]
@[simp] theorem State.offer_imgLoads (s : State) (c : Nat) (a : EvAttr) (n : Nat) : (s.offer c a n).imgLoads = s.imgLoads := by rw [State.offer_eq]
@[simp] theorem State.offer_imgSlot (s : State) (c : Nat) (a : EvAttr) (n : Nat) : (s.offer c a n).imgSlot = s.imgSlot := by rw [State.offer_eq]
@[simp] theorem State.offer_session (s : State) (c : Nat) (a : EvAttr) (n : Nat) : (s.offer c a n).session = s.session := by rw [State.offer_eq]
@[simp] theorem State.offer_everOpen (s : State) (c : Nat) (a : EvAttr) (n : Nat) : (s.offer c a n).everOpen = s.everOpen := by rw [State.offer_eq]
@[simp] theorem State.offer_flog (s : State) (c : Nat) (a : EvAttr) (n : Nat) : (s.offer c a n).flog = s.flog := by rw [State.offer_eq]
@[simp] theorem State.offer_commits (s : State) (c : Nat) (a : EvAttr) (n : Nat) : (s.offer c a n).commits = s.commits := by rw [State.offer_eq]
@[simp] theorem State.offer_staging (s : State) (c : Nat) (a : EvAttr) (n : Nat) : (s.offer c a n).staging = s.staging := by rw [State.offer_eq]
@[simp] theorem State.offer_load (s : State) (c : Nat) (a : EvAttr) (n : Nat) : (s.offer c a n).load = s.load := by rw [State.offer_eq]

end Sys2Proof.Machine
end

