-- ==== Sys2Proof/WellFormed.lean ====
section
/-! DEFINITION. Which commands are well formed: operands within the ranges that the spec gives them. -/

namespace Sys2Proof
open Machine

/-- Every field within its width (R105). -/
def VOp.wf (o : VOp) : Bool :=
  o.d < 64 && o.a < 64 && o.b < 64 && o.bm < 4 && o.msk < 8 && o.mz < 2 && o.sub < 4

def SOp.wf (o : SOp) : Bool := o.sd < 32 && o.sa < 32 && o.imm < 65536

def TOp.wf (o : TOp) : Bool := o.d < 64 && o.e < 8 && o.sub < 8 && o.imm < 16384

def MOp.wf (o : MOp) : Bool := o.d < 64 && o.sa < 32 && o.fmt < 9 && o.imm < 2048 && (o.fmt != 4 || o.sa ≤ 30)

/-- Error patterns name 80-bit code words. -/
def errsOk (errs : List (Nat × Nat)) : Bool := errs.all fun e => e.2 < 2 ^ 80

/-- A frame: fields within their widths, payload up to 512 bytes (R280). -/
def Machine.Frame.wf (f : Frame) : Bool :=
  f.ftype < 256 && f.vc < 4 && f.lvl < 2 && f.hops < 32 && f.dst < 4096 && f.src < 4096 && f.stile < 128 && f.seng < 4
    && f.cnt < 65536 && f.arg < 2 ^ 64 && f.pmask < 2 ^ 64 && f.ofs < 2 ^ 32 && f.payload.length ≤ 512

/-- A command is well formed. -/
def wellFormed (i : Instr) : Bool :=
  match i with
  | .registerWrite addr _ be => addr % 4 = 0 && addr < 2 ^ 25 && be < 16
  | .lowWordRead addr => addr % 4 = 0 && addr < 2 ^ 25
  | .synGmdatAccess _ => true
  | .smbusSetAddress _ _ => true
  | .smbusBlockAccess _ _ => true
  | .snoop addr => addr % 64 = 0
  | .porstAssert => true
  | .supplyOutOfRange rail => rail < 64
  | .resetRelease => true
  | .bootStepComplete _ => true
  | .loadStart data => bit data.toNat 0
  | .imageCheckComplete => true
  | .imageApply => true
  | .imageApplyComplete => true
  | .rigGo n data => n < 72 && bit data.toNat 0 && !bit data.toNat 1 && !bit data.toNat 2
  | .rigStop n data => n < 72 && bit data.toNat 1 && !bit data.toNat 2
  | .rigKill n data => n < 72 && bit data.toNat 2
  | .rigStopped n => n < 72
  | .createSq data => bit data.toNat 0 && bits data.toNat 31 28 = 1
  | .createCq data => bit data.toNat 0 && bits data.toNat 31 28 = 2
  | .deleteSq data => bit data.toNat 0 && bits data.toNat 31 28 = 3
  | .deleteCq data => bit data.toNat 0 && bits data.toNat 31 28 = 4
  | .sqTailDoorbell n _ => n < 65536
  | .cqHeadDoorbell n _ => n < 4096
  | .callSheetFetch n errs => n < 65536 && errsOk errs
  | .logHeadMigrate => true
  | .callSheetDispatch n errs => n < 72 && errsOk errs
  | .partComplete _ _ => true
  | .outputVersionsCurrent _ => true
  | .completionGo m => m < 4096
  | .cqCoalesceTimeout m => m < 4096
  | .msixUnmask vec => vec < 2048
  | .hostWindowRead off errs _ => off % 64 = 0 && off < 2 ^ 44 && errsOk errs
  | .hostWindowWrite off data mask errs => off % 64 = 0 && off < 2 ^ 44 && data.length = 64 && mask < 2 ^ 64 && errsOk errs
  | .ucieModuleRetrain m => m < 2
  | .ucieRetrainComplete m _ => m < 2
  | .shotNop p e => p < 80 && e < 8
  | .cnt p e k lim str => p < 80 && e < 8 && k < 6 && 1 ≤ lim && lim ≤ 65536 && -(2 ^ 23) ≤ str && str < 2 ^ 23
  | .base p e b cls addr => p < 80 && e < 8 && b < 4 && cls < 8 && addr < 2 ^ 52
  | .ofs p e b off => p < 80 && e < 8 && b < 4 && -(2 ^ 47) ≤ off && off < 2 ^ 47
  | .fmt p e esz conv => p < 80 && e < 8 && esz < 4 && conv < 9
  | .emit p e b d slot near => p < 80 && e < 8 && b < 4 && 1 ≤ d && d ≤ 6 && slot < 4 && near < 512
  | .wait p e sig => p < 80 && e < 8 && sig < 16384
  | .raise p e sig => p < 80 && e < 8 && sig < 16384
  | .dl p e time pol => p < 80 && e < 8 && time < 65536 && pol < 3
  | .pois p e _ => p < 80 && e < 8
  | .loopc p e k tgt => p < 80 && e < 8 && k < 6 && tgt < 64
  | .arm p e tgt _ addr => p < 80 && e < 8 && tgt < 8 && addr < 2 ^ 52
  | .shotEnd p e => p < 80 && e < 8
  | .rsig p e dev sig => p < 80 && e < 8 && dev < 4096 && sig < 16384
  | .coll p e op form fmt grp count => p < 80 && e < 8 && op < 3 && form < 2 && fmt < 3 && grp < 4096 && count < 2 ^ 24
  | .armCheckComplete p e _ errs => p < 80 && e < 8 && errsOk errs
  | .generationComplete p e => p < 80 && e < 8
  | .strmHaltWrite p e _ => p < 80 && e < 8
  | .transferIssue p e errs => p < 80 && e < 8 && errsOk errs
  | .readTransferComplete p e _ errs _ _ => p < 80 && e < 8 && errsOk errs
  | .writeTransferComplete p e _ => p < 80 && e < 8
  | .negativeReadComplete page line _ => page < 2 ^ 48 && line < 256
  | .deadlineExpiry p e _ _ _ => p < 80 && e < 8
  | .streamParityError p e _ _ => p < 80 && e < 8
  | .arrayTaskStart p => p < 80
  | .stationaryRowLoad p errs => p < 80 && errsOk errs
  | .rowAdmit p => p < 80
  | .bubble p => p < 80
  | .ballastTaperStep p => p < 80
  | .ballastEnd p => p < 80
  | .rowComplete p => p < 80
  | .arrayParityError p _ => p < 80
  | .bankParityError p b _ => p < 80 && b < 4
  | .arrayHaltWrite p _ => p < 80
  | .ballastModeWrite i _ => i < 16
  | .ftqPushStart p => p < 80
  | .ftqPushComplete p => p < 80
  | .routineStart p => p < 80
  | .nop p => p < 80
  | .fadd p o => p < 80 && o.wf
  | .fsub p o => p < 80 && o.wf
  | .fmul p o => p < 80 && o.wf
  | .fma p o => p < 80 && o.wf
  | .fdiv p o => p < 80 && o.wf
  | .fmax p o => p < 80 && o.wf
  | .fmin p o => p < 80 && o.wf
  | .fsqrt p o => p < 80 && o.wf
  | .frsq p o => p < 80 && o.wf
  | .frcp p o => p < 80 && o.wf
  | .fexp p o => p < 80 && o.wf
  | .flog p o => p < 80 && o.wf
  | .ftanh p o => p < 80 && o.wf
  | .fsgn p o => p < 80 && o.wf
  | .fcmp p o => p < 80 && o.wf
  | .fcls p o => p < 80 && o.wf
  | .mlog p o => p < 80 && o.wf
  | .mfirst p o => p < 80 && o.wf
  | .mpop p o => p < 80 && o.wf
  | .mov p o => p < 80 && o.wf
  | .sel p o => p < 80 && o.wf
  | .cmpr p o => p < 80 && o.wf
  | .expd p o => p < 80 && o.wf
  | .fold p o => p < 80 && o.wf
  | .red p o => p < 80 && o.wf
  | .cvt p o => p < 80 && o.wf
  | .qdq p o => p < 80 && o.wf
  | .chkf p o => p < 80 && o.wf
  | .flgm p o => p < 80 && o.wf
  | .sli p o => p < 80 && o.wf
  | .sori p o => p < 80 && o.wf
  | .sadd p o => p < 80 && o.wf
  | .sfop p o => p < 80 && o.wf
  | .ldt p o => p < 80 && o.wf
  | .stt p o => p < 80 && o.wf
  | .popt p => p < 80
  | .tag p o => p < 80 && o.wf
  | .setq p o => p < 80 && o.wf
  | .ldv p o errs => p < 80 && o.wf && errsOk errs
  | .stv p o => p < 80 && o.wf
  | .loop p cnt len => p < 80 && cnt < 1024 && 1 ≤ len && len < 256
  | .sigr p sig => p < 80 && sig < 16384
  | .sigw p sig => p < 80 && sig < 16384
  | .endRoutine p => p < 80
  | .vectorParityError p _ _ => p < 80
  | .vecHaltWrite p _ => p < 80
  | .hostRaise _ => true
  | .signalRegionUncorrectable word => word < 4096
  | .obPhaseComplete k => k < 64
  | .obEnableWrite k _ => k < 64
  | .xbEnableWrite k _ => k < 16
  | .barArrive port f => port < 10 && f.wf
  | .barRelease port f => port < 10 && f.wf
  | .barResend k => k < 16
  | .xbTimeout k => k < 16
  | .groupValidWrite n _ => n < 4096
  | .frameTransit port f => port < 10 && f.wf
  | .wrFrame port f => port < 10 && f.wf
  | .remoteWriteVisible _ _ errs => errsOk errs
  | .wack port f => port < 10 && f.wf
  | .sig port f => port < 10 && f.wf
  | .sigHoldTimeout _ => true
  | .rej port f => port < 10 && f.wf
  | .cdata port f => port < 10 && f.wf
  | .ready port f => port < 10 && f.wf
  | .mask port f => port < 10 && f.wf
  | .hello port f => port < 10 && f.wf
  | .flitReceive port f => port < 31 && f.bytes.length = 256
  | .fastRetrainComplete port _ => port < 31
  | .linkTrainingStart port => port < 18
  | .tsa port lane => port < 18 && lane < 18
  | .tsb port _ => port < 18
  | .tsc port => port < 18
  | .linkTrainingTimeout port => port < 18
  | .rdr b m => b < 8 && m.bytes.length = 16
  | .wrc b m => b < 8 && m.bytes.length = 16
  | .fillc b m => b < 8 && m.bytes.length = 16
  | .cfgr b m => b < 8 && m.bytes.length = 16
  | .syncc b m => b < 8 && m.bytes.length = 16
  | .alert b m => b < 8 && m.bytes.length = 16
  | .twnPair _ => true
  | .twnUnpair _ => true
  | .pair port f => port < 10 && f.wf
  | .pack port f => port < 10 && f.wf
  | .lrec port f => port < 10 && f.wf
  | .page port f => port < 10 && f.wf
  | .mack port f => port < 10 && f.wf
  | .unpr port f => port < 10 && f.wf
  | .beat port f => port < 10 && f.wf
  | .beatSend t => t < 2
  | .partnerLost => true
  | .restore _ => true
  | .restoreComplete => true
  | .release _ => true
  | .twnRscalGo _ => true
  | .map data => bit data.toNat 0 && bits data.toNat 31 28 = 1
  | .unmap data => bit data.toNat 0 && bits data.toNat 31 28 = 2
  | .seal data => bit data.toNat 0 && bits data.toNat 31 28 = 3
  | .pin data => bit data.toNat 0 && bits data.toNat 31 28 = 4
  | .unpin data => bit data.toNat 0 && bits data.toNat 31 28 = 5
  | .hint data => bit data.toNat 0 && bits data.toNat 31 28 = 6
  | .foldCommand data => bit data.toNat 0 && bits data.toNat 31 28 = 7
  | .heatEpochEnd => true
  | .descentSweep tier => tier < 3
  | .moveStart page _ => page < 2 ^ 48
  | .moveLineLand page errs _ => page < 2 ^ 48 && errsOk errs
  | .moveComplete page => page < 2 ^ 48
  | .moveWriteFailure page _ => page < 2 ^ 48
  | .wcFlush _ errs => errsOk errs
  | .evacuate _ => true
  | .retrain _ => true
  | .retire _ => true
  | .channelMarginLow c => c < 256
  | .maintUnitEnd _ => true
  | .evacCopyComplete c errs => c < 256 && errsOk errs
  | .channelRetrainComplete c r => c < 256 && r.dq < 256
  | .scrubUnit mem errs => mem < 4 && errsOk errs
  | .scrubPass _ => true
  | .controllerParityError x => x.unit < 32
  | .controllerResetDone port => port < 32
  | .cxlCompletionTimeout x _ => x < 2
  | .cxlLinkDown l => l.x < 2
  | .nvmeCommandTimeout d _ => d < 8
  | .packDone n => n < 72
  | .applyDone n => n < 72
  | .deriveDone n => n < 72
  | .stragglerTimeout n _ => n < 72
  | .strike n _ => n < 72
  | .printRecordWritten n => n < 72
  | .printComplete n => n < 72
  | .strikeComplete n => n < 72
  | .exportGroup n data => n < 72 && bit data.toNat 0 && bits data.toNat 31 28 = 1
  | .importGroup n data => n < 72 && bit data.toNat 0 && bits data.toNat 31 28 = 2
  | .pointWrite i _ => i < 18
  | .rampStart i => i < 18
  | .rampComplete i => i < 18
  | .vcmdRepeat i => i < 18
  | .thermalSample temps => temps.length = 18
  | .clrall data => bit data.toNat 1
  | .freezeWrite _ => true
  | .counterEnableWrite c _ => c < 512
  | .flightLogCommitCmd data => bit data.toNat 0
  | .flogCommitDone _ => true
  | .latencySample p ratios => p < 80 && ratios.length = 16
  | .agingSubstitution u => u.tile < 80 && errsOk u.errs
  | .tileSubstitution u => u.tile < 80 && errsOk u.errs
  | .mgmtCoreFailover x => x.unit < 5
  | .keyEnrol _ => true
  | .keyRevoke _ => true
  | .keyFuseProgramDone _ => true
  | .firmwareWrite _ => true
  | .firmwareWriteDone _ => true
  | .firmwareCommit _ => true
  | .attestRequest _ => true
  | .attestReportDone => true
  | .debugOpen _ => true
  | .dbgtok token => token.length = 256
  | .debugEnd _ => true
  | .debugLifeExpiry => true
  | .tapIdcode => true
  | .tapBypass _ => true
  | .boundaryScan kind _ => kind < 3
  | .negativeWriteComplete _ => true
  | .smbusAlertResponse => true
  | .debugScopeAccess _ => true

end Sys2Proof
end

