-- ==== Sys2Proof/Tests/Slice0.lean ====
section
/-! SUPPORT. Tests: ill-formed commands are refused, worked examples of the spec, and a witness for what each statement assumes. -/

namespace Sys2Proof.Tests

open Sys2Proof Sys2Proof.Machine

set_option maxRecDepth 8000

/-- A state with register fields written: field, value, place. -/
def put (l : List (Field × Nat × Nat)) (s : State := State.reset) : State := each l (fun s e => s.setReg e.1 e.2.1 e.2.2) s

/-- The next state of an outcome. -/
def nextOf (r : Result) : State := match r with
  | .next s => s
  | _ => State.reset

/-! ### Ill-formed commands are refused, one for each kind of check -/

/-- One ill-formed command for each kind of check that WellFormed makes. -/
def illFormed0 : List Instr :=
  [.registerWrite 2 0 15, .registerWrite (2 ^ 25) 0 15, .registerWrite 0 0 16, .lowWordRead 1, .snoop 63, .supplyOutOfRange 64, .loadStart 0,
   .rigGo 72 1, .rigGo 0 3, .rigStop 0 6, .rigKill 0 3, .rigStopped 72, .createSq 1, .createCq 0x20000000, .deleteSq 0x10000001, .deleteCq 1,
   .sqTailDoorbell 65536 0, .cqHeadDoorbell 4096 0, .callSheetFetch 0 [(0, 2 ^ 80)], .callSheetDispatch 72 [], .completionGo 4096,
   .cqCoalesceTimeout 4096, .msixUnmask 2048, .ucieModuleRetrain 2]

def illFormed1 : List Instr :=
  [.shotNop 80 0, .shotNop 0 8, .cnt 0 0 6 1 0, .cnt 0 0 0 0 0, .cnt 0 0 0 1 (2 ^ 23), .base 0 0 4 0 0, .base 0 0 0 0 (2 ^ 52),
   .ofs 0 0 0 (-(2 ^ 47) - 1), .fmt 0 0 4 0, .fmt 0 0 0 9, .emit 0 0 0 0 0 0, .emit 0 0 0 7 0 0, .wait 0 0 16384, .raise 0 0 16384, .dl 0 0 65536 0,
   .dl 0 0 0 3, .loopc 0 0 0 64, .rsig 0 0 4096 0, .coll 0 0 3 0 0 0 1, .rowAdmit 80, .bankParityError 0 4 [], .ballastModeWrite 16 0]

def illFormed2 : List Instr :=
  [.fadd 0 { d := 64 }, .fcmp 0 { sub := 4 }, .sadd 0 { sd := 32 }, .ldt 0 { e := 8 }, .ldv 0 { fmt := 9 } [], .loop 0 1024 1, .loop 0 1 0,
   .sigr 0 16384, .obPhaseComplete 64, .barResend 16, .groupValidWrite 4096 0, .wrFrame 10 {}, .sig 0 { hops := 32 }, .tsa 0 18, .beatSend 2,
   .map 0x20000001, .foldCommand 1, .descentSweep 3, .moveComplete (2 ^ 48), .channelMarginLow 256, .scrubUnit 4 [], .cxlLinkDown ⟨2, none⟩,
   .nvmeCommandTimeout 8 0, .packDone 72, .exportGroup 0 1, .importGroup 0 0x20000000, .pointWrite 18 0, .thermalSample [25], .clrall 1,
   .counterEnableWrite 512 0, .flightLogCommitCmd 0, .latencySample 0 [], .mgmtCoreFailover ⟨5, []⟩, .dbgtok [], .boundaryScan 3 []]

theorem test_ill_formed_refused : (illFormed0.all fun i => !wellFormed i) = true ∧ (illFormed1.all fun i => !wellFormed i) = true
    ∧ (illFormed2.all fun i => !wellFormed i) = true := by decide
theorem test_well_formed_accepted : ([.registerWrite (2 ^ 25 - 4) 0 15, .rigGo 71 1, .createSq 0x10000001, .cnt 79 7 5 65536 (2 ^ 23 - 1), .fadd 79 { d := 63 },
    .thermalSample (List.replicate 18 25), .scrubUnit 3 [(0, 2 ^ 80 - 1)]].all wellFormed) = true := by decide

theorem test_no_word_spells_a_command (n w : Nat) : decodeTableWord n w = none := rfl

/-! ### The queue, the idle block, the reset state -/

theorem witness_IdleStepIsANanosecond : State.reset.pending = [] ∧ State.reset.txs = [] ∧ State.reset.mcmd = none ∧ State.reset.queJob = none
    ∧ (∀ a ∈ State.reset.acts, a.kind ≠ 1) ∧ State.reset.RegsOk := ⟨rfl, rfl, rfl, rfl, by decide, rfl⟩
theorem witness_HostWindow_snoop : exec (.snoop 64) State.reset = .next (State.reset.emit (.snoopMiss 64)) := rfl
theorem witness_StepKeepsRegisterFile : State.reset.RegsOk ∧ ∃ t, step { State.reset with pending := [.snoop 64] } = .next t := ⟨rfl, _, rfl⟩
theorem witness_FusesNeverClear : ({ State.reset with fuses := [(9 * 512, 3), (2 ^ 20 + 9 * 512, 3)], pending := [.snoop 0] } : State).fuse 9 0 = 3
    ∧ ∃ t, step { State.reset with fuses := [(9 * 512, 3), (2 ^ 20 + 9 * 512, 3)], pending := [.snoop 0] } = .next t := ⟨rfl, _, rfl⟩

/-! ### The control space -/

/-- Step `n` of start-up. -/
def atStep (n : Nat) : State := { put [(F.SEC_BOOT_STEP, n, 0)] with resetHeld := false }
theorem witness_host_reaches : (atStep 7).ioReached = true ∧ (atStep 15).ioReached = true ∧ (atStep 6).ioReached = false ∧ (atStep 15).RegsOk
    ∧ (atStep 15).get F.SEC_BOOT_STEP = 15 := by unfold State.RegsOk; decide
theorem witness_RegisterWriteByAccessCode : ∃ r fs, regAt 0x20020 = some (r, fs, 0, 0) ∧ (atStep 15).hidden r 0 = false
    ∧ (∀ a ∈ actions, a.1 ≠ r) ∧ (∀ f ∈ fs, f.acc ≠ .WS ∧ f.acc ≠ .WL) := by
  refine ⟨R.EVT_FLOFS, [F.EVT_FLOFS_PAGE], by rfl, by rfl, by decide, by decide⟩
theorem witness_PartialWriteIgnored : (7 : Nat) ≠ 15 ∧ 0x20020 < bar2 ∧ (atStep 15).ioReached = true := by decide
theorem witness_IgnoredWrites_unlisted : regAt 0x1FFFFFC = none ∧ 0x1FFFFFC < bar2 := ⟨by rfl, by decide⟩
theorem witness_IgnoredWrites_hidden : (match regAt 0x91000 with
    | some (r, _, i, _) => State.reset.hidden r i
    | none => false) = true := by decide
theorem witness_IgnoredWrites_static : State.reset.get F.EVT_CTL_MODE 3 ≠ 1 % 2 ^ F.EVT_CTL_MODE.width ∧ F.EVT_CTL_MODE.id < 1024
    ∧ ¬ evField F.EVT_CTL_MODE ∧ ¬ evField F.EVT_CTL_SREF ∧ F.EVT_CTL_MODE.id ≠ F.EVT_CTL_SREF.id ∧ 0 < F.EVT_CTL_SREF.width := by
  refine ⟨by decide, by decide, by unfold evField; decide, by unfold evField; decide, by decide, by decide⟩
theorem witness_RegisterSpecials_latch : ∃ r fs i, regAt 0x790 = some (r, fs, i, 0) ∧ r.bits = 64 ∧ (atStep 15).latch.get none 0x790 = none :=
  ⟨R.PWR_NTHR, [F.PWR_NTHR_COUNT], 0, by rfl, by rfl, by rfl⟩
theorem witness_RegisterSpecials_member : (atStep 15).memberUsed ((atStep 15).get F.SYN_GMSEL_INDEX) = false
    ∧ (atStep 15).latch.get none R.SYN_GMDAT.base = none := ⟨by rfl, by rfl⟩
theorem witness_RegisterSpecials_sideband : ({ State.reset with resetHeld := false } : State).resetHeld = false ∧ smbWrites 0x20020 = true
    ∧ smbReads 0x20020 = true ∧ smbWrites 0x20000 = false ∧ smbReads 0x4000000 = false
    ∧ (put [(F.SEC_BOOT_FAIL, 1, 0)]).get F.SEC_BOOT_FAIL ≠ 0 ∧ State.reset.get F.SEC_BOOT_FAIL = 0 := by decide

/-! ### Start-up -/

theorem witness_StartUp_trip : ({ State.reset with tripHold := true } : State).tripHold = true ∧ State.reset.tripHold = false := ⟨rfl, rfl⟩
/-- A module up; a stack of eight layers with every channel, and one with too few. -/
theorem witness_StartUp_found : (atStep 7).actQ = [] ∧ (3 % 8 = 3 ∨ 3 % 8 = 4) ∧ ((List.range 5).filter fun c => bit 6 c).length = 2
    ∧ ((List.range 32).filter fun c => bit (2 ^ 256 - 1) (32 * 0 + c) && (atStep 7).get F.MEM_CHMAP_ROLE (32 * 0 + c) != 2).length = 32
    ∧ (atStep 7).get F.MEM_T0CFG_SPARES ≤ 32 := by decide
theorem witness_StartUp_ucie : (put [(ulinkState 0, 3, 0), (ulinkState 1, 1, 0)]).ucieUp 0 = true ∧ (put [(ulinkState 1, 1, 0)]).get (ulinkState 1) = 1
    ∧ [0, 3, 4, 5].contains 3 = true := by decide
theorem witness_StartUp_release : State.reset.resetHeld = true := rfl
theorem witness_StartUp_steps : (∀ n ∈ [2, 3, 4, 5, 6, 7, 8, 9, 10, 11], (atStep n).get F.SEC_BOOT_STEP = n ∧ (atStep n).get F.SEC_BOOT_FAIL = 0)
    ∧ (atStep 5).resetHeld = false := by decide

theorem witness_HostWindow_refused : State.reset.online = false := rfl
theorem witness_HostWindow_staging : ({ State.reset with online := true } : State).online = true ∧ stagingSize - 64 < stagingSize ∧ (stagingSize - 64) % 64 = 0
    ∧ stagingSize < 2 ^ 36 := by decide
/-! ### Encodings and addresses of the spec's worked examples -/

/-- R135, the double-buffered read of tile t20, instructions 0 to 10. -/
theorem test_shot_list_R135 : encBase 0 0 0x0012_4000_0400 = 0x0800_0012_4000_0400 ∧ encFmt 3 0 = 0x1180_0000_0000_0000
    ∧ encCnt 0 128 1 = 0x0400_3F80_0000_8000 ∧ encCnt 1 128 512 = 0x0480_3F80_0100_0000 ∧ encCnt 2 8 65536 = 0x0500_0380_8000_0000
    ∧ encDl 391 1 = 0x2C06_1D00_0000_0000 ∧ encWait 40 = 0x2402_8000_0000_0000 ∧ encRaise 41 = 0x2802_9000_0000_0000
    ∧ encLoopc 2 6 = 0x410C_0000_0000_0000 := by decide

/-- R109's example: FMA v5, v4, v9, column broadcast, m2, MZ 0. -/
theorem test_fma_word : VOp.word 0x04 { d := 5, a := 4, b := 9, bm := 2, msk := 2, mz := 0, sub := 0 } = 0x10510990 := by decide

/-- R4, R12: the maps' addresses; R5's example: the block of physical tile 37. -/
theorem test_register_addresses : (regAt (0x200 + 4 * 71)).map (fun x => (x.1.base, x.2.2)) = some (R.GLB_TMAP.base, 71, 0)
    ∧ (regAt (0x400 + 4 * 79)).map (fun x => (x.1.base, x.2.2)) = some (R.GLB_PMAP.base, 79, 0)
    ∧ (regAt 0x14A0100).map (fun x => (x.1.base, x.2.2)) = some (0x1000100, 37, 0) := by decide

/-- R26's examples: FP16 1.0, and the subnormal 3 × 2^-24. -/
theorem test_fp16_R26 : fp16ToF19 0x3C00 = 0x3F800000 ∧ fp16ToF19 0x0003 = 0x34400000 := by decide

/-- The worked conversion of 0x3FABFDEF: truncated and to nearest. -/
theorem test_worked_conversion : (toF19 {} true 0x3FABFDEF).1 = 0x3FABE000 ∧ (toF19 {} false 0x3FABFDEF).1 = 0x3FAC0000 := by decide

/-- The worked quantization: scale exponent 126 and four codes. -/
theorem test_worked_quantization :
    let q := g8Quant {} ([0x3F400000, 0x3F000000, 0xBE4CCCCD, 0x3A83126F] ++ List.replicate 28 0)
    q.1 = 126 ∧ q.2.1.take 4 = [0x60, 0x40, 0xE6, 0] := by decide

/-- The worked passes: the split of 0x3FABFDEF (R35). -/
theorem test_worked_split : split 0x3FABFDEF = (0x3FAC0000, 0xB8844000) := by decide

/-- R442: the three frames that the device sends. -/
theorem test_regulator_codes : vcode 0 = 0x104 ∧ vcode 1 = 0x190 ∧ vcode 2 = 0x1F4 := by decide

/-- R407: the identity's last bit is 1, as in every IDCODE. -/
theorem test_idcode_odd : idcode % 2 = 1 := by decide

/-- R212's example: LEDGER 16 gives 337 records. -/
theorem test_ledger_records : 16 * 2 ^ 20 / 49728 = 337 := by decide
/-! ### A small machine: rig 3 with two tiles, a submission and a completion queue, one space with one page -/

def rig3 : Rig :=
  { exists_ := true, tiles := [0, 1], sqFirst := 4, sqLast := 7, cqFirst := 2, cqLast := 3, sigFirst := 100, sigLast := 199, obFirst := 0, obCount := 2,
    xbFirst := 0, xbCount := 2 }
def sq4 : Sq := { space := 60, addr := 0x4000000, logsz := 8, cq := 2, rig := 3, tail := 1 }
def ringKey : Nat := keyOf 60 0x4000000
def world : State :=
  { put [(F.SEC_BOOT_STEP, 15, 0), (F.QUE_CARG1_LOGSZ, 8, 0), (F.QUE_CARG0_SPACE, 60, 0), (F.QUE_CARG0_ADDR, 0x4000000, 0), (F.QUE_CARG2_CQT, 2, 0),
      (F.IMG_RSTAT_STATE, rigRunning, 3), (F.GLB_PMAP_LOGICAL, 1, 1), (F.GLB_TMAP_PHYS, 1, 1), (F.GLB_TMAP_PHYS, 0, 0), (F.GLB_PMAP_LOGICAL, 0, 0)]
    with resetHeld := false, online := true, rigs := [(3, rig3)], sqs := [(4, some sq4)], cqs := [(2, some { rig := 3, logsz := 8 })],
         spaces := [(60, some { owner := 3 })], pages := [(ringKey, some { pin := true })] }

theorem world_ok : world.RegsOk ∧ FMap.wf {} world.rigs = true ∧ FMap.wf none world.sqs = true ∧ FMap.wf none world.cqs = true
    ∧ FMap.wf none world.pages = true ∧ Memory.wf world = true := by unfold State.RegsOk; decide

/-! ### The loader and the rigs' control -/

theorem witness_LoadStartAndCheck : world.get F.IMG_STAT_STATE = 0 ∧ 10 ≤ world.get F.SEC_BOOT_STEP ∧ world.fwOp = none
    ∧ (put [(F.IMG_STAT_STATE, 1, 0)] { world with load := some {} }).check1 {} ≠ 0 := by decide
theorem witness_ImageTakesEffect_apply : let s := put [(F.IMG_STAT_STATE, 3, 0)] { world with load := some {} }
    s.get F.IMG_STAT_STATE = 3 ∧ (s.loadRigs ({} : Load).img).all s.rigIdle = true ∧ ((imgRigs ({} : Load).img).map (·.rig)).Nodup := by decide
theorem witness_ImageTakesEffect_complete : let s := put [(F.IMG_STAT_STATE, 4, 0)] { world with load := some {} }
    s.get F.IMG_STAT_STATE = 4 ∧ (s.compls.any fun x => (s.sqsGone ({} : Load).img).contains x.sq || (s.cqsGone ({} : Load).img).contains x.cq) = false := by
  decide
theorem witness_RigControl_go : let s := put [(F.IMG_RSTAT_STATE, rigStopped, 3)] world
    s.ioReached = true ∧ s.tripHold = false ∧ s.rigState 3 = rigStopped ∧ s.rigWhole 3 = true ∧ bit (1 : Word).toNat 0 = true := by decide
theorem witness_RigControl_stop : world.rigState 3 = rigRunning ∧ bit (2 : Word).toNat 1 = true ∧ bit (4 : Word).toNat 2 = true
    ∧ world.rigState 4 = rigAbsent := by decide
theorem witness_RigControl_stopped : let s := put [(F.IMG_RSTAT_STATE, rigStopping, 3)] { world with sheets := [] }
    s.rigState 3 = rigStopping ∧ s.rigIdle 3 = true := by decide
theorem witness_RigControl_loading : (put [(F.IMG_RSTAT_STATE, rigLoading, 3)] world).rigState 3 = rigLoading := by decide

/-! ### Queues -/

theorem witness_QueueCreateDelete_busy : (put [(F.QUE_CSTAT_BUSY, 1, 0)] world).get F.QUE_CSTAT_BUSY ≠ 0 ∧ ({ world with ctlReset := [23] } : State).tablesWait = true
    ∧ ({ world with ctlReset := [23] } : State).get F.QUE_CSTAT_BUSY = 0 := by decide
theorem witness_QueueCreateDelete_sq : world.ioReached = true ∧ world.get F.QUE_CSTAT_BUSY = 0 ∧ world.tablesWait = false ∧ world.sq? 5 = none ∧ world.sqRig 5 = some 3 ∧ (world.cq? (world.get F.QUE_CARG2_CQT % 4096)).map (·.rig) = some 3
    ∧ world.ringOk 3 (world.get F.QUE_CARG0_SPACE) (world.get F.QUE_CARG0_ADDR) (2 ^ world.get F.QUE_CARG1_LOGSZ) = true := by decide
theorem witness_QueueCreateDelete_cq : world.cq? 3 = none ∧ world.cqRig 3 = some 3
    ∧ (world.get F.QUE_CARG0_SPACE * 2 ^ 52 + world.get F.QUE_CARG0_ADDR) % 4096 = 0 := by decide
theorem witness_QueueCreateDelete_delete : let s := { world with sqs := [(4, some { sq4 with tail := 0 })] }
    (s.sq? 4).isSome = true ∧ s.sheets = [] ∧ s.compls = [] ∧ (s.cq? 3).isNone = true ∧ (s.sqs.all fun q => (q.2.map (·.cq)) ≠ some 3) = true := by decide
theorem witness_FailedQueueCommandChangesNothing : world.get F.QUE_CSTAT_ERRF = 0 := by decide
theorem witness_Doorbells : (world.sq? 4).map (·.logsz) = some 8 ∧ (255 : Word).toNat < 2 ^ 8 ∧ world.sq? 6 = none ∧ world.cq? 9 = none ∧ world.get F.SEC_BOOT_STEP = 15
    ∧ ({ world with cqs := [(2, some { rig := 3, logsz := 8, written := 2 })] } : State).cq? 2 = some { rig := 3, logsz := 8, written := 2 } := by decide
theorem witness_CallSheetFetchAndLogHead : world.sq? 4 = some sq4 ∧ sq4.head ≠ sq4.tail ∧ world.get F.TWN_LSTAT_RFULL = 0 ∧ world.headUsed + 192 ≤ headSize
    ∧ world.get F.TWN_LNUM_NEXT < 2 ^ 64 - 1 ∧ (match (world.fetch 3 60 0x4000000 128 [] (fun _ => .current) []).2 with
      | .got _ => true
      | _ => false) = true := by decide
/-- 64 records of banks fill half of the head. -/
def fullLog : List LogRec := (List.range 64).map fun i => { seq := i, logno := i, kind := .bank 0 0 [] false }
theorem witness_CallSheetFetchAndLogHead_migrate : (fullLog.map (·.seq)).Nodup ∧ headSize < 2 * ({ world with log := fullLog } : State).headUsed := by decide
theorem witness_Interrupts : let q : Cq := { rig := 3, logsz := 8, written := 1, pending := 1, ctime := 20, vec := 12, due := true }
    ({ world with cqs := [(2, some q)] } : State).cq? 2 = some q ∧ q.go < q.written ∧ 0 < q.pending ∧ q.ctime ≠ 0
    ∧ q.oldest + 1000 * q.ctime ≤ (put [(F.SYN_TIMER_NS, 20000, 0)] world).now ∧ world.ioReached = true := by decide
def sheet1 : Sheet := { logno := 1, sq := 4, rig := 3, cs := { kind := 3, tmask := 1 } }
theorem witness_DispatchServes : let s : State := { world with sheets := [sheet1] }
    let u := s.setReg F.QUE_ARBNOW_AGEMAX (s.get F.QUE_ARB_AGEMAX)
    s.ctlReset = [] ∧ s.acts = [] ∧ (s.pages.all fun x => (x.2.map (·.neg)) != some true) = true ∧ u.choice 3 = some 4 ∧ u.front 4 = some sheet1 := by decide
theorem witness_PartsAndOutputs : let q : Part := { lead := 0, tiles := [0] }
    let s : State := { world with sheets := [{ sheet1 with dispatched := true, parts := [q, { lead := 1 }] }] }
    (s.sheet 1).map (·.dispatched) = some true ∧ s.partOver 1 q = true ∧ ([q, { lead := 1 }].map (·.lead)).Nodup := by decide
theorem witness_PartsAndOutputs_versions : let v : Version := { page := ringKey, logno := 1 }
    let s : State := { world with sheets := [{ sheet1 with dispatched := true, parts := [{ done := true }] }], outVers := [v] }
    (s.page? v.page).isSome = true ∧ s.heldWaits v.page = false ∧ s.moves = [] := by decide
/-! ### Shot lists and stream engines -/

/-- Engine 0 of tile 0 runs a generation of call sheet 1; the call sheet is in progress. -/
def engine (g : Gen) (shd : Slot := .empty) : State :=
  { world with sheets := [{ sheet1 with dispatched := true, parts := [{ lead := 0, tiles := [0], gens := 1 }] }],
               tiles := [(0, { engs := [(0, { run := .ready { g with logno := 1 }, shd := shd })] })] }
def atWord (w : Nat) : State := engine { instrs := [w] }

theorem witness_ShotListSettings : ([0, encCnt 5 65536 (-1), encBase 3 7 (2 ^ 52 - 1), encOfs 0 (-1), encFmt 3 8, encDl 65535 2, encPois true, encLoopc 0 0, encEnd].all
    fun w => (atWord w).shotAt 0 0 w) = true := by decide
theorem witness_ShotListSettings_loop : let g : Gen := { ctrs := [{ lim := 2 }] }
    (g.ctrs[0]?).map (fun c => decide (c.val + 1 < c.lim)) = some true := by decide
theorem witness_EmitAddressAndBlock_far : let b : Blk := { d := 2, total := 384, ctrs := [{ lim := 128, str := 1 }, { lim := 3, str := 512 }, { val := 5, lim := 8, str := -7 }] }
    b.elems = 384 ∧ b.at_ (2 * 128 + 127) = (false, (halfBytes b.esz : Int) * (127 + 2 * 512 - 5 * 7)) := by decide
theorem witness_EmitAddressAndBlock_block : let g : Gen := { instrs := [encEmit 0 1 0 0], ctrs := [{ lim := 4, str := 1 }, {}, {}, {}, {}, {}] }
    (engine g).shotAt 0 0 (encEmit 0 1 0 0) = true ∧ g.conv ≠ 4 ∧ (engine g).badBlock 0 0 0 (g.block 0 0 1 0 0 0) (g.count 1) = false := by decide
theorem witness_EmitAddressAndBlock_block_bad : let g : Gen := { instrs := [encEmit 0 1 0 0], ctrs := [{ lim := 4, str := 1 }, {}, {}, {}, {}, {}] }
    let s := put [(F.STRM_CTL_TARGET, 2, 0)] (engine g)
    s.engTarget 0 0 = 2 ∧ s.badBlock 0 0 2 (g.block 2 0 1 0 0 0) (g.count 1) = true := by decide
theorem witness_ShotSignals_wait : let s : State := { atWord (encWait 100) with sigs := [(100, 1)] }
    s.shotAt 0 0 (encWait 100) = true ∧ s.ownSig 0 100 = true ∧ 1 ≤ s.sigs.get 0 100 ∧ s.shotMarked 0 0 = false ∧ (atWord (encWait 100)).sigs.get 0 100 = 0
    ∧ (atWord (encWait 300)).ownSig 0 300 = false := by decide
theorem witness_ShotSignals_raise : let s := atWord (encRaise 199)
    s.shotAt 0 0 (encRaise 199) = true ∧ s.ownSig 0 199 = true ∧ s.obOf 199 = none ∧ s.xbOf 199 = none ∧ s.waiters.get [] 199 = []
    ∧ (atWord (encRsig 4095 16383)).shotAt 0 0 (encRsig 4095 16383) = true ∧ 4095 ≠ s.myId := by decide
theorem witness_ArmAndCollInstructions_arm : let s := atWord (encArm 7 false 64)
    s.shotAt 0 0 (encArm 7 false 64) = true ∧ s.shotMarked 0 0 = false
    ∧ ((s.eng 0 7).arm { logno := 1, fromEng := some 0 } false).isSome = true := by decide
theorem witness_ArmAndCollInstructions_arm_full : let s : State := { atWord (encArm 7 true 64) with
      tiles := [(0, { engs := [(0, { run := .ready { instrs := [encArm 7 true 64], logno := 1 } }), (7, { run := .ready {}, shd := .ready {} })] })] }
    (s.eng 0 7).run ≠ .empty ∧ (s.eng 0 7).shd ≠ .empty ∧ s.shotAt 0 0 (encArm 7 true 64) = true := by decide
theorem witness_ArmAndCollInstructions_coll : let w := encColl 2 0 0 4095 1
    let s := engine { instrs := [w], bases := [{ cls := 1 }, { cls := 1, addr := 4096 }, {}, {}] }
    s.shotAt 0 0 w = true ∧ s.shotMarked 0 0 = false ∧ s.group? 4095 = none ∧ storeBlk 0 1 + 4096 ≤ storeSize := by decide
theorem witness_ArmAndCollInstructions_coll_valid : let w := encColl 2 0 0 5 1
    let s := put [(F.SYN_GRP_COUNT, 2, 5), (F.SYN_GRP_VALID, 1, 5)]
      { engine { instrs := [w], bases := [{ cls := 1 }, { cls := 1, addr := 4096 }, {}, {}] } with members := [(1, 1)] }
    (∃ ms, s.group? 5 = some ms ∧ ms.contains s.myId = true) ∧ s.early = [] ∧ s.colls = [] := by
  refine ⟨⟨_, rfl, ?_⟩, ?_⟩ <;> decide

theorem witness_ArmsAndHalt : let a : Arm := { logno := 1, space := 60, addr := 0x4000000 }
    let s : State := { world with tiles := [(0, { engs := [(0, { run := .checking a })] })] }
    (s.eng 0 0).run = .checking a ∧ s.get F.STRM_CTL_HALT (engKey 0 0) = 0 ∧ s.ioReached = true ∧ (match (s.fetchArm 0 0 a []).2 with
      | .unusable => true
      | _ => false) = true := by decide
theorem witness_ArmsAndHalt_shadow : let s : State := { world with tiles := [(0, { engs := [(0, { shd := .ready {} })] })] }
    (s.eng 0 0).run = .empty ∧ (s.eng 0 0).shd = .ready {} ∧ (s.eng 0 0).held = [] := by decide
/-- A block of four FP32 elements of the page of space 60. -/
def blk4 : Blk := { base := { space := 60, addr := 0x4000000 }, ctrs := [{ lim := 4, str := 1 }], total := 4 }
theorem witness_TransferIssue : let s := engine { blks := [blk4] }
    blk4.next < blk4.total ∧ blk4.conv = 0 ∧ s.engClass 0 0 = 0 ∧ s.turn 0 0 = true ∧ (match s.plan 0 0 [] with
      | .go _ => true
      | _ => false) = true := by decide
theorem witness_LocalTransfersComplete : let x : Xfer := { base := { cls := 1 }, len := 16, cnt := 4, near := 1 }
    let s := engine { xfers := [x] }
    x.base.cls = 1 ∧ x.repl = [] ∧ x.write = false ∧ x.arrived = false ∧ x.negWait = false ∧ x.prox = false ∧ ((s.tile 0).store.read x.base.addr x.len).any Prod.snd = false := by decide
theorem witness_LocalTransfersComplete_write : let x : Xfer := { base := { cls := 1 }, len := 2, write := true, data := [(1, false), (2, false)] }
    x.data.length = x.len ∧ x.base.cls = 1 := by decide
theorem witness_GenerationEndsAndFaults : let s := engine { ended := true }
    (s.gen? 0 0).map (fun g => (g.ended, g.blks, g.xfers)) = some (true, [], []) ∧ (s.eng 0 0).shd = .empty ∧ (s.eng 0 0).held = [] := by decide
theorem witness_GenerationEndsAndFaults_shadow : let s := engine { ended := true } (.ready { logno := 2 })
    (s.gen? 0 0).map (·.logno) = some 1 ∧ (s.eng 0 0).shd = .ready { logno := 2 } ∧ s.get F.STRM_CTL_HALT (engKey 0 0) = 0
    ∧ (put [(F.STRM_CTL_HALT, 1, engKey 0 0)] s).get F.STRM_CTL_HALT (engKey 0 0) ≠ 0 := by decide
theorem witness_GenerationEndsAndFaults_deadline : let x : Xfer := { base := { space := 60, addr := 0x4000000 }, len := 256, cnt := 64, dlTime := 1 }
    let s := put [(F.SYN_TIMER_NS, 64, 0)] { engine { xfers := [x] } with pages := [(ringKey, some { zero := false, tier := 1 })] }
    s.xfer? 0 0 0 = some x ∧ x.lines = [0x40000] ∧ x.firstReq + 64 * x.dlTime ≤ s.now
    ∧ (s.page? (keyOf 60 (256 * 0x40000))).map (fun p => (p.zero, p.tier)) = some (false, 1) ∧ s.readVer 1 0 (keyOf 60 (256 * 0x40000)) = .current := by decide
theorem witness_GenerationEndsAndFaults_negative : let n : NegRead := { page := ringKey, line := 255, fails := 1 }
    let s : State := { world with negReads := [n], pages := [(ringKey, some { neg := true, ro := true, zero := false })] }
    s.negReads.find? (fun m => m.page = ringKey && m.line = 255) = some n ∧ n.readers = [] ∧ (s.page? ringKey).map (·.neg) = some true := by decide
/-! ### Arrays -/

def task1 : ArrTask := { ref := { logno := 1 }, rig := 3, space := 60, rows := 2, totalRows := 2, klen := 128, id := { space := 60, addr := 0x4000000 } }
/-- The unfused array of tile 0, with a task; an engine still runs for it. -/
def array (a : Arr) (l : List FeedElem := []) (m : List FeedElem := []) : State :=
  { world with sheets := [{ sheet1 with dispatched := true, parts := [{ lead := 0, tiles := [0] }] }],
               tiles := [(0, { arr := a, feedS := l, feedT := m, engs := [(0, { run := .ready { logno := 1 } })] })] }
def one : FeedElem := { v := 0x3F800000, logno := 1 }

theorem witness_ArrayTaskStartAndLoad_start : let s := array { list := [task1] } (List.replicate 128 one)
    (∃ f, s.geo 0 = some f ∧ s.choose f (s.tile 0).arr (s.get F.TILE_ARR_CTL_HOLDMAX 0) = some (0, [])
      ∧ ∀ m ∈ f.members, (s.tile (s.phys m)).gensOver 1 = false) ∧ (s.tile 0).arr.run = none ∧ s.get F.TILE_ARR_CTL_HALT 0 = 0 := by
  refine ⟨⟨_, rfl, ?_, ?_⟩, ?_, ?_⟩ <;> decide
theorem witness_ArrayTaskStartAndLoad_load : let r : ArrRun := { task := task1, loading := true, loaded := 127 }
    let s := array { run := some r } (List.replicate 128 one)
    (∃ f, s.geo 0 = some f ∧ s.loadFed f task1 0 127 = true ∧ r.loaded < f.rows) ∧ task1.xd = none ∧ task1.pass ≠ 3 := by
  refine ⟨⟨_, rfl, ?_, ?_⟩, ?_⟩ <;> decide
theorem witness_ArrayTaskStartAndLoad_beyond : let r : ArrRun := { task := { task1 with klen := 1 }, loading := true, loaded := 1 }
    let s := array { run := some r } []
    ∃ f, s.geo 0 = some f ∧ s.loadFed f r.task 0 1 = true ∧ r.task.klen ≤ 0 * f.rows + 1 := by
  refine ⟨_, rfl, ?_, ?_⟩ <;> decide
theorem witness_ArrayRows_admit : let r : ArrRun := { task := task1 }
    let s := array { run := some r, blk := some {} } [] (List.replicate 128 one)
    ∃ f, s.geo 0 = some f ∧ s.admits f r = true ∧ ((List.range f.rg).map fun gr => s.mem f gr 0).Nodup := by
  refine ⟨_, rfl, ?_, ?_⟩ <;> decide
theorem witness_ArrayRows_complete : let row : RowFly := { task := { task1 with accn := true }, vals := List.replicate 256 0 }
    let s := array { fly := [row] }
    ∃ f, s.geo 0 = some f ∧ ((List.range f.cg).map fun gc => s.mem f (f.rg - 1) gc).Nodup ∧ f.members.length = f.rg * f.cg := by
  refine ⟨_, rfl, ?_, ?_⟩ <;> decide
theorem witness_ArrayBallastAndControls_ballast : let s := array {}
    (∃ f, s.geo 0 = some f ∧ (f.members.map s.phys).Nodup) ∧ (s.tile 0).arr.run = none := by
  refine ⟨⟨_, rfl, ?_⟩, ?_⟩ <;> decide
theorem witness_ArrayBallastAndControls_ballast_steps : let a : Arr := { inGap := true, gapMode := 1, gap := fullSlots 1 + 192, step := 3 }
    fullSlots a.gapMode + 64 * a.step ≤ a.gap ∧ fullSlots a.gapMode + 256 ≤ fullSlots 1 + 256 := by decide
theorem witness_ArrayBallastAndControls_controls : (3 : Word).toNat % 4 = 3 ∧ (array {}).leadOf 0 = 0 ∧ (array {}).leadOf 79 ≠ 79 ∧ (array {}).enabled 0 = true
    ∧ ((array {}).tile ((array {}).leadOf 0)).arr.run = none ∧ (array {}).ioReached = true ∧ ((array {}).tile 0).arr.fly = []
    ∧ ((array {}).tile 0).bankParts 3 = [] := by decide
/-! ### The vector engine -/

/-- Tile 0 runs a routine of call sheet 1 with word `w` next; m2 masks the lanes 0, 3, 5 and 6; v1, v2 and s3 hold a few values. -/
def vectorState (w : Nat) : Vec :=
  { running := true, task := { logno := 1 }, rig := 3, words := [(0, BitVec.ofNat 32 w)], nwords := 1, m := [(2, 105)], sr := [(3, 4096)],
    v := [(256, some { v := 0x3F800000 }), (259, some { v := 0x40490FDB }), (261, some { v := 0xC0000000 }), (512, some { v := 0x40000000 }),
          (515, some { v := 0x7F800000 })] }
def vector (w : Nat) (ftq : List FtqEntry := []) : State :=
  { world with sheets := [{ sheet1 with dispatched := true, parts := [{ lead := 0, tiles := [0], routLeft := 1 }] }],
               tiles := [(0, { ftq := ftq, vec := vectorState w })] }
/-- v5 becomes a function of v1 and v2 under m2. -/
def op5 : VOp := { d := 5, a := 1, b := 2, msk := 2 }

theorem witness_VectorLaneInstructions : ([(0x01, .fadd 0 op5), (0x02, .fsub 0 op5), (0x03, .fmul 0 op5), (0x04, .fma 0 op5), (0x05, .fdiv 0 op5), (0x06, .fmax 0 op5),
    (0x07, .fmin 0 op5), (0x08, .fsqrt 0 op5), (0x09, .frsq 0 op5), (0x0A, .frcp 0 op5), (0x0B, .fexp 0 op5), (0x0C, .flog 0 op5), (0x0D, .ftanh 0 op5),
    (0x0E, .fsgn 0 op5), (0x15, .mov 0 op5), (0x18, .expd 0 op5), (0x19, .fold 0 op5), (0x1C, .cvt 0 op5), (0x1D, .qdq 0 op5)] : List (Nat × Instr)).all (fun x =>
      let s := vector (op5.word x.1)
      match laneOp s x.2 with
      | some y => y.word = op5.word x.1 && s.issues y.p y.word
      | none => false) = true := by decide
theorem witness_VectorLaneInstructions_abort : (put [(F.IMG_RMODE_FAULT, 1, 3)] world).abortPolicy 3 = true ∧ world.abortPolicy 3 = false := by decide
theorem witness_VectorMasksAndReductions : ([0x10, 0x11, 0x12, 0x13, 0x14, 0x16, 0x17, 0x1A, 0x1E, 0x1F].all fun op =>
    (vector (op5.word op)).issues 0 (op5.word op)) = true := by decide
theorem witness_VectorScalarsQueueAndMemory : let e : FtqEntry := { task := { logno := 1 } }
    ([0, cWord 0x38 3 0, SOp.word 0x20 {}, SOp.word 0x21 {}, SOp.word 0x22 { imm := 65535 }, SOp.word 0x23 {}, TOp.word 0x2C {}, TOp.word 0x28 {}, TOp.word 0x29 {},
      TOp.word 0x2B {}, TOp.word 0x2A {}, MOp.word 0x30 { sa := 3 }, MOp.word 0x31 { sa := 3 }, cWord 0x3F 0 0].all fun w => (vector w [e]).issues 0 w) = true
    ∧ ((vector 0 [e]).tile 0).ftq[0]? = some e ∧ ((vector 0).tile 0).ftq[0]? = none
    ∧ ((vector 0).tile 0).vec.scalar 3 + 64 * 0 + 1024 ≤ 6 * 2 ^ 20 ∧ (((vector 0).tile 0).store.read 4096 1024).any Prod.snd = false
    ∧ (vector 0).localReady 0 = false ∧ ((vector 0).tile 0).proxIn 4096 1024 = false ∧ (vector (cWord 0x3F 0 0)).issuesOp 0 0x3F = true := by decide
/-- An engine of the tile has a transfer from the store into a slot of it ready. -/
def vectorAndStream (w : Nat) : State :=
  { vector w with tiles := [(0, { vec := vectorState w, engs := [(0, { run := .ready { logno := 1, blks := [{ base := { cls := 1 }, near := 1, ctrs := [{ lim := 4, str := 1 }], total := 4 }] } })] })] }
theorem witness_VectorScalarsQueueAndMemory_port : (vectorAndStream ((MOp.word 0x30 { sa := 3 }))).localReady 0 = true
    ∧ (vectorAndStream ((MOp.word 0x30 { sa := 3 }))).issues 0 (MOp.word 0x30 { sa := 3 }) = true
    ∧ ((vectorAndStream 0).tile 0).vec.portWait < 3 := by decide
theorem witness_VectorRoutinesAndQueue : let s : State := { vector 0 with tiles := [(0, { vec := { order := [{ logno := 1 }] } })] }
    (s.tile 0).vec.running = false ∧ (s.sheet 1).isSome = true ∧ s.get F.VEC_CTL_HALT 0 = 0 ∧ (s.tile 0).badLanes = [] := by decide
theorem witness_VectorRoutinesAndQueue_signals : let w := ({ imm := 100 } : TOp).word 0x39
    let s := vector w
    s.ioReached = true ∧ s.issuesOp 0 0x39 = true ∧ bits ((s.tile 0).vec.words.get 0 0).toNat 13 0 = 100 ∧ (vector (({ imm := 100 } : TOp).word 0x3A)).issuesOp 0 0x3A = true
    ∧ (s.livePart 1 0).map (·.replays) = some 0 ∧ (s.marked 1 0 (unitKey 0 8)).isSome = false ∧ s.ownSig 0 100 = true ∧ s.obOf 100 = none ∧ s.xbOf 100 = none := by decide
theorem witness_VectorRoutinesAndQueue_push : let b : Bank := { fin := true, expect := 128, task := { logno := 1 } }
    let s : State := { vector 0 with tiles := [(0, { banks := [(0, b)], finQ := [0] })] }
    (s.tile 0).copy = none ∧ (s.tile 0).finQ = [0] ∧ (s.tile 0).ftq.length < 8 ∧ s.routineOver 0 b.task = false := by decide
/-! ### Signals and barriers -/

theorem witness_SignalsAndOnChipBarriers : world.rigOfSig ((300 : Word).toNat % 2 ^ 14) = none ∧ (world.rigOfSig ((199 : Word).toNat % 2 ^ 14)).isSome = true
    ∧ world.obOf 199 = none ∧ world.xbOf 199 = none ∧ world.waiters.get [] 199 = [] ∧ ({ world with sigs := [(199, 65535)] } : State).sigs.get 0 199 = 65535
    ∧ (world.setReg F.SYN_OB_0_ARRS 100 0).obOk 0 = false := by decide
/-- On-chip barrier 0 of rig 3: tile 0 arrives at signal 100, three raises of signal 101 release it. -/
def barrier : State :=
  put [(F.SYN_OB_0_EN, 1, 0), (F.SYN_OB_0_ARRS, 100, 0), (F.SYN_OB_4_RELS, 101, 0), (F.SYN_OB_4_NREL, 3, 0), (F.SYN_OB_PM_PMASK, 1, 0), (F.SYN_OB_LM_LMASK, 1, 0)]
    { world with obArr := [(0, 1)] }
theorem witness_SignalsAndOnChipBarriers_phase : barrier.get F.SYN_OB_0_EN 0 = 1
    ∧ (List.range 80).filter (fun p => bit (barrier.get F.SYN_OB_PM_PMASK 0) p) = [0] ∧ 1 ≤ barrier.obArr.get 0 0 ∧ barrier.obOf 101 = none ∧ barrier.xbOf 101 = none
    ∧ barrier.sigs.get 0 101 + 3 ≤ 65535 := by decide
theorem witness_SignalsAndOnChipBarriers_enable : let s := barrier.setReg F.SYN_OB_0_EN 0 0
    s.get F.SYN_OB_0_EN 0 = 0 ∧ (0x80000064 : Word).toNat / 2 ^ 31 % 2 = 1 ∧ (s.setReg F.SYN_OB_0_ARRS ((0x80000064 : Word).toNat % 2 ^ 14) 0).obOk 0 = true
    ∧ barrier.get F.SYN_OB_0_ARRS 0 ≠ 0 := by decide
/-- Cross-device barrier 0 of rig 3 over group 5 of the identities 0 (this device) and 1. -/
def xbarrier : State :=
  put [(F.SYN_XB_0_EN, 1, 0), (F.SYN_XB_0_ARRS, 110, 0), (F.SYN_XB_0_GRP, 5, 0), (F.SYN_XB_4_RELS, 111, 0), (F.SYN_XB_8_NREL, 2, 0), (F.SYN_XB_8_TIMEOUT, 1, 0),
      (F.SYN_GRP_COUNT, 2, 5), (F.SYN_GRP_VALID, 1, 5)] { world with members := [(1, 1)] }
theorem witness_CrossDeviceBarriersAndGroups : (put [(F.SYN_GRP_COUNT, 2, 5), (F.SYN_GRP_VALID, 1, 5), (F.SYN_XB_4_RELS, 111, 0)] { world with members := [(1, 1)] }).get
      F.SYN_XB_0_EN 0 = 0 ∧ xbarrier.get F.SYN_XB_0_EN 0 = 1 ∧ xbarrier.get F.SYN_GRP_VALID 5 = 1
    ∧ xbarrier.members.get 0 0 < xbarrier.members.get 0 1 ∧ 4095 ≤ 4095 := by decide
theorem witness_CrossDeviceBarriersAndGroups_timeout : let s := put [(F.SYN_TIMER_NS, 1001, 0)] { xbarrier with xbars := [(0, { arrAt := [0] })] }
    s.get F.SYN_XB_8_TIMEOUT 0 ≠ 0 ∧ (s.xbar 0).timedOut = false ∧ 0 + 1000 * s.get F.SYN_XB_8_TIMEOUT 0 < s.now := by decide
/-- The same device with fabric port 0 up and a route to it. -/
def fabric (s : State) : State := put [(F.FAB_PSTAT_STATE, 3, 0), (F.FAB_RT_VALID, 1, 1)] { s with links := [(0, { train := 4, full := true })] }
theorem witness_CrossDeviceBarriersAndGroups_frames : let s := fabric xbarrier
    let f : Frame := { ftype := ftBAR, src := 1, arg := 5 * 2 ^ 16 }
    let g : Frame := { ftype := ftBAR, src := 1, arg := 2 ^ 28 + 6 * 2 ^ 16 }
    s.ioReached = true ∧ s.portUp 0 = true ∧ f.dst = s.myId ∧ s.xbNamed f = some 0 ∧ s.xbNamed g = none ∧ s.routed 1 = true ∧ (s.xbar 0).arr = 0 ∧ bit g.arg 28 = true := by decide
theorem witness_CrossDeviceBarriersAndGroups_release : let s : State := { fabric xbarrier with xbars := [(0, { arr := 1, sent := true })] }
    let f : Frame := { ftype := ftBAR, src := 1, arg := 2 ^ 28 + 5 * 2 ^ 16 }
    s.xbNamed f = some 0 ∧ f.arg / 2 ^ 32 % 2 ^ 32 = s.get F.SYN_XB_PH_PHASE 0 ∧ (s.xbar 0).sent = true ∧ (s.xbar 0).arr = 1 := by decide
theorem witness_CrossDeviceBarriersAndGroups_resend : let f : Frame := { ftype := ftBAR, dst := 1 }
    let s := put [(F.SYN_TIMER_NS, 10000, 0)] { xbarrier with xbars := [(0, { rej := [(0, f)] })] }
    let r := put [(F.FAB_RT_VALID, 1, 1)] s
    r.get F.SYN_XB_0_EN 0 = 1 ∧ (r.xbar 0).rej = [(0, f)] ∧ 0 + 10000 ≤ r.now ∧ r.routed f.dst = true ∧ r.portSends (r.portFor (r.route f.dst)) = false := by decide
theorem witness_CrossDeviceBarriersAndGroups_enable : let s := (xbarrier.setReg F.SYN_XB_0_EN 0 0).setReg F.SYN_XB_8_TIMEOUT 0 0
    let u := (s.setReg F.SYN_XB_0_ARRS ((0x8005006E : Word).toNat % 2 ^ 14) 0).setReg F.SYN_XB_0_GRP ((0x8005006E : Word).toNat / 2 ^ 16 % 2 ^ 12) 0
    s.get F.SYN_XB_0_EN 0 = 0 ∧ u.xbOk 0 = true ∧ (u.setReg F.SYN_XB_0_GRP 6 0).xbOk 0 = false := by decide
/-! ### Frames that arrive -/

def win (s : State) : State :=
  put [(F.FAB_WIN_0_EN, 1, 0), (F.FAB_WIN_0_KIND, 1, 0), (F.FAB_WIN_0_RIG, 3, 0), (F.FAB_WIN_1_GRP, 4095, 0), (F.FAB_WIN_1_LEN, 1, 0), (F.FAB_WIN_2_BASE, 64, 0),
      (F.SYN_RIG_RSGRP, 5, 3)] (fabric s)
def wr1 : Frame := { ftype := ftWR, src := 1, arg := 32, cnt := 1, payload := (List.range 64).map (BitVec.ofNat 8) }
theorem witness_FramesReceived : let s := win xbarrier
    let f : Frame := { wr1 with dst := 2 }
    let r := put [(F.FAB_RT_VALID, 1, 2), (F.FAB_RT_PRI, 1, 2)] s
    s.portUp 0 = true ∧ FMap.wf {} s.links = true ∧ FMap.wf {} s.tiles = true ∧ FMap.wf {} s.sendStreams = true
    ∧ ftDefined f.ftype = true ∧ f.ftype ≠ ftHELLO ∧ (r.passing.get {} f.stream).acked = (r.passing.get {} f.stream).seq ∧ (s.link 0).inbox = []
    ∧ ({ s with floors := [(5 * 2 ^ 32, 65536)] } : State).wrRoom wr1 = false ∧ wr1.src ≠ s.myId
    ∧ f.dst ≠ r.myId ∧ r.routed f.dst = true ∧ r.portSends (r.portFor (r.route f.dst)) = false ∧ wr1.dst = s.myId ∧ s.wrAllowed wr1 = true ∧ s.wrRoom wr1 = true
    ∧ s.wrAllowed { wr1 with arg := 65536 } = false ∧ s.routed 1 = true := by decide
/-- A WR and a SIG of one stream that wait to land. -/
def landing : State :=
  { win xbarrier with remoteWrs := [{ stream := streamId wr1, seq := 0, frame := wr1 }], wrCount := 1, streams := [streamId wr1] }
theorem witness_FramesReceived_land : let r : RemoteWr := { stream := streamId wr1, seq := 0, frame := wr1 }
    let f : Frame := { ftype := ftSIG, src := 1, arg := 150, cnt := 1 }
    covers f.cnt r.frame.cnt = true ∧ landing.waitingWrs = [] ∧ landing.rejWrs = [] ∧ r.frame.src ≠ landing.myId ∧ FMap.wf 0 (landing.tile 0).store.bytes = true ∧ r ∈ landing.remoteWrs ∧ landing.wrTurn r = true ∧ landing.wrTile wr1 = some 0 ∧ landing.heldSigs = [] ∧ r.stream = streamId f ∧ landing.overflow = []
    ∧ landing.rigOfSig (f.arg % 2 ^ 14) = some 3 ∧ landing.rigLive 3 = true ∧ landing.inGroup (landing.get F.SYN_RIG_RSGRP 3) 1 = true
    ∧ landing.obOf 150 = none ∧ landing.xbOf 150 = none ∧ (win xbarrier).remoteWrs = [] ∧ landing.rigOfSig 300 = none := by decide
/-- A stream engine that has sent two WRs of its stream to the device 1, and one transfer that waits for the second. -/
def sending : State :=
  let g : Gen := { xfers := [{ id := 1, write := true, base := { cls := 4, addr := 2 ^ 40 }, seq := 2 }, { id := 2, write := true, base := { cls := 4, addr := 2 ^ 40 }, seq := 3 }] }
  { win xbarrier with sendStreams := [(sendKey 1 0 0, { seq := 3 })], tiles := [(0, { engs := [(6, { run := .ready g })] })] }
theorem witness_FramesReceived_wack : let f : Frame := { ftype := ftWACK, src := 1, cnt := 2 }
    let st := sending.sendStreams.get {} (sendKey 1 0 0)
    f.dst = sending.myId ∧ st.acked ≤ st.seq ∧ st.seq < st.acked + 65536 ∧ (sending.gen? (sending.phys 0) 6).isSome = true
    ∧ FMap.wf {} (sending.tile (sending.phys 0)).engs = true := by decide
/-- The open take of rig 3 exchanges group 0 over the device group 5. -/
def exchanging : State :=
  { win xbarrier with rigs := [(3, { rig3 with take := { state := 2, num := 7, groups := [{ xgrp := 5, flags := 2 }] } })],
                      exchanges := [{ rig := 3, group := 0, members := [0, 1] }] }
theorem witness_FramesReceived_exchange : exchanging.exchNow 3 0 7 = true ∧ exchanging.exch? 3 0 = some { rig := 3, group := 0, members := [0, 1] }
    ∧ exchanging.exchNow 3 0 8 = false
    ∧ exchanging.exchLater { ftype := ftREADY, src := 1, stile := 3, arg := 8 } = true ∧ exchanging.colls = [] := by decide
theorem witness_FramesReceived_hello : ((fabric world).link 0).train = 4 ∧ (put [(F.SYN_TIMER_NS, 10000001, 0)] { world with heldSigs := [{}] }).now
    = 10000001 := by decide
/-! ### Links and buffers -/

/-- Buffer 0's port in training state `n`, with a tag of kind `k` outstanding. -/
def bufLink (n k : Nat) (addr : Nat := 1) : State :=
  { world with links := [(10, { train := n, tags := [(3, { kind := k, addr := addr })], credits := [(0, 4)], expSeq := 9, unacked := [{ seq := 4 }, { seq := 5 }, { seq := 6 }] })] }
theorem witness_LinksAndBuffers : FMap.wf {} (bufLink 4 1).links = true ∧ FMap.wf 0 ((bufLink 4 1).link 10).credits = true ∧ ((bufLink 4 1).link 10).train = 4
    ∧ ((bufLink 4 1).link 10).replays < 8 ∧ ((bufLink 4 1).link 10).unacked.findIdx? (·.seq = 5) = some 1 ∧ (world.link 10).train = 0
    ∧ ((bufLink 4 1).link 10).tags.lookup 3 = some { kind := 1, addr := 1 } ∧ FMap.wf {} ((bufLink 4 1).link 10).tags = true
    ∧ ((bufLink 4 1).link 10).freeTag = some 0 ∧ ((bufLink 4 1).link 10).waiting = [] ∧ ((bufLink 4 1).link 10).queue = []
    ∧ 1 ≤ ((bufLink 4 1).link 10).credits.get 0 0 ∧ ((bufLink 4 1).link 10).unacked.length < 128 ∧ (bufLink 4 1).ctlReset.contains 10 = false
    ∧ FMap.wf 0 ((bufLink 4 3).link 10).filled = true ∧ ((bufLink 4 1).link 10).tags.lookup 7 = none := by decide
/-- A read response for tag 3 without an error, and an ALERT; a flit of zeros carries its CRC, one of one set bit does not. -/
theorem witness_LinksAndBuffers_messages : let m : BufMsg := { bytes := [0x81, 3, 0, 0] ++ List.replicate 12 0 }
    let a : BufMsg := { bytes := 0x8F :: List.replicate 15 0 }
    m.opc = 0x81 ∧ m.tag = 3 ∧ m.status = 0 ∧ a.opc = 0x8F := by decide
theorem crc64_zeros (n : Nat) : crc64 (List.replicate n 0) = 0 := by
  unfold crc64
  induction n with
  | zero => rfl
  | succ n ih => rw [List.replicate_succ, List.foldl_cons, show crcByte 64 0x42F0E1EBA9EA3693 0 0 = 0 by decide]; exact ih
theorem witness_LinksAndBuffers_flits : (readFlit false (List.replicate 256 0)).crcOk = true ∧ (readFlit false (List.replicate 248 0 ++ [1, 0, 0, 0, 0, 0, 0, 0])).crcOk = false
    ∧ (readFlit true (List.replicate 256 0)).typ ≤ 1 ∧ (readFlit true (List.replicate 256 0)).nak = false := by
  refine ⟨?_, ?_, by decide, by decide⟩
  · simp only [readFlit, List.take_replicate, List.drop_replicate, crc64_zeros]
    decide
  · have h : List.take 248 (List.replicate 248 (0 : Byte) ++ [1, 0, 0, 0, 0, 0, 0, 0]) = List.replicate 248 0 := List.take_left' (by simp)
    have k : List.drop 248 (List.replicate 248 (0 : Byte) ++ [1, 0, 0, 0, 0, 0, 0, 0]) = [1, 0, 0, 0, 0, 0, 0, 0] := List.drop_left' (by simp)
    simp only [readFlit, h, k, crc64_zeros]
    decide
/-- Port 0 training with its lanes but one received. -/
def training : State := { world with links := [(0, { train := 1, rxok := [0, 1, 2, 3, 4, 5, 6] })] }
theorem witness_LinksAndBuffers_training : lanesOf 0 ≤ (training.link 0).rxok.length + 1 ∧ lanesOf 0 ≤ [0, 2, 3, 4, 5, 6, 7].length + 1
    ∧ (({ world with links := [(0, { train := 3 })] } : State).link 0).full = false ∧ ({ world with links := [(0, { train := 3 })] } : State).actQ = []
    ∧ (({ world with links := [(0, { train := 5, unacked := [{ seq := 3 }] })] } : State).link 0).train = 5 ∧ (training.link 0).tags = [] ∧ (training.link 0).waiting = [] ∧ training.actQ = []
    ∧ ({ rate := rateOf 0, preset := 0, best := 0, low := [7] } : TrainReport).rate = rateOf 0 := by decide
/-! ### The twin -/

/-- Tether port 0 up, a reserve of 4 GiB offered, the twin in state `n`. -/
def twin (n : Nat) : State :=
  put [(F.TWN_STAT_STATE, n, 0), (F.TWN_RSV_GIB, 4, 0), (F.TWN_RSV_TIER, 1, 0), (F.SYN_TIMER_NS, 1000000, 0)] { world with links := [(8, { train := 4 })] }
/-- The same, hosting a reserve that holds one printed page of space 60. -/
def hosting (frozen : Bool) : State := { twin 4 with reserve := some { printed := [(ringKey, { bytes := [(7, 9)] })], gib := 4, frozen := frozen } }
theorem witness_TwinPairing : ((twin 0).link 8).train = 4 ∧ (twin 0).twState = twUnpaired ∧ (twin 0).tether.helloOk = false
    ∧ (0x20 + 2 : Word).toNat / 2 ^ 18 % 4 ≠ 3 ∧ (2 : Word).toNat / 2 % 4 = 1 ∧ (0xC0000 : Word).toNat / 2 ^ 18 % 4 = 3 ∧ (4 : Word).toNat / 2 % 4 = 2
    ∧ (twin 2).twState = twPairing ∧ (twin 2).tether.accepted = false ∧ (twin 4).twState = twPaired ∧ (twin 5).twState = twLost ∧ (twin 0).reserve = none
    ∧ 4 ≤ (twin 0).get F.TWN_RSV_GIB ∧ (twin 0).get F.TWN_RSV_GIB < 5 ∧ (twin 3).twState = twBaseline
    ∧ (twin 3).tether.lastSent.get 0 8 + 100000 ≤ (twin 3).now ∧ (twin 3).tether.lastFrame + 1000000 ≤ (twin 3).now ∧ (twin 3).compls = []
    ∧ ((twin 3).link 8).credits = [] ∧ (hosting false).reserve.map (·.frozen) = some false := by decide
/-- Restoring to device 1: space 60 has a window. -/
def restoring (busy : Nat) : State :=
  put [(F.TWN_RMAP_VALID, 1, 60), (F.TWN_RSTAT_BUSY, busy, 0), (F.TWN_CTL_TKO, 1, 0)] (hosting true)
theorem witness_TwinRestoreAndTakeover : let d : Word := 0x10000003
    let d2 : Word := 0x20000001
    (restoring 0).ioReached = true ∧ d.toNat / 2 ^ 28 = 1 ∧ d.toNat % 2 = 1 ∧ d.toNat / 2 % 2 ^ 12 = 1 ∧ 1 ≠ (restoring 0).myId ∧ (restoring 0).get F.TWN_RSTAT_BUSY = 0
    ∧ (∀ r, (restoring 0).reserve = some r → r.frozen = true ∧ ∀ x ∈ r.settle.printed, (restoring 0).get F.TWN_RMAP_VALID (spaceOf x.1) ≠ 0)
    ∧ (∀ r, (hosting true).reserve = some r → ∃ x ∈ r.settle.printed, (hosting true).get F.TWN_RMAP_VALID (spaceOf x.1) = 0)
    ∧ d2.toNat / 2 ^ 28 = 2 ∧ d2.toNat % 2 = 1 ∧ FMap.wf {} (restoring 0).sendStreams = true := by
  refine ⟨by decide, by decide, by decide, by decide, by decide, by decide, ?_, ?_, by decide, by decide, by decide⟩
  · rintro r h; cases h; decide
  · rintro r h; cases h; decide
theorem witness_TwinRestoreAndTakeover_scalars : let s := restoring 0
    let d : Word := 0x00058019
    d.toNat % 2 = 1 ∧ s.get F.TWN_CTL_TKO = 1 ∧ (s.rig (d.toNat / 8 % 2 ^ 7)).exists_ = true ∧ (s.rig 3).take.state = 0 ∧ (s.rig 3).ran = false
    ∧ d.toNat / 2 ^ 10 % 2 ^ 6 = 32 ∧ world.get F.TWN_CTL_TKO = 0
    ∧ (let r : State := { s with tether := { restore := some 1 } }
       r.tether.restore = some 1 ∧ (r.sendStreams.get {} (sendKey 1 0x7F 2)).acked = (r.sendStreams.get {} (sendKey 1 0x7F 2)).seq) := by decide
/-! ### The memory tiers -/

/-- Space 61 is read-only; pages 0 to 3 of space 60 are: absent, in tier 0, in tier 3, without a frame; page 0 of space 61 is in tier 0. -/
def pageA : Nat := pageKey 60 1
def pageB : Nat := pageKey 60 2
def pageC : Nat := pageKey 61 0
def store0 : Content := { bytes := [(0, 17), (700, 3)] }
def memory (vpn : Nat := 0) : State :=
  put [(F.TIER_MCMD1_VPN, vpn, 0), (F.MEM_T0CFG_LIVE, 64, 0), (F.MEM_T0CFG_CHMIB, 1024, 0), (F.TIER_CFGNOW_LOWM, 15, 0), (F.IMG_DEV_HEATEPOCH, 1, 0)]
    { world with
      spaces := [(60, some { owner := 3 }), (61, some { owner := 3, ro := true })], t3 := [{ online := true, units := 1000 }],
      pages := [(pageA, some { zero := false, frame := 600000, len := 15, data := store0 }), (pageB, some { zero := false, tier := 3, len := 15, heat := 9, data := store0 }),
        (pageKey 60 3, some {}), (pageC, some { zero := false, frame := 600016, len := 15 })] }
def cmd60 : Word := BitVec.ofNat 32 (60 * 2 + 1)
def cmd61 : Word := BitVec.ofNat 32 (61 * 2 + 1)
theorem witness_MappingsAndSeals : let s := memory
    FMap.wf none s.pages = true ∧ s.space? (cmd60.toNat / 2 % 2 ^ 12) = some { owner := 3 } ∧ (s.space? (cmd61.toNat / 2 % 2 ^ 12)).map (·.ro) = some true
    ∧ s.get F.TIER_MSTAT_BUSY = 0 ∧ s.get F.TIER_MCMD1_NPAGE = 0 ∧ pageKey 60 (s.get F.TIER_MCMD1_VPN) = pageKey 60 0 ∧ s.page? (pageKey 60 0) = none
    ∧ s.mapRoom (pageKey 60 0) = true ∧ world.mapRoom (pageKey 60 0) = false ∧ s.moving pageA = false
    ∧ (s.page? pageC).map (fun p => (p.ro, p.neg, decide (s.negUnits p ≤ s.freeUnits 3))) = some (false, false, true)
    ∧ s.ioReached = true ∧ s.mcmd = none ∧ s.sealUnits pageC ≤ s.freeUnits 3 ∧ s.freeUnits 3 < 2000 ∧ s.inPlace 0 = true ∧ s.inPlace 2 = false ∧ s.space? 62 = none := by decide
theorem witness_MappingsAndSeals_busy : let s := { memory with moves := [{ page := pageA }] }
    let t := put [(F.TIER_MSTAT_BUSY, 1, 0)] { memory with mcmd := some { op := 3, space := 61, npage := 1, waiting := true } }
    s.moving pageA = true ∧ t.get F.TIER_MSTAT_BUSY = 1 ∧ t.page? (pageKey 61 0) = memory.page? pageC ∧ t.sealable (pageKey 61 0) = true
    ∧ t.sealUnits (pageKey 61 0) ≤ 16 := by decide
/-- No room in tier 3 for page C's negative; page A has updates to fold. -/
theorem witness_MappingsAndSeals_full : ({ memory with t3 := [] } : State).freeUnits 3 < ({ memory with t3 := [] } : State).sealUnits pageC
    ∧ (let s : State := { memory with ledgers := [(pageA, some {})], pages := [(pageA, some { zero := false, frame := 600000, len := 15, ldg := true, data := store0 })] }
       (s.page? pageA).map (fun p => (p.ldg, s.inPlace p.tier)) = some (true, true) ∧ s.ledgers.get none pageA = some {}) := by decide
theorem witness_PlacementAndMoves : let s := put [(F.TIER_EBYTE_COUNT, 2 ^ 30, 0)] memory
    s.get F.IMG_DEV_HEATEPOCH ≠ 0 ∧ s.get F.IMG_DEV_HEATEPOCH * 2 ^ 30 ≤ s.get F.TIER_EBYTE_COUNT ∧ FMap.wf none s.pages = true := by decide
theorem witness_PlacementAndMoves_sweep : let s := put [(F.MEM_T0CFG_LIVE, 2, 0)] memory
    let u : State := { s with sweeps := [(0, { pos := 600017 })] }
    s.belowMark 0 = true ∧ (s.nextFrame 0 0).map Prod.fst = some pageA ∧ (s.page? pageA).bind (s.descentTo 0) = some 3 ∧ u.nextFrame 0 600017 = none := by decide
theorem witness_PlacementAndMoves_start : let s := { memory with forcedQ := [pageB] }
    s.nextMove pageB = some { page := pageB, kind := .forced } ∧ s.moving pageB = false ∧ s.acts = [] ∧ s.actQ = []
    ∧ (s.page? pageB).map (fun p => decide (s.moveUnits p 0 = 16)) = some true ∧ s.frameFree 0 600032 16 = true ∧ s.frameOnline 0 600032 16 = true
    ∧ s.frameChosen 0 600032 = true ∧ 16 ≤ s.freeUnits 0 := by decide
/-- Page B on its way to tier 0, at line `n`. -/
def movingB (n : Nat) : State :=
  { memory with moves := [{ page := pageB, kind := .forced, mp := n, frame := 600032, asked := true, act := 4 }], acts := [{ id := 4, kind := 2 }] }
theorem witness_PlacementAndMoves_land : let s := movingB 2
    (s.moves.find? (·.page = pageB)).map (fun m => (m.mp, m.asked)) = some (2, true) ∧ s.lineOut pageB 2 = false ∧ s.negReads = [] ∧ s.wc = []
    ∧ (s.acts.any (·.id = 4)) = true ∧ s.homeGone pageB = false ∧ s.homeWaits 3 0 2 = false ∧ s.homeWaits 0 600032 2 = false
    ∧ ((s.moves.find? (·.page = pageB)).map s.unconfirmed) = some false ∧ (s.page? pageB).map (·.ldg) = some false ∧ s.frameChosen 0 700000 = true
    ∧ s.ledgers.get none pageB = none ∧ FMap.wf 0 store0.bytes = true ∧ FMap.wf false store0.pois = true
    ∧ (movingB 256).mcmd = none ∧ (movingB 256).actQ = [] ∧ s.frameFree 0 700000 16 = true ∧ s.frameOnline 0 700000 16 = true := by decide
/-- A full entry of the write-combining buffer for line 2 of page A. -/
def combined : State := { memory with wc := [{ page := pageA, line := 2, bytes := (List.range 256).map fun k => (k, some (BitVec.ofNat 8 k)) }] }
theorem witness_PlacementAndMoves_flush : (combined.wc[0]?).map (fun e => (e.which, e.page, FMap.wf none e.bytes)) = some (.current, pageA, true)
    ∧ combined.homeWaits 0 600000 2 = false ∧ (combined.page? pageA).map (·.tier) = some 0 ∧ ((combined.wc[0]?).map fun e => (List.range 256).all fun k => (e.bytes.get none k).isSome) = some true := by
  decide
/-! ### Takes -/

def group1 : Group := { space := 60, nelem := 64, rowlen := 64, maddr := 0x10000, eaddr := 0x20000, gaddr := 0x30000 }
/-- Masters of 1.0 and 2.0, gradient of 0.5 throughout page 3. -/
def taking (st : Nat) (gs : List Group := [group1]) : State :=
  put [(F.IMG_RSTC_GRAD, 1, 3), (F.IMG_RMODE_UPDATE, 1, 3), (F.IMG_RSTC_SATNF, 0, 3), (F.MEM_T0CFG_LIVE, 64, 0), (F.MEM_T0CFG_CHMIB, 1024, 0), (F.IMG_TXADR_SPACE, 60, 3), (F.IMG_TXADR_ADDR, 0x20000, 3)]
    { world with
      rigs := [(3, { rig3 with take := { state := st, num := 7, groups := gs, hyper := [0x3F800000, 0, 0x3F800000, 0], gc := [(0, 0x3F000000), (1, 0x3E800000)] } })],
      pages := [(pageKey 60 1, some { zero := false, frame := 600000, len := 15, data := { bytes := [(2, 0x80), (3, 0x3F), (7, 0x40)] } }),
        (pageKey 60 2, some { zero := false, frame := 600016, len := 15, data := { bytes := [(2, 0xC0), (3, 0x3F)] } }),
        (pageKey 60 3, some { zero := false, frame := 600032, len := 15, data := { bytes := [(3, 0x3F), (7, 0x3E)] } })] }
theorem witness_TakeStages_pack : let s := taking 3
    s.get F.IMG_RSTC_GRAD 3 = 1 ∧ s.unmapped (group1.grads ++ group1.errTerms) = false ∧ s.unmapped group1.grads = false
    ∧ s.stageBlocked 3 group1.grads [] = false ∧ FMap.wf 0 (s.rig 3).take.gc = true := by decide
/-- Group 1 exchanges over the device group 5, of which device 0 is the lead; this device is 1. -/
theorem witness_TakeStages_exchange : let s := put [(F.FAB_ID_ID, 1, 0), (F.SYN_GRP_COUNT, 2, 5), (F.SYN_GRP_VALID, 1, 5)] { taking 3 with members := [(1, 1)] }
    ({ group1 with flags := 2, xgrp := 5 } : Group).xch = true ∧ s.group? 5 = some [0, 1] ∧ s.myId = 1 ∧ s.early = [] ∧ s.exchanges = [] := by decide
theorem witness_TakeStages_apply : let s := taking 5
    let key := pageKey 60 1
    rangePages 60 0x10000 256 = [(key, 256)] ∧ (s.page? key).map (·.tier) = some 0 ∧ s.stageBlocked 3 [key] [key] = false ∧ s.stagedVer? key 3 = none ∧ s.wc = []
    ∧ (s.groupUpdates 3 (group1, 0)).length = 64 ∧ group1.wk = false := by decide
theorem witness_TakeStages_rest : let s := taking 6 []
    (s.rig 3).take.derived = none ∧ (s.rig 3).take.trainable = [] ∧ s.mirrorsPages = false ∧ (1 : Word).toNat % 2 = 1
    ∧ (let x : State := put [(F.SYN_TIMER_NS, 20000000, 0)] { s with exchanges := [{ rig := 3, members := [0, 1], started := true }] }
       (x.exch? 3 0).map (fun e => (e.started, e.masked, decide (e.members.head? = some x.myId))) = some (true, false, true)
       ∧ 0 + 1000 * x.get F.IMG_TSTRGN_TIME 3 ≤ x.now ∧ (x.rig 3).take.strag = 2) := by decide
/-- The take of rig 3 is judged to print; one version of page 1 is staged. -/
def printing (recorded : Bool) : State :=
  let s := taking 7
  { s with rigs := [(3, { rig3 with take := { (s.rig 3).take with recorded := recorded } })], staged := [{ page := pageKey 60 1, rig := 3, data := store0 }] }
theorem witness_TakeEnds : (printing false).printRecord 3 = none ∧ (printing false).mirrors = false ∧ (printing true).moves = [] ∧ (printing true).stagedLedgers = []
    ∧ (printing true).heldWaits (pageKey 60 1) = false ∧ (printing true).mcmd = none ∧ (printing true).compls = [] ∧ (taking 8).takeTasksOver 3 0 = true
    ∧ FMap.wf none (printing true).pages = true := by decide
/-- Rig 3 has no take; group 0 is not trained. -/
def exporting : State := taking 0 [{ group1 with kind := 0 }]
theorem witness_TakeEnds_export : let g : Group := { group1 with kind := 0 }
    exporting.txRange 3 64 true = some (60, 0x20000) ∧ exporting.txRange 3 64 false = some (60, 0x20000) ∧ exporting.unmapped g.masters = false
    ∧ exporting.ioReached = true ∧ exporting.txs = [] ∧ exporting.wc = [] ∧ exporting.ledgeredOf g.masters = [] ∧ (exporting.rig 3).take.groups[(0x10000 : Word).toNat / 2 ^ 16 % 2 ^ 12]? = none ∧ (exporting.rig 3).take.groups[(0 : Word).toNat / 2 ^ 16 % 2 ^ 12]? = some g
    ∧ g.masters = [keyOf 60 0x10000] ∧ exporting.moves = [] ∧ exporting.ledgers = [] ∧ exporting.outVers = [] := by decide
theorem witness_TakeEnds_ready : exporting.placeReadyAll (rangeSpan 60 0x20000 256) = true ∧ exporting.placeReadyAll [keyOf 60 0x10000] = true := by decide
theorem witness_TakeEnds_waits : let g : Group := { group1 with kind := 0 }
    let s : State := { exporting with moves := [{ page := keyOf 60 0x10000, dest := 1 }], txs := [{ rig := 3 }] }
    s.txBusy 3 = true ∧ (exporting.setReg F.IMG_TXADR_ADDR 0x20001 3).txRange 3 64 true = none ∧ (∃ m ∈ s.moves, m.page ∈ g.masters)
    ∧ s.txRange 3 64 true = some (60, 0x20000) ∧ s.unmapped g.masters = false := by decide
/-! ### Maintenance -/

/-- Channel 6 is spare; the arbiter has an activity of kind `k` for channel 5. -/
def channels (k : Nat := 9) (op : Nat := 0) (retire : Bool := false) : State :=
  let s := put [(F.MEM_CHMAP_ROLE, 1, 6)] { memory with chans := [(5, { op := op, dst := 6, retire := retire })], actCount := 1 }
  if k = 9 then s else { s with acts := [{ id := 0, kind := k, arg := 5, res := [5, 6] }] }
theorem witness_ChannelMaintenance : channels.sparesOf 0 = [6] ∧ (channels.setReg F.MEM_CHMAP_ROLE 0 6).sparesOf 0 = [] ∧ channels.get F.MEM_CHMAP_ROLE 5 = 0
    ∧ channels.get F.MEM_CHMAP_ROLE 6 ≠ 0 ∧ channels.get F.MEM_CHSTAT_BUSY = 0 ∧ (channels.chan 5).op = 0 ∧ channels.online = true
    ∧ (0x1000000B : Word).toNat / 2 ^ 28 % 16 = 1 ∧ (0x1000000B : Word).toNat / 2 % 256 = 5 ∧ ((channels 1 1).actFor 1 5).isSome = true
    ∧ ((channels 3 3).actFor 3 5).isSome = true ∧ channels.actFor 1 5 = none ∧ channels.actFor 3 5 = none ∧ (channels 1 1).actQ = [] ∧ ((channels 1 1).chan 5).dst ≠ 5
    ∧ channels.rigLive 3 = true := by decide
def scrubbing : State := put [(F.MEM_SCRB_RATIO, 1, 0), (F.MEM_SCRBNOW_RATIO, 1, 0)] { memory with scrubs := [(0, { traffic := 16 }), (1, { traffic := 40 })] }
theorem witness_MaintenanceUnits : let x : State := { scrubbing with acts := [{ kind := 0, res := scrubbing.scrubRes 0 0, arg := 1 }] }
    scrubbing.scrubDue 0 = true ∧ scrubbing.scrubDue 1 = true ∧ (scrubbing.setReg F.MEM_SCRB_RATIO 0 0).get F.MEM_SCRB_RATIO = 0 ∧ FMap.wf {} scrubbing.scrubs = true
    ∧ scrubbing.get F.MEM_SCRB_RATIO % 2 ^ F.MEM_SCRBNOW_RATIO.width ≠ 0 ∧ (scrubbing.scrubs.get {} 0).pos < scrubbing.scrubSpan 0 ∧ (scrubbing.scrubs.get {} 1).pos < scrubbing.scrubSpan 1
    ∧ scrubbing.actWaits 0 0 = false ∧ scrubbing.actFor 0 0 = none ∧ scrubbing.acts = [] ∧ x.actFor 0 0 = none ∧ x.actWaits 0 0 = false
    ∧ (x.acts.any ({ kind := 0, res := x.scrubRes 0 0, arg := 0 } : Act).bars) = true := by decide
theorem witness_MaintenanceUnits_arbiter : let s : State := { memory with acts := [{ id := 4, kind := 5 }, { id := 5, kind := 1 }], fwOp := some {} }
    (s.acts.find? (·.id = 4)).map (·.kind) = some 5 ∧ (s.acts.find? (·.id = 5)).map (·.kind) = some 1 ∧ s.acts.find? (·.id = 6) = none ∧ s.actQ = []
    ∧ s.ctlReset.contains 3 = false ∧ ({ s with ctlReset := [3] } : State).ctlReset.contains 3 = true := by decide
/-- Request 7 to the device at CXL port 0 is out for line 2 of page B; an engine's read waits for it. -/
def requests : State :=
  let g : Gen := { logno := 1, xfers := [{ id := 1, base := { cls := 0, space := 60, addr := 0x20200 }, len := 256 }] }
  { memory with portReqs := [{ id := 7, port := 18, page := pageB, line := 2 }], t2 := [{ port := 18, units := 64 }], tiles := [(0, { engs := [(0, { run := .ready g })] })] }
theorem witness_MaintenanceUnits_down : let s : State := { memory with t2 := [{ port := 19, base := 0, units := 64, online := true }], pages := [(pageB, some { zero := false, tier := 2, len := 15, frame := 48, data := store0 })] }
    (s.page? pageB).map (fun p => (p.tier, p.zero, p.ro)) = some (2, false, false) ∧ (s.t2[0]?).map (fun d => (d.port, d.base, d.online)) = some (18 + 1, 0, true)
    ∧ s.moves = [] ∧ FMap.wf none s.pages = true := by decide
theorem witness_MaintenanceUnits_requests : requests.portReqs.filter (fun q => q.id = 7) = [{ id := 7, port := 18, page := pageB, line := 2 }]
    ∧ (match (requests.eng 0 0).run with
      | .ready g => g.xfers.map fun x => !x.write && !x.arrived && x.lines.contains (vpnOf pageB * 256 + 2)
      | _ => []) = [true] := by decide
/-! ### Points, temperatures, counters, the flight log, spares -/

theorem witness_PointsRampsAndTemperatures : (0x102 : Word).toNat % 4 = 2 ∧ world.tripHold = false ∧ world.get F.PWR_VP_TRIPPED 3 = 0
    ∧ world.get F.PWR_VP_PTNOW 3 ≠ 2 - world.get F.PWR_VP_CAP 3 ∧ (world.setReg F.PWR_VP_PTNOW 2 3).get F.PWR_VP_PTNOW 3 = 2 - world.get F.PWR_VP_CAP 3
    ∧ world.ramping.contains 3 = false ∧ world.rampQ = [] ∧ world.get F.PWR_VP_PTNOW 17 = 1
    ∧ ({ world with rampQ := [{ island := 3 }] } : State).rampQ.head?.map (·.island) = some 3 ∧ world.ramping.length < 4 := by decide
/-- The island of tile 0 at 99 °C, 110 °C and 50 °C: above its limit, tripped, cool again. -/
theorem witness_PointsRampsAndTemperatures_thermal : world.get F.PWR_THERM_TLIM < 99 ∧ world.capHold.get 0 3 ≤ 1 ∧ world.ioReached = true ∧ FMap.wf 0 world.capHold = true
    ∧ world.get F.PWR_VP_POINT 3 < 4 ∧ (put [(F.PWR_VP_PTNOW, 1, 3), (F.PWR_VP_CAP, 1, 3)] world).get F.PWR_VP_CAP 3 ≠ 0 ∧ 50 + world.get F.PWR_THERM_HYST < world.get F.PWR_THERM_TLIM
    ∧ 3 ∈ world.rigsIn (islandOf 0) ∧ islandOf 0 < 16 ∧ world.rigLive 3 = true ∧ 1 < ({ world with capHold := [(3, 20)] } : State).capHold.get 0 3 := by decide
/-- A field that no entry of the register map names is at its reset value at every place. -/
theorem get_of_absent (s : State) (f : Field) (hf : f.id < 1024) (h : (s.regs.all fun e => e.1 % 1024 != f.id) = true) (j : Nat) : s.get f j = f.rst := by
  have key : ∀ l : List (Nat × Nat), (l.all fun e => e.1 % 1024 != f.id) = true → FMap.get 0 l (f.key j) = 0 := by
    intro l
    induction l with
    | nil => intro _; rfl
    | cons e l ih =>
      intro h
      simp only [List.all_cons, Bool.and_eq_true, bne_iff_ne] at h
      have : f.key j ≠ e.1 := by unfold Field.key; omega
      simpa [FMap.get, this] using ih h.2
  simp [State.get, key s.regs h]
/-- No trip and no cap anywhere. -/
theorem witness_PointsRampsAndTemperatures_all (j : Nat) : world.get F.PWR_VP_TRIPPED j = 0 ∧ world.get F.PWR_VP_CAP j = 0 :=
  ⟨get_of_absent world F.PWR_VP_TRIPPED (by decide) (by decide) j, get_of_absent world F.PWR_VP_CAP (by decide) (by decide) j⟩
theorem witness_CounterControls : FMap.wf false world.evStarted = true ∧ (world.setReg F.EVT_CTL_EN 1 5).get F.EVT_CTL_EN 5 ≠ 0
    ∧ world.ioReached = true ∧ world.get F.EVT_CTL_EN 5 = 0 ∧ (3 : Word).toNat % 2 = 1 := by decide
/-- Two commits ordered, the first under way; one journal record waits. -/
def committing : State :=
  { memory with acts := [{ id := 0, kind := 4, res := [500] }], actCount := 1, commits := [{ whole := true, cmd := true }, {}],
                flog := { waiting := [{ typ := 3 }], counters := [(714, 9)], resid := [(48, 2)] } }
theorem witness_FlightLogCommits : (committing.acts.find? (·.kind = 4)).isSome = true ∧ committing.actQ = [] ∧ FMap.wf {} committing.flog.slots = true
    ∧ FMap.wf none committing.flog.journal = true ∧ memory.acts.find? (·.kind = 4) = none ∧ memory.get F.EVT_FLSTAT_BUSY = 0 ∧ memory.ioReached = true ∧ committing.get F.EVT_FLSTAT_BUSY = 0
    ∧ (put [(F.EVT_FLSTAT_BUSY, 1, 0)] memory).get F.EVT_FLSTAT_BUSY ≠ 0
    ∧ (0x10000001 : Word).toNat / 2 ^ 28 = 1 ∧ FMap.wf {} memory.flog.hists = true ∧ (List.replicate 16 3).length = 16 := by decide
/-- Tile 1 has failed; tile 79 is held as a spare in group 0. -/
def failing (spare : Nat) : State :=
  put [(F.GLB_PMAP_STATE, spare, 79), (F.SYN_OB_PM_PMASK, 2, 0)]
    { world with tilesNeed := [1], tiles := [(1, { store := { bytes := [(5, 7)] }, perrs := [1, 2, 3] })] }
theorem witness_SparesBroughtIn : (failing 1).enabled 1 = true ∧ 1 = (failing 1).logical 1 ∧ (failing 1).tilesNeed.contains 1 = true ∧ (failing 1).spareFor 1 ≠ none
    ∧ (failing 1).partsOn 1 = [] ∧ (failing 1).rigOf 1 = some 3 ∧ ((failing 1).rig 3).take.state = 0 ∧ FMap.wf {} (failing 1).tiles = true
    ∧ world.mgmtFailed = [] ∧ ({ world with mgmtFailed := [2] } : State).mgmtFailed.contains 2 = true ∧ world.tilesNeed.contains 1 = false
    ∧ (failing 0).spareFor 1 = none ∧ ((failing 1).tile 1).engs = [] ∧ ({ world with mgmtFailed := [2] } : State).mgmtFailed ≠ [] ∧ ({ world with mgmtFailed := [2] } : State).mgmtFailed.contains 3 = false
    ∧ (world.rig 3).exists_ = true ∧ world.rigLive 3 = true := by decide
/-- No engine of the failing tile's device runs. -/
theorem witness_SparesBroughtIn_core : ∀ x ∈ (failing 1).tiles, ∀ e, (failing 1).gen? x.1 e = none := by
  intro x h e
  have : x.1 = 1 := by simpa [failing, put, each, State.setReg, world] using congrArg Prod.fst (List.mem_singleton.mp h)
  rw [this]
  rfl
/-! ### Keys, firmware, attestation, debug -/

theorem leBytes_leNat (l : List Byte) : leBytes l.length (leNat l) = l := by
  induction l with
  | nil => rfl
  | cons b l ih =>
    have h1 : BitVec.ofNat 8 (b.toNat + 256 * leNat l) = b := by
      apply BitVec.eq_of_toNat_eq
      simp [BitVec.toNat_ofNat, Nat.add_mod, b.isLt]
    have h2 : (b.toNat + 256 * leNat l) / 256 = leNat l := by have := b.isLt; omega
    simp [leBytes, leNat, h1, h2, ih]

/-- A record that enrols the first owner key, 57 bytes of 5, in slot 0 of a device without one. -/
def enrolRecord : List Byte := [0x4B, 0x45, 0x59, 1, 1, 0, 0xFF, 0] ++ State.reset.devDig ++ List.replicate 57 5 ++ List.replicate 127 0
/-- No key is enrolled, FWSVN is 0, the part is locked and not closed to debug; SEC_KREC holds `v`. -/
def keyFuses : FMap Nat := (List.range 57).map (fun i => (512 * 5 + i, 0)) ++ (List.range 4).flatMap (fun k => [(512 * (9 + k), 0), (512 * (9 + k) + 1, 0)])
  ++ (List.range 8).map (fun i => (512 * 13 + i, 0)) ++ [(512 * 14, 1), (512 * 15, 0)]
def keyState (v : Nat) : State :=
  { State.reset with fuses := keyFuses ++ keyFuses.map (fun e => (2 ^ 20 + e.1, e.2)),
                     regs := [(F.SEC_BOOT_STEP.key 0, 14)] ++ (if v = 0 then [] else [(F.SEC_KREC_BYTES.key 0, v)]), fwSvn := 3 }
theorem enrol_length : enrolRecord.length = 256 := by simp [enrolRecord, State.devDig, Config.shake256]
theorem keyState_get (v : Nat) : (keyState v).get F.SEC_KREC_BYTES = v := by
  unfold State.get keyState
  split <;> simp_all [FMap.get, F.SEC_KREC_BYTES, F.SEC_BOOT_STEP, Field.key]
theorem keyState_ok (v : Nat) : (keyState v).RegsOk ∧ (keyState v).ioReached = true := by
  unfold State.RegsOk State.ioReached State.linkReached State.ucieWaits State.flag State.get keyState
  by_cases h : v = 0
  · simp only [h, if_true, List.append_nil]
    exact ⟨by decide, by decide⟩
  · simp [h, FMap.get, FMap.wf, FMap.wfFrom, F.SEC_KREC_BYTES, F.SEC_BOOT_STEP, F.SEC_BOOT_FAIL, F.QUE_ULINK_U0STATE, F.QUE_ULINK_U1STATE, Field.key]
theorem keyState_wide (l : List Byte) (h : l.length = 256) : (keyState (leNat l)).wide F.SEC_KREC_BYTES = l := by
  unfold State.wide
  rw [keyState_get, show (F.SEC_KREC_BYTES.width + 7) / 8 = l.length by rw [h]; rfl]
  exact leBytes_leNat l
theorem keyErr_enrol (v : Nat) : (keyState v).keyErr enrolRecord = 0 := by
  have h : slice enrolRecord 8 64 = (keyState v).devDig := by rfl
  have ek : ∀ k, (keyState v).enrolled k = (keyState 0).enrolled k := fun _ => rfl
  have e : ((List.range 4).any fun k => (keyState v).enrolled k) = false := by simp only [ek]; decide
  have e0 : (keyState v).enrolled 0 = false := by rw [ek]; decide
  have r4 : enrolRecord[4]? = some 1 := by rfl
  have r5 : enrolRecord[5]? = some 0 := by rfl
  have r6 : enrolRecord[6]? = some 0xFF := by rfl
  have r7 : enrolRecord[7]? = some 0 := by rfl
  have s0 : slice enrolRecord 0 4 = [0x4B, 0x45, 0x59, 1] := by rfl
  have z1 : allZero (slice enrolRecord 129 7) = true := by rfl
  have z2 : allZero (slice enrolRecord 250 6) = true := by rfl
  have z3 : allZero (slice enrolRecord 136 114) = true := by rfl
  unfold State.keyErr
  rw [h, e]
  simp [r4, r5, r6, r7, s0, z1, z2, z3, e0]
theorem keyState_enrols (l : List Byte) (h : l.length = 256) (h4 : l[4]? = some 1) : (keyState (leNat l)).krecRevokes = false := by
  unfold State.krecRevokes
  rw [keyState_wide l h, h4]
  decide
theorem keyState_idle (v : Nat) : (keyState v).get F.SEC_KSTAT_BUSY = 0 := by
  unfold State.get keyState
  split <;> simp [FMap.get, F.SEC_KSTAT_BUSY, F.SEC_KREC_BYTES, F.SEC_BOOT_STEP, Field.key]
theorem witness_KeyCommands : (keyState (leNat enrolRecord)).krecRevokes = false ∧ (keyState (leNat enrolRecord)).get F.SEC_KSTAT_BUSY = 0
    ∧ (keyState (leNat enrolRecord)).keyErr ((keyState (leNat enrolRecord)).wide F.SEC_KREC_BYTES) = 0 := by
  refine ⟨keyState_enrols _ enrol_length rfl, keyState_idle _, ?_⟩
  rw [keyState_wide _ enrol_length]
  exact keyErr_enrol _
/-- A revocation under way in slot 0, and the fuses that an enrolment finds zero. -/
theorem witness_KeyCommands_program : let s : State := { keyState 0 with keyOp := some { slot := 0, key := List.replicate 57 5 } }
    s.keyOp = some { slot := 0, key := List.replicate 57 5 } ∧ (List.replicate 57 (5 : Byte)).length = 57 ∧ allZero (s.ownerKey 0) = true := by
  refine ⟨rfl, by rfl, by rfl⟩
/-- An empty staging area does not verify; SVN 3 is above the fuses' 0. That some image verifies, nothing in the model can show: the vendor key's
digest is a constant without a value (log entry 12). -/
theorem witness_FirmwareCommands : (keyState 0).get F.SEC_FWSTAT_BUSY = 0 ∧ (keyState 0).get F.IMG_STAT_STATE = 0 ∧ fwVerifies ((keyState 0).staging.bytesAt 0 0) = false
    ∧ (keyState 0).fuseSvn = 0 ∧ (keyState 0).fuseSvn < (keyState 0).fwSvn ∧ (keyState 0).fuseBytes fuFWSVN 8 = leBytes 8 (2 ^ (keyState 0).fuseSvn - 1)
    ∧ (let s : State := { keyState 0 with fwOp := some { copying := false }, acts := [{ kind := 5 }] }
       s.fwOp = some { copying := false } ∧ (s.acts.find? (·.kind = 5)).isSome = true ∧ FMap.wf none s.flashImg = true) := by
  refine ⟨by decide, by decide, by rfl, by rfl, by decide, by decide, by decide⟩
theorem witness_Attestation : (keyState 0).get F.SEC_ASTAT_BUSY = 0 ∧ (3 : Word).toNat % 2 = 1 ∧ ({ keyState 0 with report := some [1] } : State).report = some [1] := by
  decide
/-- A token of every scope for this device, up to its signature. -/
def tokenHead : List Byte := [0x44, 0x42, 0x47, 1, 15, 0xFF, 10, 0] ++ State.reset.devDig ++ List.replicate 64 0
/-- The token, signed by the vendor key with `sig`. -/
def token (sig : List Byte) : List Byte := tokenHead ++ (sig ++ List.replicate 6 0)
theorem tokenHead_length : tokenHead.length = 136 := by simp [tokenHead, State.devDig, Config.shake256]
/-- Given a signature that Ed448 accepts, the token opens a session; a token of nothing does not. -/
theorem witness_DebugSessions (sig : List Byte) (hl : sig.length = 114) (hs : signedBy (keyState 0).fwKey tokenHead sig = true) :
    (keyState 0).tokenOk (token sig) = true ∧ (keyState 0).tokenOk [] = false := by
  have t4 : (token sig)[4]? = some 15 := by rfl
  have t5 : (token sig)[5]? = some 0xFF := by rfl
  have s0 : slice (token sig) 0 4 = [0x44, 0x42, 0x47, 1] := by rfl
  have s1 : slice (token sig) 8 64 = (keyState 0).devDig := by rfl
  have s2 : slice (token sig) 72 64 = (keyState 0).wide F.SEC_DNONCE_BYTES := by rfl
  have s3 : (token sig).take 136 = tokenHead := by unfold token; exact List.take_left' tokenHead_length
  have s4 : slice (token sig) 136 114 = sig := by
    unfold slice token
    rw [List.drop_left' tokenHead_length]
    exact List.take_left' hl
  have s5 : slice (token sig) 250 6 = List.replicate 6 0 := by
    unfold slice token
    rw [← List.append_assoc, List.drop_left' (by simp [tokenHead_length, hl])]
    rfl
  have n : (keyState 0).session.isNone = true := rfl
  have k : (keyState 0).dbgKill = false := by rfl
  refine ⟨?_, by rfl⟩
  unfold State.tokenOk
  simp [t4, t5, s0, s1, s2, s3, s4, s5, n, k, hs]
  decide
theorem witness_DebugSessions_end : let s : State := { keyState 0 with session := some { scope := 15, life := 1 } }
    s.session.isSome = true ∧ (0 : Nat) + 1 * 10 ^ 9 ≤ (put [(F.SYN_TIMER_NS, 10 ^ 9, 0)] s).now ∧ s.now < 0 + 1 * 10 ^ 9 ∧ (2 : Word).toNat % 4 = 2
    ∧ (3 : Word).toNat % 2 = 1 := by decide
theorem witness_TestAccessPort : (keyState 0).dbgLock = true ∧ (keyState 0).session = none ∧ (keyState 0).scopeOpen 1 = false
    ∧ (let s : State := { memory with fuses := (keyState 0).fuses, session := some { scope := 15 } }
       s.scopeOpen 0 = true ∧ s.scopeOpen 1 = true ∧ s.scopeOpen 2 = true ∧ s.scopeOpen 3 = true ∧ (s.page? (keyOf 60 0x10000)).map (·.zero) = some false ∧ s.wc = []
       ∧ FMap.wf none s.pages = true ∧ FMap.wf 0 store0.bytes = true ∧ 0x10000 % 256 + 256 ≤ 256 ∧ FMap.wf {} s.tiles = true) := by decide
/-! ### The host window and the UCIe modules -/

/-- Aperture 1 shows space 60 from address 0 on. -/
def aperture1 : State := put [(F.QUE_AP_0_EN, 1, 1), (F.QUE_AP_0_SPACE, 60, 1), (F.QUE_AP_2_BASE, 0, 1), (F.QUE_ULINK_U0STATE, 3, 0), (F.QUE_ULINK_U1STATE, 1, 0)] { memory with rigs := [] }
theorem witness_HostWindow_page : let off := 2 ^ 36 + 65536 + 640
    aperture1.online = true ∧ aperture1.apertureOf off = some (pageA, 640) ∧ 640 % 64 = 0 ∧ FMap.wf none aperture1.pages = true ∧ aperture1.mirrorsPages = false
    ∧ (aperture1.page? pageA).map (fun p => [p.zero, p.cmp, p.ro, p.ldg]) = some [false, false, false, false] ∧ (aperture1.page? pageA).map (fun p => (p.tier, p.linePois)) = some (0, [])
    ∧ aperture1.moves = [] ∧ aperture1.wc = [] ∧ aperture1.outVers = [] ∧ aperture1.rigs = [] ∧ aperture1.acts = [] ∧ aperture1.ctlReset = [] ∧ aperture1.log = [] ∧ aperture1.get F.QUE_AP_0_WP (off / 2 ^ 36) = 0
    ∧ aperture1.apertureOf (2 ^ 37) = none := by decide
theorem witness_HostWindow_ucie : aperture1.ucieUp 0 = true ∧ aperture1.get (ulinkState 1) = 1 := by decide

/-! ### An image that removes rig 3 -/

def removal : Content :=
  { bytes := [(0, 0x41), (1, 0x5A), (2, 0x4C), (3, 1), (4, 1), (6, 2), (8, 0x0A), (9, 0x7D), (10, 0x18), (11, 0x0C), (12, 0x40), (13, 1),
      (32, 128), (36, 64), (80, 192), (84, 128), (128, 3)] }
def removing (st : Nat) : State := put [(F.IMG_STAT_STATE, st, 0)] { world with load := some { img := removal, enrolled := 1 } }
/-- Given that Ed448 accepts the image's signature, it passes rules 1 to 5; its structure passes the rest. -/
theorem witness_LoadStartAndCheck_passes (h : Config.ed448Verify (world.ownerKey 0) (imgDigestOf removal) (removal.bytesAt 192 114) = true) :
    (removing 1).check1 { img := removal, enrolled := 1 } = 0 ∧ (removing 2).check2 removal = 0 ∧ (removing 2).load = some { img := removal, enrolled := 1 } := by
  refine ⟨?_, by decide, rfl⟩
  have h1 : rule1 removal = true := by decide
  have h2 : rule2 removal = true := by decide
  have h3 : rule3 removal = true := by decide
  have h4 : rule4 removal 1 0 = true := by decide
  have h5 : rule5 removal ((removing 1).ownerKey (removal.u8 7)) = true := h
  simp [State.check1, h1, h2, h3, h4, h5]

/-! ### Modes and the signal region -/

theorem witness_RefusedModeValues : regAt 0x91190 = some (R.IMG_RLIVE, [F.IMG_RLIVE_LSGROW, F.IMG_RLIVE_STRAG], 3, 0) ∧ world.hidden R.IMG_RLIVE 3 = false ∧ world.ioReached = true
    ∧ regAt 0x9118C = some (R.IMG_RSTC, [F.IMG_RSTC_SEGLEN, F.IMG_RSTC_GRAD, F.IMG_RSTC_SATNF], 3, 0) ∧ world.hidden R.IMG_RSTC 3 = false
    ∧ (0x00410000 : Word).toNat / 2 ^ 16 % 128 ≠ 0 ∧ (0x00410000 : Word).toNat / 2 ^ 16 ≠ world.get F.IMG_RSTC_SEGLEN 3 ∧ world.rigState 3 ≠ rigStopped := by
  refine ⟨by rfl, by rfl, by decide, by rfl, by rfl, by decide, by decide, by decide⟩
theorem witness_SignalRegionWordLost : world.rigOfSig 100 = some 3 ∧ 100 / 4 = 25 ∧ world.rigOfSig 96 = none ∧ FMap.wf 0 world.sigs = true
    ∧ FMap.wf {} world.rigs = true ∧ world.rigState 3 = rigRunning := by decide
/-! ### Witnesses for what the statements assume of queues, engines, arrays and the rest -/

theorem witness_StepKeepsMemory : Memory.wf world = true ∧ ∃ t, step { world with pending := [.snoop 64] } = .next t := ⟨world_ok.2.2.2.2.2, _, rfl⟩
theorem witness_StartUp_waits : (put [(ulinkState 0, 1, 0)]).ucieWaits = true ∧ State.reset.fusesAgree = true ∧ world.ucieWaits = false
    ∧ ({ State.reset with fuses := [(9 * 512, 3), (2 ^ 20 + 9 * 512, 1)] } : State).fusesAgree = false := by
  refine ⟨by decide, by rfl, by decide, by rfl⟩
theorem witness_Doorbells_gone : let s : State := { world with sqs := [(4, some { sq4 with gone := true })], cqs := [(2, some { rig := 3, logsz := 8, written := 2, gone := true })] }
    s.ucieWaits = false ∧ sq4.gone = false ∧ (s.sq? 4).map (·.gone) = some true ∧ (s.cq? 2).map (·.gone) = some true ∧ s.compls = []
    ∧ (2 - 0 : Nat) < (255 + 2 ^ 8 - 0 % 2 ^ 8) % 2 ^ 8 ∧ (255 : Nat) < 2 ^ 8 ∧ (2 + 2 ^ 8 - 0 % 2 ^ 8) % 2 ^ 8 ≤ 2 - 0 := by decide
theorem witness_Interrupts_waits : (put [(ulinkState 0, 1, 0)] world).ucieWaits = true ∧ world.ucieWaits = false ∧ world.msixOpen.get false 12 = false
    ∧ ({ world with msixOpen := [(12, true)], msixPend := [(12, true)] } : State).msixOpen.get false 12 = true := by decide
theorem witness_DispatchServes_free : let s : State := { world with sheets := [sheet1] }
    s.moves = [] ∧ (s.rigs.all fun r => r.2.take.state ≠ 7) = true ∧ (s.pages.all fun x => (x.2.map (·.ldg)) != some true) = true := by decide
theorem witness_PartsAndOutputs_held : let v : Version := { page := ringKey, logno := 1 }
    let s : State := { world with sheets := [{ sheet1 with dispatched := true, parts := [{ done := true }] }], outVers := [v] }
    let r : LogRec := { logno := 2, kind := .read ringKey 0 }
    s.heldShort [ringKey] = false ∧ ({ s with log := [r], sheets := s.sheets ++ [{ logno := 2, dispatched := true, parts := [{}] }] } : State).heldShort [ringKey] = true
    ∧ ({ s with sheets := [{ sheet1 with dispatched := true, parts := [{ done := true }] }] } : State).outVers = [v] := by decide

/-! #### Stream engines -/

def dataKey : Nat := keyOf 60 0x5000000
/-- A page with a descriptor of the list `ws` and the list behind it. -/
def listPage (ws : List Nat) : Page :=
  { zero := false, data := ({} : Content).write 0 (leBytes 8 0x5000040 ++ leBytes 4 ws.length ++ leBytes 4 60 ++ leBytes 8 0x5000000
      ++ List.replicate 24 0 ++ leBytes 16 60 ++ ws.flatMap (leBytes 8)) }
def armD : Arm := { logno := 1, space := 60, addr := 0x5000000 }
def arming (ws : List Nat) (e : Eng) : State :=
  { engine {} with pages := [(dataKey, some (listPage ws))], tiles := [(0, { engs := [(0, e)] })],
                   sheets := [{ sheet1 with cs := { sheet1.cs with kind := 1 }, dispatched := true, parts := [{ lead := 0, tiles := [0], gens := 1 }] }] }
/-- What the arm's check finds: accepted (and of a size that is wrong), refused, or waiting. -/
def checkKind (s : State) : Nat := match (s.fetchArm 0 0 armD []).2 with
  | .got g => if (s.fetchArm 0 0 armD []).1.wrongSize 0 0 g then 2 else 1
  | .unusable => 3
  | .waits => 4
  | .negLost => 5
theorem witness_ArmsAndHalt_checks : checkKind (arming [encEnd] { run := .checking armD }) = 1 ∧ checkKind (arming [0] { run := .checking armD }) = 3
    ∧ checkKind { arming [encEnd] { run := .checking armD } with ctlReset := [23] } = 4
    ∧ checkKind (arming [encFmt 2 0, encEmit 0 1 3 0, encEnd] { run := .checking armD }) = 2
    ∧ ((arming [encEnd] { run := .checking armD }).sheet 1).map (·.status) = some none := by decide
theorem witness_ArmsAndHalt_shadowCheck : let s := arming [encEnd] { run := .ready { logno := 2 }, shd := .checking armD }
    checkKind s = 1 ∧ checkKind (arming [0] { run := .ready { logno := 2 }, shd := .checking armD }) = 3 ∧ (s.gen? 0 0).map (·.logno) = some 2
    ∧ (s.eng 0 0).held = [] ∧ s.get F.STRM_CTL_HALT (engKey 0 0) = 0 := by decide
/-- Four FP32 elements of the page of space 60 by its slot 0, or of a bank. -/
def slotBlk : Blk := { base := { space := 60, addr := 0x5000000 }, ctrs := [{ lim := 4, str := 1 }], total := 4, near := 1 }
def bankBlk : Blk := { slotBlk with near := 3, base := { cls := 1, addr := 4096 } }
/-- A write of sixteen bytes that stands in outbound staging. -/
def stagedXfer : Xfer :=
  { base := { space := 60, addr := 0x5000000 }, len := 16, cnt := 4, near := 1, write := true, staged := true, data := List.replicate 16 (0, false) }
/-- Engine 0 writes, engine 1 reads into a slot; the port is at slot `k`. -/
def writer (bs : List Blk) (xs : List Xfer := []) (tgt : Nat := 4) (other : List Blk := []) (k : Nat := 0) : State :=
  put [(F.STRM_CTL_TARGET, tgt, 0), (F.STRM_CTL_CLASS, 1, 0), (F.STRM_CTL_TARGET, 2, 1), (F.MEM_T0CFG_LIVE, 192, 0), (F.MEM_T0CFG_CHMIB, 128, 0)]
    { engine {} with pages := [(dataKey, some { zero := false })],
                     tiles := [(0, { portSlot := k, engs := [(0, { run := .ready { logno := 1, blks := bs, xfers := xs, nxfer := xs.length } }),
                       (1, { run := .ready { logno := 1, blks := other } })] })] }
def planKind (s : State) (e : Nat) (stage : Bool := false) : Nat := match s.plan 0 e [] stage with
  | .go _ => 1
  | .idle => 0
  | .waits _ _ => 2
  | .fault => 3
theorem witness_TransferIssue_slot : let s := writer [slotBlk]
    s.engClass 0 0 = 1 ∧ s.staged? 0 0 = none ∧ s.turn 0 0 = true ∧ planKind s 0 = 1 ∧ slotBlk.next < slotBlk.total ∧ slotBlk.conv = 0
    ∧ slotBlk.base.addr % (halfBytes slotBlk.esz / 2) = 0 ∧ (s.tile 0).store.pois = [] := by decide
theorem witness_TransferIssue_bank : let s := writer [bankBlk] [] 5
    s.engClass 0 0 = 1 ∧ s.staged? 0 0 = none ∧ s.turn 0 0 = true ∧ planKind s 0 = 1
    ∧ ((bankBytes (s.nmode ((s.rigOf 0).getD 0) false) false (s.tile 0) bankBlk bankBlk.run).1).any Prod.snd = false := by decide
theorem witness_TransferIssue_stage : let s := writer [slotBlk] [] 4 [slotBlk]
    s.engClass 0 0 = 1 ∧ s.staged? 0 0 = none ∧ s.turn 0 0 = false ∧ s.canStage 0 0 = true ∧ s.storeTurnOf 0 0 = true ∧ planKind s 0 true = 1 := by decide
theorem witness_TransferIssue_moves : let s := writer [] [stagedXfer]
    s.staged? 0 0 = some stagedXfer ∧ s.portReady 0 0 = true ∧ s.portTurnOf 0 0 = true ∧ s.xfer? 0 0 0 = some stagedXfer := by decide
theorem witness_TransferIssue_waits : let s := writer [slotBlk] [] 4 [slotBlk] 1
    planKind s 1 = 1 ∧ s.staged? 0 1 = none ∧ s.turn 0 1 = false ∧ s.canStage 0 1 = false ∧ planKind (writer [] [] 4 []) 0 = 0 := by decide
theorem witness_LocalTransfersComplete_near : let f : Xfer := { base := { cls := 1 }, len := 16, cnt := 4 }
    let s := engine { xfers := [f] }
    s.feedSizeOk 1 (s.engTarget 0 0) f.esz = true ∧ s.engTarget 0 0 = 0 ∧ f.staged = false ∧ ((s.tile 0).store.read 0 16).any Prod.snd = false
    ∧ (engine { xfers := [{ f with near := 3 }] }).gen? 0 0 = some { logno := 1, xfers := [{ f with near := 3 }] } ∧ FMap.wf {} (s.tile 0).banks = true := by decide
theorem witness_LocalTransfersComplete_range : let x : Xfer := { base := { space := 60, addr := 0x5000000 }, len := 16, cnt := 4, near := 1 }
    let s : State := { engine { xfers := [x] } with pages := [(dataKey, some { zero := false, data := { bytes := [(3, 7)] } })] }
    s.readVer 1 0 dataKey = .current ∧ (s.page? dataKey).map (fun p => (p.zero, p.ro)) = some (false, false) ∧ s.homeGone dataKey = false ∧ s.negReads = []
    ∧ s.rangeWaits dataKey .current 0 16 = false ∧ ((s.readPage dataKey .current 0 16 [] []).data).any Prod.snd = false := by decide
theorem witness_LocalTransfersComplete_lineOut (k n : Nat) :
    ({ engine {} with pages := [(dataKey, some { zero := false, data := { bytes := [(3, 7)] } })] } : State).lineOut k n = false := by
  unfold State.lineOut
  split
  · rename_i p hp
    have : p.tier = 0 := by
      simp only [State.page?, FMap.get] at hp
      split at hp
      · cases hp; rfl
      · cases hp
    simp [this]
  · rfl
theorem witness_LocalTransfersComplete_combine : let x : Xfer := { base := { space := 60, addr := 0x5000000 }, len := 16, cnt := 4, near := 1, write := true, data := List.replicate 16 (0, false) }
    ((writer [] [x]).wcTake 0 0 1 (((writer [] [x]).rigOf 0).getD 0) x).isSome = true ∧ (world.phys (2 ^ 23 / 2 ^ 23)) = 1 := by decide
theorem witness_ShotSignals_rsig : let s : State := fabric (atWord (encRsig 1 16383))
    let r : Xfer := { write := true, staged := true, base := { cls := 4 } }
    s.staged? 0 0 = none ∧ 1 ≠ s.myId ∧ bit (({} : SendStream).routeOf (s.route 1)) 31 = true ∧ bit (({} : SendStream).routeOf ((atWord 0).route 1)) 31 = false
    ∧ ((engine { xfers := [r] }).staged? 0 0).isSome = true ∧ (atWord (encRaise 300)).ownSig 0 300 = false := by decide

/-! #### Arrays -/

def task2 : ArrTask := { task1 with ref := { logno := 2 }, id := { space := 60, addr := 0x4010000 } }
/-- The array holds the block of task 2; task 1, whose rows have not come, is the oldest. -/
def passing (hm after : Nat) (l : List FeedElem := []) : State :=
  put [(F.TILE_ARR_CTL_HOLDMAX, hm, 0)] (array { list := [task1, task2], blk := some { id := task2.id }, after := after } l (List.replicate 128 { one with logno := 2 }))
theorem witness_ArrayTaskStartAndLoad_choice : let s := passing 4 0
    let a := s.freshArr (s.tile 0).arr
    a.names task1 = false ∧ a.names task2 = true ∧ a.select (s.get F.TILE_ARR_CTL_HOLDMAX 0) = 1 ∧ a.select 0 = 0 ∧ a.list = [task1, task2]
    ∧ (∃ f, s.geo 0 = some f ∧ s.taskReady f a task2 = true ∧ s.taskReady f a task1 = false) := by
  refine ⟨?_, ?_, ?_, ?_, ?_, _, rfl, ?_, ?_⟩ <;> decide
/-- Both tasks name no block and task 1's data have not come: with HOLDMAX 0 nothing starts. -/
theorem witness_ArrayTaskStartAndLoad_none : let s := passing 0 0
    ∃ f w, s.geo 0 = some f ∧ (s.freshArr (s.tile 0).arr).list[0]? = some w ∧ s.taskReady f (s.freshArr (s.tile 0).arr) w = false ∧ 0 ≤ w.passOver := by
  refine ⟨_, _, rfl, rfl, ?_, ?_⟩ <;> decide
/-- Task 1 is selected first by its age, and task 2, which names the loaded block, starts in its place. -/
theorem witness_ArrayTaskStartAndLoad_replace : let t : ArrTask := { task2 with passOver := 0 }
    let s := put [(F.TILE_ARR_CTL_HOLDMAX, 4, 0)] (array { list := [task2, { t with ref := { logno := 1 } }], blk := some { id := task2.id } } [] (List.replicate 128 one))
    let a := s.freshArr (s.tile 0).arr
    a.select 4 = 0 ∧ (∃ f, s.geo 0 = some f ∧ s.taskReady f a task2 = false ∧ s.taskReady f a { t with ref := { logno := 1 } } = true) := by
  refine ⟨?_, _, rfl, ?_, ?_⟩ <;> decide
theorem witness_ArrayBallastAndControls_after : ((passing 0 15).tile 0).arr.after ≠ 0 ∧ ((passing 0 0).tile 0).arr.after = 0 ∧ (put [(F.GLB_PMAP_LOGICAL, 5, 5)] world).rigOf 5 = none
    ∧ (put [(F.GLB_PMAP_LOGICAL, 5, 5)] world).enabled 5 = true := by decide
theorem witness_VectorMasksAndReductions_poison : let s := put [(F.IMG_RMODE_FAULT, 1, 3)] { vector 0 with tiles := [(0, { vec := { vectorState 0 with v := [(256, some { v := 0x3F800000, p := true })] } })] }
    let v := (s.tile 0).vec
    s.abortPolicy v.rig = true ∧ v.active 2 0 = true ∧ (v.lane 1 0).p = true ∧ (vector 0).abortPolicy (vectorState 0).rig = false := by decide
theorem witness_VectorRoutinesAndQueue_error : let s : State := vector 0
    (s.partRecs 1 0).any s.recLost = false ∧ (s.tile 0).dropOld.ftq.length < 8 := by decide

theorem witness_PlacementAndMoves_sent : let m : Move := { page := pageB, kind := .forced, mp := 256, sent := 256, frame := 600032, act := 4 }
    let s : State := { memory with moves := [m], acts := [{ id := 4, kind := 2 }] }
    let a : State := { s with moves := [{ m with sent := 3 }] }
    s.moves.find? (·.page = pageB) = some m ∧ 256 ≤ m.mp ∧ 256 ≤ m.sent ∧ s.ctlReset.contains moveCtl = false ∧ s.unconfirmed m = false ∧ s.mcmd = none ∧ s.actQ = []
    ∧ a.homeWaits 0 600032 3 = false ∧ (a.landWrite { m with sent := 3 } 3 (store0.read (256 * 3) 256)).isSome = true ∧ (a.acts.any (·.id = 4)) = true := by decide
theorem witness_LinksAndBuffers_again : (world.link 0).dead = false ∧ world.mayTrain 0 = true ∧ (put [(F.SEC_BOOT_STEP, 6, 0)]).mayTrain 0 = false
    ∧ ((bufLink 4 1).link 10).nextSeq < 4096
    ∧ (let r : FastReport := { ok := true, low := [3], lost := [5] }
       lanesOf 0 ≤ ((List.range (lanesOf 0)).filter fun k => !r.low.contains k).length + 1
         ∧ lanesOf 0 ≤ ((List.range (lanesOf 0)).filter fun k => !r.lost.contains k).length + 1)
    ∧ ((List.range (lanesOf 0)).filter fun k => !([3, 4] : List Nat).contains k).length + 1 < lanesOf 0 := by decide
theorem witness_TwinPairing_again : let x : LogRec := { seq := 3, kind := .sheet 0 0 }
    let s : State := { hosting false with reserve := some { gib := 4, lrecSeq := 3, pageSeq := 5 } }
    (s.reserve.map fun r => (r.frozen, decide (x.seq ≤ r.lrecSeq), decide (r.lrecSeq < x.seq + 1), decide (r.pageSeq < 6))) = some (false, true, true, true)
    ∧ x.kind.ofTake = false := by decide
/-- The open take of rig 3 packs or derives a group with working copies, under GRAD 0. -/
def deriving_ (st : Nat) : State :=
  let g : Group := { group1 with flags := 1, waddr := 0x20000 }
  put [(F.IMG_RSTC_GRAD, 0, 3)] (taking st [g])
theorem witness_TakeStages_packTerms : let s := put [(F.IMG_RSTC_GRAD, 0, 3)] (taking 3)
    let key := pageKey 60 2
    group1.kind = 1 ∧ group1.xch = false ∧ s.get F.IMG_RSTC_GRAD 3 ≠ 1 ∧ s.unmapped (group1.grads ++ group1.errTerms) = false
    ∧ s.stageBlocked 3 group1.grads group1.errTerms = false ∧ rangePages 60 0x20000 128 = [(key, 128)] ∧ (s.page? key).isSome = true
    ∧ s.stagedVer? key 3 = none ∧ s.wc = [] ∧ group1.nelem % 32 = 0
    ∧ (s.stageElems 3 60 0x30000 4 64).length = 64 ∧ (s.stageElems 3 60 0x20000 2 64).length = 64 := by decide
theorem witness_TakeStages_derive : let g : Group := { group1 with flags := 1, waddr := 0x20000 }
    let s := deriving_ 6
    let key := pageKey 60 2
    (s.rig 3).take.state = 6 ∧ (s.rig 3).take.derived = none ∧ (s.rig 3).take.groups = [g] ∧ g.kind = 1 ∧ g.wk = true ∧ s.unmapped (g.masters ++ g.works) = false
    ∧ s.stageBlocked 3 g.masters g.works = false ∧ rangePages 60 0x20000 256 = [(key, 256)] ∧ (s.page? key).isSome = true ∧ s.stagedVer? key 3 = none
    ∧ s.wc = [] ∧ s.mirrorsPages = false := by decide
theorem witness_TakeEnds_held : let l : LogRec := { logno := 2, kind := .read (pageKey 60 1) 0 }
    let s : State := { printing true with log := [l], sheets := [{ logno := 2, dispatched := true, parts := [{}] }] }
    let full := put [(F.MEM_T0CFG_LIVE, 0, 0)] s
    (printing true).heldShort [pageKey 60 1] = false ∧ full.heldShort [pageKey 60 1] = true ∧ full.moves = [] ∧ full.stagedLedgers = []
    ∧ (printing true).rigAway 3 = false ∧ world.rigAway 3 = false := by decide
theorem witness_MaintenanceUnits_firmware (img : List Byte) (h : fwVerifies img = true) : let s : State := { keyState 0 with fwOp := some { img := img }, acts := [{ id := 4, kind := 5 }] }
    s.acts.find? (·.id = 4) = some { id := 4, kind := 5 } ∧ s.actQ = [] ∧ s.fwOp = some { img := img, copying := true } ∧ fwVerifies img = true
    ∧ s.fuseSvn ≤ fwSvnOf img ∧ fwVerifies [] = false := by
  refine ⟨rfl, rfl, rfl, h, ?_, by rfl⟩
  exact Nat.le_trans (Nat.le_of_eq (by rfl : (keyState 0).fuseSvn = 0)) (Nat.zero_le _)
theorem witness_MaintenanceUnits_controllers : memory.ctlReset.contains moveCtl = false ∧ ({ memory with ctlReset := [moveCtl] } : State).ctlReset.contains moveCtl = true
    ∧ FMap.wf 0 memory.flog.counters = true ∧ world.get F.MEM_BSTAT_STATE 3 ≠ 2 := by decide
/-- No engine of a device without tiles reads. -/
theorem witness_MaintenanceUnits_quiet (p e : Nat) (g : Gen) : memory.gen? p e = some g → ∀ x ∈ g.xfers, x.write = true ∨ x.arrived = true := by
  intro h; cases h
theorem witness_PointsRampsAndTemperatures_driven : FMap.wf 1 world.driven = true ∧ FMap.wf 800000 world.vtarget = true
    ∧ ({ world with ramping := [3] } : State).ramping.contains 3 = true ∧ ({ world with driven := [(3, 2)] } : State).driven.get 1 3 = 2 := by decide
theorem witness_FlightLogCommits_failed : (committing.commits.head?.map (·.whole)) = some true ∧ (2 ∉ ([1] : List Nat)) ∧ (1 ∈ ([1] : List Nat))
    ∧ committing.flog.committed 1 ≠ committing.regionNow 1 ∧ committing.flog.waiting = [{ typ := 3 }] := by decide
/-- CDATA of device 1 for a collective of group 5 that this device has not started. -/
def cdataF : Frame := { ftype := ftCDATA, src := 1, arg := 1 }
theorem witness_FramesReceived_cdata : let s := fabric xbarrier
    cdataF.dst = s.myId ∧ s.colls = [] ∧ cdataF.seng / 2 % 2 = 0 ∧ s.groupsWith cdataF ≠ [] ∧ s.collToCome cdataF = true ∧ s.routed 1 = true ∧ cdataF.src ≠ s.myId
    ∧ s.earlyHeld cdataF + 0 ≤ s.floor 5 0 6 ∧ ¬ (s.earlyHeld cdataF + 1 ≤ s.floor 5 0 6) ∧ s.groupsWith { cdataF with src := 9 } = []
    ∧ ({ s with collCount := [(s.collKey 5 0 6, 1)] } : State).collToCome cdataF = false := by decide
/-- A ring reduction of three members in progress, and the frame that the member before this device sends first. -/
def ring3 : Coll := { eng := 6, logno := 1, collid := 1, grp := 5, members := [0, 1, 2], incl := [0, 1, 2], nblk := 128 }
theorem witness_FramesReceived_ring : let s : State := put [(F.SYN_GRP_COUNT, 3, 5), (F.FAB_RT_VALID, 1, 2)] { fabric xbarrier with colls := [ring3], members := [(1, 1), (2, 2)] }
    let f : Frame := { ftype := ftCDATA, src := 2, arg := 1, ofs := 160, payload := List.replicate (blkBytes 0) 0 }
    f.dst = s.myId ∧ s.colls.find? (fun c => s.collOf f (f.arg % 2 ^ 32) c && c.members.contains f.src) = some ring3 ∧ ring3.rig = none
    ∧ s.cdataDue ring3 0 0 = some (2, 5, 10) ∧ (State.cdataBlocks ring3 f).map (fun l => l.map Prod.fst) = some [5] ∧ 0 + 2 < ring3.incl.length
    ∧ bit (({} : SendStream).routeOf (s.route (nextIn ring3.incl (s.myPos ring3.incl)))) 31 = true ∧ s.routed 2 = true
    ∧ State.cdataBlocks ring3 { f with ofs := 5 } = none := by decide

end Sys2Proof.Tests
end

section
/-! ## What every function of the model keeps

The register file is written through `setReg` (reset and a map that is restored apart), the fuses through `burn` alone, and no command
touches the queue. So one relation between the state before and the state that has been worked out so far, `Follows s₀ s`, holds along
every chain of updates: each function of the model gets one lemma, in the order of the model's files, which says that its result follows
`s₀` when its argument does. The proof of a function's lemma is then the chain of the functions that it calls. -/

namespace Sys2Proof.Machine

/-- `s` has come from `s₀` with the queue as it was, with no fuse cleared, and with the register file canonical where it was. -/
structure Follows (s₀ s : State) : Prop where
  pending : s.pending = s₀.pending
  fuses : ∀ which i b, (s₀.fuse which i).testBit b = true → (s.fuse which i).testBit b = true
  regsOk : s₀.RegsOk → s.RegsOk

/-- A meaning has answered with a next state, and that state follows `s₀`. -/
def Completes (s₀ : State) (r : Result) : Prop := ∃ t, r = .next t ∧ Follows s₀ t

variable {s₀ s t : State}

theorem Follows.refl (s : State) : Follows s s := ⟨rfl, fun _ _ _ hb => hb, id⟩

theorem Follows.of_same (hs : Follows s₀ s) (hp : t.pending = s.pending) (hf : t.fuses = s.fuses) (hr : t.regs = s.regs) :
    Follows s₀ t := by
  obtain ⟨h1, h2, h3⟩ := hs
  refine ⟨hp.trans h1, fun which i b hb => ?_, fun h0 => ?_⟩
  · have := h2 which i b hb
    simpa only [State.fuse, State.fuseCopy, hf] using this
  · have := h3 h0
    simpa only [State.RegsOk, hr] using this

/-- An update of any other fields than the queue, the register file and the fuses. -/
theorem Follows.upd (hs : Follows s₀ s) {
    fresh out latch smbAddr tapIr porst resetHeld srSeed strapHsp strapAsel tiles rigs sheets compls sqs cqs msixOpen msixPend msixTab
    queJob spaces pages staged outVers heldVers ledgers stagedLedgers wc bufReqs ascentQ forcedQ descentQ moves mcmd txs heldQ chunkBad
    negReads sigs waiters obArr xbars members streams overflow rejWrs passing wrCount remoteWrs heldSigs sendStreams colls exchanges early
    collCount evStarted floors links t2 t3 portReqs reqCount chans acts actQ actCount scrubs sweeps t3wEpoch ctlReset online log logSeq
    tilesNeed mgmtFailed tether reserve ramping rampQ capHold driven vtarget volts beatFrac tmaxNext tripHold keyOp fwOp flashImg preferred
    fwKey fwId fwSvn fwDigest report reports imgDigest chain imgLoads imgSlot session everOpen flog commits staging load : _} :
    Follows s₀ ⟨
      s.pending, fresh, out, s.regs, latch, smbAddr, tapIr, porst, resetHeld, s.fuses, srSeed, strapHsp, strapAsel, tiles, rigs, sheets,
      compls, sqs, cqs, msixOpen, msixPend, msixTab, queJob, spaces, pages, staged, outVers, heldVers, ledgers, stagedLedgers, wc, bufReqs,
      ascentQ, forcedQ, descentQ, moves, mcmd, txs, heldQ, chunkBad, negReads, sigs, waiters, obArr, xbars, members, streams, overflow,
      rejWrs, passing, wrCount, remoteWrs, heldSigs, sendStreams, colls, exchanges, early, collCount, evStarted, floors, links, t2, t3,
      portReqs, reqCount, chans, acts, actQ, actCount, scrubs, sweeps, t3wEpoch, ctlReset, online, log, logSeq, tilesNeed, mgmtFailed,
      tether, reserve, ramping, rampQ, capHold, driven, vtarget, volts, beatFrac, tmaxNext, tripHold, keyOp, fwOp, flashImg, preferred,
      fwKey, fwId, fwSvn, fwDigest, report, reports, imgDigest, chain, imgLoads, imgSlot, session, everOpen, flog, commits, staging, load⟩ :=
  hs.of_same rfl rfl rfl

theorem Follows.ite {c : Prop} [Decidable c] {a b : State} (ha : Follows s₀ a) (hb : Follows s₀ b) :
    Follows s₀ (if c then a else b) := by
  split
  · exact ha
  · exact hb

theorem Follows.iteFst {α : Type} {c : Prop} [Decidable c] {a b : State × α} (ha : Follows s₀ a.1) (hb : Follows s₀ b.1) :
    Follows s₀ (if c then a else b).1 := by
  split
  · exact ha
  · exact hb

theorem Follows.iteSnd {α : Type} {c : Prop} [Decidable c] {a b : α × State} (ha : Follows s₀ a.2) (hb : Follows s₀ b.2) :
    Follows s₀ (if c then a else b).2 := by
  split
  · exact ha
  · exact hb

theorem Follows.pair {α : Type} {x : α} (hs : Follows s₀ s) : Follows s₀ (s, x).1 := hs

theorem Follows.pairSnd {α : Type} {x : α} (hs : Follows s₀ s) : Follows s₀ (x, s).2 := hs

theorem Follows.next (hs : Follows s₀ s) : Completes s₀ (.next s) := ⟨s, rfl, hs⟩

theorem Completes.ite {c : Prop} [Decidable c] {a b : Result} (ha : Completes s₀ a) (hb : Completes s₀ b) :
    Completes s₀ (if c then a else b) := by
  split
  · exact ha
  · exact hb

theorem Follows.when (hs : Follows s₀ s) {c : Bool} {f : State → State} (hf : ∀ t, Follows s₀ t → Follows s₀ (f t)) :
    Follows s₀ (when c f s) :=
  when_ind _ c f s hs (hf s)

theorem Follows.each {α : Type} (hs : Follows s₀ s) {l : List α} {f : State → α → State}
    (hf : ∀ t a, Follows s₀ t → Follows s₀ (f t a)) : Follows s₀ (each l f s) :=
  each_ind _ l f s hs fun t a _ => hf t a

theorem Follows.getD (hs : Follows s₀ s) {o : Option State} (ho : ∀ t, o = some t → Follows s₀ t) :
    Follows s₀ (o.getD s) := by
  cases o with
  | none => exact hs
  | some t => exact ho t rfl

/-- The state that a read leaves beside what it reads follows `s₀`. -/
def Reads {α : Type} (s₀ : State) (r : State × α) : Prop := Follows s₀ r.1

theorem Follows.reads {α : Type} {x : α} (hs : Follows s₀ s) : Reads s₀ (s, x) := hs

theorem Reads.ite {α : Type} {c : Prop} [Decidable c] {a b : State × α} (ha : Reads s₀ a) (hb : Reads s₀ b) :
    Reads s₀ (if c then a else b) := by
  split
  · exact ha
  · exact hb

/-! ### The functions of `Machine/Ops` -/

theorem Follows.gated (hs : Follows s₀ s) {c : Bool} {f : State → State} (hf : ∀ t, Follows s₀ t → Follows s₀ (f t)) :
    Completes s₀ (gated c f s) :=
  (Follows.ite (hf _ hs) hs).next

theorem Follows.setReg (hs : Follows s₀ s) {f : Field} {v i : Nat} : Follows s₀ (s.setReg f v i) :=
  ⟨hs.pending, hs.fuses, fun h0 => s.setReg_regsOk f v i (hs.regsOk h0)⟩

theorem Follows.raiseFlag (hs : Follows s₀ s) {f : Field} {i : Nat} : Follows s₀ (s.raiseFlag f i) :=
  hs.setReg

theorem Follows.orReg (hs : Follows s₀ s) {f : Field} {b i : Nat} : Follows s₀ (s.orReg f b i) :=
  hs.setReg

theorem Follows.bump (hs : Follows s₀ s) {f : Field} {n i : Nat} : Follows s₀ (s.bump f n i) :=
  hs.setReg

theorem Follows.modTile (hs : Follows s₀ s) {p : Nat} {f : Tile → Tile} : Follows s₀ (s.modTile p f) :=
  hs.upd

theorem Follows.modRig (hs : Follows s₀ s) {n : Nat} {f : Rig → Rig} : Follows s₀ (s.modRig n f) :=
  hs.upd

theorem Follows.modTake (hs : Follows s₀ s) {n : Nat} {f : Take → Take} : Follows s₀ (s.modTake n f) :=
  hs.modRig

theorem Follows.modBank (hs : Follows s₀ s) {p b : Nat} {f : Bank → Bank} : Follows s₀ (s.modBank p b f) :=
  hs.modTile

theorem Follows.modVec (hs : Follows s₀ s) {p : Nat} {f : Vec → Vec} : Follows s₀ (s.modVec p f) :=
  hs.modTile

theorem Follows.modArr (hs : Follows s₀ s) {p : Nat} {f : Arr → Arr} : Follows s₀ (s.modArr p f) :=
  hs.modTile

theorem Follows.modEng (hs : Follows s₀ s) {p e : Nat} {f : Eng → Eng} : Follows s₀ (s.modEng p e f) :=
  hs.modTile

theorem Follows.emit (hs : Follows s₀ s) {o : Out} : Follows s₀ (s.emit o) :=
  hs.upd

theorem Follows.traffic (hs : Follows s₀ s) {mem lines : Nat} : Follows s₀ (s.traffic mem lines) :=
  hs.upd

theorem Follows.spend (hs : Follows s₀ s) : Follows s₀ s.spend :=
  hs.upd

theorem Follows.countOffer (hs : Follows s₀ s) {code inc : Nat} {a : EvAttr} {c : Nat} :
    Follows s₀ (s.countOffer code inc a c) :=
  .ite (hs.setReg.when fun _ ht => ht.raiseFlag) hs

theorem Follows.offer (hs : Follows s₀ s) {code : Nat} {a : EvAttr} {inc : Nat} : Follows s₀ (s.offer code a inc) :=
  hs.each fun _ _ ht => ht.countOffer

theorem Follows.offerTileOnly (hs : Follows s₀ s) {code p : Nat} : Follows s₀ (s.offerTileOnly code p) :=
  hs.offer

theorem Follows.offerTile (hs : Follows s₀ s) {code p inc : Nat} : Follows s₀ (s.offerTile code p inc) :=
  hs.offer

theorem Follows.observeRaise (hs : Follows s₀ s) {sig : Nat} : Follows s₀ (s.observeRaise sig) :=
  hs.each fun _ _ ht => .ite (.ite (.ite ht.upd ht) (.ite ht.upd (.ite ht.upd ht))) ht

theorem Follows.recNonfin (hs : Follows s₀ s) {n : Nat} : Follows s₀ (s.recNonfin n) :=
  hs.modTake

theorem Follows.recSat (hs : Follows s₀ s) {n : Nat} : Follows s₀ (s.recSat n) :=
  hs.modTake

theorem Follows.recPois (hs : Follows s₀ s) {n : Nat} : Follows s₀ (s.recPois n) :=
  hs.modTake

theorem Follows.recProx (hs : Follows s₀ s) {n : Nat} : Follows s₀ (s.recProx n) :=
  hs.modTake

theorem Follows.recAbort (hs : Follows s₀ s) {n : Nat} : Follows s₀ (s.recAbort n) :=
  hs.modTake

theorem Follows.modSheet (hs : Follows s₀ s) {logno : Nat} {f : Sheet → Sheet} : Follows s₀ (s.modSheet logno f) :=
  hs.upd

theorem Follows.recOf (hs : Follows s₀ s) {logno : Nat} {f : State → Nat → State}
    (hf : ∀ t a, Follows s₀ t → Follows s₀ (f t a)) : Follows s₀ (s.recOf logno f) := by
  unfold State.recOf
  split
  · exact hf _ _ hs
  · exact hs

theorem Follows.markProx (hs : Follows s₀ s) {logno : Nat} : Follows s₀ (s.markProx logno) :=
  hs.modSheet.recOf fun _ _ ht => ht.recProx

theorem Follows.markPois (hs : Follows s₀ s) {logno : Nat} : Follows s₀ (s.markPois logno) :=
  hs.modSheet

theorem Follows.modPart (hs : Follows s₀ s) {logno lead : Nat} {f : Part → Part} : Follows s₀ (s.modPart logno lead f) :=
  hs.modSheet

/-! ### The functions of `Machine/Net` -/

theorem Follows.modLink (hs : Follows s₀ s) {p : Nat} {f : Link → Link} : Follows s₀ (s.modLink p f) :=
  hs.upd

theorem Follows.pump (hs : Follows s₀ s) {p : Nat} : Follows s₀ (s.pump p) :=
  .ite ((hs.modLink.each fun _ _ ht => ht.emit).each fun _ _ ht => ht.emit) hs

theorem Follows.giveCredits (hs : Follows s₀ s) {p cls n : Nat} : Follows s₀ (s.giveCredits p cls n) :=
  .ite hs.emit hs

theorem Follows.advertise (hs : Follows s₀ s) {p : Nat} : Follows s₀ (s.advertise p) :=
  hs.each fun _ _ ht => ht.giveCredits.giveCredits.giveCredits

theorem Follows.tookFrame (hs : Follows s₀ s) {p : Nat} {f : Frame} : Follows s₀ (s.tookFrame p f) :=
  hs.giveCredits

theorem Follows.sendSets (hs : Follows s₀ s) {port typ : Nat} {logical : Nat → Nat} :
    Follows s₀ (s.sendSets port typ logical) := by
  unfold State.sendSets
  exact hs.each fun _ _ ht => ht.emit

theorem Follows.enqueue (hs : Follows s₀ s) {p : Nat} {transit : Bool} {f : Frame} : Follows s₀ (s.enqueue p transit f) :=
  hs.modLink.pump

theorem Follows.dropUnsent (hs : Follows s₀ s) {logno : Nat} : Follows s₀ (s.dropUnsent logno) := by
  unfold State.dropUnsent
  exact (hs.each fun _ _ ht => ht.modLink).each fun _ _ ht => ht.upd

theorem Follows.sendVia (hs : Follows s₀ s) {p rt : Nat} {f : Frame} {transit : Bool} :
    Follows s₀ (s.sendVia p rt f transit) :=
  hs.enqueue

theorem Follows.reroute (hs : Follows s₀ s) {p : Nat} : Follows s₀ (s.reroute p) := by
  unfold State.reroute
  exact hs.modLink.each fun _ _ ht => ht.enqueue

theorem Follows.moveTether (hs : Follows s₀ s) {p : Nat} : Follows s₀ (s.moveTether p) := by
  unfold State.moveTether
  exact hs.modLink.modLink.pump

theorem Follows.countRej (hs : Follows s₀ s) : Follows s₀ s.countRej :=
  hs.bump.offer

theorem Follows.sendFrame (hs : Follows s₀ s) {f : Frame} : Follows s₀ (s.sendFrame f) := by
  unfold State.sendFrame
  exact .ite hs.sendVia hs.countRej.raiseFlag

theorem Follows.sendRej (hs : Follows s₀ s) {f : Frame} {cause collid : Nat} : Follows s₀ (s.sendRej f cause collid) :=
  hs.countRej.sendFrame

/-! ### The functions of `Machine/Arbiter` -/

theorem Follows.linkState (hs : Follows s₀ s) {port st : Nat} : Follows s₀ (s.linkState port st) :=
  .ite hs.setReg (.ite hs.setReg hs)

theorem Follows.startAct (hs : Follows s₀ s) {a : Act} : Follows s₀ (s.startAct a) := by
  unfold State.startAct
  exact .ite (hs.upd.upd.setReg.setReg.when fun _ ht => ht.setReg) (.ite hs.upd.modLink.linkState.sendSets hs.upd)

theorem Follows.requestAct (hs : Follows s₀ s) {a : Act} : Follows s₀ (s.requestAct a) := by
  unfold State.requestAct
  exact .ite hs.upd.upd.offer hs.upd.startAct

theorem Follows.startQueued (hs : Follows s₀ s) {l kept : List Act} : Follows s₀ (startQueued l kept s) := by
  induction l generalizing kept s with
  | nil => exact hs.upd
  | cons a l ih =>
    unfold Machine.startQueued
    exact .ite (ih hs) (ih hs.startAct)

theorem Follows.endAct (hs : Follows s₀ s) {id : Nat} : Follows s₀ (s.endAct id) := by
  unfold State.endAct
  exact hs.upd.startQueued

theorem Follows.flCount (hs : Follows s₀ s) {i n : Nat} : Follows s₀ (s.flCount i n) :=
  hs.upd

theorem Follows.wantCommit (hs : Follows s₀ s) {c : Commit} : Follows s₀ (s.wantCommit c) := by
  unfold State.wantCommit
  exact hs.upd.requestAct.setReg

theorem Follows.journal (hs : Follows s₀ s) {typ ukind unit : Nat} {data : List Byte} :
    Follows s₀ (s.journal typ ukind unit data) := by
  unfold State.journal
  exact .ite hs.upd.wantCommit hs.upd

theorem Follows.healthLogs (hs : Follows s₀ s) : Follows s₀ s.healthLogs :=
  hs.each fun _ _ ht => ht.emit.upd.spend

theorem Follows.routineCommit (hs : Follows s₀ s) : Follows s₀ s.routineCommit :=
  hs.wantCommit.each fun _ _ ht => ht.journal

theorem Follows.journalTraining (hs : Follows s₀ s) {port : Nat} : Follows s₀ (s.journalTraining port) := by
  unfold State.journalTraining
  exact hs.journal.spend

theorem Follows.recovery (hs : Follows s₀ s) {k ukind unit logno part : Nat} :
    Follows s₀ (s.recovery k ukind unit logno part) :=
  hs.flCount.journal

theorem Follows.spareIn (hs : Follows s₀ s) {kind ukind unit failed by_ : Nat} :
    Follows s₀ (s.spareIn kind ukind unit failed by_) := by
  unfold State.spareIn
  exact .ite hs.bump.flCount.journal.offerTileOnly hs.bump.flCount.journal.offer

theorem Follows.dqLanes (hs : Follows s₀ s) {c n : Nat} : Follows s₀ (s.dqLanes c n) :=
  hs.each fun _ _ ht => ht.spareIn.spend

theorem Follows.ringCheck (hs : Follows s₀ s) : Follows s₀ s.ringCheck := by
  unfold State.ringCheck
  exact .ite hs.setReg (.ite hs.setReg hs)

theorem Follows.sendTether (hs : Follows s₀ s) {f : Frame} : Follows s₀ (s.sendTether f) := by
  unfold State.sendTether
  exact hs.enqueue.upd

theorem Follows.dropMirror (hs : Follows s₀ s) : Follows s₀ s.dropMirror :=
  hs.each fun _ _ ht => ht.modLink

theorem Follows.writeLog (hs : Follows s₀ s) {logno lead rig : Nat} {k : LogKind} :
    Follows s₀ (s.writeLog logno lead rig k) := by
  unfold State.writeLog
  exact (hs.upd.when fun _ ht => ht.sendTether.bump.upd).ringCheck

theorem Follows.sendPage (hs : Follows s₀ s) {space addr kind : Nat} {data : List (Byte × Bool)} :
    Follows s₀ (s.sendPage space addr kind data) :=
  hs.each fun _ _ ht => ht.sendTether.bump.upd

theorem Follows.markDone (hs : Follows s₀ s) {logno lead unit wr : Nat} : Follows s₀ (s.markDone logno lead unit wr) := by
  unfold State.markDone
  exact (hs.when fun _ ht => ht.writeLog).modPart

/-! ### The functions of `Machine/Task` -/

theorem Follows.raiseNum (hs : Follows s₀ s) {p b n : Nat} : Follows s₀ (s.raiseNum p b n) := by
  unfold State.raiseNum
  split
  · exact hs
  · exact .ite hs hs.raiseFlag.offerTile

theorem Follows.raiseNums (hs : Follows s₀ s) {p logno : Nat} {fs : List NFlags} : Follows s₀ (s.raiseNums p logno fs) := by
  unfold State.raiseNums
  exact .ite ((hs.each fun _ _ ht => ht.raiseNum).recOf fun _ _ ht => ht.recSat) (hs.each fun _ _ ht => ht.raiseNum)

theorem Follows.engineSpare (hs : Follows s₀ s) {p e : Nat} : Follows s₀ (s.engineSpare p e) := by
  unfold State.engineSpare
  exact .ite hs.setReg.setReg.setReg.spareIn hs

theorem Follows.startGen (hs : Follows s₀ s) {p e : Nat} {g : Gen} : Follows s₀ (s.startGen p e g) :=
  hs.engineSpare.modEng.setReg

theorem Follows.promote (hs : Follows s₀ s) {p e : Nat} : Follows s₀ (s.promote p e) := by
  unfold State.promote
  refine .modEng ?_
  split
  · exact .ite hs hs.modEng.startGen
  · exact hs.modEng
  · exact hs

theorem Follows.modGen (hs : Follows s₀ s) {p e : Nat} {f : Gen → Gen} : Follows s₀ (s.modGen p e f) :=
  hs.modEng

theorem Follows.unwait (hs : Follows s₀ s) {p u : Nat} : Follows s₀ (s.unwait p u) :=
  hs.upd

theorem Follows.dropEng (hs : Follows s₀ s) {logno p e : Nat} : Follows s₀ (s.dropEng logno p e) := by
  unfold State.dropEng
  exact (hs.modEng.when fun _ ht => ht.unwait).promote

theorem Follows.dropTile (hs : Follows s₀ s) {logno p : Nat} : Follows s₀ (s.dropTile logno p) := by
  unfold State.dropTile
  exact ((hs.when fun _ ht => ht.unwait).each fun _ _ ht => ht.dropEng).modTile

theorem Follows.abortTask (hs : Follows s₀ s) {logno status detail : Nat} {lead : Option Nat} :
    Follows s₀ (s.abortTask logno status detail lead) := by
  unfold State.abortTask
  split
  · exact hs
  · exact (hs.each fun _ _ ht => ht.dropTile).upd.dropUnsent.modSheet.recOf fun _ _ ht => ht.recAbort

theorem Follows.strikeTake (hs : Follows s₀ s) {n : Nat} {f : Take → Take} : Follows s₀ (s.strikeTake n f) :=
  hs.modTake

theorem Follows.abortSheets (hs : Follows s₀ s) {n status : Nat} {q : Sheet → Bool} :
    Follows s₀ (s.abortSheets n status q) :=
  hs.each fun _ _ ht => ht.abortTask

theorem Follows.killRig (hs : Follows s₀ s) {n : Nat} : Follows s₀ (s.killRig n) := by
  unfold State.killRig
  exact .ite (hs.abortSheets.when fun _ ht => ht.strikeTake).modRig.setReg (hs.abortSheets.when fun _ ht => ht.strikeTake).modRig

theorem Follows.engAbort (hs : Follows s₀ s) {p e logno lead status : Nat} : Follows s₀ (s.engAbort p e logno lead status) :=
  hs.raiseFlag.offerTile.abortTask

theorem Follows.engPois (hs : Follows s₀ s) {p e : Nat} {pois : Bool} {f : State → State}
    (hf : ∀ t, Follows s₀ t → Follows s₀ (f t)) : Follows s₀ (s.engPois p e pois f) := by
  unfold State.engPois
  refine .ite ?_ ?_
  · exact hf _ hs
  · split
    · exact hs
    · exact .ite hs.engAbort (hf _ hs.raiseFlag.markPois)

theorem Follows.engFault (hs : Follows s₀ s) {p e : Nat} : Follows s₀ (s.engFault p e) := by
  unfold State.engFault
  split
  · exact hs
  · exact hs.raiseFlag.engAbort

/-! ### The functions of `Machine/Mem` -/

theorem Follows.modPage (hs : Follows s₀ s) {key : Nat} {f : Page → Page} : Follows s₀ (s.modPage key f) := by
  unfold State.modPage
  split
  · exact hs.upd
  · exact hs

theorem Follows.modChan (hs : Follows s₀ s) {c : Nat} {f : Chan → Chan} : Follows s₀ (s.modChan c f) :=
  hs.upd

theorem Follows.wantEvac (hs : Follows s₀ s) {c : Nat} {byCount : Bool} : Follows s₀ (s.wantEvac c byCount) := by
  unfold State.wantEvac
  refine .ite ?_ ?_
  · exact hs
  · split
    · exact .ite hs hs.modChan.requestAct
    · exact hs.spend.modChan.requestAct

theorem Follows.noteCorrected (hs : Follows s₀ s) {x : Where} : Follows s₀ (s.noteCorrected x) := by
  unfold State.noteCorrected
  exact .ite (hs.bump.offer.flCount.modChan.when fun _ ht => ht.wantEvac) hs.bump.offer.flCount

theorem Follows.noteUncorrectable (hs : Follows s₀ s) {x : Where} : Follows s₀ (s.noteUncorrectable x) := by
  unfold State.noteUncorrectable
  exact hs.bump.offer.flCount.setReg.setReg.setReg.journal

theorem Follows.noteEcc (hs : Follows s₀ s) {o : EccOut} {at_ : Nat → Where} : Follows s₀ (s.noteEcc o at_) :=
  (hs.each fun _ _ ht => ht.noteCorrected).each fun _ _ ht => ht.noteUncorrectable

theorem Follows.nvme (hs : Follows s₀ s) {c : NvmeCmd} {frame n : Nat} : Follows s₀ (s.nvme c frame n) := by
  unfold State.nvme
  split
  · exact hs.emit
  · exact hs

theorem Follows.deallocate (hs : Follows s₀ s) {f : Option (Nat × Nat)} : Follows s₀ (s.deallocate f) := by
  unfold State.deallocate
  split
  · exact hs.nvme
  · exact hs

theorem Follows.modVer (hs : Follows s₀ s) {key : Nat} {w : Which} {f : Content → Content} :
    Follows s₀ (s.modVer key w f) := by
  unfold State.modVer
  split
  · exact hs.modPage
  · exact hs.upd
  · exact hs.upd
  · exact hs.upd

theorem Follows.noteRead (hs : Follows s₀ s) {logno lead key : Nat} : Follows s₀ (s.noteRead logno lead key) := by
  unfold State.noteRead
  split
  · refine .ite ?_ ?_
    · exact hs
    · split
      · exact hs.writeLog
      · exact hs
  · exact hs

theorem Follows.dropHeld (hs : Follows s₀ s) : Follows s₀ s.dropHeld :=
  hs.upd

theorem Follows.newVersion (hs : Follows s₀ s) {key : Nat} : Follows s₀ (s.newVersion key) := by
  unfold State.newVersion
  split
  · exact hs
  · exact (Follows.ite hs.upd.bump.offer hs).upd.modPage

theorem Follows.holdWrites (hs : Follows s₀ s) {l : List (Nat × Nat)} : Follows s₀ (s.holdWrites l) :=
  hs.upd

theorem Follows.tier0Bytes (hs : Follows s₀ s) {lines : Nat} : Follows s₀ (s.tier0Bytes lines) :=
  hs.bump.traffic

theorem Follows.countLine (hs : Follows s₀ s) {key : Nat} : Follows s₀ (s.countLine key) := by
  unfold State.countLine
  split
  · exact .ite hs (.ite hs.tier0Bytes (.ite hs.traffic hs))
  · exact hs

theorem Follows.forceAscent (hs : Follows s₀ s) {key : Nat} : Follows s₀ (s.forceAscent key) :=
  .ite hs hs.upd

theorem Follows.touch (hs : Follows s₀ s) {key : Nat} : Follows s₀ (s.touch key) := by
  unfold State.touch
  split
  · exact hs
  · exact .ite (.ite hs.modPage.upd hs.modPage.bump) hs.modPage

theorem Follows.wantReread (hs : Follows s₀ s) {key line : Nat} {readers : List (Nat × Nat × Nat)} {tasks : List (Nat × Nat)} :
    Follows s₀ (s.wantReread key line readers tasks) :=
  .ite hs.upd hs.upd

theorem Follows.noteLost (hs : Follows s₀ s) {key n : Nat} : Follows s₀ (s.noteLost key n) :=
  hs.bump.offer

theorem Follows.checkChunks (hs : Follows s₀ s) {key : Nat} {p : Page} {ofs n : Nat} {errs : List (Nat × Nat)} {o : EccOut} :
    Follows s₀ (s.checkChunks key p ofs n errs o).1 := by
  unfold State.checkChunks
  exact hs.upd.pair

theorem Follows.iteRead {c : Prop} [Decidable c] {a b : PageRead} (ha : Follows s₀ a.s) (hb : Follows s₀ b.s) :
    Follows s₀ (if c then a else b).s := by
  split
  · exact ha
  · exact hb

theorem Follows.readPage (hs : Follows s₀ s) {key : Nat} {w : Which} {ofs n : Nat} {errs : List (Nat × Nat)}
    {lost : List Nat} :
    Follows s₀ (s.readPage key w ofs n errs lost).s := by
  unfold State.readPage
  split
  · exact hs
  · refine .iteRead hs ?_
    split
    extract_lets _ _ _ _ _ _ _ _ chk s1 s2 s3 _ s4 _ _ _ _ s5 s6 s7
    have hc : Follows s₀ chk.1 := .iteFst hs.checkChunks hs
    have h2 : Follows s₀ s2 := .ite hc hc.spend
    have h4 : Follows s₀ s4 := .ite h2.noteEcc.tier0Bytes (.ite h2.noteEcc.traffic h2.noteEcc)
    have h5 : Follows s₀ s5 := .ite h4 (h4.each fun _ _ ht => ht.noteLost)
    have h6 : Follows s₀ s6 := .ite h5.modVer h5
    exact .iteRead (.ite hc hc.spend) (.iteRead h5 (.ite h6.modPage h6))

theorem Follows.askAscent (hs : Follows s₀ s) {key line : Nat} : Follows s₀ (s.askAscent key line) :=
  .ite hs hs.forceAscent

theorem Follows.countCopy (hs : Follows s₀ s) {key : Nat} : Follows s₀ (s.countCopy key) :=
  hs.tier0Bytes

/-- The state that a write comes to follows `s₀`, whether it waits or goes to a version. -/
def WriteTo.Kept (s₀ : State) : WriteTo → Prop
  | .fault => True
  | .waits s => Follows s₀ s
  | .to s _ => Follows s₀ s

theorem WriteTo.Kept.ite {c : Prop} [Decidable c] {a b : WriteTo} (ha : a.Kept s₀) (hb : b.Kept s₀) :
    (if c then a else b).Kept s₀ := by
  split
  · exact ha
  · exact hb

theorem Follows.outVer (hs : Follows s₀ s) {logno rig key line : Nat} : (s.outVer logno rig key line).Kept s₀ :=
  .ite hs (.ite hs.askAscent hs.upd.countCopy)

theorem Follows.writeVer (hs : Follows s₀ s) {logno rig space addr : Nat} : (s.writeVer logno rig space addr).Kept s₀ := by
  unfold State.writeVer
  dsimp only
  split
  · exact .ite trivial hs.outVer
  · exact .ite hs.outVer (.ite hs (.ite hs.askAscent.offer hs.upd.countCopy))

theorem Follows.bufAsk (hs : Follows s₀ s) {buf tile u : Nat} : Follows s₀ (s.bufAsk buf tile u) :=
  .ite hs hs.upd

theorem Follows.bufGot (hs : Follows s₀ s) {q : Nat → Bool} {u : Nat} : Follows s₀ (s.bufGot q u) :=
  hs.upd

theorem Follows.wcWrite (hs : Follows s₀ s) {key line : Nat} {w : Which} {ofs : Nat} {bs : List (Byte × Bool)} {user : Nat} :
    Follows s₀ (s.wcWrite key line w ofs bs user) := by
  unfold State.wcWrite
  exact .ite hs.traffic.upd hs.traffic.upd

theorem Follows.flushEntry (hs : Follows s₀ s) {e : WcEntry} {errs : List (Nat × Nat)} :
    Follows s₀ (s.flushEntry e errs) := by
  unfold State.flushEntry
  split
  · refine .ite ?_ ?_
    · exact ((Follows.ite hs hs.spend).noteEcc.when fun _ ht => ht.noteLost).modVer.bump.traffic.upd.tier0Bytes
    · refine .ite ?_ ?_
      · exact ((Follows.ite hs hs.spend).noteEcc.when fun _ ht => ht.noteLost).modVer.bump.traffic.upd.traffic
      · exact ((Follows.ite hs hs.spend).noteEcc.when fun _ ht => ht.noteLost).modVer.bump.traffic.upd

theorem Follows.flushLine (hs : Follows s₀ s) {key line : Nat} {w : Which} : Follows s₀ (s.flushLine key line w) :=
  hs.each fun _ _ ht => ht.flushEntry

theorem Follows.rehome (hs : Follows s₀ s) {key : Nat} {c : Content} : Follows s₀ (s.rehome key c) := by
  unfold State.rehome
  exact hs.deallocate.upd.modPage.spend

theorem Follows.becomeCurrent (hs : Follows s₀ s) {v : Version} {w : Which} : Follows s₀ (s.becomeCurrent v w) := by
  unfold State.becomeCurrent
  exact hs.newVersion.upd.rehome

theorem Follows.landBytes (hs : Follows s₀ s) {key ofs : Nat} {bs : List (Byte × Bool)} :
    Follows s₀ (s.landBytes key ofs bs) :=
  (hs.when fun _ ht => ht.sendPage).modVer

theorem Follows.outsideLand (hs : Follows s₀ s) {key ofs : Nat} {bs : List (Byte × Bool)} :
    Follows s₀ (s.outsideLand key ofs bs) := by
  unfold State.outsideLand
  refine .landBytes ?_
  refine Follows.when ?_ fun _ ht => ht.rehome
  refine .flushLine ?_
  split
  · refine .abortTask ?_
    split
    · exact .ite hs.recAbort hs
    · exact hs
  · split
    · exact .ite hs.recAbort hs
    · exact hs

theorem Follows.outsideWrite (hs : Follows s₀ s) {key ofs : Nat} {bs : List (Byte × Bool)} :
    Follows s₀ (s.outsideWrite key ofs bs) :=
  hs.newVersion.outsideLand

theorem Follows.outsideWait (hs : Follows s₀ s) {key : Nat} : Follows s₀ (s.outsideWait key) := by
  unfold State.outsideWait
  dsimp only
  split
  · exact .ite (hs.when fun _ ht => ht.holdWrites).forceAscent (hs.when fun _ ht => ht.holdWrites)
  · exact hs.when fun _ ht => ht.holdWrites

theorem Follows.waitsAs (hs : Follows s₀ s) {t : State} : Follows s₀ (s.waitsAs t) :=
  hs.upd

theorem Follows.fetch (hs : Follows s₀ s) {rig space addr n : Nat} {errs : List (Nat × Nat)} {w : Nat → Which}
    {tasks : List (Nat × Nat)} : Follows s₀ (s.fetch rig space addr n errs w tasks).1 := by
  unfold State.fetch
  extract_lets pieces folds step r
  have hr : Follows s₀ r.s := each_ind (fun acc : FetchAcc => Follows s₀ acc.s) _ _ _ hs
    fun acc x _ ha => Follows.touch (Follows.readPage ha)
  refine .iteFst hs (.iteFst hs (.iteFst (.pair ?_) (.iteFst hs.waitsAs.pair (.iteFst hr.pair (.iteFst (.pair ?_) hr.pair)))))
  · exact hs.each fun _ _ ht => ht.forceAscent
  · exact hr.each fun _ _ ht => ht.wantReread

/-! ### The functions of `Machine/Store` -/

theorem Follows.spareRow (hs : Follows s₀ s) {p row : Nat} : Follows s₀ (s.spareRow p row) := by
  unfold State.spareRow
  exact .ite hs.modTile.spareIn hs

theorem Follows.noteStore (hs : Follows s₀ s) {p : Nat} {o : EccOut} : Follows s₀ (s.noteStore p o) := by
  unfold State.noteStore
  exact hs.noteEcc.modTile.each fun _ _ ht => ht.spareRow

theorem Follows.storeErrs (hs : Follows s₀ s) {p w nw : Nat} {errs : List (Nat × Nat)} :
    Follows s₀ (s.storeErrs p w nw errs) :=
  .ite hs hs.spend.modTile.noteStore

theorem Follows.storeRead (hs : Follows s₀ s) {p a n : Nat} {errs : List (Nat × Nat)} :
    Follows s₀ (s.storeRead p a n errs).1 := by
  unfold State.storeRead
  exact .iteFst hs.traffic.pair hs.traffic.spend.modTile.noteStore.pair

theorem Follows.storeWrite (hs : Follows s₀ s) {p a : Nat} {bs : List (Byte × Bool)} : Follows s₀ (s.storeWrite p a bs) :=
  hs.modTile.traffic

/-! ### The functions of `Machine/Part` -/

theorem Follows.enterTask (hs : Follows s₀ s) {t : ArrTask} : Follows s₀ (s.enterTask t) :=
  hs.modArr

theorem Follows.tileArm (hs : Follows s₀ s) {p e : Nat} {a : Arm} {ahead : Bool} : Follows s₀ (s.tileArm p e a ahead) :=
  hs.modEng

theorem Follows.startPart (hs : Follows s₀ s) {logno lead : Nat} {ahead : Bool} :
    Follows s₀ (s.startPart logno lead ahead) := by
  unfold State.startPart
  split
  · exact hs
  · split
    · exact hs
    · refine .ite ?_ ?_
      · exact (hs.modPart.each fun _ _ ht => ht.tileArm).enterTask
      · exact .ite ((hs.modPart.each fun _ _ ht => ht.tileArm).each fun _ _ ht => ht.modVec) (hs.modPart.each fun _ _ ht => ht.tileArm)

theorem Follows.resetBank (hs : Follows s₀ s) {logno lead p b : Nat} : Follows s₀ (s.resetBank logno lead p b) := by
  unfold State.resetBank
  refine .ite ?_ ?_
  · split
    · split
      · exact hs.modBank
      · exact hs
    · exact .ite hs.modBank hs
  · exact hs

theorem Follows.dropPartTile (hs : Follows s₀ s) {logno lead p : Nat} : Follows s₀ (s.dropPartTile logno lead p) := by
  unfold State.dropPartTile
  refine .modTile ?_
  refine Follows.each ?_ fun _ _ ht => ht.resetBank
  exact (((hs.each fun _ _ ht => ht.when fun _ hu => hu.unwait).when fun _ ht => ht.unwait).each fun _ _ ht => ht.modEng).modTile

theorem Follows.needTile (hs : Follows s₀ s) {p : Nat} : Follows s₀ (s.needTile p) :=
  .ite hs hs.upd

theorem Follows.noteUnread (hs : Follows s₀ s) {l : List (Nat × Nat)} : Follows s₀ (s.noteUnread l) :=
  hs.upd

theorem Follows.restartPart (hs : Follows s₀ s) {logno lead p : Nat} : Follows s₀ (s.restartPart logno lead p) := by
  unfold State.restartPart
  split
  · exact hs
  · refine .ite ?_ ?_
    · exact hs.abortTask
    · refine .ite ?_ ?_
      · exact hs.raiseFlag.abortTask
      · refine Follows.each ?_ fun _ _ ht => ht.each fun _ _ hu => hu.modEng.promote
        exact ((hs.when fun _ ht => ht.recovery).each fun _ _ ht => ht.dropPartTile).modSheet.bump.offerTile.recovery.startPart

theorem Follows.replayPart (hs : Follows s₀ s) {logno lead p : Nat} {hard : Bool} :
    Follows s₀ (s.replayPart logno lead p hard) := by
  unfold State.replayPart
  split
  · exact hs
  · refine .restartPart ?_
    exact (Follows.ite (hs.when fun _ ht => ht.needTile) (hs.when fun _ ht => ht.needTile).modTile).when fun _ ht => ht.needTile

theorem Follows.faultPart (hs : Follows s₀ s) {logno lead p : Nat} {hard : Bool} {unread : Unread} :
    Follows s₀ (s.faultPart logno lead p hard unread) :=
  hs.noteUnread.replayPart

theorem Follows.parityOf (hs : Follows s₀ s) {p unit : Nat} : Follows s₀ (s.parityOf p unit).2 := by
  unfold State.parityOf
  exact hs.modTile.pairSnd

/-! ### The functions of `Machine/Sync` -/

theorem Follows.shotNext (hs : Follows s₀ s) {p e : Nat} : Follows s₀ (s.shotNext p e) :=
  hs.modGen

theorem Follows.noteWake (hs : Follows s₀ s) {p : Nat} : Follows s₀ (s.noteWake p) :=
  hs.bump.offerTile

theorem Follows.wakeEng (hs : Follows s₀ s) {p e code : Nat} : Follows s₀ (s.wakeEng p e code) := by
  unfold State.wakeEng
  split
  · exact .ite hs.modGen.noteWake hs
  · exact hs

theorem Follows.wakeVec (hs : Follows s₀ s) {p : Nat} : Follows s₀ (s.wakeVec p) :=
  .ite hs.modVec.noteWake hs

theorem Follows.wake (hs : Follows s₀ s) {w : Waiter} : Follows s₀ (s.wake w) := by
  unfold State.wake
  refine .ite ?_ ?_
  · exact hs.noteWake.markDone.modVec.bump
  · refine .shotNext ?_
    split
    · exact hs.noteWake.markDone
    · exact hs.noteWake

theorem Follows.raiseCount (hs : Follows s₀ s) {sig : Nat} : Follows s₀ (s.raiseCount sig) := by
  unfold State.raiseCount
  split
  · exact hs.upd.wake
  · exact .ite hs.upd hs.raiseFlag.setReg.bump.offer

theorem Follows.obArrive (hs : Follows s₀ s) {k : Nat} {src : Option Nat} : Follows s₀ (s.obArrive k src) := by
  unfold State.obArrive
  split
  · exact .ite (.ite hs.upd hs.raiseFlag) hs.raiseFlag
  · exact hs.raiseFlag

theorem Follows.modXbar (hs : Follows s₀ s) {k : Nat} {f : Xbar → Xbar} : Follows s₀ (s.modXbar k f) :=
  hs.upd

theorem Follows.sendBar (hs : Follows s₀ s) {k : Nat} {rel : Bool} {dst : Nat} : Follows s₀ (s.sendBar k rel dst) := by
  unfold State.sendBar
  exact hs.sendFrame.modXbar

theorem Follows.xbRelease (hs : Follows s₀ s) {raise : State → Nat → State} {k : Nat}
    (hraise : ∀ t a, Follows s₀ t → Follows s₀ (raise t a)) : Follows s₀ (State.xbRelease raise s k) := by
  unfold State.xbRelease
  split
  exact (hs.each fun _ _ ht => ht.sendBar).modXbar.bump.bump.offer.each fun _ _ ht => hraise _ _ ht

theorem Follows.xbStep (hs : Follows s₀ s) {raise : State → Nat → State} {k n : Nat}
    (hraise : ∀ t g, Follows s₀ t → Follows s₀ (raise t g)) : Follows s₀ (State.xbStep raise k n s) := by
  induction n generalizing s with
  | zero => exact hs
  | succ n ih =>
    unfold State.xbStep
    exact .ite (.ite (ih (hs.xbRelease hraise)) hs.sendBar.modXbar) hs

theorem Follows.xbArrive (hs : Follows s₀ s) {raise : State → Nat → State} {k : Nat}
    (hraise : ∀ t a, Follows s₀ t → Follows s₀ (raise t a)) : Follows s₀ (State.xbArrive raise s k) := by
  unfold State.xbArrive
  exact (Follows.ite hs.modXbar hs.raiseFlag).xbStep fun _ _ ht => hraise _ _ ht

theorem Follows.raiseDeep (hs : Follows s₀ s) {n : Nat} {src : Option Nat} {sig : Nat} :
    Follows s₀ (State.raiseDeep n src s sig) := by
  induction n generalizing src s sig with
  | zero => exact hs
  | succ n ih =>
    unfold State.raiseDeep
    dsimp only
    split
    · exact hs.bump.observeRaise.offer.obArrive
    · split
      · exact hs.bump.observeRaise.offer.xbArrive fun _ _ ht => ih ht
      · exact hs.bump.observeRaise.offer.raiseCount

theorem Follows.raiseSig (hs : Follows s₀ s) {src : Option Nat} {sig : Nat} : Follows s₀ (s.raiseSig src sig) :=
  hs.raiseDeep

theorem Follows.waitSig (hs : Follows s₀ s) {w : Waiter} {sig : Nat} : Follows s₀ (s.waitSig w sig).2 := by
  unfold State.waitSig
  exact .iteSnd hs.upd.pairSnd (.iteSnd hs hs.upd.pairSnd)

theorem Follows.execHostRaise (hs : Follows s₀ s) {data : Word} : Completes s₀ (execHostRaise data s) := by
  unfold Machine.execHostRaise
  exact hs.gated fun _ ht => .ite ht.raiseSig ht.raiseFlag

theorem Follows.signalUe (hs : Follows s₀ s) {word : Nat} : Follows s₀ (s.signalUe word) := by
  unfold State.signalUe
  exact (hs.raiseFlag.each fun _ _ ht => ht.killRig).upd

theorem Follows.execObPhaseComplete (hs : Follows s₀ s) {k : Nat} : Completes s₀ (execObPhaseComplete k s) := by
  unfold Machine.execObPhaseComplete
  exact hs.gated fun _ ht => ht.upd.bump.bump.offer.each fun _ _ hu => hu.raiseSig

theorem Follows.staticWrite (hs : Follows s₀ s) {f : Field} {i v : Nat} {stopped : Bool} {sref : Field} {srefI ev : Nat} :
    Follows s₀ (s.staticWrite f i v stopped sref srefI ev) :=
  .ite hs (.ite hs.setReg hs.raiseFlag.offer)

theorem Follows.obEnable (hs : Follows s₀ s) {k d : Nat} : Follows s₀ (s.obEnable k d) := by
  unfold State.obEnable
  exact .ite (.ite hs.staticWrite (.ite hs.staticWrite.setReg.setReg.setReg hs.staticWrite.raiseFlag)) hs.setReg.upd.staticWrite

theorem Follows.execObEnableWrite (hs : Follows s₀ s) {k : Nat} {data : Word} : Completes s₀ (execObEnableWrite k data s) :=
  hs.gated fun _ ht => ht.obEnable

theorem Follows.xbEnable (hs : Follows s₀ s) {k d : Nat} : Follows s₀ (s.xbEnable k d) := by
  unfold State.xbEnable
  refine .ite ?_ ?_
  · exact .ite hs.staticWrite.staticWrite (.ite hs.staticWrite.staticWrite.modXbar.setReg.setReg hs.staticWrite.staticWrite.raiseFlag)
  · exact hs.modXbar.setReg.staticWrite.staticWrite

theorem Follows.execXbEnableWrite (hs : Follows s₀ s) {k : Nat} {data : Word} : Completes s₀ (execXbEnableWrite k data s) :=
  hs.gated fun _ ht => ht.xbEnable

theorem Follows.execBarArrive (hs : Follows s₀ s) {port : Nat} {f : Frame} : Completes s₀ (execBarArrive port f s) := by
  unfold Machine.execBarArrive
  refine hs.gated fun _ ht => ?_
  dsimp only
  split
  · exact ht.tookFrame.sendRej
  · refine .ite ?_ ht.tookFrame
    exact ht.tookFrame.modXbar.xbStep fun _ _ hu => hu.raiseSig

theorem Follows.execBarRelease (hs : Follows s₀ s) {port : Nat} {f : Frame} : Completes s₀ (execBarRelease port f s) := by
  unfold Machine.execBarRelease
  refine hs.gated fun _ ht => ?_
  dsimp only
  split
  · exact ht.tookFrame.sendRej
  · exact .ite ((ht.tookFrame.xbRelease fun _ _ hu => hu.raiseSig).xbStep fun _ _ hu => hu.raiseSig) ht.tookFrame

theorem Follows.execBarResend (hs : Follows s₀ s) {k : Nat} : Completes s₀ (execBarResend k s) := by
  unfold Machine.execBarResend
  exact hs.gated fun _ ht => (ht.each fun _ _ hu => hu.sendFrame).modXbar

theorem Follows.execXbTimeout (hs : Follows s₀ s) {k : Nat} : Completes s₀ (execXbTimeout k s) := by
  unfold Machine.execXbTimeout
  exact hs.gated fun _ ht => ht.modXbar.raiseFlag.offer

theorem Follows.groupWrite (hs : Follows s₀ s) {n d : Nat} : Follows s₀ (s.groupWrite n d) := by
  unfold State.groupWrite
  refine .ite ?_ ?_
  · exact hs
  · refine .ite ?_ ?_
    · exact .ite hs.staticWrite.staticWrite (.ite hs.staticWrite.staticWrite.raiseFlag hs.staticWrite.staticWrite.setReg)
    · exact .ite hs.staticWrite.staticWrite.raiseFlag hs.setReg.staticWrite.staticWrite

theorem Follows.execGroupValidWrite (hs : Follows s₀ s) {n : Nat} {data : Word} :
    Completes s₀ (execGroupValidWrite n data s) :=
  hs.gated fun _ ht => ht.groupWrite

/-! ### The functions of `Machine/Vector` -/

theorem Follows.vecDone (hs : Follows s₀ s) {p : Nat} : Follows s₀ (s.vecDone p) :=
  hs.modVec.bump

theorem Follows.vecStop (hs : Follows s₀ s) {p : Nat} {f : Field} {status : Nat} : Follows s₀ (s.vecStop p f status) := by
  unfold State.vecStop
  exact hs.raiseFlag.bump.modVec.abortTask

theorem Follows.guardPois (hs : Follows s₀ s) {p : Nat} {pois : Bool} {f : State → State}
    (hf : ∀ t, Follows s₀ t → Follows s₀ (f t)) : Follows s₀ (s.guardPois p pois f) :=
  .ite hs.vecStop (hf _ hs)

theorem Follows.laneEvents (hs : Follows s₀ s) {p : Nat} {fs : List NFlags} : Follows s₀ (s.laneEvents p fs) :=
  hs.each fun _ _ ht => .ite ht ht.offerTile

theorem Follows.vecFlags (hs : Follows s₀ s) {p : Nat} {fs : List (Nat × NFlags)} : Follows s₀ (s.vecFlags p fs) :=
  hs.modVec.raiseNums.laneEvents

theorem Follows.vecLanes (hs : Follows s₀ s) {p : Nat} {o : VOp} {pois : Nat → Bool} {f : Nat → Nat × NFlags} :
    Follows s₀ (s.vecLanes p o pois f) := by
  unfold State.vecLanes
  exact hs.guardPois fun _ ht => ht.modVec.vecFlags.vecDone

theorem Follows.vecMask (hs : Follows s₀ s) {p : Nat} {o : VOp} {pois : Nat → Bool} {f : Nat → Bool × NFlags} :
    Follows s₀ (s.vecMask p o pois f) := by
  unfold State.vecMask
  exact hs.guardPois fun _ ht => ht.modVec.vecFlags.vecDone

theorem Follows.vecBin (hs : Follows s₀ s) {p : Nat} {o : VOp} {f : Nat → Nat → Nat → Nat × NFlags} :
    Follows s₀ (s.vecBin p o f) := by
  unfold State.vecBin
  exact hs.vecLanes

theorem Follows.vecUn (hs : Follows s₀ s) {p : Nat} {o : VOp} {f : Nat → Nat → Nat × NFlags} :
    Follows s₀ (s.vecUn p o f) := by
  unfold State.vecUn
  exact hs.vecLanes

theorem Follows.execNop (hs : Follows s₀ s) {p : Nat} : Completes s₀ (execNop p s) :=
  hs.gated fun _ ht => ht.vecDone

theorem Follows.execFadd (hs : Follows s₀ s) {p : Nat} {o : VOp} : Completes s₀ (execFadd p o s) :=
  hs.gated fun _ ht => ht.vecBin

theorem Follows.execFsub (hs : Follows s₀ s) {p : Nat} {o : VOp} : Completes s₀ (execFsub p o s) :=
  hs.gated fun _ ht => ht.vecBin

theorem Follows.execFmul (hs : Follows s₀ s) {p : Nat} {o : VOp} : Completes s₀ (execFmul p o s) :=
  hs.gated fun _ ht => ht.vecBin

theorem Follows.execFma (hs : Follows s₀ s) {p : Nat} {o : VOp} : Completes s₀ (execFma p o s) :=
  hs.gated fun _ ht => ht.vecLanes

theorem Follows.execFdiv (hs : Follows s₀ s) {p : Nat} {o : VOp} : Completes s₀ (execFdiv p o s) :=
  hs.gated fun _ ht => ht.spend.vecBin

theorem Follows.execFmax (hs : Follows s₀ s) {p : Nat} {o : VOp} : Completes s₀ (execFmax p o s) :=
  hs.gated fun _ ht => ht.vecBin

theorem Follows.execFmin (hs : Follows s₀ s) {p : Nat} {o : VOp} : Completes s₀ (execFmin p o s) :=
  hs.gated fun _ ht => ht.vecBin

theorem Follows.vecFun (hs : Follows s₀ s) {p : Nat} {o : VOp} {f : NMode → Nat → Nat → Nat × NFlags} :
    Follows s₀ (s.vecFun p o f) :=
  hs.spend.vecUn

theorem Follows.execFsqrt (hs : Follows s₀ s) {p : Nat} {o : VOp} : Completes s₀ (execFsqrt p o s) :=
  hs.gated fun _ ht => ht.vecFun

theorem Follows.execFrsq (hs : Follows s₀ s) {p : Nat} {o : VOp} : Completes s₀ (execFrsq p o s) :=
  hs.gated fun _ ht => ht.vecFun

theorem Follows.execFrcp (hs : Follows s₀ s) {p : Nat} {o : VOp} : Completes s₀ (execFrcp p o s) :=
  hs.gated fun _ ht => ht.vecFun

theorem Follows.execFexp (hs : Follows s₀ s) {p : Nat} {o : VOp} : Completes s₀ (execFexp p o s) :=
  hs.gated fun _ ht => ht.vecFun

theorem Follows.execFlog (hs : Follows s₀ s) {p : Nat} {o : VOp} : Completes s₀ (execFlog p o s) :=
  hs.gated fun _ ht => ht.vecFun

theorem Follows.execFtanh (hs : Follows s₀ s) {p : Nat} {o : VOp} : Completes s₀ (execFtanh p o s) :=
  hs.gated fun _ ht => ht.vecFun

theorem Follows.execFsgn (hs : Follows s₀ s) {p : Nat} {o : VOp} : Completes s₀ (execFsgn p o s) :=
  hs.gated fun _ ht => .ite ht.vecBin ht.vecUn

theorem Follows.execFcmp (hs : Follows s₀ s) {p : Nat} {o : VOp} : Completes s₀ (execFcmp p o s) :=
  hs.gated fun _ ht => ht.vecMask

theorem Follows.execFcls (hs : Follows s₀ s) {p : Nat} {o : VOp} : Completes s₀ (execFcls p o s) :=
  hs.gated fun _ ht => ht.vecMask

theorem Follows.execMlog (hs : Follows s₀ s) {p : Nat} {o : VOp} : Completes s₀ (execMlog p o s) :=
  hs.gated fun _ ht => ht.modVec.vecDone

theorem Follows.execMfirst (hs : Follows s₀ s) {p : Nat} {o : VOp} : Completes s₀ (execMfirst p o s) :=
  hs.gated fun _ ht => ht.modVec.vecDone

theorem Follows.execMpop (hs : Follows s₀ s) {p : Nat} {o : VOp} : Completes s₀ (execMpop p o s) :=
  hs.gated fun _ ht => ht.modVec.vecDone

theorem Follows.execMov (hs : Follows s₀ s) {p : Nat} {o : VOp} : Completes s₀ (execMov p o s) :=
  hs.gated fun _ ht => ht.vecLanes

theorem Follows.execSel (hs : Follows s₀ s) {p : Nat} {o : VOp} : Completes s₀ (execSel p o s) :=
  hs.gated fun _ ht => ht.guardPois fun _ hu => hu.modVec.vecDone

theorem Follows.execCmpr (hs : Follows s₀ s) {p : Nat} {o : VOp} : Completes s₀ (execCmpr p o s) :=
  hs.gated fun _ ht => ht.guardPois fun _ hu => hu.modVec.vecDone

theorem Follows.execExpd (hs : Follows s₀ s) {p : Nat} {o : VOp} : Completes s₀ (execExpd p o s) :=
  hs.gated fun _ ht => ht.vecLanes

theorem Follows.execFold (hs : Follows s₀ s) {p : Nat} {o : VOp} : Completes s₀ (execFold p o s) :=
  hs.gated fun _ ht => ht.vecLanes

theorem Follows.execRed (hs : Follows s₀ s) {p : Nat} {o : VOp} : Completes s₀ (execRed p o s) := by
  unfold Machine.execRed
  refine hs.gated fun _ ht => ?_
  refine ht.guardPois fun _ hu => ?_
  exact .ite (Follows.ite (hu.modVec.markPois.recOf fun _ _ hv => hv.recPois) hu.modVec).vecFlags.vecDone hu.modVec.vecFlags.vecDone

theorem Follows.execCvt (hs : Follows s₀ s) {p : Nat} {o : VOp} : Completes s₀ (execCvt p o s) :=
  hs.gated fun _ ht => ht.vecUn

theorem Follows.execQdq (hs : Follows s₀ s) {p : Nat} {o : VOp} : Completes s₀ (execQdq p o s) :=
  hs.gated fun _ ht => ht.vecLanes

theorem Follows.execChkf (hs : Follows s₀ s) {p : Nat} {o : VOp} : Completes s₀ (execChkf p o s) :=
  hs.gated fun _ ht => ht.guardPois fun _ hu => (Follows.ite (hu.recOf fun _ _ hv => hv.recNonfin) hu).vecFlags.vecDone

theorem Follows.execFlgm (hs : Follows s₀ s) {p : Nat} {o : VOp} : Completes s₀ (execFlgm p o s) :=
  hs.gated fun _ ht => .ite ht.modVec.vecDone ht.vecMask

theorem Follows.execSli (hs : Follows s₀ s) {p : Nat} {o : SOp} : Completes s₀ (execSli p o s) :=
  hs.gated fun _ ht => ht.modVec.vecDone

theorem Follows.execSori (hs : Follows s₀ s) {p : Nat} {o : SOp} : Completes s₀ (execSori p o s) :=
  hs.gated fun _ ht => ht.modVec.vecDone

theorem Follows.execSadd (hs : Follows s₀ s) {p : Nat} {o : SOp} : Completes s₀ (execSadd p o s) :=
  hs.gated fun _ ht => ht.modVec.vecDone

theorem Follows.execSfop (hs : Follows s₀ s) {p : Nat} {o : SOp} : Completes s₀ (execSfop p o s) :=
  hs.gated fun _ ht => ht.spend.modVec.raiseNums.vecDone

theorem Follows.queueWait (hs : Follows s₀ s) {p : Nat} : Follows s₀ (s.queueWait p) :=
  hs.modVec.bump.offerTile

theorem Follows.onEntry (hs : Follows s₀ s) {p e : Nat} {f : FtqEntry → State} (hf : ∀ a0, Follows s₀ (f a0)) :
    Follows s₀ (s.onEntry p e f) := by
  unfold State.onEntry
  dsimp only
  split
  · exact hs.queueWait
  · exact .ite (hf _) hs.vecStop

theorem Follows.execLdt (hs : Follows s₀ s) {p : Nat} {o : TOp} : Completes s₀ (execLdt p o s) :=
  hs.gated fun _ ht => ht.onEntry fun _ => ht.guardPois fun _ hu => hu.modVec.vecDone

theorem Follows.execStt (hs : Follows s₀ s) {p : Nat} {o : TOp} : Completes s₀ (execStt p o s) :=
  hs.gated fun _ ht => ht.onEntry fun _ => ht.guardPois fun _ hu => (hu.modTile.when fun _ hv => hv.markPois).vecDone

theorem Follows.execPopt (hs : Follows s₀ s) {p : Nat} : Completes s₀ (execPopt p s) :=
  hs.gated fun _ ht => .ite ht.vecStop (ht.onEntry fun _ => ht.modTile.vecDone)

theorem Follows.execTag (hs : Follows s₀ s) {p : Nat} {o : TOp} : Completes s₀ (execTag p o s) :=
  hs.gated fun _ ht => ht.onEntry fun _ => ht.modVec.vecDone

theorem Follows.execSetq (hs : Follows s₀ s) {p : Nat} {o : TOp} : Completes s₀ (execSetq p o s) :=
  hs.gated fun _ ht => ht.modVec.vecDone

theorem Follows.execLoop (hs : Follows s₀ s) {p cnt len : Nat} : Completes s₀ (execLoop p cnt len s) :=
  hs.gated fun _ ht => ht.modVec.vecDone

theorem Follows.execSigr (hs : Follows s₀ s) {p sig : Nat} : Completes s₀ (execSigr p sig s) :=
  hs.gated fun _ ht => (Follows.ite ht.vecDone ht.vecDone.raiseSig).markDone

theorem Follows.execSigw (hs : Follows s₀ s) {p sig : Nat} : Completes s₀ (execSigw p sig s) :=
  hs.gated fun _ ht => .ite ht.markDone.vecDone (.ite ht.waitSig.markDone.vecDone ht.waitSig.modVec)

theorem Follows.execEndRoutine (hs : Follows s₀ s) {p : Nat} : Completes s₀ (execEndRoutine p s) :=
  hs.gated fun _ ht => (ht.modTile.when fun _ hu => hu.raiseFlag).modVec.bump.modPart

theorem Follows.execFtqPushStart (hs : Follows s₀ s) {p : Nat} : Completes s₀ (execFtqPushStart p s) := by
  unfold Machine.execFtqPushStart
  exact hs.gated fun _ ht => ht.modTile

theorem Follows.execFtqPushComplete (hs : Follows s₀ s) {p : Nat} : Completes s₀ (execFtqPushComplete p s) := by
  unfold Machine.execFtqPushComplete
  refine hs.gated fun _ ht => ?_
  split
  · exact ht
  · exact (ht.modTile.when fun _ hu => hu.raiseFlag).bump.offerTile.wakeVec

theorem Follows.laneSpares (hs : Follows s₀ s) {p : Nat} : Follows s₀ (s.laneSpares p) := by
  unfold State.laneSpares
  exact (hs.each fun _ _ ht => ht.setReg.setReg.spareIn).modTile

theorem Follows.laneFails (hs : Follows s₀ s) {p l : Nat} : Follows s₀ (s.laneFails p l) := by
  unfold State.laneFails
  exact .ite hs.modTile hs.setReg.modTile.needTile

theorem Follows.execRoutineStart (hs : Follows s₀ s) {p : Nat} : Completes s₀ (execRoutineStart p s) := by
  unfold Machine.execRoutineStart
  refine hs.gated fun _ ht => ?_
  split
  · exact ht
  · split
    · exact ht.modVec
    · exact ht.spend.laneSpares.modTile.modVec

theorem Follows.execVectorParityError (hs : Follows s₀ s) {p : Nat} {lane : Option Nat} {unread : Unread} :
    Completes s₀ (execVectorParityError p lane unread s) := by
  unfold Machine.execVectorParityError
  refine hs.gated fun _ ht => ?_
  refine .faultPart (.unwait ?_)
  split
  · exact .ite ht.raiseFlag.modVec.parityOf.laneFails ht.raiseFlag.modVec.parityOf
  · exact ht.raiseFlag.modVec

theorem Follows.execVecHaltWrite (hs : Follows s₀ s) {p : Nat} {data : Word} : Completes s₀ (execVecHaltWrite p data s) :=
  hs.gated fun _ ht => ht.setReg

/-! ### The functions of `Machine/Array` -/

theorem Follows.gapSlot (hs : Follows s₀ s) {p : Nat} : Follows s₀ (s.gapSlot p) := by
  unfold State.gapSlot
  exact .ite (Follows.ite hs hs.setReg.modArr).modArr.bump.offerTileOnly (Follows.ite hs hs.setReg.modArr).modArr

theorem Follows.gapAll (hs : Follows s₀ s) {f : Fused} : Follows s₀ (s.gapAll f) :=
  hs.each fun _ _ ht => ht.gapSlot

theorem Follows.emptySlot (hs : Follows s₀ s) {p : Nat} {f : Fused} : Follows s₀ (s.emptySlot p f) :=
  .ite hs.gapAll hs.modArr

theorem Follows.endGap (hs : Follows s₀ s) {f : Fused} : Follows s₀ (s.endGap f) :=
  hs.each fun _ _ ht => ht.modArr

theorem Follows.feedCheck (hs : Follows s₀ s) {p logno e : Nat} : Follows s₀ (s.feedCheck p logno e) := by
  unfold State.feedCheck
  split
  · dsimp only
    split
    · exact hs
    · exact .ite hs (.ite hs.raiseFlag.engAbort (.ite hs.raiseFlag.engAbort hs))
  · exact hs

theorem Follows.skipLoaded (hs : Follows s₀ s) {f : Fused} {t : ArrTask} : Follows s₀ (s.skipLoaded f t) :=
  hs.each fun _ _ ht => ht.modTile

theorem Follows.execArrayTaskStart (hs : Follows s₀ s) {p : Nat} : Completes s₀ (execArrayTaskStart p s) := by
  unfold Machine.execArrayTaskStart
  split
  · exact hs.next
  · dsimp only
    split
    · exact hs.next
    · refine hs.gated fun _ ht => ?_
      split
      · exact ht
      · split
        · exact ht.noteRead.setReg.modArr.when fun _ hu => hu.bump.skipLoaded
        · refine Follows.each ?_ fun _ _ hu => hu.feedCheck
          refine .ite ?_ ?_
          · refine Follows.each ?_ fun _ _ hu => hu.modVec
            split
            · refine .ite ?_ ?_
              · exact (ht.noteRead.setReg.modArr.when fun _ hu => hu.bump.skipLoaded).modPart.enterTask.offer
              · exact ht.noteRead.setReg.modArr.when fun _ hu => hu.bump.skipLoaded
            · exact ht.noteRead.setReg.modArr.when fun _ hu => hu.bump.skipLoaded
          · split
            · refine .ite ?_ ?_
              · exact (ht.noteRead.setReg.modArr.when fun _ hu => hu.bump.skipLoaded).modPart.enterTask.offer
              · exact ht.noteRead.setReg.modArr.when fun _ hu => hu.bump.skipLoaded
            · exact ht.noteRead.setReg.modArr.when fun _ hu => hu.bump.skipLoaded

theorem Follows.partRead (hs : Follows s₀ s) {logno lead rig space addr n : Nat} {errs : List (Nat × Nat)} :
    Follows s₀ (s.partRead logno lead rig space addr n errs).1 := by
  unfold State.partRead
  dsimp only
  split
  · exact hs.fetch
  · exact (hs.fetch.each fun _ _ ht => .ite ht.noteRead ht).pair

theorem Follows.loadRead (hs : Follows s₀ s) {t : ArrTask} {r : Nat × Nat} {errs : List (Nat × Nat)} :
    Follows s₀ (s.loadRead t r errs).1 :=
  hs.partRead

theorem Follows.loadReads (hs : Follows s₀ s) {t : ArrTask} {k cols : Nat} {errs : List (Nat × Nat)} :
    Follows s₀ (s.loadReads t k cols errs).1 := by
  unfold State.loadReads
  split
  · exact hs
  · exact hs.loadRead.pair
  · exact hs.loadRead.loadRead.pair

theorem Follows.loadStep (hs : Follows s₀ s) {p : Nat} {f : Fused} {r : ArrRun} : Follows s₀ (s.loadStep p f r) := by
  unfold State.loadStep
  exact hs.modArr.when fun _ ht => ht.bump

theorem Follows.execStationaryRowLoad (hs : Follows s₀ s) {p : Nat} {errs : List (Nat × Nat)} :
    Completes s₀ (execStationaryRowLoad p errs s) := by
  unfold Machine.execStationaryRowLoad
  split
  · refine hs.gated fun _ ht => ?_
    refine .ite ?_ ?_
    · exact ht.emptySlot.modArr.loadStep
    · refine .ite ?_ ?_
      · exact (ht.emptySlot.each fun _ _ hu => hu.modTile).abortTask
      · dsimp only
        split
        · exact ht.loadReads
        · exact ht.loadReads.abortTask
        · exact ht.loadReads.abortTask
        · refine .ite ?_ ?_
          · exact (ht.loadReads.emptySlot.each fun _ _ hu => hu.modTile).abortTask
          · exact ((ht.loadReads.emptySlot.each fun _ _ hu => hu.modTile).modArr.each fun _ _ hu => hu.raiseNums).loadStep
  · exact hs.next

theorem Follows.reserveRow (hs : Follows s₀ s) {p : Nat} {t : ArrTask} {r : Nat} : Follows s₀ (s.reserveRow p t r) := by
  unfold State.reserveRow
  exact (Follows.ite hs (Follows.ite hs hs.writeLog).modBank).modBank

theorem Follows.execRowAdmit (hs : Follows s₀ s) {p : Nat} : Completes s₀ (execRowAdmit p s) := by
  unfold Machine.execRowAdmit
  split
  · refine hs.gated fun _ ht => ?_
    refine .ite ?_ ?_
    · exact (ht.each fun _ _ hu => hu.modTile).abortTask
    · refine .ite ?_ ?_
      · exact (ht.each fun _ _ hu => hu.modTile).abortTask
      · refine .offerTile (.bump ?_)
        refine .modArr (.endGap ?_)
        refine .ite ?_ ?_
        · exact ((ht.each fun _ _ hu => hu.modTile).each fun _ _ hu => hu.raiseNums).each fun _ _ hu => hu.reserveRow
        · exact (ht.each fun _ _ hu => hu.modTile).each fun _ _ hu => hu.raiseNums
  · exact hs.next

theorem Follows.execBubble (hs : Follows s₀ s) {p : Nat} : Completes s₀ (execBubble p s) := by
  unfold Machine.execBubble
  split
  · exact hs.gated fun _ ht => ht.gapSlot
  · exact hs.gated fun _ ht => ht.bump.offerTile.emptySlot

theorem Follows.execBallastTaperStep (hs : Follows s₀ s) {p : Nat} : Completes s₀ (execBallastTaperStep p s) := by
  unfold Machine.execBallastTaperStep
  exact hs.gated fun _ ht => ht.modArr

theorem Follows.execBallastEnd (hs : Follows s₀ s) {p : Nat} : Completes s₀ (execBallastEnd p s) := by
  unfold Machine.execBallastEnd
  exact hs.gated fun _ ht => ht.modArr

theorem Follows.completeColumn (hs : Follows s₀ s) {f : Fused} {row : RowFly} {n : Nat} :
    Follows s₀ (s.completeColumn f row n) := by
  unfold State.completeColumn
  refine .ite ?_ ?_
  · refine .bump ?_
    refine .ite ?_ ?_
    · exact (hs.modTile.raiseNums.each fun _ _ ht => ht.raiseNums).each fun _ _ ht => ht.bump.offerTile
    · exact ((hs.modTile.raiseNums.each fun _ _ ht => ht.raiseNums).each fun _ _ ht => ht.bump.offerTile).bump
  · refine Follows.recOf ?_ fun _ _ ht => ht.recSat
    refine .offerTile (.orReg ?_)
    refine .bump (.bump ?_)
    refine .ite ?_ ?_
    · exact (hs.modTile.raiseNums.each fun _ _ ht => ht.raiseNums).each fun _ _ ht => ht.bump.offerTile
    · exact ((hs.modTile.raiseNums.each fun _ _ ht => ht.raiseNums).each fun _ _ ht => ht.bump.offerTile).bump

theorem Follows.rowDone (hs : Follows s₀ s) {p b r : Nat} : Follows s₀ (s.rowDone p b r) := by
  unfold State.rowDone
  exact hs.modBank.when fun _ ht => ht.modTile

theorem Follows.execRowComplete (hs : Follows s₀ s) {p : Nat} : Completes s₀ (execRowComplete p s) := by
  unfold Machine.execRowComplete
  split
  · refine Follows.next ?_
    refine .ite ?_ ?_
    · exact ((hs.modArr.each fun _ _ ht => ht.completeColumn).each fun _ _ ht => ht.rowDone).modPart
    · exact hs.modArr.each fun _ _ ht => ht.completeColumn
  · exact hs.next

theorem Follows.execArrayParityError (hs : Follows s₀ s) {p : Nat} {unread : Unread} :
    Completes s₀ (execArrayParityError p unread s) :=
  hs.gated fun _ ht => (ht.each fun _ _ hu => hu.each fun _ _ hv => hv.modBank).raiseFlag.modArr.each fun _ _ hu => hu.faultPart

theorem Follows.execBankParityError (hs : Follows s₀ s) {p b : Nat} {unread : Unread} :
    Completes s₀ (execBankParityError p b unread s) :=
  hs.gated fun _ ht => ht.raiseFlag.offerTile.each fun _ _ hu => hu.faultPart

theorem Follows.arrCtl (hs : Follows s₀ s) {p d : Nat} : Follows s₀ (s.arrCtl p d) :=
  .ite (.ite hs.setReg.setReg.setReg hs.setReg.setReg) hs

theorem Follows.execArrayHaltWrite (hs : Follows s₀ s) {p : Nat} {data : Word} :
    Completes s₀ (execArrayHaltWrite p data s) :=
  hs.gated fun _ ht => ht.arrCtl

theorem Follows.balMode (hs : Follows s₀ s) {i d : Nat} : Follows s₀ (s.balMode i d) := by
  unfold State.balMode
  refine .ite ?_ ?_
  · exact (hs.when fun _ ht => ht.setReg).raiseFlag
  · exact .ite (hs.when fun _ ht => ht.setReg).setReg (hs.when fun _ ht => ht.setReg).setReg.setReg

theorem Follows.execBallastModeWrite (hs : Follows s₀ s) {i : Nat} {data : Word} :
    Completes s₀ (execBallastModeWrite i data s) :=
  hs.gated fun _ ht => ht.balMode

/-! ### The functions of `Machine/SecOps` -/

theorem FMap.lookup_put_self {α : Type} (m : FMap α) (i : Nat) (v : α) : (m.put i v).lookup i = some v := by
  induction m with
  | nil => simp [FMap.put, FMap.lookup]
  | cons e m ih =>
    obtain ⟨k, w⟩ := e
    simp only [FMap.put]
    split_ifs with h1 h2
    · simp [FMap.lookup]
    · simp [FMap.lookup, h2]
    · simp [FMap.lookup, h2, ih]

theorem FMap.lookup_put_ne {α : Type} (m : FMap α) {i j : Nat} (v : α) (h : j ≠ i) : (m.put i v).lookup j = m.lookup j := by
  induction m with
  | nil => simp [FMap.put, FMap.lookup, h]
  | cons e m ih =>
    obtain ⟨k, w⟩ := e
    simp only [FMap.put]
    split_ifs with h1 h2
    · simp [FMap.lookup, h]
    · subst h2; simp [FMap.lookup, h]
    · simp [FMap.lookup, ih]

/-- A cell that is programmed reads in both copies as its old bits and the new ones; every other cell as before. -/
theorem State.fuseCopy_burn (s : State) {copy : Nat} (hc : copy < 2) (which i v w j : Nat) :
    (s.burn which i v).fuseCopy copy w j = s.fuseCopy copy w j
      ∨ (s.burn which i v).fuseCopy copy w j = s.fuse w j ||| v := by
  have hK : (2 : Nat) ^ 20 = 1048576 := by norm_num
  unfold State.burn
  dsimp only
  split
  · exact .inl rfl
  next hi =>
    by_cases hw : j < 512 ∧ w < 2048
    · simp only [State.fuseCopy, if_pos hw, hK]
      obtain rfl | rfl : copy = 0 ∨ copy = 1 := by omega
      all_goals by_cases hk : w * 512 + j = which * 512 + i
      · obtain ⟨rfl, rfl⟩ : w = which ∧ j = i := by omega
        rw [Nat.zero_mul, Nat.zero_add, FMap.lookup_put_ne _ _ (by omega), FMap.lookup_put_self]
        exact .inr rfl
      · rw [Nat.zero_mul, Nat.zero_add, FMap.lookup_put_ne _ _ (by omega), FMap.lookup_put_ne _ _ (by omega)]
        exact .inl rfl
      · obtain ⟨rfl, rfl⟩ : w = which ∧ j = i := by omega
        rw [Nat.one_mul, Nat.add_assoc, FMap.lookup_put_self]
        exact .inr rfl
      · rw [Nat.one_mul, Nat.add_assoc, FMap.lookup_put_ne _ _ (by omega), FMap.lookup_put_ne _ _ (by omega)]
        exact .inl rfl
    · simp only [State.fuseCopy, if_neg hw, true_or]

/-- A fuse that is 1 stays 1 (R397). -/
theorem State.fuse_burn (s : State) {which i v w j b : Nat} (hb : (s.fuse w j).testBit b = true) :
    ((s.burn which i v).fuse w j).testBit b = true := by
  have hb' := hb
  unfold State.fuse at hb' ⊢
  rw [Nat.testBit_or, Bool.or_eq_true] at hb' ⊢
  rcases s.fuseCopy_burn (copy := 0) (by omega) which i v w j with h0 | h0
  · rcases s.fuseCopy_burn (copy := 1) (by omega) which i v w j with h1 | h1
    · rwa [h0, h1]
    · exact .inr (by rw [h1, Nat.testBit_or, hb, Bool.true_or])
  · exact .inl (by rw [h0, Nat.testBit_or, hb, Bool.true_or])

theorem State.burn_pending (s : State) (which i v : Nat) : (s.burn which i v).pending = s.pending := by
  unfold State.burn
  dsimp only
  split <;> rfl

theorem State.burn_regs (s : State) (which i v : Nat) : (s.burn which i v).regs = s.regs := by
  unfold State.burn
  dsimp only
  split <;> rfl

theorem Follows.burn (hs : Follows s₀ s) {which i v : Nat} : Follows s₀ (s.burn which i v) := by
  refine ⟨(s.burn_pending which i v).trans hs.pending, fun w j b hb => s.fuse_burn (hs.fuses w j b hb), fun h0 => ?_⟩
  unfold State.RegsOk
  rw [s.burn_regs]
  exact hs.regsOk h0

theorem Follows.burnBytes (hs : Follows s₀ s) {which : Nat} {bs : List Byte} : Follows s₀ (s.burnBytes which bs) :=
  hs.each fun _ _ ht => ht.burn

theorem Follows.setWide (hs : Follows s₀ s) {f : Field} {bs : List Byte} {i : Nat} : Follows s₀ (s.setWide f bs i) :=
  hs.setReg

theorem Follows.newNonce (hs : Follows s₀ s) : Follows s₀ s.newNonce :=
  hs.setReg.spend

theorem Follows.fwFail (hs : Follows s₀ s) {e : Nat} : Follows s₀ (s.fwFail e) :=
  hs.setReg.raiseFlag

/-! ### The functions of `Machine/FlogOps` -/

theorem Follows.commitRegion (hs : Follows s₀ s) {ok : Bool} {region : Nat} : Follows s₀ (s.commitRegion ok region) := by
  unfold State.commitRegion
  exact .ite hs hs.upd

theorem Follows.writeJournal (hs : Follows s₀ s) : Follows s₀ s.writeJournal :=
  hs.upd

theorem Follows.commitNow (hs : Follows s₀ s) {failed : List Nat} {whole : Bool} :
    Follows s₀ (s.commitNow failed whole) := by
  unfold State.commitNow
  exact ((hs.writeJournal.each fun _ _ ht => ht.commitRegion).when fun _ ht => ht.raiseFlag).spend

theorem Follows.restoreMaps (hs : Follows s₀ s) : Follows s₀ s.restoreMaps := by
  unfold State.restoreMaps
  split
  · refine Follows.each ?_ fun _ _ ht => ht.modTile
    refine ⟨hs.pending, hs.fuses, fun h0 => ?_⟩
    refine each_ind (fun m => FMap.wf 0 m = true) _ _ _ ?_ fun m e _ hm => FMap.wf_set 0 m e.1 e.2 hm
    exact FMap.wfFrom_filter 0 _ _ 0 (hs.regsOk h0)
  · exact hs.raiseFlag

theorem Follows.readFlog (hs : Follows s₀ s) : Follows s₀ s.readFlog := by
  unfold State.readFlog
  exact hs.upd

theorem Follows.restoreFlog (hs : Follows s₀ s) : Follows s₀ s.restoreFlog :=
  hs.readFlog.restoreMaps.flCount

/-! ### The functions of `Machine/FabricOps` -/

theorem Follows.sendOn (hs : Follows s₀ s) {f : Frame} : Follows s₀ (s.sendOn f) := by
  unfold State.sendOn
  exact .ite hs.upd.sendVia hs.upd.countRej.raiseFlag

theorem Follows.remoteSlot (hs : Follows s₀ s) {p : Nat} : Follows s₀ (s.remoteSlot p) := by
  unfold State.remoteSlot
  exact hs.modTile

theorem Follows.receiveWack (hs : Follows s₀ s) {f : Frame} : Follows s₀ (s.receiveWack f) := by
  unfold State.receiveWack
  refine .ite ?_ ?_
  · exact hs.upd
  · split
    · exact hs.upd
    · exact hs.upd.modGen.bump

theorem Follows.exchangeFail (hs : Follows s₀ s) {n verdict : Nat} : Follows s₀ (s.exchangeFail n verdict) := by
  unfold State.exchangeFail
  exact .ite hs.upd.strikeTake hs.upd

theorem Follows.collFail (hs : Follows s₀ s) {c : Coll} : Follows s₀ (s.collFail c) := by
  unfold State.collFail
  split
  · exact hs.exchangeFail
  · exact hs.upd.engAbort

theorem Follows.restoreErr (hs : Follows s₀ s) {code : Nat} : Follows s₀ (s.restoreErr code) := by
  unfold State.restoreErr
  exact hs.setReg.raiseFlag.setReg.upd

theorem Follows.receiveRej (hs : Follows s₀ s) {f : Frame} : Follows s₀ (s.receiveRej f) := by
  unfold State.receiveRej
  refine .ite ?_ ?_
  · exact .ite hs.raiseFlag.restoreErr hs.raiseFlag
  · refine .ite ?_ ?_
    · exact .ite hs.raiseFlag.engFault hs.raiseFlag
    · exact .ite (hs.raiseFlag.each fun _ _ ht => ht.collFail) (.ite (.ite hs.raiseFlag.upd hs.raiseFlag) hs.raiseFlag)

theorem Follows.answerRej (hs : Follows s₀ s) {f : Frame} {cause collid : Nat} : Follows s₀ (s.answerRej f cause collid) :=
  .ite hs.countRej.receiveRej hs.sendRej

theorem Follows.answerWack (hs : Follows s₀ s) {f : Frame} : Follows s₀ (s.answerWack f) := by
  unfold State.answerWack
  exact .ite hs.receiveWack hs.sendFrame

theorem Follows.openStream (hs : Follows s₀ s) {sid : Nat} : Follows s₀ (s.openStream sid) :=
  .ite hs (.ite hs.upd hs.upd)

theorem Follows.receiveWr (hs : Follows s₀ s) {port : Nat} {f : Frame} : Follows s₀ (s.receiveWr port f) := by
  unfold State.receiveWr
  exact .ite hs.openStream.bump.offer.upd hs.openStream.upd.answerRej

theorem Follows.raiseFar (hs : Follows s₀ s) {sig : Nat} : Follows s₀ (s.raiseFar sig) :=
  .ite hs.raiseSig hs

theorem Follows.freeStreams (hs : Follows s₀ s) : Follows s₀ s.freeStreams := by
  unfold State.freeStreams
  exact hs.upd

theorem Follows.releaseSigs (hs : Follows s₀ s) : Follows s₀ s.releaseSigs := by
  unfold State.releaseSigs
  exact (hs.upd.each fun _ _ ht => ht.raiseFar).freeStreams

theorem Follows.rejectSig (hs : Follows s₀ s) {port : Nat} {f : Frame} : Follows s₀ (s.rejectSig port f) :=
  hs.answerRej.raiseFlag.offer

theorem Follows.receiveSig (hs : Follows s₀ s) {port : Nat} {f : Frame} : Follows s₀ (s.receiveSig port f) := by
  unfold State.receiveSig
  dsimp only
  split
  · exact .ite (.ite hs.raiseSig hs.bump.offer.upd) hs.rejectSig
  · exact hs.rejectSig

theorem Follows.sendOneWr (hs : Follows s₀ s) {p e addr : Nat} {bs : List (Byte × Bool)} :
    Follows s₀ (s.sendOneWr p e addr bs) := by
  unfold State.sendOneWr
  exact (Follows.ite hs.receiveWr hs.sendOn).upd

theorem Follows.sendWr (hs : Follows s₀ s) {p e addr : Nat} {bs : List (Byte × Bool)} :
    Follows s₀ (s.sendWr p e addr bs).1 := by
  unfold State.sendWr
  exact (hs.each fun _ _ ht => ht.sendOneWr).pair

theorem Follows.readForModify (hs : Follows s₀ s) {key line : Nat} {errs : List (Nat × Nat)} :
    Follows s₀ (s.readForModify key line errs) := by
  unfold State.readForModify
  split
  · exact hs
  · exact .ite hs (.ite hs.countLine (hs.spend.noteEcc.when fun _ ht => ht.noteLost).modPage.countLine)

theorem Follows.outsideLine (hs : Follows s₀ s) {l : Nat × Nat × List (Byte × Bool)} {errs : List (Nat × Nat)} :
    Follows s₀ (s.outsideLine l errs) := by
  unfold State.outsideLine
  exact (Follows.ite hs hs.readForModify).outsideWrite.countLine

theorem Follows.takeInbox (hs : Follows s₀ s) {port n : Nat} : Follows s₀ (s.takeInbox port n) := by
  induction n generalizing s with
  | zero => exact hs
  | succ n ih =>
    unfold State.takeInbox
    split
    · exact hs
    · exact .ite hs (ih hs.modLink.receiveWr.tookFrame)

theorem Follows.takeInboxes (hs : Follows s₀ s) : Follows s₀ s.takeInboxes :=
  hs.each fun _ _ ht => ht.takeInbox

theorem Follows.wrGone (hs : Follows s₀ s) {r : RemoteWr} : Follows s₀ (s.wrGone r) := by
  unfold State.wrGone
  exact (Follows.ite hs.upd.answerWack hs.upd).takeInboxes.releaseSigs

theorem Follows.wrLand (hs : Follows s₀ s) {r : RemoteWr} {errs : List (Nat × Nat)} : Follows s₀ (s.wrLand r errs) := by
  unfold State.wrLand
  dsimp only
  split
  · exact hs.remoteSlot.storeWrite.wrGone
  · refine .ite ?_ ?_
    · exact hs.upd.answerRej.takeInboxes.releaseSigs
    · refine .ite ?_ ?_
      · exact ((hs.each fun _ _ ht => ht.outsideLine).each fun _ _ ht => ht.touch).wrGone
      · exact hs.each fun _ _ ht => .ite ht ht.outsideWait

theorem Follows.modColl (hs : Follows s₀ s) {c : Coll} {f : Coll → Coll} : Follows s₀ (s.modColl c f) :=
  hs.upd

theorem Follows.collPut (hs : Follows s₀ s) {c : Coll} {b : Nat} {bs : List (Byte × Bool)} :
    Follows s₀ (s.collPut c b bs) := by
  unfold State.collPut
  dsimp only
  split
  · exact hs.modColl
  · exact .ite hs.modColl.storeWrite hs.modColl.storeWrite

theorem Follows.collSlot (hs : Follows s₀ s) {c : Coll} : Follows s₀ (s.collSlot c) :=
  .ite hs.remoteSlot hs

theorem Follows.sendCdata (hs : Follows s₀ s) {c : Coll} {dst step part : Nat} {bl : List (Nat × List (Byte × Bool))} :
    Follows s₀ (s.sendCdata c dst step part bl) := by
  unfold State.sendCdata
  split
  · exact hs
  · exact hs.collSlot.sendOn

theorem Follows.collFlags (hs : Follows s₀ s) {c : Coll} {fs : List NFlags} : Follows s₀ (s.collFlags c fs) :=
  .ite hs.raiseNums hs

theorem Follows.gatherOn (hs : Follows s₀ s) {c : Coll} {u part : Nat} {bl : List (Nat × List (Byte × Bool))} :
    Follows s₀ (s.gatherOn c u part bl) := by
  unfold State.gatherOn
  exact .ite (hs.each fun _ _ ht => ht.collPut).sendCdata (hs.each fun _ _ ht => ht.collPut)

theorem Follows.ringFrame (hs : Follows s₀ s) {c : Coll} {step part : Nat} {bl : List (Nat × List (Byte × Bool))} :
    Follows s₀ (s.ringFrame c step part bl) := by
  unfold State.ringFrame
  exact .ite (.ite hs.collFlags.modColl.sendCdata hs.collFlags.modColl.gatherOn) hs.gatherOn

theorem Follows.treeDown (hs : Follows s₀ s) {c : Coll} {part b : Nat} {bs : List (Byte × Bool)} :
    Follows s₀ (s.treeDown c part b bs) := by
  unfold State.treeDown
  exact hs.collPut.each fun _ _ ht => ht.sendCdata

theorem Follows.treeUp (hs : Follows s₀ s) {c : Coll} {part b k : Nat} : Follows s₀ (s.treeUp c part b k) := by
  induction k generalizing s c with
  | zero => exact hs
  | succ k ih =>
    unfold State.treeUp
    split
    · exact hs
    · dsimp only
      split
      · split
        · exact hs
        · exact ih (s := State.modColl _ _ _) hs.collFlags.modColl
      · exact .ite hs.treeDown hs.sendCdata

theorem Follows.treeFrame (hs : Follows s₀ s) {c : Coll} {step part : Nat} {bl : List (Nat × List (Byte × Bool))} :
    Follows s₀ (s.treeFrame c step part bl) := by
  unfold State.treeFrame
  exact .ite (hs.each fun _ _ ht => ht.modColl.treeUp) (hs.each fun _ _ ht => ht.treeDown)

theorem Follows.exchangeStep (hs : Follows s₀ s) {n g : Nat} : Follows s₀ (s.exchangeStep n g) := by
  unfold State.exchangeStep
  split
  · exact hs
  · exact .ite hs (.ite hs.exchangeFail (.ite hs (.ite hs.upd.exchangeFail (.ite hs.upd.modTake.modTake hs.upd.modTake))))

theorem Follows.collEnd (hs : Follows s₀ s) {c : Coll} : Follows s₀ (s.collEnd c) := by
  unfold State.collEnd
  split
  · exact hs
  · split
    · exact hs.exchangeStep
    · split
      · exact .ite hs.upd.markDone.modGen.shotNext hs
      · exact hs

theorem Follows.cdataFor (hs : Follows s₀ s) {c : Coll} {f : Frame} : Follows s₀ (s.cdataFor c f) := by
  unfold State.cdataFor
  dsimp only
  split
  · exact .ite (Follows.ite hs.collSlot.treeFrame hs.collSlot.ringFrame).collEnd hs.answerRej.collFail
  · exact hs.answerRej.collFail

theorem Follows.takeEarly (hs : Follows s₀ s) {c : Coll} : Follows s₀ (s.takeEarly c) := by
  unfold State.takeEarly
  refine hs.upd.each fun _ _ ht => ?_
  split
  · exact ht.cdataFor
  · exact ht

theorem Follows.startColl (hs : Follows s₀ s) {c : Coll} : Follows s₀ (s.startColl c) := by
  unfold State.startColl
  refine .collEnd (.takeEarly ?_)
  refine .ite ?_ ?_
  · exact hs.upd.each fun _ _ ht => ht.each fun _ _ hu => hu.treeUp
  · exact .ite hs.upd (hs.upd.each fun _ _ ht => ht.each fun _ _ hu => .ite hu.gatherOn hu.sendCdata)

theorem Follows.modExch (hs : Follows s₀ s) {n g : Nat} {f : Exchange → Exchange} : Follows s₀ (s.modExch n g f) :=
  hs.upd

theorem Follows.openExch (hs : Follows s₀ s) {n g : Nat} : Follows s₀ (s.openExch n g) :=
  .ite hs hs.upd

theorem Follows.noteLate (hs : Follows s₀ s) {n : Nat} : Follows s₀ (s.noteLate n) :=
  hs.bump.offer

theorem Follows.ageLate (hs : Follows s₀ s) {n : Nat} : Follows s₀ (s.ageLate n) := by
  unfold State.ageLate
  exact (hs.each fun _ _ ht => ht.noteLate).modTake

theorem Follows.settleLate (hs : Follows s₀ s) {n g : Nat} : Follows s₀ (s.settleLate n g) := by
  unfold State.settleLate
  split
  · exact hs
  · refine .ite ?_ ?_
    · exact hs
    · exact .ite (hs.when fun _ ht => ht.noteLate).modTake ((hs.when fun _ ht => ht.noteLate).when fun _ ht => ht.noteLate).modTake

theorem Follows.maskCome (hs : Follows s₀ s) {n g : Nat} {incl : List Nat} {late : Bool} {verdict : Nat} :
    Follows s₀ (s.maskCome n g incl late verdict) := by
  unfold State.maskCome
  split
  · exact hs
  · refine .ite ?_ ?_
    · exact hs
    · refine .exchangeStep ?_
      refine (((hs.modExch.when fun _ ht => ht.modTake).when fun _ ht => ht.settleLate).when fun _ ht => ht.startColl).when fun _ ht => ?_
      exact ht.startColl

theorem Follows.exchDecide (hs : Follows s₀ s) {n g : Nat} {ovr : Bool} : Follows s₀ (s.exchDecide n g ovr) := by
  unfold State.exchDecide
  split
  · exact hs
  · exact .ite hs (.ite hs ((hs.modTake.each fun _ _ ht => ht.offer).each fun _ _ ht => ht.sendOn).maskCome)

theorem Follows.readyCome (hs : Follows s₀ s) {n g src verdict : Nat} : Follows s₀ (s.readyCome n g src verdict) :=
  hs.openExch.modExch.exchDecide

theorem Follows.takeEarlyExch (hs : Follows s₀ s) {n g : Nat} : Follows s₀ (s.takeEarlyExch n g) := by
  unfold State.takeEarlyExch
  refine hs.upd.each fun _ _ ht => ?_
  refine .ite ?_ ?_
  · exact ht.readyCome
  · split
    · exact ht.openExch.maskCome
    · exact ht

theorem Follows.startExchange (hs : Follows s₀ s) {n g verdict : Nat} : Follows s₀ (s.startExchange n g verdict) := by
  unfold State.startExchange
  dsimp only
  split
  · exact hs.openExch.modExch
  · split
    · refine .ite ?_ ?_
      · exact (Follows.ite hs.openExch.modExch.readyCome hs.openExch.modExch.sendOn).takeEarlyExch.settleLate.exchangeStep
      · exact (Follows.ite hs.openExch.modExch.readyCome hs.openExch.modExch.sendOn).takeEarlyExch
    · exact (Follows.ite hs.openExch.modExch.readyCome hs.openExch.modExch.sendOn).takeEarlyExch

/-! ### The functions of `Machine/LinkOps` -/

theorem Follows.svSend (hs : Follows s₀ s) {b : Nat} {c : TagCmd} {data : List (Byte × Bool)}
    (e : s.svSend b c data = some t) : Follows s₀ t := by
  unfold State.svSend at e
  dsimp only at e
  split at e
  · cases e
  · obtain ⟨-, e⟩ := Option.ite_none_right_eq_some.mp e
    exact Option.some.inj e ▸ hs.modLink.emit.each fun _ _ ht => ht.emit

theorem Follows.sendReads (hs : Follows s₀ s) {b n : Nat} : Follows s₀ (s.sendReads b n) := by
  induction n generalizing s with
  | zero => exact hs
  | succ n ih =>
    unfold State.sendReads
    split
    · exact hs
    · split
      · exact hs
      · exact ih (hs.svSend ‹_›).modLink

theorem Follows.goReads (hs : Follows s₀ s) {b : Nat} : Follows s₀ (s.goReads b) :=
  hs.sendReads

theorem Follows.lineReq (hs : Follows s₀ s) {key line : Nat} : Follows s₀ (s.lineReq key line) := by
  unfold State.lineReq
  split
  · exact hs
  · refine .ite ?_ ?_
    · exact hs
    · refine .ite ?_ ?_
      · exact (hs.each fun _ _ ht => ht.modLink).goReads
      · split
        · exact hs
        · exact hs.each fun _ _ ht => .ite ht ht.upd.emit

theorem Follows.lineCame (hs : Follows s₀ s) {key line : Nat} : Follows s₀ (s.lineCame key line) := by
  unfold State.lineCame
  split <;> exact hs.upd

theorem Follows.loseLine (hs : Follows s₀ s) {page line : Nat} {head : Bool} : Follows s₀ (s.loseLine page line head) := by
  unfold State.loseLine
  exact hs.upd

theorem Follows.losePiece (hs : Follows s₀ s) {page piece : Nat} : Follows s₀ (s.losePiece page piece) := by
  unfold State.losePiece
  split
  · exact hs.each fun _ _ ht => ht.loseLine
  · exact hs

theorem Follows.loseHome (hs : Follows s₀ s) {key : Nat} {lines : List Nat} : Follows s₀ (s.loseHome key lines) := by
  unfold State.loseHome
  exact (Follows.ite hs hs.noteLost).modPage

theorem Follows.loseRange (hs : Follows s₀ s) {gone : Nat → Nat → Bool} : Follows s₀ (s.loseRange gone) := by
  unfold State.loseRange
  refine hs.each fun _ _ ht => ?_
  split
  · exact .ite ht (.ite ht ht.loseHome)
  · exact ht

/-! ### The functions of `Machine/Shot` -/

theorem Follows.shotDo (hs : Follows s₀ s) {p e : Nat} {f : Gen → Gen} : Follows s₀ (s.shotDo p e f) :=
  hs.modGen.shotNext

theorem Follows.execShotNop (hs : Follows s₀ s) {p e : Nat} : Completes s₀ (execShotNop p e s) :=
  hs.gated fun _ ht => ht.shotNext

theorem Follows.execCnt (hs : Follows s₀ s) {p e k lim : Nat} {str : Int} : Completes s₀ (execCnt p e k lim str s) :=
  hs.gated fun _ ht => ht.shotDo

theorem Follows.execBase (hs : Follows s₀ s) {p e b cls addr : Nat} : Completes s₀ (execBase p e b cls addr s) :=
  hs.gated fun _ ht => ht.shotDo

theorem Follows.execOfs (hs : Follows s₀ s) {p e b : Nat} {off : Int} : Completes s₀ (execOfs p e b off s) :=
  hs.gated fun _ ht => ht.shotDo

theorem Follows.execFmt (hs : Follows s₀ s) {p e esz conv : Nat} : Completes s₀ (execFmt p e esz conv s) :=
  hs.gated fun _ ht => ht.shotDo

theorem Follows.execDl (hs : Follows s₀ s) {p e time pol : Nat} : Completes s₀ (execDl p e time pol s) :=
  hs.gated fun _ ht => ht.shotDo

theorem Follows.execPois (hs : Follows s₀ s) {p e : Nat} {abt : Bool} : Completes s₀ (execPois p e abt s) :=
  hs.gated fun _ ht => ht.shotDo

theorem Follows.execLoopc (hs : Follows s₀ s) {p e k tgt : Nat} : Completes s₀ (execLoopc p e k tgt s) :=
  hs.gated fun _ ht => ht.modGen

theorem Follows.execShotEnd (hs : Follows s₀ s) {p e : Nat} : Completes s₀ (execShotEnd p e s) :=
  hs.gated fun _ ht => ht.modGen

theorem Follows.engWait (hs : Follows s₀ s) {p e code : Nat} : Follows s₀ (s.engWait p e code) :=
  hs.modGen

theorem Follows.shotAct (hs : Follows s₀ s) {p e : Nat} {f : State → State} {raise : Bool}
    (hf : ∀ t, Follows s₀ t → Follows s₀ (f t)) : Follows s₀ (s.shotAct p e f raise) := by
  unfold State.shotAct
  split
  · exact hs
  · exact (Follows.ite hs (hf _ hs)).markDone.shotNext

theorem Follows.execWait (hs : Follows s₀ s) {p e sig : Nat} : Completes s₀ (execWait p e sig s) :=
  hs.gated fun _ ht => .ite ht.engFault (.ite (ht.shotAct fun _ hu => hu) (.ite (ht.waitSig.shotAct fun _ hu => hu) ht.waitSig.engWait))

theorem Follows.execRaise (hs : Follows s₀ s) {p e sig : Nat} : Completes s₀ (execRaise p e sig s) :=
  hs.gated fun _ ht => .ite ht.engFault (.ite (ht.shotAct fun _ hu => hu.raiseSig) ht.engWait)

theorem Follows.execRsig (hs : Follows s₀ s) {p e dev sig : Nat} : Completes s₀ (execRsig p e dev sig s) :=
  hs.gated fun _ ht => .ite ht.engWait (ht.shotAct fun _ hu => .ite hu.receiveSig hu.sendOn)

theorem Follows.armFull (hs : Follows s₀ s) {p e tgt : Nat} : Follows s₀ (s.armFull p e tgt) := by
  unfold State.armFull
  exact hs.setReg.raiseFlag.bump.raiseFlag.offerTile

theorem Follows.execArm (hs : Follows s₀ s) {p e tgt : Nat} {wt : Bool} {addr : Nat} :
    Completes s₀ (execArm p e tgt wt addr s) := by
  unfold Machine.execArm
  refine hs.gated fun _ ht => ?_
  split
  · exact ht
  · refine .ite ?_ ?_
    · exact ht.shotAct fun _ hu => hu
    · dsimp only
      split
      · exact ht.shotAct fun _ hu => hu.modEng.modPart
      · exact .ite ht.engWait (ht.shotAct fun _ hu => hu.armFull)

theorem Follows.execEmit (hs : Follows s₀ s) {p e b d slot near : Nat} : Completes s₀ (execEmit p e b d slot near s) := by
  unfold Machine.execEmit
  refine hs.gated fun _ ht => ?_
  split
  · exact ht
  · exact .ite ht.engFault (Follows.ite ht.spend ht).shotDo

theorem Follows.collAbort (hs : Follows s₀ s) {p e : Nat} {g : Gen} : Follows s₀ (s.collAbort p e g) :=
  hs.engAbort

theorem Follows.execColl (hs : Follows s₀ s) {p e op form fmt grp count : Nat} :
    Completes s₀ (execColl p e op form fmt grp count s) := by
  unfold Machine.execColl
  refine hs.gated fun _ ht => ?_
  split
  · exact ht
  · refine .ite ?_ ?_
    · exact ht.shotAct fun _ hu => hu
    · refine .ite ?_ ?_
      · exact ht.engFault
      · split
        · exact ht.collAbort
        · refine .ite ?_ ?_
          · exact ht.collAbort
          · refine .ite ?_ ?_
            · exact ht.engWait
            · refine ht.engPois fun _ hu => ?_
              dsimp only
              split
              · exact hu.modGen.collEnd
              · exact hu.modGen.upd.startColl

/-! ### The functions of `Machine/Stream` -/

theorem Follows.fetchArm (hs : Follows s₀ s) {p e : Nat} {a : Arm} {errs : List (Nat × Nat)} :
    Reads s₀ (s.fetchArm p e a errs) := by
  rw [State.fetchArm]
  split
  · exact hs.reads
  · generalize hr : s.partRead .. = r
    have hr : Follows s₀ r.1 := hr ▸ hs.partRead
    obtain ⟨u, f⟩ := r
    dsimp only
    split
    · exact hr.reads
    · exact hr.reads
    · split
      · exact hr.reads
      · generalize hq : u.partRead .. = q
        have hq : Follows s₀ q.1 := hq ▸ Follows.partRead hr
        obtain ⟨v, g⟩ := q
        exact hq.reads
    · exact hr.reads

theorem Follows.armLost (hs : Follows s₀ s) {p e : Nat} {a : Arm} : Follows s₀ (s.armLost p e a) :=
  hs.promote.abortTask

theorem Follows.armFail (hs : Follows s₀ s) {p e : Nat} {a : Arm} : Follows s₀ (s.armFail p e a) := by
  unfold State.armFail
  dsimp only
  split
  · exact hs.setReg.bump.promote.abortTask
  · exact hs.setReg.bump.promote.raiseFlag.modPart.feedCheck

theorem Follows.armAccept (hs : Follows s₀ s) {p e : Nat} {shadow : Bool} {g : Gen} :
    Follows s₀ (s.armAccept p e shadow g) := by
  unfold State.armAccept
  exact .ite hs.modEng.modEng.setReg.setReg.promote hs.modEng.startGen.setReg

theorem Follows.execArmCheckComplete (hs : Follows s₀ s) {p e : Nat} {shadow : Bool} {errs : List (Nat × Nat)} :
    Completes s₀ (execArmCheckComplete p e shadow errs s) := by
  unfold Machine.execArmCheckComplete
  dsimp only
  split
  · refine hs.gated fun _ ht => ?_
    split
    · exact .ite ht.fetchArm.abortTask ht.fetchArm.armAccept
    · exact ht.fetchArm.modEng.armFail
    · exact ht.fetchArm
    · exact ht.fetchArm.modEng.armLost
  · exact hs.next

theorem Follows.haltEng (hs : Follows s₀ s) {p e d : Nat} : Follows s₀ (s.haltEng p e d) :=
  hs.setReg.promote

theorem Follows.execStrmHaltWrite (hs : Follows s₀ s) {p e : Nat} {data : Word} :
    Completes s₀ (execStrmHaltWrite p e data s) :=
  hs.gated fun _ ht => ht.haltEng

theorem Follows.pushXfer (hs : Follows s₀ s) {p e : Nat} {b : Blk} {r : Run} {data : List (Byte × Bool)} {seq : Nat}
    {sent stage : Bool} : Follows s₀ (s.pushXfer p e b r data seq sent stage) :=
  hs.modGen

theorem Follows.modXfer (hs : Follows s₀ s) {p e i : Nat} {f : Xfer → Xfer} : Follows s₀ (s.modXfer p e i f) :=
  hs.modGen

/-- The state that a plan of a transfer comes to follows `s₀`. -/
def Plan.Kept (s₀ : State) : Plan → Prop
  | .go s => Follows s₀ s
  | .waits s _ => Follows s₀ s
  | .fault => True
  | .idle => True

theorem Plan.Kept.ite {c : Prop} [Decidable c] {a b : Plan} (ha : a.Kept s₀) (hb : b.Kept s₀) :
    (if c then a else b).Kept s₀ := by
  split
  · exact ha
  · exact hb

theorem Follows.planRead (hs : Follows s₀ s) {p e : Nat} {g : Gen} {b : Blk} {r : Run} : (s.planRead p e g b r).Kept s₀ := by
  unfold State.planRead
  refine .ite hs.bufAsk (.ite hs (.ite hs.pushXfer (.ite trivial (.ite hs (.ite ?_ ?_)))))
  · exact hs.each fun _ _ ht => ht.forceAscent
  · exact ((hs.each fun _ _ ht => ht.noteRead).each fun _ _ ht => ht.each fun _ _ hu => hu.lineReq).pushXfer.modGen

theorem Follows.writeVers (hs : Follows s₀ s) {logno rig space : Nat} {l : List (Nat × Nat × Nat)} :
    (s.writeVers logno rig space l).Kept s₀ := by
  induction l generalizing s with
  | nil => exact hs
  | cons x l ih =>
    unfold State.writeVers
    have hv := hs.writeVer (logno := logno) (rig := rig) (space := space) (addr := vpnOf x.1 * 65536 + x.2.1)
    split
    · trivial
    next h => exact (h ▸ hv :)
    next h => exact ih (h ▸ hv :)

theorem Follows.planWrite (hs : Follows s₀ s) {p e : Nat} {g : Gen} {b : Blk} {r : Run} {data : List (Byte × Bool)}
    {stage : Bool} :
    (s.planWrite p e g b r data stage).Kept s₀ := by
  unfold State.planWrite
  dsimp only
  split
  · exact hs.pushXfer
  · exact .ite hs.pushXfer hs.bufAsk
  · exact .ite hs.modPart.pushXfer (.ite hs.bufAsk (.ite hs.modPart.pushXfer (.ite hs.modPart.sendWr.pushXfer hs)))
  · refine .ite trivial (.ite hs.bufAsk ?_)
    have hv := hs.writeVers (logno := g.logno) (rig := (s.rigOf p).getD 0) (space := r.base.space)
      (l := pagePieces r.base.space r.addr r.len)
    split
    · trivial
    next h => exact (h ▸ hv :)
    next h => exact Follows.pushXfer (h ▸ hv :)

theorem Follows.plan (hs : Follows s₀ s) {p e : Nat} {errs : List (Nat × Nat)}
    {stage : Bool} : (s.plan p e errs stage).Kept s₀ := by
  unfold State.plan
  split
  · trivial
  · split
    · trivial
    · refine .ite trivial (.ite hs.planRead (.ite (.ite ?_ hs) ?_))
      · dsimp only
        split
        · split
          · exact Follows.planWrite (hs.raiseNums.engPois fun _ ht => ht)
          · exact hs.raiseNums.engPois fun _ ht => ht
        · exact hs.planWrite
      · dsimp only
        split
        · split
          · exact Follows.planWrite (hs.storeRead.engPois fun _ ht => ht)
          · exact hs.storeRead.engPois fun _ ht => ht
        · exact hs.planWrite

theorem Follows.plan_go (hs : Follows s₀ s) {p e : Nat} {errs : List (Nat × Nat)} {stage : Bool}
    (h : s.plan p e errs stage = .go t) : Follows s₀ t :=
  (h ▸ hs.plan : (Plan.go t).Kept s₀)

theorem Follows.plan_waits (hs : Follows s₀ s) {p e n : Nat} {errs : List (Nat × Nat)} {stage : Bool}
    (h : s.plan p e errs stage = .waits t n) : Follows s₀ t :=
  (h ▸ hs.plan : (Plan.waits t n).Kept s₀)

theorem Follows.tookPort (hs : Follows s₀ s) {s0 : State} {p e : Nat} : Follows s₀ (s.tookPort s0 p e) :=
  hs.modTile

theorem Follows.tookStore (hs : Follows s₀ s) {s0 : State} {p e : Nat} : Follows s₀ (s.tookStore s0 p e) :=
  hs.modTile

theorem Follows.moveStaged (hs : Follows s₀ s) {p e : Nat} : Follows s₀ (s.moveStaged p e) := by
  unfold State.moveStaged
  split
  · exact hs
  · exact (Follows.iteFst hs.sendWr hs).modXfer

theorem Follows.stageNext (hs : Follows s₀ s) {p e : Nat} {errs : List (Nat × Nat)} : Follows s₀ (s.stageNext p e errs) := by
  unfold State.stageNext
  refine .ite ?_ hs.engWait
  split
  next h => exact (hs.plan_go h).bufGot.when fun _ ht => ht.tookStore
  next h => exact (hs.plan_waits h).engWait
  · exact hs.engWait

theorem Follows.execTransferIssue (hs : Follows s₀ s) {p e : Nat} {errs : List (Nat × Nat)} :
    Completes s₀ (execTransferIssue p e errs s) := by
  unfold Machine.execTransferIssue
  refine .ite hs.moveStaged.tookPort.next ?_
  split
  · exact hs.next
  · exact hs.engFault.next
  next h => exact (Follows.ite hs.stageNext (hs.plan_waits h).engWait).next
  next h =>
    refine (Follows.ite ?_ hs.stageNext).next
    exact ((hs.plan_go h).bufGot.when fun _ ht => ht.tookPort).when fun _ ht => ht.tookStore

theorem Follows.moved (hs : Follows s₀ s) {p e n : Nat} {tier : Option Nat} : Follows s₀ (s.moved p e n tier) :=
  hs.bump.offer

theorem Follows.place (hs : Follows s₀ s) {p e logno lead : Nat} {x : Xfer} : Follows s₀ (s.place p e logno lead x) := by
  unfold State.place
  split
  · exact .ite hs.abortTask hs.modTile
  · exact hs.modTile
  · exact hs.storeWrite.modTile

theorem Follows.placeReady (hs : Follows s₀ s) {p e n : Nat} : Follows s₀ (s.placeReady p e n) := by
  induction n generalizing s with
  | zero => exact hs
  | succ n ih =>
    unfold State.placeReady
    split
    · exact hs
    · split
      · exact .ite (ih hs.modGen.place.moved) hs
      · exact hs

theorem Follows.arrive (hs : Follows s₀ s) {p e i : Nat} {d : List (Byte × Bool)} : Follows s₀ (s.arrive p e i d) := by
  unfold State.arrive
  split
  · exact hs
  · exact hs.engPois fun _ ht => ht.modXfer.placeReady

theorem Follows.replaceProxy (hs : Follows s₀ s) {p e i l : Nat} {proxy : Bool} :
    Follows s₀ (s.replaceProxy p e i l proxy) := by
  unfold State.replaceProxy
  split
  · exact hs.raiseFlag.raiseFlag.bump.offer.offer.modXfer.markProx
  · exact hs

theorem Follows.replacePois (hs : Follows s₀ s) {p e i l : Nat} {bytes : List Byte} :
    Follows s₀ (s.replacePois p e i l bytes) :=
  hs.modXfer

theorem Follows.countLate (hs : Follows s₀ s) {p e i l : Nat} {tier : Option Nat} :
    Follows s₀ (s.countLate p e i l tier) := by
  unfold State.countLate
  exact hs.raiseFlag.bump.offer.modXfer

theorem Follows.lostLines (hs : Follows s₀ s) {p e i : Nat} {x : Xfer} {proxy : Bool} {ls : List Nat} :
    Follows s₀ (s.lostLines p e i x proxy ls) := by
  unfold State.lostLines
  refine hs.each fun _ _ ht => ?_
  dsimp only
  split
  · exact ht.replaceProxy
  · exact ht.countLate.replacePois
  · exact ht.replacePois

theorem Follows.readPiece {logno lead : Nat} {x : Xfer} {errs : List (Nat × Nat)} {gone : List Nat} {acc : ReadAcc}
    {y : Nat × Nat × Nat} (ha : Follows s₀ acc.s) : Follows s₀ (s.readPiece logno lead x errs gone acc y).s := by
  unfold State.readPiece
  extract_lets ls s1 w lost nw er r co s2
  have h1 : Follows s₀ s1 := ha.each fun _ _ ht => ht.lineCame
  have h2 : Follows s₀ r.s := h1.readPage
  exact .ite h2.bump h2.bump.touch

theorem Follows.execReadTransferComplete (hs : Follows s₀ s) {p e x : Nat} {errs : List (Nat × Nat)} {lost : List Nat}
    {proxy : Bool} : Completes s₀ (execReadTransferComplete p e x errs lost proxy s) := by
  unfold Machine.execReadTransferComplete
  split
  · refine hs.gated fun u hu => .ite hu.storeRead.arrive ?_
    extract_lets gone r u2 wr ue
    have hr : Follows s₀ r.s := each_ind (fun acc : ReadAcc => Follows s₀ acc.s) _ _ _ hu
      fun _ _ _ ha => Follows.readPiece (acc := _) ha
    refine .ite (hu.upd.each fun _ _ ht => ht.lineCame.lineReq) (.ite ?_ hr.wakeEng.lostLines.arrive)
    exact hr.wakeEng.modXfer.each fun _ _ ht => ht.wantReread
  · exact hs.next

theorem Follows.execDeadlineExpiry (hs : Follows s₀ s) {p e x line : Nat} {proxy : Bool} :
    Completes s₀ (execDeadlineExpiry p e x line proxy s) := by
  unfold Machine.execDeadlineExpiry
  split
  · refine hs.gated fun _ ht => ?_
    dsimp only
    split
    · refine .wakeEng ?_
      split
      · exact ht.replaceProxy
      · exact ht.countLate.replacePois
      · exact ht.countLate
    · refine .ite ?_ ?_
      · refine .arrive (.wakeEng ?_)
        split
        · exact ht.replaceProxy
        · exact ht.countLate.replacePois
        · exact ht.countLate
      · refine Follows.engPois ?_ fun _ hu => hu
        refine .wakeEng ?_
        split
        · exact ht.replaceProxy
        · exact ht.countLate.replacePois
        · exact ht.countLate
  · exact hs.next

theorem Follows.wakePage (hs : Follows s₀ s) {key : Nat} : Follows s₀ (s.wakePage key) := by
  unfold State.wakePage
  refine hs.each fun _ _ ht => ?_
  refine ht.each fun _ _ hu => ?_
  split
  · split
    · exact hu.when fun _ hv => hv.wakeEng
    · exact hu
  · exact hu

theorem Follows.wcTake (hs : Follows s₀ s) {p e logno rig : Nat} {x : Xfer} (h : s.wcTake p e logno rig x = some t) :
    Follows s₀ t := by
  refine each_ind (fun o => ∀ t, o = some t → Follows s₀ t) _ _ _ ?_ ?_ t h
  · exact fun t ht => Option.some.inj ht ▸ hs
  · intro o y _ ho t ht
    obtain ⟨u, hu, ht⟩ := Option.bind_eq_some_iff.mp ht
    dsimp only at ht
    split at ht
    · cases ht
      exact (ho u hu).wcWrite
    · cases ht

theorem Follows.execWriteTransferComplete (hs : Follows s₀ s) {p e x : Nat} :
    Completes s₀ (execWriteTransferComplete p e x s) := by
  unfold Machine.execWriteTransferComplete
  split
  · refine hs.gated fun u hu => ?_
    dsimp only
    split
    · exact hu.modGen.storeWrite.moved
    · exact hu.modGen.storeWrite.moved
    · split
      · exact hu.bufAsk
      next h => exact ((hu.wcTake h).bufGot.modGen.each fun _ _ ht => ht.touch).moved
  · exact hs.next

theorem Follows.releaseBanks (hs : Follows s₀ s) {p : Nat} {g : Gen} : Follows s₀ (s.releaseBanks p g) :=
  hs.each fun _ _ ht => .ite ht.modBank ht

theorem Follows.execGenerationComplete (hs : Follows s₀ s) {p e : Nat} : Completes s₀ (execGenerationComplete p e s) := by
  unfold Machine.execGenerationComplete
  split
  · exact hs.next
  · exact hs.gated fun _ ht => ht.markDone.modPart.releaseBanks.modEng.promote.feedCheck

theorem Follows.engFails (hs : Follows s₀ s) {p ph : Nat} : Follows s₀ (s.engFails p ph) :=
  .ite hs.modTile hs.setReg.needTile

theorem Follows.engParity (hs : Follows s₀ s) {p e : Nat} : Follows s₀ (s.engParity p e) := by
  unfold State.engParity
  exact .ite hs.parityOf.engFails hs.parityOf

theorem Follows.execStreamParityError (hs : Follows s₀ s) {p e : Nat} {shadow : Bool} {unread : Unread} :
    Completes s₀ (execStreamParityError p e shadow unread s) := by
  unfold Machine.execStreamParityError
  refine .ite ?_ ?_
  · split
    · refine Follows.next ?_
      split
      · exact hs.fetchArm.modEng
      · exact hs.fetchArm.modEng.armFail
      · exact hs.fetchArm.modEng
      · exact hs.fetchArm.modEng.armLost
    · exact hs.next
  · split
    · exact hs.next
    · exact hs.raiseFlag.engParity.unwait.modEng.faultPart.next

theorem Follows.serveReader (hs : Follows s₀ s) {r : Nat × Nat × Nat} : Follows s₀ (s.serveReader r) := by
  unfold State.serveReader
  split
  · exact hs
  · exact .ite hs hs.modXfer.arrive

theorem Follows.execNegativeReadComplete (hs : Follows s₀ s) {page line : Nat} {ok : Bool} :
    Completes s₀ (execNegativeReadComplete page line ok s) := by
  unfold Machine.execNegativeReadComplete
  split
  · exact hs.next
  · refine .ite ?_ ?_
    · exact (hs.upd.countLine.modPage.bump.offer.recovery.each fun _ _ ht => ht.serveReader).next
    · refine .ite ?_ ?_
      · exact hs.upd.next
      · refine Follows.next ?_
        refine Follows.each ?_ fun _ _ ht => ht.abortTask
        refine hs.upd.modPage.each fun _ _ ht => ?_
        split
        · exact ht.engAbort
        · exact ht

/-! ### The functions of `Machine/QueueOps` -/

theorem Follows.modSq (hs : Follows s₀ s) {n : Nat} {f : Sq → Sq} : Follows s₀ (s.modSq n f) :=
  hs.upd

theorem Follows.modCq (hs : Follows s₀ s) {m : Nat} {f : Cq → Cq} : Follows s₀ (s.modCq m f) :=
  hs.upd

theorem Follows.sendVector (hs : Follows s₀ s) {vec : Nat} {rig : Option Nat} : Follows s₀ (s.sendVector vec rig) :=
  .ite hs.emit.bump.offer hs.upd

theorem Follows.trySend (hs : Follows s₀ s) {m : Nat} : Follows s₀ (s.trySend m) := by
  unfold State.trySend
  split
  · exact .ite hs.modCq.sendVector hs
  · exact hs

theorem Follows.driveCompl (hs : Follows s₀ s) {c : Compl} : Follows s₀ (s.driveCompl c) := by
  unfold State.driveCompl
  split
  · exact hs
  · exact hs.emit.modCq.bump.offer.trySend

theorem Follows.writeCompl (hs : Follows s₀ s) {c : Compl} : Follows s₀ (s.writeCompl c) := by
  unfold State.writeCompl
  exact .ite hs.writeLog.driveCompl hs.writeLog.upd

theorem Follows.postCompl (hs : Follows s₀ s) {c : Compl} : Follows s₀ (s.postCompl c) :=
  .ite (.ite hs.upd hs.writeCompl) (.ite hs.modCq.writeCompl hs.upd.offer)

theorem Follows.serveCq (hs : Follows s₀ s) {m k : Nat} : Follows s₀ (State.serveCq m k s) := by
  induction k generalizing s with
  | zero => exact hs
  | succ k ih =>
    unfold State.serveCq
    split
    · exact .ite hs (.ite (ih hs.upd.writeCompl) (.ite (ih hs.upd.modCq.writeCompl) hs))
    · exact hs

theorem Follows.driveAcked (hs : Follows s₀ s) : Follows s₀ s.driveAcked :=
  hs.each fun _ _ ht => ht.upd.driveCompl.serveCq

theorem Follows.closingEnd (hs : Follows s₀ s) {n : Nat} : Follows s₀ (s.closingEnd n) :=
  .ite hs.modTake hs

theorem Follows.dropRecords (hs : Follows s₀ s) {logno : Nat} : Follows s₀ (s.dropRecords logno) :=
  hs.upd.dropHeld.ringCheck

theorem Follows.finishSheet (hs : Follows s₀ s) {logno : Nat} : Follows s₀ (s.finishSheet logno) := by
  unfold State.finishSheet
  split
  · exact hs
  · refine .closingEnd ?_
    refine .ite ?_ ?_
    · exact (hs.when fun _ ht => (ht.recOf fun _ _ hu => hu.recAbort).upd).upd.dropRecords.upd
    · exact (hs.when fun _ ht => (ht.recOf fun _ _ hu => hu.recAbort).upd).upd.dropRecords.postCompl

theorem Follows.failSheet (hs : Follows s₀ s) {logno status detail part : Nat} :
    Follows s₀ (s.failSheet logno status detail part) :=
  hs.modSheet.finishSheet

theorem Follows.releaseHeld (hs : Follows s₀ s) {n : Nat} {print : Bool} {cause : Nat} :
    Follows s₀ (s.releaseHeld n print cause) := by
  unfold State.releaseHeld
  dsimp only
  split
  · exact hs
  · exact hs.upd.postCompl

/-! ### The functions of `Machine/LedgerOps` -/

theorem Follows.sendPrinted (hs : Follows s₀ s) {key : Nat} : Follows s₀ (s.sendPrinted key) :=
  hs.sendPage

theorem Follows.mirrorPage (hs : Follows s₀ s) {key : Nat} : Follows s₀ (s.mirrorPage key) := by
  unfold State.mirrorPage
  refine .upd ?_
  split
  · exact hs.sendPrinted.sendPage
  · exact hs.sendPrinted

theorem Follows.ackAll (hs : Follows s₀ s) : Follows s₀ s.ackAll :=
  hs.upd.driveAcked

theorem Follows.suspendMirror (hs : Follows s₀ s) : Follows s₀ s.suspendMirror :=
  hs.setReg.offer.ackAll

theorem Follows.mirrorNew (hs : Follows s₀ s) : Follows s₀ s.mirrorNew :=
  .ite (.ite hs.spend.suspendMirror (hs.spend.each fun _ _ ht => ht.mirrorPage)) hs

theorem Follows.sendStaged (hs : Follows s₀ s) {n : Nat} : Follows s₀ (s.sendStaged n) := by
  unfold State.sendStaged
  refine .ite ?_ ?_
  · refine (hs.each fun _ _ ht => ht.sendPage).each fun _ _ ht => ?_
    split
    · exact ht.sendPage
    · exact ht
  · exact hs

theorem Follows.dropLedger (hs : Follows s₀ s) {key : Nat} : Follows s₀ (s.dropLedger key) := by
  unfold State.dropLedger
  exact hs.upd.modPage.when fun _ ht => ht.sendPrinted

theorem Follows.countFold (hs : Follows s₀ s) {key : Nat} : Follows s₀ (s.countFold key) :=
  hs.tier0Bytes.bump.offer

theorem Follows.countForce (hs : Follows s₀ s) {key : Nat} : Follows s₀ (s.countForce key) :=
  hs.bump.offer

theorem Follows.foldHere (hs : Follows s₀ s) {key : Nat} {l : Ledger} : Follows s₀ (s.foldHere key l) := by
  unfold State.foldHere
  exact (hs.upd.when fun _ ht => ht.tier0Bytes).modPage.countFold.dropLedger

theorem Follows.foldIn (hs : Follows s₀ s) {key : Nat} : Follows s₀ (s.foldIn key) := by
  unfold State.foldIn
  split
  · exact hs.foldHere
  · exact hs

theorem Follows.stageRead (hs : Follows s₀ s) {n space addr bytes : Nat} : Follows s₀ (s.stageRead n space addr bytes) :=
  hs.each fun _ _ ht => .ite ht.tier0Bytes ht

theorem Follows.stageForce (hs : Follows s₀ s) {n : Nat} {pages : List Nat} : Follows s₀ (s.stageForce n pages) :=
  hs.each fun _ _ ht => ht.forceAscent

theorem Follows.stageWrite (hs : Follows s₀ s) {n key : Nat} {bs : List Byte} : Follows s₀ (s.stageWrite n key bs) := by
  unfold State.stageWrite
  exact ((Follows.ite hs hs.upd).each fun _ _ ht => ht.flushLine).modVer.tier0Bytes

theorem Follows.stageRange (hs : Follows s₀ s) {n space addr : Nat} {bs : List Byte} :
    Follows s₀ (s.stageRange n space addr bs) :=
  hs.each fun _ _ ht => ht.stageWrite

/-! ### The functions of `Machine/MapOps` -/

theorem Follows.unmapPage (hs : Follows s₀ s) {key : Nat} : Follows s₀ (s.unmapPage key) := by
  unfold State.unmapPage
  refine .upd ?_
  split
  · exact hs.deallocate.deallocate
  · exact hs

/-- The state that a page of a mapping command comes to follows `s₀`. -/
def PageStep.Kept (s₀ : State) : PageStep → Prop
  | .done s => Follows s₀ s
  | .waits s => Follows s₀ s
  | .fails s _ => Follows s₀ s

theorem PageStep.Kept.ite {c : Prop} [Decidable c] {a b : PageStep} (ha : a.Kept s₀) (hb : b.Kept s₀) :
    (if c then a else b).Kept s₀ := by
  split
  · exact ha
  · exact hb

theorem Follows.mcmdPage (hs : Follows s₀ s) {c : MCmd} {key : Nat} : (s.mcmdPage c key).Kept s₀ := by
  unfold State.mcmdPage
  split
  · exact .ite hs.upd hs
  · exact hs
  · exact hs
  · exact .ite hs hs.unmapPage
  · exact .ite hs (.ite hs hs)
  · exact .ite hs (.ite hs.upd.modPage (.ite hs hs.upd))
  · exact hs.modPage
  · exact .ite hs hs.modPage
  · exact .ite hs (.ite hs.foldIn hs.forceAscent)
  · exact hs

theorem Follows.mcmdEnd (hs : Follows s₀ s) {done err : Nat} : Follows s₀ (s.mcmdEnd done err) := by
  unfold State.mcmdEnd
  exact hs.upd.setReg.setReg.setReg.when fun _ ht => ht.raiseFlag

theorem Follows.mcmdRun (hs : Follows s₀ s) {n : Nat} : Follows s₀ (State.mcmdRun n s) := by
  induction n generalizing s with
  | zero => exact hs
  | succ n ih =>
    unfold State.mcmdRun
    split
    · exact hs
    next c _ =>
      refine .ite hs.mcmdEnd ?_
      dsimp only
      have hp := hs.mcmdPage (c := c) (key := pageKey c.space (c.vpn + c.done))
      split
      next h =>
        rw [h] at hp
        exact Follows.mcmdEnd hp
      next h =>
        rw [h] at hp
        exact Follows.upd hp
      next h =>
        rw [h] at hp
        exact ih (Follows.setReg (Follows.upd hp))

theorem Follows.mcmdRetry (hs : Follows s₀ s) : Follows s₀ s.mcmdRetry := by
  unfold State.mcmdRetry
  split
  · exact hs.mcmdRun
  · exact hs

/-! ### The functions of `Machine/Host` -/

theorem Follows.execSnoop (hs : Follows s₀ s) {addr : Nat} : Completes s₀ (execSnoop addr s) :=
  hs.emit.next

theorem Follows.refuseHost (hs : Follows s₀ s) {off : Nat} : Follows s₀ (s.refuseHost off) :=
  hs.raiseFlag.setReg.setReg.offer

theorem Follows.answerWindow (hs : Follows s₀ s) {off : Nat} {data : List (Byte × Bool)} :
    Follows s₀ (s.answerWindow off data) :=
  hs.emit

theorem Follows.refuseRead (hs : Follows s₀ s) {off : Nat} : Follows s₀ (s.refuseRead off) :=
  hs.refuseHost.emit

theorem Follows.stagingRead (hs : Follows s₀ s) {a n : Nat} {errs : List (Nat × Nat)} :
    Follows s₀ (s.stagingRead a n errs).1 := by
  unfold State.stagingRead
  exact (Follows.ite hs hs.spend).upd.noteEcc.pair

theorem Follows.execHostWindowRead (hs : Follows s₀ s) {off : Nat} {errs : List (Nat × Nat)} {lost : Bool} :
    Completes s₀ (execHostWindowRead off errs lost s) := by
  unfold Machine.execHostWindowRead
  refine Follows.next ?_
  refine .ite ?_ ?_
  · exact hs
  · refine .ite ?_ ?_
    · exact hs.refuseRead
    · refine .ite ?_ ?_
      · exact .ite hs.stagingRead.tier0Bytes.answerWindow hs.answerWindow
      · split
        · exact hs.refuseRead
        · split
          · exact hs.refuseRead
          · refine .ite ?_ ?_
            · exact hs.forceAscent
            · exact .ite hs (.ite hs.readPage (.ite hs.readPage.touch.answerWindow (.ite hs.readPage.wantReread hs.readPage)))

theorem Follows.execHostWindowWrite (hs : Follows s₀ s) {off : Nat} {data : List Byte} {mask : Nat} {errs : List (Nat × Nat)} :
    Completes s₀ (execHostWindowWrite off data mask errs s) := by
  unfold Machine.execHostWindowWrite
  refine Follows.next ?_
  refine .ite ?_ ?_
  · exact hs
  · refine .ite ?_ ?_
    · exact hs.refuseHost
    · refine .ite ?_ ?_
      · exact .ite hs.upd.tier0Bytes hs
      · split
        · exact hs.refuseHost
        · split
          · exact hs.refuseHost
          · refine .ite ?_ ?_
            · exact hs.refuseHost
            · refine .ite ?_ ?_
              · exact hs.outsideWait
              · split
                · exact hs.touch
                · exact (hs.readForModify.outsideWrite.each fun _ _ ht => ht.landBytes).countLine.touch

theorem Follows.execUcieModuleRetrain (hs : Follows s₀ s) {m : Nat} : Completes s₀ (execUcieModuleRetrain m s) :=
  hs.gated fun _ ht => ht.setReg

theorem Follows.ucieResult (hs : Follows s₀ s) {m : Nat} {r : UcieReport} : Follows s₀ (s.ucieResult m r) := by
  unfold State.ucieResult
  exact hs.setReg.setReg.setReg.each fun _ _ ht => ht.spareIn

theorem Follows.ucieGo (hs : Follows s₀ s) : Follows s₀ s.ucieGo :=
  hs.driveAcked.each fun _ _ ht => ht.trySend

theorem Follows.execUcieRetrainComplete (hs : Follows s₀ s) {m : Nat} {r : UcieReport} :
    Completes s₀ (execUcieRetrainComplete m r s) :=
  hs.gated fun _ ht => ht.ucieResult.journalTraining.recovery.ucieGo

/-! ### The functions of `Machine/Boot` -/

theorem Follows.toStep1 (hs : Follows s₀ s) {porst : Bool} : Follows s₀ (s.toStep1 porst) := by
  unfold State.toStep1
  extract_lets _ s1 s2 s3
  have h1 : Follows s₀ s1 := ⟨hs.pending, hs.fuses, fun _ => rfl⟩
  have h3 : Follows s₀ s3 := .ite (Follows.upd (s := s2) h1.setReg) h1.setReg
  exact .ite (h3.upd.setReg.each fun _ _ ht => ht.each fun _ _ hu => hu.setReg) h3

theorem Follows.execPorstAssert (hs : Follows s₀ s) : Completes s₀ (execPorstAssert s) :=
  hs.toStep1.next

theorem Follows.execSupplyOutOfRange (hs : Follows s₀ s) {_rail : Nat} : Completes s₀ (execSupplyOutOfRange _rail s) :=
  hs.toStep1.next

theorem Follows.execResetRelease (hs : Follows s₀ s) : Completes s₀ (execResetRelease s) :=
  hs.gated fun _ ht => ht.setReg.newNonce.upd.spend.upd

theorem Follows.journalBoot (hs : Follows s₀ s) : Follows s₀ s.journalBoot :=
  hs.journal

theorem Follows.bootFail (hs : Follows s₀ s) {code : Nat} : Follows s₀ (s.bootFail code) := by
  unfold State.bootFail
  exact ((Follows.ite hs.readFlog hs).each fun _ _ ht => ht.modLink.linkState).setReg.setReg.journalBoot

theorem Follows.nextStep (hs : Follows s₀ s) : Follows s₀ s.nextStep :=
  hs.setReg

theorem Follows.readFuses (hs : Follows s₀ s) : Follows s₀ s.readFuses := by
  unfold State.readFuses
  exact ((hs.each fun _ _ ht => ht.setReg.setReg).each fun _ _ ht => ht.setReg.setReg).setReg.setReg

theorem Follows.powerFill (hs : Follows s₀ s) : Follows s₀ s.powerFill :=
  hs.upd

theorem Follows.selfCheck (hs : Follows s₀ s) {x : Nat} : Follows s₀ (s.selfCheck x) :=
  .ite hs.engFails hs.laneFails

theorem Follows.coreStep (hs : Follows s₀ s) {failed : Nat} {units : List Nat} : Follows s₀ (s.coreStep failed units) := by
  unfold State.coreStep
  exact .ite hs.bootFail (hs.restoreFlog.upd.each fun _ _ ht => ht.selfCheck).nextStep

theorem Follows.runCopy (hs : Follows s₀ s) {c : Nat} : Follows s₀ (s.runCopy c) := by
  unfold State.runCopy
  exact hs.setReg.setReg.upd

theorem Follows.firmwareStep (hs : Follows s₀ s) : Follows s₀ s.firmwareStep := by
  unfold State.firmwareStep
  exact .ite hs.runCopy.nextStep (.ite hs.runCopy.nextStep hs.setReg.bootFail)

theorem Follows.ucieStep (hs : Follows s₀ s) {v : Nat → Nat} : Follows s₀ (s.ucieStep v) := by
  unfold State.ucieStep
  refine .ite ?_ ?_
  · exact hs.ucieResult.ucieResult.journalTraining.journalTraining.nextStep.requestAct
  · exact hs.ucieResult.ucieResult.journalTraining.journalTraining.bootFail

theorem Follows.endFill (hs : Follows s₀ s) : Follows s₀ s.endFill := by
  unfold State.endFill
  split
  · exact hs.endAct
  · exact hs

theorem Follows.hbmStep (hs : Follows s₀ s) {v : Nat → Nat} {dq : List Nat} : Follows s₀ (s.hbmStep v dq) := by
  unfold State.hbmStep
  refine .ite ?_ ?_
  · exact (hs.endFill.each fun _ _ ht => ht.dqLanes).bootFail
  · refine .ite ?_ ?_
    · exact (hs.endFill.each fun _ _ ht => ht.dqLanes).bootFail
    · refine .nextStep ?_
      refine ((hs.endFill.each fun _ _ ht => ht.dqLanes).setReg.setReg.setReg.setReg.setReg.each fun _ _ ht => ht.setReg).each fun _ _ ht => ?_
      exact ht.setReg

theorem Follows.setHdm (hs : Follows s₀ s) : Follows s₀ s.setHdm :=
  hs.each fun _ _ ht => ht.emit

theorem Follows.setDrives (hs : Follows s₀ s) : Follows s₀ s.setDrives :=
  (hs.each fun _ _ ht => ht.each fun _ _ hu => hu.emit).healthLogs

theorem Follows.portStep (hs : Follows s₀ s) {vals : List Nat} : Follows s₀ (s.portStep vals) := by
  unfold State.portStep
  exact hs.setReg.setReg.upd.setHdm.setDrives.nextStep

theorem Follows.execBootStepComplete (hs : Follows s₀ s) {r : BootReport} : Completes s₀ (execBootStepComplete r s) := by
  unfold Machine.execBootStepComplete
  refine hs.gated fun _ ht => ?_
  split
  · exact .ite ht.bootFail (.ite ht.bootFail ht.upd.readFuses.nextStep)
  · exact .ite ht.bootFail ht.powerFill.nextStep
  · exact ht.coreStep
  · exact ht.firmwareStep
  · exact ht.ucieStep
  · exact ht.hbmStep
  · exact ht.portStep
  · exact ht.upd.nextStep
  · exact ht.setReg.journalBoot
  · exact ht

/-! ### The functions of `Machine/Events` -/

theorem Follows.gctl (hs : Follows s₀ s) {d : Nat} : Follows s₀ (s.gctl d) := by
  unfold State.gctl
  exact (hs.when fun _ ht => ht.each fun _ _ hu => hu.setReg).setReg

theorem Follows.execClrall (hs : Follows s₀ s) {data : Word} : Completes s₀ (execClrall data s) :=
  hs.gated fun _ ht => ht.gctl

theorem Follows.execFreezeWrite (hs : Follows s₀ s) {data : Word} : Completes s₀ (execFreezeWrite data s) :=
  hs.gated fun _ ht => ht.gctl

theorem Follows.counterCtl (hs : Follows s₀ s) {c d : Nat} : Follows s₀ (s.counterCtl c d) := by
  unfold State.counterCtl
  refine .setReg ?_
  refine .ite ?_ ?_
  · exact ((hs.when fun _ ht => ht.setReg).when fun _ ht => ht.setReg).staticWrite
  · exact ((hs.when fun _ ht => ht.setReg).when fun _ ht => ht.setReg).staticWrite.upd

theorem Follows.execCounterEnableWrite (hs : Follows s₀ s) {c : Nat} {data : Word} :
    Completes s₀ (execCounterEnableWrite c data s) :=
  hs.gated fun _ ht => ht.counterCtl

theorem Follows.counterSel (hs : Follows s₀ s) {c d : Nat} : Follows s₀ (s.counterSel c d) := by
  unfold State.counterSel
  exact (Follows.ite hs.raiseFlag hs.staticWrite).staticWrite.staticWrite.staticWrite.staticWrite

theorem Follows.counterSig (hs : Follows s₀ s) {c d : Nat} : Follows s₀ (s.counterSig c d) := by
  unfold State.counterSig
  exact hs.staticWrite.staticWrite

theorem Follows.counterCnt (hs : Follows s₀ s) {c : Nat} {high : Bool} {d : Nat} : Follows s₀ (s.counterCnt c high d) := by
  unfold State.counterCnt
  exact hs.staticWrite

theorem Follows.flcfg (hs : Follows s₀ s) {d : Nat} : Follows s₀ (s.flcfg d) :=
  .ite hs.raiseFlag hs.setReg

theorem Follows.flcmd (hs : Follows s₀ s) {d : Nat} : Follows s₀ (s.flcmd d) := by
  unfold State.flcmd
  exact .ite hs.setReg (.ite hs.setReg.raiseFlag (.ite hs.setReg.wantCommit hs.setReg))

theorem Follows.execFlightLogCommitCmd (hs : Follows s₀ s) {data : Word} : Completes s₀ (execFlightLogCommitCmd data s) :=
  hs.gated fun _ ht => ht.flcmd

theorem Follows.execFlogCommitDone (hs : Follows s₀ s) {failed : List Nat} : Completes s₀ (execFlogCommitDone failed s) := by
  unfold Machine.execFlogCommitDone
  split
  · exact hs.commitNow.upd.endAct.setReg.setReg.next
  · exact hs.next

theorem Follows.execLatencySample (hs : Follows s₀ s) {p : Nat} {ratios : List Nat} :
    Completes s₀ (execLatencySample p ratios s) := by
  unfold Machine.execLatencySample
  exact hs.upd.next

/-! ### The functions of `Machine/TetherOps` -/

theorem Follows.setTw (hs : Follows s₀ s) {st : Nat} : Follows s₀ (s.setTw st) :=
  hs.setReg

theorem Follows.tryPaired (hs : Follows s₀ s) : Follows s₀ s.tryPaired :=
  .ite hs.setTw hs

theorem Follows.startBaseline (hs : Follows s₀ s) : Follows s₀ s.startBaseline := by
  unfold State.startBaseline
  refine .ite ?_ ?_
  · refine .tryPaired ?_
    refine Follows.each ?_ fun _ _ ht => ht.sendStaged
    refine Follows.when ?_ fun _ ht => (ht.when fun _ hu => hu.sendTether).bump.upd
    exact ((hs.setTw.setReg.upd.when fun _ ht => ht.each fun _ _ hu => hu.mirrorPage).each fun _ _ ht => ht.sendStaged).upd
  · exact hs

theorem Follows.sendPair (hs : Follows s₀ s) : Follows s₀ s.sendPair := by
  unfold State.sendPair
  exact hs.setTw.upd.sendTether

theorem Follows.comparePeer (hs : Follows s₀ s) : Follows s₀ s.comparePeer :=
  .ite hs.sendPair hs.raiseFlag.setTw

theorem Follows.twinHello (hs : Follows s₀ s) {src : Nat} : Follows s₀ (s.twinHello src) := by
  unfold State.twinHello
  exact .ite hs.setReg.upd.comparePeer hs.setReg.upd

theorem Follows.pairRefused (hs : Follows s₀ s) : Follows s₀ s.pairRefused := by
  unfold State.pairRefused
  exact hs.raiseFlag.setTw.dropMirror.upd

/-! ### The functions of `Machine/Fabric` -/

theorem Follows.passRoute (hs : Follows s₀ s) {f : Frame} : Follows s₀ (s.passRoute f).1 := by
  unfold State.passRoute
  exact .iteFst (Follows.ite hs.upd hs).pair (.iteFst hs hs.upd.pair)

theorem Follows.execFrameTransit (hs : Follows s₀ s) {port : Nat} {f : Frame} :
    Completes s₀ (execFrameTransit port f s) := by
  unfold Machine.execFrameTransit
  refine hs.gated fun _ ht => ?_
  exact .ite ht.tookFrame.offer (.ite ht.tookFrame.raiseFlag.offer (.ite ht.tookFrame.passRoute.sendRej ht.tookFrame.passRoute.sendVia))

theorem Follows.execWrFrame (hs : Follows s₀ s) {port : Nat} {f : Frame} : Completes s₀ (execWrFrame port f s) :=
  hs.gated fun _ ht => ht.openStream.modLink.takeInbox

theorem Follows.execRemoteWriteVisible (hs : Follows s₀ s) {stream seq : Nat} {errs : List (Nat × Nat)} :
    Completes s₀ (execRemoteWriteVisible stream seq errs s) := by
  unfold Machine.execRemoteWriteVisible
  split
  · exact hs.gated fun _ ht => ht.wrLand
  · exact hs.next

theorem Follows.execWack (hs : Follows s₀ s) {port : Nat} {f : Frame} : Completes s₀ (execWack port f s) :=
  hs.gated fun _ ht => ht.tookFrame.receiveWack

theorem Follows.execSig (hs : Follows s₀ s) {port : Nat} {f : Frame} : Completes s₀ (execSig port f s) :=
  hs.gated fun _ ht => ht.tookFrame.receiveSig

theorem Follows.execSigHoldTimeout (hs : Follows s₀ s) {i : Nat} : Completes s₀ (execSigHoldTimeout i s) := by
  unfold Machine.execSigHoldTimeout
  split
  · exact hs.gated fun _ ht => ht.upd.raiseFlag.offer.freeStreams
  · exact hs.next

theorem Follows.execRej (hs : Follows s₀ s) {port : Nat} {f : Frame} : Completes s₀ (execRej port f s) :=
  hs.gated fun _ ht => ht.tookFrame.receiveRej

theorem Follows.execCdata (hs : Follows s₀ s) {port : Nat} {f : Frame} : Completes s₀ (execCdata port f s) := by
  unfold Machine.execCdata
  refine hs.gated fun _ ht => ?_
  dsimp only
  split
  · exact ht.tookFrame.cdataFor
  · exact .ite (.ite ht.tookFrame.upd ht.tookFrame) (.ite ht.tookFrame (.ite ht.tookFrame.answerRej (.ite ht.tookFrame.upd ht)))

theorem Follows.readyLate (hs : Follows s₀ s) {f : Frame} : Follows s₀ (s.readyLate f) := by
  unfold State.readyLate
  exact .ite hs.sendOn hs

theorem Follows.execReady (hs : Follows s₀ s) {port : Nat} {f : Frame} : Completes s₀ (execReady port f s) :=
  hs.gated fun _ ht => .ite ht.tookFrame.readyCome (.ite ht.tookFrame.upd ht.tookFrame.readyLate)

theorem Follows.execMask (hs : Follows s₀ s) {port : Nat} {f : Frame} : Completes s₀ (execMask port f s) := by
  unfold Machine.execMask
  refine hs.gated fun _ ht => ?_
  dsimp only
  split
  · exact .ite ht.tookFrame.openExch.maskCome (.ite ht.tookFrame.upd ht.tookFrame)
  · exact ht.tookFrame

theorem Follows.execHello (hs : Follows s₀ s) {port : Nat} {f : Frame} : Completes s₀ (execHello port f s) :=
  hs.gated fun _ ht => .ite ht.tookFrame.setReg ht.tookFrame.twinHello

/-! ### The functions of `Machine/Links` -/

theorem Follows.endLinkAct (hs : Follows s₀ s) {port : Nat} : Follows s₀ (s.endLinkAct port) := by
  unfold State.endLinkAct
  split
  · exact hs.endAct
  · exact hs

theorem Follows.linkFails (hs : Follows s₀ s) {port st : Nat} {lanes : Bool} : Follows s₀ (s.linkFails port st lanes) := by
  unfold State.linkFails
  refine .endLinkAct ?_
  refine .ite ?_ ?_
  · exact (Follows.ite (hs.each fun _ _ ht => ht.losePiece).loseRange (hs.each fun _ _ ht => ht.losePiece)).modLink.linkState.reroute
  · refine .ite ?_ ?_
    · exact (Follows.ite (hs.each fun _ _ ht => ht.losePiece).loseRange (hs.each fun _ _ ht => ht.losePiece)).modLink.linkState.moveTether
    · exact (Follows.ite (hs.each fun _ _ ht => ht.losePiece).loseRange (hs.each fun _ _ ht => ht.losePiece)).modLink.linkState

theorem Follows.trainLink (hs : Follows s₀ s) {port : Nat} {full : Bool} : Follows s₀ (s.trainLink port full) := by
  unfold State.trainLink
  exact (Follows.ite hs.modLink.linkState.emit hs.modLink.linkState).sendSets

theorem Follows.fastRetrain (hs : Follows s₀ s) {port : Nat} : Follows s₀ (s.fastRetrain port) :=
  .ite hs hs.offer.requestAct

theorem Follows.resend (hs : Follows s₀ s) {port : Nat} : Follows s₀ (s.resend port) := by
  unfold State.resend
  refine .ite ?_ ?_
  · exact .ite (hs.each fun _ _ ht => ht.emit).bump (.ite (hs.each fun _ _ ht => ht.emit).bump (hs.each fun _ _ ht => ht.emit))
  · refine .offer ?_
    exact .ite (hs.each fun _ _ ht => ht.emit).bump (.ite (hs.each fun _ _ ht => ht.emit).bump (hs.each fun _ _ ht => ht.emit))

theorem Follows.goodFlit (hs : Follows s₀ s) {port : Nat} {f : Flit} : Follows s₀ (s.goodFlit port f) := by
  unfold State.goodFlit
  refine .ite ?_ ?_
  · refine .fastRetrain (.modLink ?_)
    refine .ite ?_ ?_
    · exact .ite hs.modLink.modLink.resend hs.modLink
    · exact .ite (Follows.ite hs.modLink.modLink.resend hs.modLink).modLink.emit (Follows.ite hs.modLink.modLink.resend hs.modLink).emit
  · refine .ite ?_ ?_
    · exact .ite hs.modLink.modLink.resend hs.modLink
    · exact .ite (Follows.ite hs.modLink.modLink.resend hs.modLink).modLink.emit (Follows.ite hs.modLink.modLink.resend hs.modLink).emit

theorem Follows.linkGo (hs : Follows s₀ s) {port : Nat} : Follows s₀ (s.linkGo port) :=
  .ite hs.goReads hs.pump

theorem Follows.execFlitReceive (hs : Follows s₀ s) {port : Nat} {x : FlitIn} : Completes s₀ (execFlitReceive port x s) :=
  hs.gated fun _ ht => ((Follows.ite ht.emit (.ite ht.goodFlit ht)).when fun _ hu => hu.fastRetrain).linkGo

theorem Follows.tryFill (hs : Follows s₀ s) {b : Nat} : Follows s₀ (s.tryFill b) := by
  unfold State.tryFill
  refine .ite hs ?_
  split
  · exact .ite hs hs.setReg
  · extract_lets s1
    have h1 : Follows s₀ s1 := .ite hs hs.requestAct
    exact .ite h1 (h1.getD fun _ => h1.svSend)

theorem Follows.execLinkTrainingStart (hs : Follows s₀ s) {port : Nat} : Completes s₀ (execLinkTrainingStart port s) :=
  hs.gated fun _ ht => ht.trainLink

theorem Follows.execTsa (hs : Follows s₀ s) {port lane : Nat} : Completes s₀ (execTsa port lane s) :=
  hs.gated fun _ ht => .ite ht ht.modLink.sendSets

theorem Follows.setBad (hs : Follows s₀ s) {port : Nat} {tx : Bool} {good : List Nat} : Follows s₀ (s.setBad port tx good) :=
  .ite (.ite hs.upd.spareIn hs.upd) (.ite hs.setReg.spareIn hs.setReg)

theorem Follows.execTsb (hs : Follows s₀ s) {port : Nat} {r : TrainReport} : Completes s₀ (execTsb port r s) :=
  hs.gated fun _ ht => .ite ht.modLink.sendSets.journalTraining.setBad.setBad.modLink.sendSets ht.modLink.sendSets.journalTraining.linkFails

theorem Follows.readConfig (hs : Follows s₀ s) {b : Nat} : Follows s₀ (s.readConfig b) :=
  hs.each fun _ _ ht => ht.getD fun _ => ht.svSend

theorem Follows.execTsc (hs : Follows s₀ s) {port : Nat} : Completes s₀ (execTsc port s) := by
  unfold Machine.execTsc
  refine hs.gated fun _ ht => ?_
  refine .ite ?_ ?_
  · exact (Follows.ite ht.modLink.emit.endLinkAct.resend.moveTether ht.modLink.emit.endLinkAct.resend).linkState.readConfig.linkGo
  · refine .enqueue (.linkState ?_)
    refine .ite ?_ ?_
    · exact .ite ht.modLink.emit.endLinkAct.resend.moveTether ht.modLink.emit.endLinkAct.resend
    · exact (Follows.ite ht.modLink.emit.endLinkAct.resend.moveTether ht.modLink.emit.endLinkAct.resend).advertise

theorem Follows.execLinkTrainingTimeout (hs : Follows s₀ s) {port : Nat} : Completes s₀ (execLinkTrainingTimeout port s) :=
  hs.gated fun _ ht => ht.linkFails

theorem Follows.execFastRetrainComplete (hs : Follows s₀ s) {port : Nat} {r : FastReport} :
    Completes s₀ (execFastRetrainComplete port r s) := by
  unfold Machine.execFastRetrainComplete
  refine hs.gated fun _ ht => ?_
  exact .ite ht.modLink.setBad.setBad.sendSets.emit.journalTraining.modLink.linkState.recovery.endLinkAct.resend.linkGo ht.trainLink

theorem Follows.takeTag (hs : Follows s₀ s) {b : Nat} {m : BufMsg} {opc : Nat} {kind : Nat → Bool} {c : TagCmd}
    (e : s.takeTag b m opc kind = some (c, t)) : Follows s₀ t := by
  unfold State.takeTag at e
  split at e
  · split at e
    · cases e
      exact hs.modLink
    · cases e
  · cases e

theorem Follows.execRdr (hs : Follows s₀ s) {b : Nat} {m : BufMsg} : Completes s₀ (execRdr b m s) := by
  unfold Machine.execRdr
  split
  · exact hs.next
  next h => exact (Follows.ite (hs.takeTag h) (hs.takeTag h).losePiece).goReads.next

theorem Follows.execWrc (hs : Follows s₀ s) {b : Nat} {m : BufMsg} : Completes s₀ (execWrc b m s) := by
  unfold Machine.execWrc
  split
  · exact hs.next
  next h =>
    have ht := hs.takeTag h
    refine Follows.next (.goReads (.ite ht ?_))
    split
    · exact ht.loseHome
    · exact ht.loseHome
    · exact ht

theorem Follows.zeroGib (hs : Follows s₀ s) {b ch g : Nat} : Follows s₀ (s.zeroGib b ch g) :=
  hs.upd

theorem Follows.execFillc (hs : Follows s₀ s) {b : Nat} {m : BufMsg} : Completes s₀ (execFillc b m s) := by
  unfold Machine.execFillc
  split
  · exact hs.next
  next h =>
    have ht := hs.takeTag h
    extract_lets t1 t2
    have h1 : Follows s₀ t1 := by
      unfold t1
      split
      · exact ht.endAct
      · exact ht
    exact (Follows.ite h1.zeroGib.modLink h1).tryFill.goReads.next

theorem Follows.execCfgr (hs : Follows s₀ s) {b : Nat} {m : BufMsg} : Completes s₀ (execCfgr b m s) := by
  unfold Machine.execCfgr
  split
  · exact hs.next
  next h =>
    have ht := hs.takeTag h
    refine Follows.next (.ite ht (.ite ht.setReg.tryFill (.ite ht.setReg.tryFill (.ite ht.modLink (.ite ?_ ht)))))
    exact ht.getD fun _ => ht.svSend

theorem Follows.execSyncc (hs : Follows s₀ s) {b : Nat} {m : BufMsg} : Completes s₀ (execSyncc b m s) := by
  unfold Machine.execSyncc
  split
  · exact hs.next
  next h => exact (hs.takeTag h).next

theorem Follows.execAlert (hs : Follows s₀ s) {b : Nat} {m : BufMsg} : Completes s₀ (execAlert b m s) :=
  hs.gated fun _ ht => ht.raiseFlag.getD fun _ => ht.raiseFlag.svSend

/-! ### The functions of `Machine/Maint` -/

theorem Follows.chErr (hs : Follows s₀ s) {e : Nat} : Follows s₀ (s.chErr e) :=
  hs.setReg.raiseFlag

theorem Follows.chBusy (hs : Follows s₀ s) {c : Nat} {retire : Bool} : Follows s₀ (s.chBusy c retire) :=
  hs.modChan.setReg.setReg

theorem Follows.chCmd (hs : Follows s₀ s) {d : Nat} : Follows s₀ (s.chCmd d) := by
  unfold State.chCmd
  refine .ite ?_ ?_
  · exact hs.setReg.setReg
  · refine .ite ?_ ?_
    · exact hs.setReg.setReg.setReg.chErr
    · refine .ite ?_ ?_
      · exact hs.setReg.setReg.setReg.chErr
      · refine .ite ?_ ?_
        · exact hs.setReg.setReg.setReg.chErr
        · refine .ite ?_ ?_
          · exact hs.setReg.setReg.setReg.chBusy
          · exact .ite hs.setReg.setReg.setReg.modChan.chBusy.requestAct hs.setReg.setReg.setReg.chBusy.wantEvac

theorem Follows.execEvacuate (hs : Follows s₀ s) {data : Word} : Completes s₀ (execEvacuate data s) :=
  hs.gated fun _ ht => ht.chCmd

theorem Follows.execRetrain (hs : Follows s₀ s) {data : Word} : Completes s₀ (execRetrain data s) :=
  hs.gated fun _ ht => ht.chCmd

theorem Follows.execRetire (hs : Follows s₀ s) {data : Word} : Completes s₀ (execRetire data s) :=
  hs.gated fun _ ht => ht.chCmd

theorem Follows.execChannelMarginLow (hs : Follows s₀ s) {c : Nat} : Completes s₀ (execChannelMarginLow c s) :=
  hs.gated fun _ ht => ht.wantEvac

theorem Follows.loseRecord (hs : Follows s₀ s) : Follows s₀ s.loseRecord := by
  unfold State.loseRecord
  dsimp only
  split
  · exact hs.spend.upd
  · exact hs.spend.noteUnread
  · exact hs.spend

theorem Follows.wordRead (hs : Follows s₀ s) {tier unit a err : Nat} {place : Where} :
    Follows s₀ (s.wordRead tier unit a err place) := by
  unfold State.wordRead
  split
  · exact .ite hs.spend.noteEcc.loseRecord hs.spend.noteEcc
  · split
    · exact hs
    · refine .ite ?_ ?_
      · exact (hs.spend.noteEcc.when fun _ ht => ht.noteLost).modVer
      · refine .ite ?_ ?_
        · exact hs.spend.noteEcc.when fun _ ht => ht.noteLost
        · refine .ite ?_ ?_
          · exact .ite (hs.spend.noteEcc.when fun _ ht => ht.noteLost).wantReread (hs.spend.noteEcc.when fun _ ht => ht.noteLost)
          · exact .ite (hs.spend.noteEcc.when fun _ ht => ht.noteLost).modPage (hs.spend.noteEcc.when fun _ ht => ht.noteLost).modVer

theorem Follows.channelErrs (hs : Follows s₀ s) {c : Nat} {errs : List (Nat × Nat)} : Follows s₀ (s.channelErrs c errs) :=
  hs.each fun _ _ ht => ht.wordRead

theorem Follows.chanDone (hs : Follows s₀ s) {c op : Nat} {ok : Bool} : Follows s₀ (s.chanDone c op ok) := by
  unfold State.chanDone
  exact (hs.when fun _ ht => ht.setReg).modChan.journal

theorem Follows.execEvacCopyComplete (hs : Follows s₀ s) {c : Nat} {errs : List (Nat × Nat)} :
    Completes s₀ (execEvacCopyComplete c errs s) := by
  unfold Machine.execEvacCopyComplete
  split
  · exact hs.next
  · refine hs.gated fun _ ht => ?_
    refine .ite ?_ ?_
    · exact ht.channelErrs.setReg.setReg.setReg.setReg.endAct.spareIn.recovery.offer.setReg.chanDone
    · exact ht.channelErrs.setReg.setReg.setReg.setReg.endAct.spareIn.recovery.offer.modChan.requestAct

theorem Follows.killAll (hs : Follows s₀ s) : Follows s₀ s.killAll :=
  hs.each fun _ _ ht => .ite ht.killRig ht

theorem Follows.execChannelRetrainComplete (hs : Follows s₀ s) {c : Nat} {r : RetrainReport} :
    Completes s₀ (execChannelRetrainComplete c r s) := by
  unfold Machine.execChannelRetrainComplete
  split
  · exact hs.next
  · refine Follows.next ?_
    refine .ite ?_ ?_
    · exact (hs.dqLanes.setReg.endAct.when fun _ ht => ht.recovery).offer.chanDone.killAll
    · exact (hs.dqLanes.setReg.endAct.when fun _ ht => ht.recovery).offer.chanDone

theorem Follows.execSignalRegionUncorrectable (hs : Follows s₀ s) {word : Nat} :
    Completes s₀ (execSignalRegionUncorrectable word s) :=
  hs.noteUncorrectable.signalUe.next

theorem Follows.headUe (hs : Follows s₀ s) : Follows s₀ s.headUe := by
  unfold State.headUe
  split
  · exact hs.spend.noteUnread
  · exact hs.spend

theorem Follows.wcUe (hs : Follows s₀ s) {word : Nat} : Follows s₀ (s.wcUe word) := by
  unfold State.wcUe
  exact hs.spend.upd

theorem Follows.poolUe (hs : Follows s₀ s) {a : Nat} : Follows s₀ (s.poolUe a) :=
  .ite hs.headUe (.ite hs.wcUe (.ite hs.signalUe hs))

theorem Follows.scrubRead (hs : Follows s₀ s) {mem pos : Nat} {errs : List (Nat × Nat)} :
    Follows s₀ (s.scrubRead mem pos errs) := by
  unfold State.scrubRead
  split
  · exact hs.storeRead
  · exact hs.noteEcc.spend.each fun _ _ ht => ht.poolUe
  · exact hs.channelErrs
  · split
    · exact hs.each fun _ _ ht => ht.wordRead
    · exact hs

theorem Follows.scrubNext (hs : Follows s₀ s) {mem : Nat} : Follows s₀ (s.scrubNext mem) := by
  unfold State.scrubNext
  exact .ite hs.upd.setReg hs.upd

theorem Follows.scrubUnit (hs : Follows s₀ s) {mem : Nat} {errs : List (Nat × Nat)} : Follows s₀ (s.scrubUnit mem errs) := by
  unfold State.scrubUnit
  exact .ite hs.setReg hs.setReg.scrubRead.scrubNext.upd

theorem Follows.execScrubUnit (hs : Follows s₀ s) {mem : Nat} {errs : List (Nat × Nat)} :
    Completes s₀ (execScrubUnit mem errs s) := by
  unfold Machine.execScrubUnit
  refine hs.gated fun _ ht => ?_
  split
  · exact ht.scrubUnit.endAct
  · exact .ite ht.requestAct ht.scrubUnit

theorem Follows.scrbWrite (hs : Follows s₀ s) {d : Nat} : Follows s₀ (s.scrbWrite d) := by
  unfold State.scrbWrite
  exact .ite (Follows.ite hs.setReg.setReg hs.setReg).upd.setReg (.ite hs.setReg.setReg hs.setReg)

theorem Follows.execScrubPass (hs : Follows s₀ s) {data : Word} : Completes s₀ (execScrubPass data s) :=
  hs.gated fun _ ht => ht.scrbWrite

theorem Follows.fwCopied (hs : Follows s₀ s) {f : FwOp} {act : Nat} : Follows s₀ (s.fwCopied f act) := by
  unfold State.fwCopied
  exact .ite hs.upd.setReg.endAct.fwFail (.ite hs.upd.setReg.endAct.fwFail hs.upd.spend)

theorem Follows.execMaintUnitEnd (hs : Follows s₀ s) {act : Nat} : Completes s₀ (execMaintUnitEnd act s) := by
  unfold Machine.execMaintUnitEnd
  split
  · exact hs.next
  · refine Follows.next ?_
    refine .ite ?_ ?_
    · refine .ite ?_ ?_
      · split
        · exact .ite hs.fwCopied hs
        · exact hs
      · refine .requestAct (.endAct ?_)
        split
        · exact .ite hs.fwCopied hs
        · exact hs
    · exact .ite hs.tryFill hs

theorem Follows.execControllerParityError (hs : Follows s₀ s) {x : UnitFault} :
    Completes s₀ (execControllerParityError x s) := by
  unfold Machine.execControllerParityError
  exact hs.gated fun _ ht => ht.upd.offer.noteUnread.each fun _ _ hu => hu.restartPart

theorem Follows.movesAgain (hs : Follows s₀ s) : Follows s₀ s.movesAgain := by
  unfold State.movesAgain
  exact hs.upd.each fun _ _ ht => ht.lineCame.lineReq

theorem Follows.execControllerResetDone (hs : Follows s₀ s) {port : Nat} :
    Completes s₀ (execControllerResetDone port s) := by
  unfold Machine.execControllerResetDone
  refine hs.gated fun _ ht => ?_
  refine .ite ?_ ?_
  · exact ht.upd.recovery.movesAgain
  · refine .ite ?_ ?_
    · exact ht.upd.recovery.modLink.goReads
    · refine ht.upd.recovery.each fun _ _ hu => ?_
      split
      · split
        · exact hu.emit
        · exact hu
      · exact hu

theorem Follows.reqFails (hs : Follows s₀ s) {r : PortReq} : Follows s₀ (s.reqFails r) :=
  hs.upd.losePiece

theorem Follows.execCxlCompletionTimeout (hs : Follows s₀ s) {x req : Nat} :
    Completes s₀ (execCxlCompletionTimeout x req s) := by
  unfold Machine.execCxlCompletionTimeout
  split
  · exact hs.next
  · exact hs.reqFails.next

theorem Follows.execCxlLinkDown (hs : Follows s₀ s) {l : CxlLoss} : Completes s₀ (execCxlLinkDown l s) :=
  hs.gated fun _ ht => (ht.loseRange.each fun _ _ hu => hu.reqFails).upd

theorem Follows.execNvmeCommandTimeout (hs : Follows s₀ s) {d req : Nat} :
    Completes s₀ (execNvmeCommandTimeout d req s) := by
  unfold Machine.execNvmeCommandTimeout
  split
  · exact hs.next
  · exact hs.reqFails.next

/-! ### The functions of `Machine/Power` -/

theorem Follows.sendVcmd (hs : Follows s₀ s) {i : Nat} : Follows s₀ (s.sendVcmd i) :=
  .ite hs.upd.emit hs

theorem Follows.drive (hs : Follows s₀ s) {i : Nat} : Follows s₀ (s.drive i) :=
  hs.upd.sendVcmd.sendVcmd

theorem Follows.followPoint (hs : Follows s₀ s) {i : Nat} {thermal : Bool} : Follows s₀ (s.followPoint i thermal) := by
  unfold State.followPoint
  exact .ite hs (.ite hs.setReg.setReg.drive (.ite hs.setReg.setReg hs.setReg.setReg.upd))

theorem Follows.pointCmd (hs : Follows s₀ s) {i d : Nat} : Follows s₀ (s.pointCmd i d) := by
  unfold State.pointCmd
  exact .ite (hs.when fun _ ht => ht.setReg).raiseFlag (hs.when fun _ ht => ht.setReg).setReg.followPoint

theorem Follows.execPointWrite (hs : Follows s₀ s) {i : Nat} {data : Word} : Completes s₀ (execPointWrite i data s) :=
  hs.gated fun _ ht => ht.pointCmd

theorem Follows.execRampStart (hs : Follows s₀ s) {i : Nat} : Completes s₀ (execRampStart i s) :=
  hs.gated fun _ ht => ht.upd.drive.offer

theorem Follows.execRampComplete (hs : Follows s₀ s) {i : Nat} : Completes s₀ (execRampComplete i s) :=
  hs.gated fun _ ht => ht.setReg.upd

theorem Follows.execVcmdRepeat (hs : Follows s₀ s) {i : Nat} : Completes s₀ (execVcmdRepeat i s) :=
  hs.sendVcmd.next

theorem Follows.thermCmd (hs : Follows s₀ s) {d : Nat} : Follows s₀ (s.thermCmd d) := by
  unfold State.thermCmd
  refine Follows.when ?_ fun _ ht => ht.upd
  refine .ite ?_ ?_
  · refine .setReg ?_
    refine .ite ?_ ?_
    · exact (((hs.when fun _ ht => ht.setReg).when fun _ ht => ht.setReg).when fun _ ht => ht.setReg).setReg
    · exact (((hs.when fun _ ht => ht.setReg).when fun _ ht => ht.setReg).when fun _ ht => ht.setReg).raiseFlag
  · refine .raiseFlag ?_
    refine .ite ?_ ?_
    · exact (((hs.when fun _ ht => ht.setReg).when fun _ ht => ht.setReg).when fun _ ht => ht.setReg).setReg
    · exact (((hs.when fun _ ht => ht.setReg).when fun _ ht => ht.setReg).when fun _ ht => ht.setReg).raiseFlag

theorem Follows.trip (hs : Follows s₀ s) {i temp : Nat} : Follows s₀ (s.trip i temp) := by
  unfold State.trip
  refine .ite ?_ ?_
  · exact (hs.journal.flCount.each fun _ _ ht => .ite ht.killRig ht).raiseFlag.raiseFlag.offer.upd.each fun _ _ ht => ht.followPoint
  · exact (hs.journal.flCount.each fun _ _ ht => .ite ht.killRig ht).raiseFlag.raiseFlag.offer.followPoint

theorem Follows.setCap (hs : Follows s₀ s) {i cap : Nat} : Follows s₀ (s.setCap i cap) :=
  hs.setReg.upd.followPoint

theorem Follows.thermalRule (hs : Follows s₀ s) {i temp : Nat} : Follows s₀ (s.thermalRule i temp) := by
  unfold State.thermalRule
  refine .ite ?_ ?_
  · exact hs.upd
  · refine .ite ?_ ?_
    · exact .ite hs.upd hs.upd.trip
    · refine .ite ?_ ?_
      · exact .ite hs.upd.setReg.setCap hs.upd
      · exact .ite hs.upd (.ite hs.upd.raiseFlag.bump.offer.flCount.setCap (.ite hs.upd.setCap hs.upd))

theorem Follows.noteTemp (hs : Follows s₀ s) {i temp : Nat} : Follows s₀ (s.noteTemp i temp) := by
  unfold State.noteTemp
  exact hs.setReg.upd

theorem Follows.execThermalSample (hs : Follows s₀ s) {temps : List Nat} : Completes s₀ (execThermalSample temps s) := by
  unfold Machine.execThermalSample
  exact ((hs.each fun _ _ ht => ht.noteTemp).setReg.upd.each fun _ _ ht => ht.thermalRule).next

/-! ### The functions of `Machine/Queue` -/

theorem Follows.queFields (hs : Follows s₀ s) {d : Nat} : Follows s₀ (s.queFields d) :=
  hs.setReg.setReg

theorem Follows.queErr (hs : Follows s₀ s) {code : Nat} : Follows s₀ (s.queErr code) :=
  hs.setReg.raiseFlag

theorem Follows.createSq (hs : Follows s₀ s) {n : Nat} : Follows s₀ (s.createSq n) := by
  unfold State.createSq
  refine .ite ?_ ?_
  · exact hs.queErr
  · split
    · exact hs.queErr
    · exact .ite hs.queErr (.ite hs.queErr (.ite hs.queErr hs.upd))

theorem Follows.createCq (hs : Follows s₀ s) {n : Nat} : Follows s₀ (s.createCq n) := by
  unfold State.createCq
  refine .ite ?_ ?_
  · exact hs.queErr
  · split
    · exact hs.queErr
    · exact .ite hs.queErr hs.upd

theorem Follows.deleteSq (hs : Follows s₀ s) {n : Nat} : Follows s₀ (s.deleteSq n) := by
  unfold State.deleteSq
  split
  · exact hs.queErr
  · exact .ite hs.queErr hs.upd

theorem Follows.deleteCq (hs : Follows s₀ s) {m : Nat} : Follows s₀ (s.deleteCq m) :=
  .ite hs.queErr (.ite hs.queErr hs.upd)

theorem Follows.queRun (hs : Follows s₀ s) {op n : Nat} : Follows s₀ (s.queRun op n) := by
  unfold State.queRun
  split
  · exact hs.createSq
  · exact hs.createCq
  · exact hs.deleteSq
  · exact hs.deleteCq
  · exact hs.queErr

theorem Follows.queGo (hs : Follows s₀ s) {op n : Nat} : Follows s₀ (s.queGo op n) :=
  .ite hs.raiseFlag (.ite hs.setReg.upd hs.queRun)

theorem Follows.queRetry (hs : Follows s₀ s) : Follows s₀ s.queRetry := by
  unfold State.queRetry
  split
  · exact .ite hs hs.upd.setReg.queRun
  · exact hs

theorem Follows.queCmd (hs : Follows s₀ s) {d : Nat} : Follows s₀ (s.queCmd d) := by
  unfold State.queCmd
  exact .ite hs.queFields.queGo hs.queFields

theorem Follows.execCreateSq (hs : Follows s₀ s) {data : Word} : Completes s₀ (execCreateSq data s) :=
  hs.gated fun _ ht => ht.queFields.queGo

theorem Follows.execCreateCq (hs : Follows s₀ s) {data : Word} : Completes s₀ (execCreateCq data s) :=
  hs.gated fun _ ht => ht.queFields.queGo

theorem Follows.execDeleteSq (hs : Follows s₀ s) {data : Word} : Completes s₀ (execDeleteSq data s) :=
  hs.gated fun _ ht => ht.queFields.queGo

theorem Follows.execDeleteCq (hs : Follows s₀ s) {data : Word} : Completes s₀ (execDeleteCq data s) :=
  hs.gated fun _ ht => ht.queFields.queGo

theorem Follows.badDoorbell (hs : Follows s₀ s) : Follows s₀ s.badDoorbell :=
  hs.raiseFlag.bump.offer

theorem Follows.tailDoorbell (hs : Follows s₀ s) {n d : Nat} : Follows s₀ (s.tailDoorbell n d) := by
  unfold State.tailDoorbell
  refine .ite ?_ ?_
  · exact hs
  · split
    · exact .ite hs.modSq hs.badDoorbell
    · exact hs.badDoorbell

theorem Follows.headDoorbell (hs : Follows s₀ s) {m d : Nat} : Follows s₀ (s.headDoorbell m d) := by
  unfold State.headDoorbell
  refine .ite ?_ ?_
  · exact hs
  · split
    · exact .ite hs.modCq.serveCq hs.badDoorbell
    · exact hs.badDoorbell

theorem Follows.execSqTailDoorbell (hs : Follows s₀ s) {n : Nat} {data : Word} :
    Completes s₀ (execSqTailDoorbell n data s) :=
  hs.tailDoorbell.next

theorem Follows.execCqHeadDoorbell (hs : Follows s₀ s) {n : Nat} {data : Word} :
    Completes s₀ (execCqHeadDoorbell n data s) :=
  hs.headDoorbell.next

theorem Follows.execCallSheetFetch (hs : Follows s₀ s) {n : Nat} {errs : List (Nat × Nat)} :
    Completes s₀ (execCallSheetFetch n errs s) := by
  unfold Machine.execCallSheetFetch
  split
  · exact hs.next
  · refine hs.gated fun _ ht => ?_
    refine .ite ?_ ?_
    · exact ht.fetch
    · refine .ite ?_ ?_
      · exact ht.fetch.setReg.upd.writeLog.modSq.bump.offer
      · exact ht.fetch.setReg.upd.writeLog.modSq.bump.offer.raiseFlag.upd.dropRecords.postCompl

theorem Follows.execLogHeadMigrate (hs : Follows s₀ s) : Completes s₀ (execLogHeadMigrate s) := by
  unfold Machine.execLogHeadMigrate
  refine hs.gated fun _ ht => ?_
  split
  · exact ht
  · exact ht.upd.ringCheck

theorem Follows.execCompletionGo (hs : Follows s₀ s) {m : Nat} : Completes s₀ (execCompletionGo m s) := by
  unfold Machine.execCompletionGo
  split
  · exact hs.next
  · exact hs.gated fun _ ht => ht.modCq.trySend

theorem Follows.execCqCoalesceTimeout (hs : Follows s₀ s) {m : Nat} : Completes s₀ (execCqCoalesceTimeout m s) := by
  unfold Machine.execCqCoalesceTimeout
  split
  · exact hs.next
  · exact hs.gated fun _ ht => ht.modCq.trySend

theorem Follows.unmask (hs : Follows s₀ s) {vec : Nat} : Follows s₀ (s.unmask vec) := by
  unfold State.unmask
  exact .ite hs.upd.upd.sendVector hs.upd

theorem Follows.execMsixUnmask (hs : Follows s₀ s) {vec : Nat} : Completes s₀ (execMsixUnmask vec s) :=
  hs.gated fun _ ht => ht.unmask

/-! ### The functions of `Machine/Loader` -/

theorem Follows.imgCtl (hs : Follows s₀ s) {d : Nat} : Follows s₀ (s.imgCtl d) := by
  unfold State.imgCtl
  exact .ite hs.setReg.setReg (.ite hs.setReg.setReg.raiseFlag hs.setReg.setReg.setReg.tier0Bytes.upd)

theorem Follows.execLoadStart (hs : Follows s₀ s) {data : Word} : Completes s₀ (execLoadStart data s) :=
  hs.gated fun _ ht => ht.imgCtl

theorem Follows.rejectImage (hs : Follows s₀ s) {code : Nat} : Follows s₀ (s.rejectImage code) := by
  unfold State.rejectImage
  exact hs.setReg.raiseFlag.setReg.upd

theorem Follows.clearRig (hs : Follows s₀ s) {n : Nat} : Follows s₀ (s.clearRig n) :=
  hs.each fun _ _ ht => ht.each fun _ _ hu => hu.each fun _ _ hv => hv.setReg

theorem Follows.stopForLoad (hs : Follows s₀ s) {how n : Nat} : Follows s₀ (s.stopForLoad how n) := by
  unfold State.stopForLoad
  exact .ite (Follows.ite hs hs.clearRig).setReg.killRig (Follows.ite hs hs.clearRig).setReg

theorem Follows.execImageCheckComplete (hs : Follows s₀ s) : Completes s₀ (execImageCheckComplete s) := by
  unfold Machine.execImageCheckComplete
  split
  · exact hs.next
  · refine Follows.next ?_
    refine .ite ?_ ?_
    · split
      · exact hs.setReg
      · exact hs.rejectImage
    · refine .ite ?_ ?_
      · split
        · exact hs.setReg.each fun _ _ ht => ht.stopForLoad
        · exact hs.rejectImage
      · exact hs

theorem Follows.bareTile (hs : Follows s₀ s) {t : Nat} : Follows s₀ (s.bareTile t) := by
  unfold State.bareTile
  exact (hs.modTile.each fun _ _ ht => ht.setReg.setReg.setReg).setReg.setReg.setReg.setReg.setReg.setReg.upd

theorem Follows.wireTile (hs : Follows s₀ s) {c : Content} {r : ImgRig} {t : Nat} : Follows s₀ (s.wireTile c r t) := by
  unfold State.wireTile
  dsimp only
  split
  · exact (hs.each fun _ _ ht => ht.setReg.setReg.setReg).setReg.each fun _ _ ht => ht.modTile
  · exact ((hs.each fun _ _ ht => ht.setReg.setReg.setReg).setReg.each fun _ _ ht => ht.modTile).modVec

theorem Follows.fuseTiles (hs : Follows s₀ s) {f : ImgFuse} : Follows s₀ (s.fuseTiles f) :=
  hs.each fun _ _ ht => ht.setReg.setReg.setReg.setReg.setReg

theorem Follows.placeFloors (hs : Follows s₀ s) {c : Content} : Follows s₀ (s.placeFloors c) :=
  hs.each fun _ _ ht => ht.upd

theorem Follows.releaseSpace (hs : Follows s₀ s) {n : Nat} : Follows s₀ (s.releaseSpace n) := by
  unfold State.releaseSpace
  exact (hs.each fun _ _ ht => ht.unmapPage).upd.each fun _ _ ht => ht.endAct

theorem Follows.placeSpace (hs : Follows s₀ s) {x : Nat × Nat × Nat × Nat} : Follows s₀ (s.placeSpace x) := by
  unfold State.placeSpace
  exact (Follows.ite hs hs.releaseSpace).upd

theorem Follows.placeSpaces (hs : Follows s₀ s) {c : Content} {rigs : List Nat} : Follows s₀ (s.placeSpaces c rigs) := by
  unfold State.placeSpaces
  refine ((hs.each fun _ _ ht => ht.releaseSpace).upd.each fun _ _ ht => ht.placeSpace).each fun _ _ ht => ?_
  split
  · exact ht.upd
  · exact ht

theorem Follows.reloadSheet (hs : Follows s₀ s) {x' : Sheet} : Follows s₀ (s.reloadSheet x') := by
  unfold State.reloadSheet
  exact hs.upd.dropRecords.postCompl

theorem Follows.reloadEntries (hs : Follows s₀ s) {n k : Nat} : Follows s₀ (State.reloadEntries n k s) := by
  induction k generalizing s with
  | zero => exact hs
  | succ k ih =>
    unfold State.reloadEntries
    split
    · exact hs
    · exact .ite hs (ih hs.fetch.setReg.modSq.reloadSheet)

theorem Follows.giveUp (hs : Follows s₀ s) {n : Nat} : Follows s₀ (s.giveUp n) := by
  unfold State.giveUp
  exact (hs.modSq.each fun _ _ ht => ht.reloadSheet).reloadEntries

theorem Follows.zeroSync (hs : Follows s₀ s) {r : ImgRig} : Follows s₀ (s.zeroSync r) := by
  unfold State.zeroSync
  exact (hs.upd.each fun _ _ ht => ht.setReg).each fun _ _ ht => ht.upd.setReg

theorem Follows.placeModes (hs : Follows s₀ s) {r : ImgRig} {m : ImgMode} : Follows s₀ (s.placeModes r m) := by
  unfold State.placeModes
  refine .setReg (.setReg ?_)
  refine .setReg (.setReg ?_)
  refine .setReg (.setReg ?_)
  refine .setReg (.setReg ?_)
  refine .setReg (.setReg ?_)
  exact hs.setReg.setReg.setReg.setReg.setReg.setReg.setReg.setReg.setReg.setReg.setReg.setReg.each fun _ _ ht => ht.setReg.setReg

theorem Follows.placeRig (hs : Follows s₀ s) {c : Content} {r : ImgRig} : Follows s₀ (s.placeRig c r) := by
  unfold State.placeRig
  refine .ite ?_ ?_
  · refine .bump ?_
    refine .setReg (.zeroSync ?_)
    split
    · exact (((Follows.ite hs hs.clearRig.setReg).modRig.upd.each fun _ _ ht => ht.wireTile).each fun _ _ ht => ht.fuseTiles).placeModes
    · exact ((Follows.ite hs hs.clearRig.setReg).modRig.upd.each fun _ _ ht => ht.wireTile).each fun _ _ ht => ht.fuseTiles
  · refine .setReg (.zeroSync ?_)
    split
    · exact (((Follows.ite hs hs.clearRig.setReg).modRig.upd.each fun _ _ ht => ht.wireTile).each fun _ _ ht => ht.fuseTiles).placeModes
    · exact ((Follows.ite hs hs.clearRig.setReg).modRig.upd.each fun _ _ ht => ht.wireTile).each fun _ _ ht => ht.fuseTiles

theorem Follows.closeWindows (hs : Follows s₀ s) {n : Nat} : Follows s₀ (s.closeWindows n) :=
  hs.each fun _ _ ht => ht.setReg

theorem Follows.removeRig (hs : Follows s₀ s) {n : Nat} : Follows s₀ (s.removeRig n) := by
  unfold State.removeRig
  exact hs.clearRig.closeWindows.upd

theorem Follows.applyImage (hs : Follows s₀ s) {c : Content} : Follows s₀ (s.applyImage c) := by
  unfold State.applyImage
  refine .ite ?_ ?_
  · refine .setReg (.setReg ?_)
    refine .ite ?_ ?_
    · refine Follows.each ?_ fun _ _ ht => ht.removeRig
      exact (((hs.upd.each fun _ _ ht => ht.giveUp).each fun _ _ ht => ht.modCq).each fun _ _ ht => ht.bareTile).placeSpaces
    · refine .placeFloors ?_
      refine Follows.each ?_ fun _ _ ht => ht.placeRig
      refine Follows.each ?_ fun _ _ ht => ht.removeRig
      exact (((hs.upd.each fun _ _ ht => ht.giveUp).each fun _ _ ht => ht.modCq).each fun _ _ ht => ht.bareTile).placeSpaces
  · refine .ite ?_ ?_
    · refine Follows.each ?_ fun _ _ ht => ht.removeRig
      exact (((hs.upd.each fun _ _ ht => ht.giveUp).each fun _ _ ht => ht.modCq).each fun _ _ ht => ht.bareTile).placeSpaces
    · refine .placeFloors ?_
      refine Follows.each ?_ fun _ _ ht => ht.placeRig
      refine Follows.each ?_ fun _ _ ht => ht.removeRig
      exact (((hs.upd.each fun _ _ ht => ht.giveUp).each fun _ _ ht => ht.modCq).each fun _ _ ht => ht.bareTile).placeSpaces

theorem Follows.execImageApply (hs : Follows s₀ s) : Completes s₀ (execImageApply s) := by
  unfold Machine.execImageApply
  split
  · exact hs.next
  · exact hs.gated fun _ ht => ht.applyImage.setReg

theorem Follows.measure (hs : Follows s₀ s) {c : Content} : Follows s₀ (s.measure c) := by
  unfold State.measure
  exact hs.setWide.upd

theorem Follows.execImageApplyComplete (hs : Follows s₀ s) : Completes s₀ (execImageApplyComplete s) := by
  unfold Machine.execImageApplyComplete
  split
  · exact hs.next
  · refine hs.gated fun _ ht => ?_
    refine .ite ?_ ?_
    · refine .ite ?_ ?_
      · exact (Follows.ite ht.upd (ht.upd.each fun _ _ hu => hu.setReg)).measure.raiseFlag.setReg.upd.setReg.setReg
      · exact (Follows.ite ht.upd (ht.upd.each fun _ _ hu => hu.setReg)).measure.raiseFlag.setReg.upd.setReg
    · exact (Follows.ite ht.upd (ht.upd.each fun _ _ hu => hu.setReg)).measure.raiseFlag.setReg.upd

theorem Follows.rigCtl (hs : Follows s₀ s) {n d : Nat} : Follows s₀ (s.rigCtl n d) := by
  unfold State.rigCtl
  exact .ite hs (.ite hs.raiseFlag (.ite (.ite hs.killRig hs) (.ite (.ite hs.setReg hs) (.ite hs.modRig.setReg hs))))

theorem Follows.execRigGo (hs : Follows s₀ s) {n : Nat} {data : Word} : Completes s₀ (execRigGo n data s) :=
  hs.gated fun _ ht => ht.rigCtl

theorem Follows.execRigStop (hs : Follows s₀ s) {n : Nat} {data : Word} : Completes s₀ (execRigStop n data s) :=
  hs.gated fun _ ht => ht.rigCtl

theorem Follows.execRigKill (hs : Follows s₀ s) {n : Nat} {data : Word} : Completes s₀ (execRigKill n data s) :=
  hs.gated fun _ ht => ht.rigCtl

theorem Follows.execRigStopped (hs : Follows s₀ s) {n : Nat} : Completes s₀ (execRigStopped n s) :=
  hs.gated fun _ ht => ht.setReg

/-! ### The functions of `Machine/Recovery` -/

theorem Follows.moveBlock (hs : Follows s₀ s) {p q : Nat} : Follows s₀ (s.moveBlock p q) :=
  hs.each fun _ _ ht => ht.each fun _ _ hu => hu.each fun _ _ hv => hv.setReg.setReg

theorem Follows.moveTile (hs : Follows s₀ s) {p q : Nat} : Follows s₀ (s.moveTile p q) := by
  unfold State.moveTile
  exact hs.moveBlock.modTile.modTile.upd

theorem Follows.mapSpare (hs : Follows s₀ s) {p q : Nat} : Follows s₀ (s.mapSpare p q) := by
  unfold State.mapSpare
  exact hs.setReg.setReg.setReg.setReg.setReg.each fun _ _ ht => .ite ht.setReg ht

theorem Follows.retireTile (hs : Follows s₀ s) {p : Nat} : Follows s₀ (s.retireTile p) := by
  unfold State.retireTile
  refine .upd ?_
  refine .wantCommit (.modTile ?_)
  refine Follows.each ?_ fun _ _ ht => .ite ht.setReg ht
  refine .setReg (.setReg ?_)
  refine .setReg (.setReg ?_)
  split
  · exact hs.killRig
  · exact hs

theorem Follows.substitute (hs : Follows s₀ s) {p : Nat} {errs : List (Nat × Nat)} {unread : Unread} :
    Follows s₀ (s.substitute p errs unread) := by
  unfold State.substitute
  split
  · exact hs.retireTile
  · refine Follows.each ?_ fun _ _ ht => ht.restartPart
    refine .noteUnread (.recovery ?_)
    refine .spareIn (.upd ?_)
    refine .mapSpare (.moveTile ?_)
    refine hs.storeErrs.each fun _ _ ht => ?_
    split
    · exact ht.each fun _ _ hu => hu.dropPartTile
    · exact ht

theorem Follows.execTileSubstitution (hs : Follows s₀ s) {u : Substitution} : Completes s₀ (execTileSubstitution u s) :=
  hs.gated fun _ ht => ht.substitute

theorem Follows.execAgingSubstitution (hs : Follows s₀ s) {u : Substitution} : Completes s₀ (execAgingSubstitution u s) :=
  hs.gated fun _ ht => ht.substitute

theorem Follows.execMgmtCoreFailover (hs : Follows s₀ s) {x : UnitFault} : Completes s₀ (execMgmtCoreFailover x s) := by
  unfold Machine.execMgmtCoreFailover
  exact hs.gated fun _ ht => .ite (ht.upd.spareIn.recovery.noteUnread.each fun _ _ hu => hu.restartPart) ht.upd.killAll

/-! ### The functions of `Machine/Security` -/

theorem Follows.keyFail (hs : Follows s₀ s) {e : Nat} : Follows s₀ (s.keyFail e) :=
  hs.setReg.raiseFlag

theorem Follows.keyCmd (hs : Follows s₀ s) {d : Nat} : Follows s₀ (s.keyCmd d) := by
  unfold State.keyCmd
  refine .ite ?_ ?_
  · exact hs
  · refine .ite ?_ ?_
    · exact hs.raiseFlag
    · dsimp only
      split
      · exact hs.offer.setReg.setReg.upd
      · exact hs.offer.keyFail

theorem Follows.execKeyEnrol (hs : Follows s₀ s) {data : Word} : Completes s₀ (execKeyEnrol data s) :=
  hs.gated fun _ ht => ht.keyCmd

theorem Follows.execKeyRevoke (hs : Follows s₀ s) {data : Word} : Completes s₀ (execKeyRevoke data s) :=
  hs.gated fun _ ht => ht.keyCmd

theorem Follows.execKeyFuseProgramDone (hs : Follows s₀ s) {ok : Bool} : Completes s₀ (execKeyFuseProgramDone ok s) := by
  unfold Machine.execKeyFuseProgramDone
  split
  · exact hs.next
  · exact (Follows.ite hs.upd.setReg.keyFail (.ite hs.upd.setReg.burnBytes.burn hs.upd.setReg.burn)).next

theorem Follows.fwWrite (hs : Follows s₀ s) : Follows s₀ s.fwWrite := by
  unfold State.fwWrite
  exact hs.setReg.upd.requestAct

theorem Follows.fwCommit (hs : Follows s₀ s) : Follows s₀ s.fwCommit :=
  .ite hs.fwFail hs.burnBytes

theorem Follows.fwCmd (hs : Follows s₀ s) {d : Nat} : Follows s₀ (s.fwCmd d) := by
  unfold State.fwCmd
  refine .ite ?_ ?_
  · exact hs.setReg
  · refine .ite ?_ ?_
    · exact hs.setReg.raiseFlag
    · exact .ite hs.setReg.setReg.offer.fwWrite (.ite hs.setReg.setReg.offer.fwCommit hs.setReg.setReg.offer.fwFail)

theorem Follows.execFirmwareWrite (hs : Follows s₀ s) {data : Word} : Completes s₀ (execFirmwareWrite data s) :=
  hs.gated fun _ ht => ht.fwCmd

theorem Follows.execFirmwareCommit (hs : Follows s₀ s) {data : Word} : Completes s₀ (execFirmwareCommit data s) :=
  hs.gated fun _ ht => ht.fwCmd

theorem Follows.execFirmwareWriteDone (hs : Follows s₀ s) {ok : Bool} : Completes s₀ (execFirmwareWriteDone ok s) := by
  unfold Machine.execFirmwareWriteDone
  split
  · exact hs.gated fun _ ht => .ite ht.upd.setReg.endAct.upd ht.upd.setReg.endAct.fwFail
  · exact hs.next

theorem Follows.attCmd (hs : Follows s₀ s) {d : Nat} : Follows s₀ (s.attCmd d) :=
  .ite hs (.ite hs.raiseFlag hs.setReg.offer.upd)

theorem Follows.execAttestRequest (hs : Follows s₀ s) {data : Word} : Completes s₀ (execAttestRequest data s) :=
  hs.gated fun _ ht => ht.attCmd

theorem Follows.execAttestReportDone (hs : Follows s₀ s) : Completes s₀ (execAttestReportDone s) := by
  unfold Machine.execAttestReportDone
  split
  · exact hs.next
  · exact hs.upd.setWide.setReg.raiseFlag.next

theorem Follows.present (hs : Follows s₀ s) {t : List Byte} : Follows s₀ (s.present t) :=
  .ite hs.setReg.setReg.upd.offer hs.raiseFlag.offer

theorem Follows.endSession (hs : Follows s₀ s) : Follows s₀ s.endSession :=
  .ite hs.setReg.setReg.upd.newNonce.offer hs

theorem Follows.dctl (hs : Follows s₀ s) {d : Nat} : Follows s₀ (s.dctl d) :=
  (hs.when fun _ ht => ht.endSession).when fun _ ht => ht.present

theorem Follows.execDebugOpen (hs : Follows s₀ s) {data : Word} : Completes s₀ (execDebugOpen data s) :=
  hs.gated fun _ ht => ht.dctl

theorem Follows.execDebugEnd (hs : Follows s₀ s) {data : Word} : Completes s₀ (execDebugEnd data s) :=
  hs.gated fun _ ht => ht.dctl

theorem Follows.execDbgtok (hs : Follows s₀ s) {token : List Byte} : Completes s₀ (execDbgtok token s) :=
  hs.upd.present.next

theorem Follows.execDebugLifeExpiry (hs : Follows s₀ s) : Completes s₀ (execDebugLifeExpiry s) := by
  unfold Machine.execDebugLifeExpiry
  split
  · exact hs.next
  · exact hs.gated fun _ ht => ht.endSession

theorem Follows.execTapIdcode (hs : Follows s₀ s) : Completes s₀ (execTapIdcode s) :=
  hs.upd.emit.next

theorem Follows.execTapBypass (hs : Follows s₀ s) {tdi : List Bool} : Completes s₀ (execTapBypass tdi s) :=
  hs.upd.emit.next

theorem Follows.execBoundaryScan (hs : Follows s₀ s) {kind : Nat} {tdi : List Bool} :
    Completes s₀ (execBoundaryScan kind tdi s) :=
  hs.upd.emit.spend.next

theorem Follows.debugLine (hs : Follows s₀ s) {space addr : Nat} {bs : List Byte} :
    Follows s₀ (s.debugLine space addr bs) := by
  unfold State.debugLine
  dsimp only
  split
  · exact hs
  · exact (hs.flushLine.when fun _ ht => ht.rehome).modVer

theorem Follows.debugWrite (hs : Follows s₀ s) {space addr : Nat} {data : List Byte} :
    Follows s₀ (s.debugWrite space addr data) :=
  hs.each fun _ _ ht => ht.debugLine

theorem Follows.execDebugScopeAccess (hs : Follows s₀ s) {a : DebugAccess} : Completes s₀ (execDebugScopeAccess a s) := by
  unfold Machine.execDebugScopeAccess
  dsimp only
  split
  · exact hs.gated fun _ ht => hs.upd.emit.spend
  · exact hs.gated fun _ ht => hs.upd.emit
  · exact hs.gated fun _ ht => hs.upd.debugWrite
  · exact hs.gated fun _ ht => hs.upd.emit
  · exact hs.gated fun _ ht => hs.upd.modTile
  · exact hs.gated fun _ ht => hs.upd

/-! ### The functions of `Machine/Tier` -/

theorem Follows.execHeatEpochEnd (hs : Follows s₀ s) : Completes s₀ (execHeatEpochEnd s) := by
  unfold Machine.execHeatEpochEnd
  refine hs.gated fun _ ht => ?_
  exact ht.upd.setReg.bump.setReg.setReg.setReg.setReg.setReg.setReg.setReg.setReg.upd.healthLogs.when fun _ hu => hu.routineCommit

theorem Follows.execDescentSweep (hs : Follows s₀ s) {tier : Nat} : Completes s₀ (execDescentSweep tier s) := by
  unfold Machine.execDescentSweep
  refine hs.gated fun _ ht => ?_
  dsimp only
  split <;> exact ht.upd

theorem Follows.askLine (hs : Follows s₀ s) {page : Nat} : Follows s₀ (s.askLine page) := by
  unfold State.askLine
  split
  · exact .ite hs hs.lineReq.upd
  · exact hs

theorem Follows.execMoveStart (hs : Follows s₀ s) {page frame : Nat} : Completes s₀ (execMoveStart page frame s) := by
  unfold Machine.execMoveStart
  split
  · exact hs.gated fun _ ht => (ht.requestAct.upd.modPage.when fun _ hu => hu.countForce).askLine
  · exact hs.next

theorem Follows.landWrite (hs : Follows s₀ s) {m : Move} {line : Nat} {data : List (Byte × Bool)}
    (e : s.landWrite m line data = some t) : Follows s₀ t := by
  unfold State.landWrite at e
  split at e
  · cases e
    exact hs
  · refine each_ind (fun o => ∀ t, o = some t → Follows s₀ t) _ _ _ ?_ ?_ t e
    · exact fun t ht => Option.some.inj ht ▸ hs
    · intro o x _ ho t ht
      obtain ⟨u, hu, ht⟩ := Option.bind_eq_some_iff.mp ht
      exact (ho u hu).svSend ht

theorem Follows.landLine (hs : Follows s₀ s) {key dest line : Nat} {data : List (Byte × Bool)} :
    Follows s₀ (s.landLine key dest line data) := by
  unfold State.landLine
  dsimp only
  split
  · exact .ite (Follows.ite hs.modPage (hs.when fun _ ht => ht.modPage)).modPage (.ite hs.modPage (hs.when fun _ ht => ht.modPage))
  · exact .ite hs.modPage (hs.when fun _ ht => ht.modPage)

theorem Follows.lineSent (hs : Follows s₀ s) {m : Move} {p : Page} : Follows s₀ (s.lineSent m p) := by
  unfold State.lineSent
  exact .ite (Follows.ite hs.tier0Bytes (.ite hs.traffic hs)).upd.nvme.nvme (Follows.ite hs.tier0Bytes (.ite hs.traffic hs)).upd

theorem Follows.lineAgain (hs : Follows s₀ s) {m : Move} {p : Page} : Follows s₀ (s.lineAgain m p) := by
  unfold State.lineAgain
  split
  next h => exact (hs.landWrite h).lineSent
  · exact hs

theorem Follows.execMoveLineLand (hs : Follows s₀ s) {page : Nat} {errs : List (Nat × Nat)} {lost : Bool} :
    Completes s₀ (execMoveLineLand page errs lost s) := by
  unfold Machine.execMoveLineLand
  split
  · refine hs.gated fun u hu => .ite hu.lineAgain (.ite hu.askLine ?_)
    extract_lets s1 r again
    have hr : Follows s₀ r.s := hu.flushLine.readPage
    refine .ite hr.lineCame.upd.askLine (.ite hr.wantReread ?_)
    split
    · exact hu
    next h => exact (hr.lineCame.landWrite h).landLine.lineSent.upd.askLine.wakePage
  · exact hs.next

theorem Follows.countT3 (hs : Follows s₀ s) {bytes : Nat} {limited : Bool} : Follows s₀ (s.countT3 bytes limited) := by
  unfold State.countT3
  exact .ite hs.bump.offer.flCount.flCount.upd hs.bump.offer.flCount.flCount

theorem Follows.execMoveComplete (hs : Follows s₀ s) {page : Nat} : Completes s₀ (execMoveComplete page s) := by
  unfold Machine.execMoveComplete
  split
  · refine hs.gated fun u hu => ?_
    extract_lets u1 neg units u2 u3 u4 u5 u6 u7 u8
    have h1 : Follows s₀ u1 := .ite (hu.getD fun _ => hu.svSend) hu
    have h3 : Follows s₀ u3 := .ite h1.deallocate.countFold.dropLedger h1.deallocate
    have h5 : Follows s₀ u5 := h3.modPage.when fun _ ht => ht.countT3
    have h7 : Follows s₀ u7 := h5.bump.when fun _ ht => ht.upd
    exact h7.upd.endAct.offer.wakePage.mcmdRetry
  · exact hs.next

theorem Follows.execMoveWriteFailure (hs : Follows s₀ s) {page frame : Nat} :
    Completes s₀ (execMoveWriteFailure page frame s) := by
  unfold Machine.execMoveWriteFailure
  split
  · exact hs.gated fun _ ht => ht.upd
  · exact hs.next

theorem Follows.execWcFlush (hs : Follows s₀ s) {i : Nat} {errs : List (Nat × Nat)} :
    Completes s₀ (execWcFlush i errs s) := by
  unfold Machine.execWcFlush
  split
  · exact hs.next
  · refine hs.gated fun u hu => .ite hu.forceAscent (.ite ?_ hu.flushEntry)
    extract_lets t a
    have ht : Follows s₀ t := hu.flushEntry
    exact hu.getD fun _ => ht.svSend

/-! ### The functions of `Machine/TierCmd` -/

theorem Follows.mcmdFields (hs : Follows s₀ s) {d : Nat} : Follows s₀ (s.mcmdFields d) :=
  hs.setReg.setReg.setReg

theorem Follows.mcmdStart (hs : Follows s₀ s) {op d : Nat} : Follows s₀ (s.mcmdStart op d) :=
  .ite hs.raiseFlag (.ite hs.mcmdFields.mcmdEnd (.ite hs.mcmdFields.mcmdEnd hs.mcmdFields.setReg.setReg.setReg.upd.mcmdRetry))

theorem Follows.mcmd0 (hs : Follows s₀ s) {d : Nat} : Follows s₀ (s.mcmd0 d) :=
  .ite hs.mcmdStart hs.mcmdFields

theorem Follows.execMap (hs : Follows s₀ s) {data : Word} : Completes s₀ (execMap data s) :=
  hs.gated fun _ ht => ht.mcmdStart

theorem Follows.execUnmap (hs : Follows s₀ s) {data : Word} : Completes s₀ (execUnmap data s) :=
  hs.gated fun _ ht => ht.mcmdStart

theorem Follows.execSeal (hs : Follows s₀ s) {data : Word} : Completes s₀ (execSeal data s) :=
  hs.gated fun _ ht => ht.mcmdStart

theorem Follows.execPin (hs : Follows s₀ s) {data : Word} : Completes s₀ (execPin data s) :=
  hs.gated fun _ ht => ht.mcmdStart

theorem Follows.execUnpin (hs : Follows s₀ s) {data : Word} : Completes s₀ (execUnpin data s) :=
  hs.gated fun _ ht => ht.mcmdStart

theorem Follows.execHint (hs : Follows s₀ s) {data : Word} : Completes s₀ (execHint data s) :=
  hs.gated fun _ ht => ht.mcmdStart

theorem Follows.execFoldCommand (hs : Follows s₀ s) {data : Word} : Completes s₀ (execFoldCommand data s) :=
  hs.gated fun _ ht => ht.mcmdStart

theorem Follows.execNegativeWriteComplete (hs : Follows s₀ s) {ok : Bool} :
    Completes s₀ (execNegativeWriteComplete ok s) := by
  unfold Machine.execNegativeWriteComplete
  split
  · exact hs.next
  · dsimp only
    split
    · exact hs.next
    · refine hs.gated fun _ ht => ?_
      refine .ite ?_ ?_
      · exact (Follows.ite ht.nvme (.ite ht.nvme.tier0Bytes (.ite ht.nvme.traffic ht.nvme))).mcmdEnd
      · refine .ite ?_ ?_
        · exact (Follows.ite ht.nvme (.ite ht.nvme.tier0Bytes (.ite ht.nvme.traffic ht.nvme))).countT3.mcmdRetry
        · refine .mcmdRetry ?_
          exact (Follows.ite ht.nvme (.ite ht.nvme.tier0Bytes (.ite ht.nvme.traffic ht.nvme))).upd.modPage.spend.countT3.upd.setReg

/-! ### The functions of `Machine/Dispatching` -/

theorem Follows.readTable (hs : Follows s₀ s) {n : Nat} {errs : List (Nat × Nat)} : Reads s₀ (s.readTable n errs) := by
  simp only [State.readTable]
  split
  · exact hs.reads
  · generalize hh : s.fetch n _ _ 64 _ _ _ = h
    have hh : Follows s₀ h.1 := hh ▸ hs.fetch
    obtain ⟨u, f⟩ := h
    dsimp only
    split
    · exact hh.reads
    · split
      · exact hh.reads
      · generalize hr : u.fetch _ _ _ _ _ _ _ = r
        have hr : Follows s₀ r.1 := hr ▸ Follows.fetch hh
        obtain ⟨v, g⟩ := r
        dsimp only
        split
        · exact hr.reads
        · exact .ite hr.reads hr.reads
        · exact hr.reads
    · exact hh.reads

theorem Follows.takeFields (hs : Follows s₀ s) {n : Nat} : Follows s₀ (s.takeFields n) := by
  unfold State.takeFields
  exact (hs.setReg.each fun _ _ ht => ht.setReg).setReg.setReg.setReg.setReg

theorem Follows.openTake (hs : Follows s₀ s) {n : Nat} {errs : List (Nat × Nat)} : Follows s₀ (s.openTake n errs).1 := by
  unfold State.openTake
  dsimp only
  split
  · exact hs.takeFields.readTable.pair
  · exact (hs.takeFields.readTable.when fun _ ht => ht.raiseFlag).modTake.mirrorNew.pair

theorem Follows.markTake (hs : Follows s₀ s) {x' : Sheet} {errs : List (Nat × Nat)} : Follows s₀ (s.markTake x' errs).1 :=
  .iteFst hs (Follows.ite (Follows.iteFst hs.openTake hs).modSheet.modTake (Follows.iteFst hs.openTake hs).modSheet).pair

theorem Follows.readEntries (hs : Follows s₀ s) {h : Sheet} {parts : List (List Nat)} {errs l : List (Nat × Nat)}
    {m : FMap (List Byte)} : Reads s₀ (State.readEntries h parts errs l s m) := by
  induction l generalizing s m with
  | nil => exact hs.reads
  | cons a l ih =>
    rw [State.readEntries]
    split
    · exact .ite (ih hs.partRead) hs.partRead.reads
    · exact hs.partRead.reads

theorem Follows.readXd (hs : Follows s₀ s) {h : Sheet} {lead : Nat} {errs : List (Nat × Nat)} :
    Reads s₀ (s.readXd h lead errs) := by
  rw [State.readXd]
  split
  · generalize hr : s.partRead .. = r
    have hr : Follows s₀ r.1 := hr ▸ hs.partRead
    obtain ⟨u, g⟩ := r
    dsimp only
    split
    · split <;> exact hr.reads
    · exact hr.reads
  · exact hs.reads

theorem Follows.runSheet (hs : Follows s₀ s) {logno : Nat} {errs : List (Nat × Nat)} :
    Follows s₀ (s.runSheet logno errs).1 := by
  unfold State.runSheet
  split
  · exact hs
  · refine .iteFst ?_ ?_
    · exact hs.failSheet.pair
    · refine .iteFst ?_ ?_
      · exact hs.finishSheet.pair
      · dsimp only
        split
        · exact hs.readEntries.failSheet.pair
        · split
          · exact hs.readEntries.readXd.failSheet.pair
          · refine .iteFst ?_ ?_
            · exact hs.readEntries.readXd.failSheet.pair
            · exact .iteFst hs.readEntries.readXd.failSheet.pair (hs.readEntries.readXd.modSheet.each fun _ _ ht => ht.startPart).pair

theorem Follows.noteSlotWaits (hs : Follows s₀ s) {n : Nat} : Follows s₀ (s.noteSlotWaits n) := by
  unfold State.noteSlotWaits
  refine hs.each fun _ _ ht => ?_
  split
  · exact .ite ht ht.modSheet.offer
  · exact ht

theorem Follows.execCallSheetDispatch (hs : Follows s₀ s) {n : Nat} {errs : List (Nat × Nat)} :
    Completes s₀ (execCallSheetDispatch n errs s) := by
  unfold Machine.execCallSheetDispatch
  refine Follows.next ?_
  dsimp only
  split
  · exact hs.noteSlotWaits
  · split
    · exact hs.noteSlotWaits
    · refine .ite ?_ ?_
      · exact (hs.noteSlotWaits.setReg.each fun _ _ ht => ht.modSq).modSq.modRig.modCq.modSheet.markTake.runSheet
      · exact hs.noteSlotWaits.waitsAs

theorem Follows.execPartComplete (hs : Follows s₀ s) {logno part : Nat} : Completes s₀ (execPartComplete logno part s) := by
  unfold Machine.execPartComplete
  split
  · exact hs.next
  · split
    · exact hs.next
    · exact hs.gated fun _ ht => .ite ht.modPart.upd.ringCheck.finishSheet ht.modPart.upd.ringCheck

theorem Follows.execOutputVersionsCurrent (hs : Follows s₀ s) {logno : Nat} :
    Completes s₀ (execOutputVersionsCurrent logno s) := by
  unfold Machine.execOutputVersionsCurrent
  split
  · exact hs.next
  · refine hs.gated fun _ ht => ?_
    exact .ite ht.holdWrites ((ht.each fun _ _ hu => hu.becomeCurrent).each fun _ _ hu => hu.sendPrinted).upd.finishSheet

/-! ### The functions of `Machine/Takes` -/

theorem Follows.packOne (hs : Follows s₀ s) {n : Nat} {g : Group × Nat} : Follows s₀ (s.packOne n g) := by
  unfold State.packOne
  refine .ite ?_ ?_
  · exact hs.recAbort
  · refine .writeLog ?_
    refine Follows.when ?_ fun _ ht => ht.recPois
    refine Follows.when ?_ fun _ ht => ht.recSat
    refine Follows.when ?_ fun _ ht => ht.recNonfin
    refine .modTake ?_
    split
    · exact (Follows.ite hs.stageRead hs.stageRead.stageRead).stageRange
    · exact .ite hs.stageRead hs.stageRead.stageRead

theorem Follows.execPackDone (hs : Follows s₀ s) {n : Nat} : Completes s₀ (execPackDone n s) := by
  unfold Machine.execPackDone
  refine hs.gated fun _ ht => ?_
  refine .ite ?_ ?_
  · exact ht.stageForce
  · refine .ite ?_ ?_
    · exact (ht.each fun _ _ hu => hu.packOne).modTake
    · exact (ht.each fun _ _ hu => hu.packOne).modTake.each fun _ _ hu => .ite hu (.ite hu.startExchange hu.exchangeFail)

theorem Follows.applyOne (hs : Follows s₀ s) {n : Nat} {g : Group × Nat} : Follows s₀ (s.applyOne n g) := by
  unfold State.applyOne
  refine .ite ?_ ?_
  · exact hs.recAbort
  · refine .writeLog ?_
    refine Follows.each ?_ fun _ _ ht => ?_
    · refine .ite ?_ ?_
      · exact ((hs.when fun _ ht => ht.recNonfin).when fun _ ht => ht.recPois).stageRead
      · exact (hs.when fun _ ht => ht.recNonfin).when fun _ ht => ht.recPois
    · exact .ite ht.upd.tier0Bytes ht.stageRead.stageWrite

theorem Follows.execApplyDone (hs : Follows s₀ s) {n : Nat} : Completes s₀ (execApplyDone n s) := by
  unfold Machine.execApplyDone
  refine hs.gated fun _ ht => ?_
  refine .ite ?_ ?_
  · exact ht.each fun _ _ hu => hu.forceAscent
  · split
    · exact ht.forceAscent
    · exact .ite ht.stageForce (ht.each fun _ _ hu => hu.applyOne).modTake

theorem Follows.deriveOne (hs : Follows s₀ s) {n : Nat} {g : Group × Nat} : Follows s₀ (s.deriveOne n g) := by
  unfold State.deriveOne
  refine .ite ?_ ?_
  · exact hs.recAbort
  · refine .writeLog ?_
    refine .ite ?_ ?_
    · exact ((hs.stageRead.stageRange.when fun _ ht => ht.recNonfin).when fun _ ht => ht.recPois).when fun _ ht => ht.recSat
    · refine hs.each fun _ _ ht => ?_
      split
      · exact ((ht.when fun _ hu => hu.recNonfin).when fun _ hu => hu.recPois).tier0Bytes
      · exact .ite ((ht.when fun _ hu => hu.recNonfin).when fun _ hu => hu.recPois) ht

theorem Follows.deriveEnd (hs : Follows s₀ s) {n : Nat} : Follows s₀ (s.deriveEnd n) := by
  unfold State.deriveEnd
  split
  · exact hs
  · exact .ite hs hs.writeLog.modTake

theorem Follows.execDeriveDone (hs : Follows s₀ s) {n : Nat} : Completes s₀ (execDeriveDone n s) :=
  hs.gated fun _ ht => .ite ht.deriveEnd (.ite ht.stageForce (ht.each fun _ _ hu => hu.deriveOne).sendStaged.modTake.deriveEnd)

theorem Follows.execStragglerTimeout (hs : Follows s₀ s) {n g : Nat} : Completes s₀ (execStragglerTimeout n g s) := by
  unfold Machine.execStragglerTimeout
  split
  · exact hs.next
  · exact hs.gated fun _ ht => ht.exchDecide

theorem Follows.tctlWrite (hs : Follows s₀ s) {n d : Nat} : Follows s₀ (s.tctlWrite n d) := by
  unfold State.tctlWrite
  exact .ite hs.abortSheets.strikeTake hs

theorem Follows.execStrike (hs : Follows s₀ s) {n : Nat} {data : Word} : Completes s₀ (execStrike n data s) :=
  hs.gated fun _ ht => ht.tctlWrite

theorem Follows.lossUpdate (hs : Follows s₀ s) {n cause : Nat} : Follows s₀ (s.lossUpdate n cause) := by
  unfold State.lossUpdate
  exact (((hs.when fun _ ht => ht.raiseFlag).when fun _ ht => ht.offer).when fun _ ht => ht.offer).setReg.setReg.bump

theorem Follows.takeOver (hs : Follows s₀ s) {n cause : Nat} : Follows s₀ (s.takeOver n cause) := by
  unfold State.takeOver
  exact hs.setReg.releaseHeld.ageLate.upd.modTake

theorem Follows.execPrintRecordWritten (hs : Follows s₀ s) {n : Nat} : Completes s₀ (execPrintRecordWritten n s) := by
  unfold Machine.execPrintRecordWritten
  refine hs.gated fun _ ht => ?_
  dsimp only
  split
  · exact .ite (Follows.ite ht ht.setReg.writeLog).modTake (.ite ht ht.setReg.writeLog)
  · exact .ite ht ht.setReg.writeLog

theorem Follows.printLedger (hs : Follows s₀ s) {key : Nat} {l : Ledger} : Follows s₀ (s.printLedger key l) := by
  unfold State.printLedger
  split
  · exact hs
  · exact .ite hs.newVersion.upd.modPage (.ite hs.newVersion.foldHere hs.newVersion.upd.modPage.forceAscent)

theorem Follows.execPrintComplete (hs : Follows s₀ s) {n : Nat} : Completes s₀ (execPrintComplete n s) := by
  unfold Machine.execPrintComplete
  refine hs.gated fun _ ht => ?_
  refine .ite ?_ ?_
  · exact ht.holdWrites
  · refine .mcmdRetry ?_
    refine Follows.each ?_ fun _ _ hu => hu.wakePage
    refine .takeOver (.offer ?_)
    refine .flCount (.bump ?_)
    refine .lossUpdate (.upd ?_)
    refine (ht.each fun _ _ hu => hu.becomeCurrent).upd.each fun _ _ hu => ?_
    split
    · exact hu.printLedger
    · exact hu

theorem Follows.execStrikeComplete (hs : Follows s₀ s) {n : Nat} : Completes s₀ (execStrikeComplete n s) :=
  hs.gated fun _ ht => ht.upd.writeLog.lossUpdate.bump.flCount.offer.offer.takeOver

theorem Follows.forceAll (hs : Follows s₀ s) {keys : List Nat} : Follows s₀ (s.forceAll keys) :=
  hs.each fun _ _ ht => ht.forceAscent

theorem Follows.placeRange (hs : Follows s₀ s) {space addr : Nat} {bs : List (Byte × Bool)} :
    Follows s₀ (s.placeRange space addr bs) := by
  unfold State.placeRange
  exact (hs.each fun _ _ ht => ht.newVersion).each fun _ _ ht => (Follows.ite ht ht.countLine).outsideLand.countLine

theorem Follows.countRange (hs : Follows s₀ s) {space addr n : Nat} : Follows s₀ (s.countRange space addr n) :=
  hs.each fun _ _ ht => ht.countLine

theorem Follows.txFields (hs : Follows s₀ s) {n d : Nat} : Follows s₀ (s.txFields n d) :=
  hs.setReg.setReg

theorem Follows.txErr (hs : Follows s₀ s) {n code : Nat} : Follows s₀ (s.txErr n code) :=
  hs.setReg.raiseFlag

theorem Follows.exportRun (hs : Follows s₀ s) {j : TxJob} {g : Group} (e : s.exportRun j g = some t) : Follows s₀ t := by
  unfold State.exportRun at e
  dsimp only at e
  split at e
  · cases e
    exact hs.txErr
  · split at e
    · cases e
    · cases e
      exact (hs.each fun _ _ ht => ht.foldIn).countRange.placeRange

theorem Follows.importRun (hs : Follows s₀ s) {j : TxJob} {g : Group} (e : s.importRun j g = some t) : Follows s₀ t := by
  unfold State.importRun at e
  dsimp only at e
  split at e
  · cases e
    exact hs.txErr
  · split at e
    · cases e
    · split at e
      · cases e
      · cases e
        refine Follows.writeLog (.when (.when (.placeRange (.each ?_ fun _ _ ht => ht.dropLedger)) ?_) ?_)
        · exact (hs.each fun _ _ ht => ht.foldIn).countRange
        · exact fun _ ht => ht.placeRange
        · exact fun _ ht => ht.placeRange

theorem Follows.txRun (hs : Follows s₀ s) {j : TxJob} : Follows s₀ (s.txRun j) := by
  unfold State.txRun
  split
  · exact hs.txErr
  · split
    next h =>
      split at h
      · exact hs.importRun h
      · exact hs.exportRun h
    · exact hs.forceAll.upd

theorem Follows.txRetry (hs : Follows s₀ s) : Follows s₀ s.txRetry :=
  hs.upd.each fun _ _ ht => ht.txRun

theorem Follows.txGo (hs : Follows s₀ s) {n : Nat} {imp : Bool} : Follows s₀ (s.txGo n imp) := by
  unfold State.txGo
  refine .ite ?_ ?_
  · exact hs.raiseFlag
  · refine .ite ?_ ?_
    · exact hs.txErr
    · split
      · exact hs.txErr
      · split
        · exact hs.txErr
        · exact hs.setReg.txRun

theorem Follows.txCmd (hs : Follows s₀ s) {n d : Nat} : Follows s₀ (s.txCmd n d) := by
  unfold State.txCmd
  refine .ite ?_ ?_
  · split
    · exact hs.txFields.txGo
    · exact hs.txFields.txGo
    · exact .ite hs.txFields.raiseFlag hs.txFields.txErr
  · exact hs.txFields

theorem Follows.execExportGroup (hs : Follows s₀ s) {n : Nat} {data : Word} : Completes s₀ (execExportGroup n data s) :=
  hs.gated fun _ ht => ht.txFields.txGo

theorem Follows.execImportGroup (hs : Follows s₀ s) {n : Nat} {data : Word} : Completes s₀ (execImportGroup n data s) :=
  hs.gated fun _ ht => ht.txFields.txGo

/-! ### The functions of `Machine/Twin` -/

theorem Follows.startPair (hs : Follows s₀ s) : Follows s₀ s.startPair :=
  .ite hs (.ite hs.comparePeer (hs.setTw.each fun _ _ ht => .ite ht.trainLink ht))

theorem Follows.tryUnpair (hs : Follows s₀ s) : Follows s₀ s.tryUnpair :=
  .ite hs.sendTether.upd hs

theorem Follows.unpaired (hs : Follows s₀ s) : Follows s₀ s.unpaired :=
  hs.setTw.dropMirror.upd.ackAll

theorem Follows.startUnpair (hs : Follows s₀ s) : Follows s₀ s.startUnpair :=
  .ite hs.setTw.tryUnpair (.ite hs.unpaired hs)

theorem Follows.twnCtl (hs : Follows s₀ s) {d : Nat} : Follows s₀ (s.twnCtl d) := by
  unfold State.twnCtl
  refine .ite ?_ ?_
  · exact ((Follows.ite hs.raiseFlag hs.staticWrite).setReg.when fun _ ht => ht.startUnpair).startPair
  · exact (Follows.ite hs.raiseFlag hs.staticWrite).setReg.when fun _ ht => ht.startUnpair

theorem Follows.twnRsv (hs : Follows s₀ s) {d : Nat} : Follows s₀ (s.twnRsv d) := by
  unfold State.twnRsv
  exact (Follows.ite hs.staticWrite hs.raiseFlag).staticWrite

theorem Follows.execTwnPair (hs : Follows s₀ s) {data : Word} : Completes s₀ (execTwnPair data s) :=
  hs.gated fun _ ht => ht.twnCtl

theorem Follows.execTwnUnpair (hs : Follows s₀ s) {data : Word} : Completes s₀ (execTwnUnpair data s) :=
  hs.gated fun _ ht => ht.twnCtl

theorem Follows.heard (hs : Follows s₀ s) : Follows s₀ s.heard :=
  hs.upd

theorem Follows.execPair (hs : Follows s₀ s) {port : Nat} {f : Frame} : Completes s₀ (execPair port f s) := by
  unfold Machine.execPair
  refine hs.gated fun _ ht => ?_
  dsimp only
  split
  · exact .ite ht.tookFrame.heard.setReg.upd.sendTether.startBaseline ht.tookFrame.heard.setReg.sendTether.pairRefused
  · exact ht.tookFrame.heard

theorem Follows.execPack (hs : Follows s₀ s) {port : Nat} {f : Frame} : Completes s₀ (execPack port f s) := by
  unfold Machine.execPack
  refine hs.gated fun _ ht => ?_
  dsimp only
  split
  · exact .ite ht.tookFrame.heard.upd.startBaseline ht.tookFrame.heard
  · exact .ite ht.tookFrame.heard.pairRefused ht.tookFrame.heard
  · exact ht.tookFrame.heard

theorem Follows.sendMack (hs : Follows s₀ s) : Follows s₀ s.sendMack := by
  unfold State.sendMack
  split
  · exact hs
  · exact hs.sendTether

theorem Follows.execLrec (hs : Follows s₀ s) {port : Nat} {f : Frame} : Completes s₀ (execLrec port f s) := by
  unfold Machine.execLrec
  refine hs.gated fun _ ht => ?_
  dsimp only
  split
  · exact ht.tookFrame.heard.upd.sendMack
  · exact ht.tookFrame.heard

theorem Follows.execPage (hs : Follows s₀ s) {port : Nat} {f : Frame} : Completes s₀ (execPage port f s) := by
  unfold Machine.execPage
  refine hs.gated fun _ ht => ?_
  dsimp only
  split
  · exact .ite ht.tookFrame.heard.sendMack ht.tookFrame.heard.upd.sendMack
  · exact ht.tookFrame.heard

theorem Follows.execMack (hs : Follows s₀ s) {port : Nat} {f : Frame} : Completes s₀ (execMack port f s) := by
  unfold Machine.execMack
  refine hs.gated fun _ ht => ?_
  dsimp only
  split
  · exact ht.tookFrame.heard.upd.driveAcked.tryPaired.tryUnpair
  · exact ht.tookFrame.heard

theorem Follows.execUnpr (hs : Follows s₀ s) {port : Nat} {f : Frame} : Completes s₀ (execUnpr port f s) :=
  hs.gated fun _ ht => .ite ht.tookFrame.heard.upd.unpaired ht.tookFrame.heard.upd.unpaired.sendTether

theorem Follows.execBeat (hs : Follows s₀ s) {port : Nat} {f : Frame} : Completes s₀ (execBeat port f s) :=
  hs.gated fun _ ht => ht.tookFrame.heard

theorem Follows.execBeatSend (hs : Follows s₀ s) {t : Nat} : Completes s₀ (execBeatSend t s) := by
  unfold Machine.execBeatSend
  exact hs.gated fun _ ht => ht.enqueue.upd

theorem Follows.execPartnerLost (hs : Follows s₀ s) : Completes s₀ (execPartnerLost s) := by
  unfold Machine.execPartnerLost
  refine hs.gated fun _ ht => ?_
  exact (Follows.ite ht.dropMirror.raiseFlag.setTw.setReg.offer.offer.setReg ht.dropMirror.raiseFlag.setTw.setReg.offer.offer).upd.ackAll

theorem Follows.sendRestore (hs : Follows s₀ s) {dst win addr : Nat} {bs : List (Byte × Bool)} :
    Follows s₀ (s.sendRestore dst win addr bs) := by
  unfold State.sendRestore
  exact (Follows.ite hs.receiveWr hs.sendOn).upd

theorem Follows.restorePage (hs : Follows s₀ s) {dst : Nat} {r : Reserve} {x : Nat × Content} :
    Follows s₀ (s.restorePage dst r x) := by
  unfold State.restorePage
  exact hs.each fun _ _ ht => ht.sendRestore

theorem Follows.startRestore (hs : Follows s₀ s) {dst : Nat} : Follows s₀ (s.startRestore dst) := by
  unfold State.startRestore
  split
  · exact hs.restoreErr
  · exact .ite hs.upd.restoreErr (hs.upd.setReg.upd.each fun _ _ ht => ht.restorePage)

theorem Follows.releaseReserve (hs : Follows s₀ s) : Follows s₀ s.releaseReserve :=
  .ite hs.setReg.upd hs.restoreErr

theorem Follows.twnRcmd (hs : Follows s₀ s) {d : Nat} : Follows s₀ (s.twnRcmd d) := by
  unfold State.twnRcmd
  refine .ite ?_ ?_
  · dsimp only
    split
    · exact hs.setReg.setReg.setReg.setReg.startRestore
    · exact hs.setReg.setReg.setReg.setReg.releaseReserve
    · exact hs.setReg.setReg.setReg.setReg.restoreErr
  · exact hs.setReg.setReg

theorem Follows.execRestore (hs : Follows s₀ s) {data : Word} : Completes s₀ (execRestore data s) :=
  hs.gated fun _ ht => ht.twnRcmd

theorem Follows.execRelease (hs : Follows s₀ s) {data : Word} : Completes s₀ (execRelease data s) :=
  hs.gated fun _ ht => ht.twnRcmd

theorem Follows.execRestoreComplete (hs : Follows s₀ s) : Completes s₀ (execRestoreComplete s) := by
  unfold Machine.execRestoreComplete
  split
  · exact hs.next
  · exact hs.gated fun _ ht => ht.setReg.raiseFlag.setReg.upd

theorem Follows.rscal0 (hs : Follows s₀ s) {d : Nat} : Follows s₀ (s.rscal0 d) := by
  unfold State.rscal0
  exact .ite hs.raiseFlag (.ite hs.setReg.setReg.setReg.setReg.setReg.setReg hs.setReg.setReg.setReg)

theorem Follows.rscal1 (hs : Follows s₀ s) {d : Nat} : Follows s₀ (s.rscal1 d) :=
  .ite hs.setReg hs.raiseFlag

theorem Follows.execTwnRscalGo (hs : Follows s₀ s) {data : Word} : Completes s₀ (execTwnRscalGo data s) :=
  hs.gated fun _ ht => ht.rscal0

/-! ### The functions of `Machine/Control` -/

theorem Follows.memberNext (hs : Follows s₀ s) : Follows s₀ s.memberNext :=
  .ite hs.setReg hs

theorem Follows.readWord (hs : Follows s₀ s) {addr : Nat} : Follows s₀ (s.readWord addr).2 := by
  unfold State.readWord
  split
  · exact hs.upd.pairSnd
  · dsimp only
    split
    · exact (Follows.ite (Follows.ite hs.upd hs).memberNext (.ite hs.upd hs)).pairSnd
    · exact hs

theorem Follows.ioRead (hs : Follows s₀ s) {addr : Nat} : Follows s₀ (s.ioRead addr) := by
  unfold State.ioRead
  exact hs.readWord.emit

theorem Follows.execLowWordRead (hs : Follows s₀ s) {addr : Nat} : Completes s₀ (execLowWordRead addr s) :=
  hs.gated fun _ ht => .ite ht.ioRead ht.emit

theorem Follows.liveWrite (hs : Follows s₀ s) {f : Field} {i n v : Nat} : Follows s₀ (s.liveWrite f i n v) := by
  unfold State.liveWrite
  refine .ite ?_ ?_
  · split
    · exact hs.raiseFlag
    · exact hs
  · dsimp only
    split
    · exact .ite hs.setReg.setReg hs.setReg
    · exact hs.setReg

theorem Follows.fieldsWrite (hs : Follows s₀ s) {r : Reg} {fs : List Field} {i w d : Nat} :
    Follows s₀ (s.fieldsWrite r fs i w d) := by
  unfold State.fieldsWrite
  refine hs.each fun _ _ ht => ?_
  dsimp only
  split
  · exact ht.setReg
  · exact ht.setReg
  · exact .ite ht.raiseFlag ht.staticWrite
  · exact ht.liveWrite
  · exact ht

theorem Follows.hostRaise (hs : Follows s₀ s) {d : Nat} : Follows s₀ (s.hostRaise d) := by
  unfold State.hostRaise
  exact .ite hs.raiseSig hs.raiseFlag

theorem Follows.lmaskWrite (hs : Follows s₀ s) {k w d : Nat} : Follows s₀ (s.lmaskWrite k w d) := by
  unfold State.lmaskWrite
  exact hs.fieldsWrite.setReg

theorem Follows.countWrite (hs : Follows s₀ s) {d : Nat} : Follows s₀ (s.countWrite d) := by
  unfold State.countWrite
  dsimp only
  split
  · exact hs.raiseFlag
  · exact .ite hs (.ite hs.upd hs.raiseFlag.offer)

theorem Follows.memberWrite (hs : Follows s₀ s) {d : Nat} : Follows s₀ (s.memberWrite d) := by
  unfold State.memberWrite
  exact (Follows.ite hs (.ite hs.upd hs.raiseFlag.offer)).memberNext

theorem Follows.windowWrite (hs : Follows s₀ s) {w d : Nat} : Follows s₀ (s.windowWrite w d) := by
  unfold State.windowWrite
  exact hs.staticWrite.staticWrite.staticWrite.setReg

theorem Follows.apertureWrite (hs : Follows s₀ s) {a d : Nat} : Follows s₀ (s.apertureWrite a d) :=
  .ite hs hs.staticWrite.setReg.setReg

theorem Follows.idWrite (hs : Follows s₀ s) {d : Nat} : Follows s₀ (s.idWrite d) := by
  unfold State.idWrite
  exact .ite hs.staticWrite.setReg hs.staticWrite

/-- Every register operation of the control space keeps it. -/
theorem Follows.action (hs : Follows s₀ s) {a : Reg × (State → Nat → Nat → Nat → State)} (ha : a ∈ actions) {i w d : Nat} :
    Follows s₀ (a.2 s i w d) := by
  revert a
  simp only [actions, actions0, actions1, List.forall_mem_append, List.forall_mem_cons, List.not_mem_nil, false_imp_iff,
    implies_true, and_true, and_assoc]
  exact ⟨hs.balMode, hs.pointCmd, hs.thermCmd, hs.keyCmd, hs.fwCmd, hs.attCmd, hs.dctl, hs.gctl, hs.flcmd, hs.flcfg, hs.counterSel,
    hs.counterCtl, hs.counterSig, hs.counterCnt, hs.hostRaise, hs.countWrite, hs.lmaskWrite, hs.memberWrite, hs.obEnable, hs.xbEnable,
    hs.groupWrite, hs.chCmd, hs.scrbWrite, hs.mcmd0, hs.idWrite, hs.windowWrite, hs.twnCtl, hs.twnRsv, hs.twnRcmd, hs.rscal0, hs.rscal1,
    hs.imgCtl, hs.rigCtl, hs.tctlWrite, hs.txCmd, hs.queCmd, hs.apertureWrite, .ite hs hs.fieldsWrite, hs.tailDoorbell, hs.headDoorbell,
    hs.arrCtl, hs.setReg, hs.haltEng⟩

theorem Follows.writeWord (hs : Follows s₀ s) {addr d : Nat} : Follows s₀ (s.writeWord addr d) := by
  unfold State.writeWord
  split
  · exact hs
  · refine .ite hs ?_
    split
    next h => exact hs.action (List.mem_of_find?_eq_some h)
    · exact hs.fieldsWrite

theorem Follows.bar2Write (hs : Follows s₀ s) {off d : Nat} : Follows s₀ (s.bar2Write off d) :=
  .ite hs (.ite hs.upd (.ite hs.upd hs.unmask))

theorem Follows.execRegisterWrite (hs : Follows s₀ s) {addr : Nat} {data : Word} {be : Nat} :
    Completes s₀ (execRegisterWrite addr data be s) :=
  hs.gated fun _ ht => .ite ht.raiseFlag (.ite ht.writeWord ht.bar2Write)

theorem Follows.execSynGmdatAccess (hs : Follows s₀ s) {wr : Option Word} : Completes s₀ (execSynGmdatAccess wr s) := by
  unfold Machine.execSynGmdatAccess
  split
  · exact hs.gated fun _ ht => ht.memberWrite
  · exact hs.gated fun _ ht => ht.ioRead

theorem Follows.execSmbusSetAddress (hs : Follows s₀ s) {addr : Word} {pecOk : Bool} :
    Completes s₀ (execSmbusSetAddress addr pecOk s) :=
  hs.gated fun _ ht => .ite ht.upd.emit ht.emit

theorem Follows.execSmbusBlockAccess (hs : Follows s₀ s) {wr : Option Word} {pecOk : Bool} :
    Completes s₀ (execSmbusBlockAccess wr pecOk s) := by
  unfold Machine.execSmbusBlockAccess
  refine hs.gated fun _ ht => ?_
  dsimp only
  split
  · exact .ite ht.emit (Follows.ite ht.writeWord ht).upd.emit
  · exact (Follows.iteSnd ht.readWord ht).upd.emit

theorem Follows.execSmbusAlertResponse (hs : Follows s₀ s) : Completes s₀ (execSmbusAlertResponse s) :=
  hs.gated fun _ ht => ht.emit

/-! ### The functions of `Machine/VecMem` -/

theorem Follows.portTurn (hs : Follows s₀ s) {p : Nat} {f : State → State} (hf : ∀ t, Follows s₀ t → Follows s₀ (f t)) :
    Follows s₀ (s.portTurn p f) :=
  .ite hs.modVec (hf _ hs.modVec)

theorem Follows.execLdv (hs : Follows s₀ s) {p : Nat} {o : MOp} {errs : List (Nat × Nat)} :
    Completes s₀ (execLdv p o errs s) := by
  unfold Machine.execLdv
  refine hs.gated fun _ ht => ht.portTurn fun u hu => .ite hu.vecStop ?_
  dsimp only
  refine .guardPois ?_ fun _ hv => .vecDone (.when (.vecFlags hv.modVec) fun _ hw => hw.markProx)
  exact .iteFst hu.storeRead.storeRead hu.storeRead.pair

theorem Follows.execStv (hs : Follows s₀ s) {p : Nat} {o : MOp} : Completes s₀ (execStv p o s) := by
  unfold Machine.execStv
  refine hs.gated fun _ ht => ?_
  refine ht.portTurn fun _ hu => ?_
  refine .ite ?_ ?_
  · exact hu.vecStop
  · refine hu.guardPois fun _ hv => ?_
    refine .ite ?_ ?_
    · refine .vecDone (.vecFlags ?_)
      refine .ite ?_ ?_
      · exact (hv.when fun _ hw => hw.markPois).storeWrite.storeWrite.recOf fun _ _ hw => hw.recNonfin
      · exact (hv.when fun _ hw => hw.markPois).storeWrite.storeWrite
    · exact (hv.when fun _ hw => hw.markPois).storeWrite.vecFlags.vecDone

/-! ### The functions of `Machine/Tick` -/

theorem Follows.tickBeats (hs : Follows s₀ s) : Follows s₀ s.tickBeats :=
  (hs.each fun _ _ ht => ht.upd.bump).spend

theorem Follows.copyStep (hs : Follows s₀ s) : Follows s₀ s.copyStep :=
  hs.each fun _ _ ht => ht.modChan.setReg

theorem Follows.tick (hs : Follows s₀ s) : Follows s₀ s.tick := by
  unfold State.tick
  exact .ite hs.mcmdRetry.txRetry.queRetry.copyStep.bump hs.mcmdRetry.txRetry.queRetry.copyStep.bump.tickBeats

/-! ### The commands and the step -/

theorem Follows.exec (hs : Follows s₀ s) {i : Instr} : Completes s₀ (exec i s) :=
  match i with
  | .registerWrite .. => hs.execRegisterWrite
  | .lowWordRead .. => hs.execLowWordRead
  | .synGmdatAccess .. => hs.execSynGmdatAccess
  | .smbusSetAddress .. => hs.execSmbusSetAddress
  | .smbusBlockAccess .. => hs.execSmbusBlockAccess
  | .snoop .. => hs.execSnoop
  | .porstAssert => hs.execPorstAssert
  | .supplyOutOfRange rail => hs.execSupplyOutOfRange (_rail := rail)
  | .resetRelease => hs.execResetRelease
  | .bootStepComplete .. => hs.execBootStepComplete
  | .loadStart .. => hs.execLoadStart
  | .imageCheckComplete => hs.execImageCheckComplete
  | .imageApply => hs.execImageApply
  | .imageApplyComplete => hs.execImageApplyComplete
  | .rigGo .. => hs.execRigGo
  | .rigStop .. => hs.execRigStop
  | .rigKill .. => hs.execRigKill
  | .rigStopped .. => hs.execRigStopped
  | .createSq .. => hs.execCreateSq
  | .createCq .. => hs.execCreateCq
  | .deleteSq .. => hs.execDeleteSq
  | .deleteCq .. => hs.execDeleteCq
  | .sqTailDoorbell .. => hs.execSqTailDoorbell
  | .cqHeadDoorbell .. => hs.execCqHeadDoorbell
  | .callSheetFetch .. => hs.execCallSheetFetch
  | .logHeadMigrate => hs.execLogHeadMigrate
  | .callSheetDispatch .. => hs.execCallSheetDispatch
  | .partComplete .. => hs.execPartComplete
  | .outputVersionsCurrent .. => hs.execOutputVersionsCurrent
  | .completionGo .. => hs.execCompletionGo
  | .cqCoalesceTimeout .. => hs.execCqCoalesceTimeout
  | .msixUnmask .. => hs.execMsixUnmask
  | .hostWindowRead .. => hs.execHostWindowRead
  | .hostWindowWrite .. => hs.execHostWindowWrite
  | .ucieModuleRetrain .. => hs.execUcieModuleRetrain
  | .ucieRetrainComplete .. => hs.execUcieRetrainComplete
  | .shotNop .. => hs.execShotNop
  | .cnt .. => hs.execCnt
  | .base .. => hs.execBase
  | .ofs .. => hs.execOfs
  | .fmt .. => hs.execFmt
  | .emit .. => hs.execEmit
  | .wait .. => hs.execWait
  | .raise .. => hs.execRaise
  | .dl .. => hs.execDl
  | .pois .. => hs.execPois
  | .loopc .. => hs.execLoopc
  | .arm .. => hs.execArm
  | .shotEnd .. => hs.execShotEnd
  | .rsig .. => hs.execRsig
  | .coll .. => hs.execColl
  | .armCheckComplete .. => hs.execArmCheckComplete
  | .generationComplete .. => hs.execGenerationComplete
  | .strmHaltWrite .. => hs.execStrmHaltWrite
  | .transferIssue .. => hs.execTransferIssue
  | .readTransferComplete .. => hs.execReadTransferComplete
  | .writeTransferComplete .. => hs.execWriteTransferComplete
  | .negativeReadComplete .. => hs.execNegativeReadComplete
  | .deadlineExpiry .. => hs.execDeadlineExpiry
  | .streamParityError .. => hs.execStreamParityError
  | .arrayTaskStart .. => hs.execArrayTaskStart
  | .stationaryRowLoad .. => hs.execStationaryRowLoad
  | .rowAdmit .. => hs.execRowAdmit
  | .bubble .. => hs.execBubble
  | .ballastTaperStep .. => hs.execBallastTaperStep
  | .ballastEnd .. => hs.execBallastEnd
  | .rowComplete .. => hs.execRowComplete
  | .arrayParityError .. => hs.execArrayParityError
  | .bankParityError .. => hs.execBankParityError
  | .arrayHaltWrite .. => hs.execArrayHaltWrite
  | .ballastModeWrite .. => hs.execBallastModeWrite
  | .ftqPushStart .. => hs.execFtqPushStart
  | .ftqPushComplete .. => hs.execFtqPushComplete
  | .routineStart .. => hs.execRoutineStart
  | .nop .. => hs.execNop
  | .fadd .. => hs.execFadd
  | .fsub .. => hs.execFsub
  | .fmul .. => hs.execFmul
  | .fma .. => hs.execFma
  | .fdiv .. => hs.execFdiv
  | .fmax .. => hs.execFmax
  | .fmin .. => hs.execFmin
  | .fsqrt .. => hs.execFsqrt
  | .frsq .. => hs.execFrsq
  | .frcp .. => hs.execFrcp
  | .fexp .. => hs.execFexp
  | .flog .. => hs.execFlog
  | .ftanh .. => hs.execFtanh
  | .fsgn .. => hs.execFsgn
  | .fcmp .. => hs.execFcmp
  | .fcls .. => hs.execFcls
  | .mlog .. => hs.execMlog
  | .mfirst .. => hs.execMfirst
  | .mpop .. => hs.execMpop
  | .mov .. => hs.execMov
  | .sel .. => hs.execSel
  | .cmpr .. => hs.execCmpr
  | .expd .. => hs.execExpd
  | .fold .. => hs.execFold
  | .red .. => hs.execRed
  | .cvt .. => hs.execCvt
  | .qdq .. => hs.execQdq
  | .chkf .. => hs.execChkf
  | .flgm .. => hs.execFlgm
  | .sli .. => hs.execSli
  | .sori .. => hs.execSori
  | .sadd .. => hs.execSadd
  | .sfop .. => hs.execSfop
  | .ldt .. => hs.execLdt
  | .stt .. => hs.execStt
  | .popt .. => hs.execPopt
  | .tag .. => hs.execTag
  | .setq .. => hs.execSetq
  | .ldv .. => hs.execLdv
  | .stv .. => hs.execStv
  | .loop .. => hs.execLoop
  | .sigr .. => hs.execSigr
  | .sigw .. => hs.execSigw
  | .endRoutine .. => hs.execEndRoutine
  | .vectorParityError .. => hs.execVectorParityError
  | .vecHaltWrite .. => hs.execVecHaltWrite
  | .hostRaise .. => hs.execHostRaise
  | .signalRegionUncorrectable .. => hs.execSignalRegionUncorrectable
  | .obPhaseComplete .. => hs.execObPhaseComplete
  | .obEnableWrite .. => hs.execObEnableWrite
  | .xbEnableWrite .. => hs.execXbEnableWrite
  | .barArrive .. => hs.execBarArrive
  | .barRelease .. => hs.execBarRelease
  | .barResend .. => hs.execBarResend
  | .xbTimeout .. => hs.execXbTimeout
  | .groupValidWrite .. => hs.execGroupValidWrite
  | .frameTransit .. => hs.execFrameTransit
  | .wrFrame .. => hs.execWrFrame
  | .remoteWriteVisible .. => hs.execRemoteWriteVisible
  | .wack .. => hs.execWack
  | .sig .. => hs.execSig
  | .sigHoldTimeout .. => hs.execSigHoldTimeout
  | .rej .. => hs.execRej
  | .cdata .. => hs.execCdata
  | .ready .. => hs.execReady
  | .mask .. => hs.execMask
  | .hello .. => hs.execHello
  | .flitReceive .. => hs.execFlitReceive
  | .fastRetrainComplete .. => hs.execFastRetrainComplete
  | .linkTrainingStart .. => hs.execLinkTrainingStart
  | .tsa .. => hs.execTsa
  | .tsb .. => hs.execTsb
  | .tsc .. => hs.execTsc
  | .linkTrainingTimeout .. => hs.execLinkTrainingTimeout
  | .rdr .. => hs.execRdr
  | .wrc .. => hs.execWrc
  | .fillc .. => hs.execFillc
  | .cfgr .. => hs.execCfgr
  | .syncc .. => hs.execSyncc
  | .alert .. => hs.execAlert
  | .twnPair .. => hs.execTwnPair
  | .twnUnpair .. => hs.execTwnUnpair
  | .pair .. => hs.execPair
  | .pack .. => hs.execPack
  | .lrec .. => hs.execLrec
  | .page .. => hs.execPage
  | .mack .. => hs.execMack
  | .unpr .. => hs.execUnpr
  | .beat .. => hs.execBeat
  | .beatSend .. => hs.execBeatSend
  | .partnerLost => hs.execPartnerLost
  | .restore .. => hs.execRestore
  | .restoreComplete => hs.execRestoreComplete
  | .release .. => hs.execRelease
  | .twnRscalGo .. => hs.execTwnRscalGo
  | .map .. => hs.execMap
  | .unmap .. => hs.execUnmap
  | .seal .. => hs.execSeal
  | .pin .. => hs.execPin
  | .unpin .. => hs.execUnpin
  | .hint .. => hs.execHint
  | .foldCommand .. => hs.execFoldCommand
  | .heatEpochEnd => hs.execHeatEpochEnd
  | .descentSweep .. => hs.execDescentSweep
  | .moveStart .. => hs.execMoveStart
  | .moveLineLand .. => hs.execMoveLineLand
  | .moveComplete .. => hs.execMoveComplete
  | .moveWriteFailure .. => hs.execMoveWriteFailure
  | .wcFlush .. => hs.execWcFlush
  | .evacuate .. => hs.execEvacuate
  | .retrain .. => hs.execRetrain
  | .retire .. => hs.execRetire
  | .channelMarginLow .. => hs.execChannelMarginLow
  | .maintUnitEnd .. => hs.execMaintUnitEnd
  | .evacCopyComplete .. => hs.execEvacCopyComplete
  | .channelRetrainComplete .. => hs.execChannelRetrainComplete
  | .scrubUnit .. => hs.execScrubUnit
  | .scrubPass .. => hs.execScrubPass
  | .controllerParityError .. => hs.execControllerParityError
  | .controllerResetDone .. => hs.execControllerResetDone
  | .cxlCompletionTimeout .. => hs.execCxlCompletionTimeout
  | .cxlLinkDown .. => hs.execCxlLinkDown
  | .nvmeCommandTimeout .. => hs.execNvmeCommandTimeout
  | .packDone .. => hs.execPackDone
  | .applyDone .. => hs.execApplyDone
  | .deriveDone .. => hs.execDeriveDone
  | .stragglerTimeout .. => hs.execStragglerTimeout
  | .strike .. => hs.execStrike
  | .printRecordWritten .. => hs.execPrintRecordWritten
  | .printComplete .. => hs.execPrintComplete
  | .strikeComplete .. => hs.execStrikeComplete
  | .exportGroup .. => hs.execExportGroup
  | .importGroup .. => hs.execImportGroup
  | .pointWrite .. => hs.execPointWrite
  | .rampStart .. => hs.execRampStart
  | .rampComplete .. => hs.execRampComplete
  | .vcmdRepeat .. => hs.execVcmdRepeat
  | .thermalSample .. => hs.execThermalSample
  | .clrall .. => hs.execClrall
  | .freezeWrite .. => hs.execFreezeWrite
  | .counterEnableWrite .. => hs.execCounterEnableWrite
  | .flightLogCommitCmd .. => hs.execFlightLogCommitCmd
  | .flogCommitDone .. => hs.execFlogCommitDone
  | .latencySample .. => hs.execLatencySample
  | .agingSubstitution .. => hs.execAgingSubstitution
  | .tileSubstitution .. => hs.execTileSubstitution
  | .mgmtCoreFailover .. => hs.execMgmtCoreFailover
  | .keyEnrol .. => hs.execKeyEnrol
  | .keyRevoke .. => hs.execKeyRevoke
  | .keyFuseProgramDone .. => hs.execKeyFuseProgramDone
  | .firmwareWrite .. => hs.execFirmwareWrite
  | .firmwareWriteDone .. => hs.execFirmwareWriteDone
  | .firmwareCommit .. => hs.execFirmwareCommit
  | .attestRequest .. => hs.execAttestRequest
  | .attestReportDone => hs.execAttestReportDone
  | .debugOpen .. => hs.execDebugOpen
  | .dbgtok .. => hs.execDbgtok
  | .debugEnd .. => hs.execDebugEnd
  | .debugLifeExpiry => hs.execDebugLifeExpiry
  | .tapIdcode => hs.execTapIdcode
  | .tapBypass .. => hs.execTapBypass
  | .boundaryScan .. => hs.execBoundaryScan
  | .negativeWriteComplete .. => hs.execNegativeWriteComplete
  | .smbusAlertResponse => hs.execSmbusAlertResponse
  | .debugScopeAccess .. => hs.execDebugScopeAccess

/-- A step clears no fuse and keeps the register file canonical: the command is taken from the queue, and what it does follows the rest. -/
theorem step_follows
    (e : step s = .next t) : (∀ which i b, (s.fuse which i).testBit b = true → (t.fuse which i).testBit b = true)
    ∧ (s.RegsOk → t.RegsOk) := by
  unfold step at e
  split at e
  · obtain rfl := Host.Outcome.next.inj e
    obtain ⟨-, hfuse, hregs⟩ := (Follows.refl s).tick
    exact ⟨hfuse, hregs⟩
  next rest _ =>
    obtain ⟨u, hu, -, hfuse, hregs⟩ := (Follows.refl { s with pending := rest }).exec
    obtain rfl := Host.Outcome.next.inj (hu.symm.trans e)
    exact ⟨hfuse, hregs⟩

/-- Settles O4: every function of the model follows the state that it is given. -/
theorem stepKeepsRegisterFile : Obligations.StepKeepsRegisterFile :=
  fun _ _ hs e => (step_follows e).2 hs

end Sys2Proof.Machine
end

section
/-! ## Register writes by access code (R4)

A word of a register that has no rule of its own is written field by field. The table gives the fields of a register different numbers, so each field
is written once, from the value that it had before, and the writes of the others leave it alone. -/

namespace Sys2Proof.Machine

/-! ### The register table -/

/-- The offset from its base below which a register's words lie: what its outermost index spans, or its own bytes. -/
def Reg.span (r : Reg) : Nat :=
  match r.dims with
  | [] => r.bits / 8
  | (stride, n) :: _ => stride * n

/-- A row of the register table is in order: its words lie below the MSI-X table's window, no stride is zero, and its fields have different
numbers below 1024. -/
def rowOk (x : Reg × List Field) : Bool :=
  decide (x.1.base + x.1.span ≤ bar2) && (x.1.dims.all fun d => decide (0 < d.1)) && decide (x.2.map Field.id).Nodup
    && (x.2.all fun f => decide (f.id < 1024))

theorem regTable_rowOk : regTable.all rowOk = true := by decide

theorem rowOk_iff {r : Reg} {fs : List Field} : rowOk (r, fs) = true ↔
    r.base + r.span ≤ bar2 ∧ (∀ d ∈ r.dims, 0 < d.1) ∧ (fs.map Field.id).Nodup ∧ ∀ f ∈ fs, f.id < 1024 := by
  simp only [rowOk, Bool.and_eq_true, decide_eq_true_eq, List.all_eq_true, and_assoc]

theorem instanceOf_some {r : Reg} (hpos : ∀ d ∈ r.dims, 0 < d.1) {ofs i rem : Nat} (h : instanceOf r.dims ofs 0 = some (i, rem))
    (hrem : rem < r.bits / 8) : ofs < r.span := by
  unfold Reg.span
  cases hd : r.dims with
  | nil =>
    obtain ⟨-, rfl⟩ : 0 = i ∧ ofs = rem := by simpa [hd, instanceOf] using h
    exact hrem
  | cons d l =>
    have hstride : 0 < d.1 := hpos d (by simp [hd])
    have hq : ofs / d.1 < d.2 := by
      by_contra hn
      simp [hd, instanceOf, hn] at h
    calc ofs < d.2 * d.1 := (Nat.div_lt_iff_lt_mul hstride).mp hq
      _ = d.1 * d.2 := Nat.mul_comm ..

theorem Reg.at_lt {r : Reg} (hpos : ∀ d ∈ r.dims, 0 < d.1) {addr i w : Nat} (h : r.at_ addr = some (i, w)) :
    addr < r.base + r.span := by
  unfold Reg.at_ at h
  split at h
  · cases h
  · split at h
    next hinst =>
      split at h
      next hrem =>
        have hofs := instanceOf_some hpos hinst hrem
        omega
      next => cases h
    next => cases h

/-- What an address holds is a row of the table, and the address lies below the MSI-X table's window. -/
theorem regAt_some {addr : Nat} {r : Reg} {fs : List Field} {i w : Nat} (h : regAt addr = some (r, fs, i, w)) :
    addr < bar2 ∧ (fs.map Field.id).Nodup ∧ ∀ f ∈ fs, f.id < 1024 := by
  obtain ⟨x, hx, hat⟩ := List.exists_of_findSome?_eq_some h
  obtain ⟨y, hy, he⟩ := Option.map_eq_some_iff.mp hat
  obtain ⟨rfl, rfl, rfl, rfl⟩ : x.1 = r ∧ x.2 = fs ∧ y.1 = i ∧ y.2 = w := by simpa [Prod.ext_iff] using he
  obtain ⟨hend, hpos, hnodup, hid⟩ := rowOk_iff.mp (List.all_eq_true.mp regTable_rowOk x hx)
  exact ⟨Nat.lt_of_lt_of_le (Reg.at_lt hpos hy) hend, hnodup, hid⟩

/-! ### One field -/

/-- The bits of a number that a mask clears. -/
theorem testBit_sub_and (x m b : Nat) : (x - (x &&& m)).testBit b = (x.testBit b && !m.testBit b) := by
  induction b generalizing x m with
  | zero =>
    have hle : x &&& m ≤ x := Nat.and_le_left
    have hmod : (x &&& m) % 2 = 1 ↔ x % 2 = 1 ∧ m % 2 = 1 := Nat.and_mod_two_eq_one
    rw [Bool.eq_iff_iff]
    simp only [Nat.testBit_zero, Bool.and_eq_true, Bool.not_eq_true', decide_eq_true_eq, decide_eq_false_iff_not]
    omega
  | succ b ih =>
    have hle : x &&& m ≤ x := Nat.and_le_left
    have hmod : (x &&& m) % 2 = 1 ↔ x % 2 = 1 ∧ m % 2 = 1 := Nat.and_mod_two_eq_one
    have hdiv : (x &&& m) / 2 = x / 2 &&& m / 2 := Nat.and_div_two
    have hhalf : (x - (x &&& m)) / 2 = x / 2 - (x / 2 &&& m / 2) := by omega
    simp only [Nat.testBit_succ, hhalf, ih]

/-- A write of a word to one field, by its access code, where the code is neither WS nor WL. -/
def State.accessWrite (i w d : Nat) (s : State) (f : Field) : State :=
  match f.acc with
  | .RW => s.setReg f (f.merge (s.get f i) w d) i
  | .W1C => s.setReg f (s.get f i - (s.get f i &&& f.merge 0 w d)) i
  | _ => s

/-- Such a write is no write, or a write of the field's own place. -/
theorem State.accessWrite_cases (i w d : Nat) (s : State) (f : Field) :
    s.accessWrite i w d f = s ∨ ∃ v, s.accessWrite i w d f = s.setReg f v i := by
  unfold State.accessWrite
  split
  · exact .inr ⟨_, rfl⟩
  · exact .inr ⟨_, rfl⟩
  · exact .inl rfl

/-- What a write to one field makes of it hangs on what it holds alone. -/
theorem State.get_accessWrite_congr {i w d : Nat} {s t : State} {f : Field} (hs : s.RegsOk) (ht : t.RegsOk) (h : t.get f i = s.get f i) :
    (t.accessWrite i w d f).get f i = (s.accessWrite i w d f).get f i := by
  unfold State.accessWrite
  split
  · rw [State.get_setReg_same _ _ _ _ hs, State.get_setReg_same _ _ _ _ ht, h]
  · rw [State.get_setReg_same _ _ _ _ hs, State.get_setReg_same _ _ _ _ ht, h]
  · exact h

theorem State.get_accessWrite_RW {i w d : Nat} {s : State} {f : Field} (hs : s.RegsOk) (hf : f.acc = .RW) :
    (s.accessWrite i w d f).get f i = f.merge (s.get f i) w d := by
  simp only [State.accessWrite, hf]
  rw [State.get_setReg_same _ _ _ _ hs, Field.merge, Nat.mod_mod]

theorem State.testBit_accessWrite_W1C {i w d b : Nat} {s : State} {f : Field} (hs : s.RegsOk) (hf : f.acc = .W1C) (hb : b < f.width) :
    ((s.accessWrite i w d f).get f i).testBit b = ((s.get f i).testBit b && !(f.merge 0 w d).testBit b) := by
  simp only [State.accessWrite, hf]
  rw [State.get_setReg_same _ _ _ _ hs, Nat.testBit_mod_two_pow, testBit_sub_and, decide_eq_true hb, Bool.true_and]

/-! ### The fields of a word -/

theorem onlyRegs_trans {s t u : State} (h : onlyRegs s t) (h' : onlyRegs t u) : onlyRegs s u := by
  unfold onlyRegs at h h' ⊢
  exact (congrArg (fun v : State => { v with regs := s.regs }) h').trans h

/-- The effect of writes to some fields of one register: the fields read as if each had been written alone, all else as before. -/
structure Written (i w d : Nat) (l : List Field) (s t : State) : Prop where
  regsOk : t.RegsOk
  onlyRegs : onlyRegs s t
  kept : ∀ (g : Field) (j : Nat), g.id < 1024 → (g.id ∉ l.map Field.id ∨ j ≠ i) → t.get g j = s.get g j
  fields : ∀ f ∈ l, t.get f i = (s.accessWrite i w d f).get f i

theorem written_one {i w d : Nat} {s : State} {f : Field} (hs : s.RegsOk) (hf : f.id < 1024) :
    Written i w d [f] s (s.accessWrite i w d f) := by
  have hfields : ∀ g ∈ [f], (s.accessWrite i w d f).get g i = (s.accessWrite i w d g).get g i := by
    intro g hg
    rw [List.mem_singleton.mp hg]
  obtain h | ⟨v, h⟩ := State.accessWrite_cases i w d s f
  · exact ⟨by rwa [h], by rw [h]; rfl, fun g j _ _ => by rw [h], hfields⟩
  · refine ⟨by rw [h]; exact s.setReg_regsOk f v i hs, by rw [h]; rfl, fun g j hg hn => ?_, hfields⟩
    rw [h]
    refine s.get_setReg_ne f g v i j fun he => ?_
    obtain ⟨hid, hidx⟩ := (Field.key_inj hg hf).mp he
    simp [hid, hidx] at hn

theorem written_each {i w d : Nat} {l : List Field} {s : State} (hs : s.RegsOk) (hnodup : (l.map Field.id).Nodup)
    (hid : ∀ f ∈ l, f.id < 1024) : Written i w d l s (each l (State.accessWrite i w d) s) := by
  induction l generalizing s with
  | nil => exact ⟨hs, rfl, fun _ _ _ _ => rfl, by simp⟩
  | cons f l ih =>
    rw [List.map_cons, List.nodup_cons] at hnodup
    obtain ⟨hnot, hnodup⟩ := hnodup
    have hf : f.id < 1024 := hid f (by simp)
    have one := written_one (w := w) (d := d) (i := i) hs hf
    have rest := ih one.regsOk hnodup fun g hg => hid g (by simp [hg])
    refine ⟨rest.regsOk, onlyRegs_trans one.onlyRegs rest.onlyRegs, fun g j hg hn => ?_, fun g hg => ?_⟩
    · simp only [List.map_cons, List.mem_cons, not_or] at hn
      rw [each_cons, rest.kept g j hg (by tauto), one.kept g j hg (by simp; tauto)]
    · obtain rfl | hg := List.mem_cons.mp hg
      · rw [each_cons, rest.kept g i hf (.inl hnot)]
      · have hne : g.id ∉ [f].map Field.id := by
          intro he
          exact hnot (by simpa [List.mem_singleton.mp he] using List.mem_map_of_mem (f := Field.id) hg)
        rw [each_cons, rest.fields g hg]
        exact State.get_accessWrite_congr hs one.regsOk (one.kept g i (hid g (by simp [hg])) (.inl hne))

/-- Where no field is WS or WL, a word is written field by field. -/
theorem State.fieldsWrite_eq {r : Reg} {fs : List Field} (hacc : ∀ f ∈ fs, f.acc ≠ .WS ∧ f.acc ≠ .WL) (s : State) (i w d : Nat) :
    s.fieldsWrite r fs i w d = each (fs.filter (·.inWord w)) (State.accessWrite i w d) s := by
  unfold State.fieldsWrite each
  refine List.foldl_ext _ _ _ fun t f hf => ?_
  obtain ⟨hws, hwl⟩ := hacc f (List.mem_of_mem_filter hf)
  unfold State.accessWrite
  cases h : f.acc with
  | WS => exact absurd h hws
  | WL => exact absurd h hwl
  | _ => rfl

/-- A whole word written to a register without a rule of its own goes to its fields. -/
theorem exec_registerWrite_fields {addr : Nat} {data : Word} {s : State} {r : Reg} {fs : List Field} {i w : Nat}
    (hat : regAt addr = some (r, fs, i, w)) (hhid : s.hidden r i = false) (hact : ∀ a ∈ actions, a.1 ≠ r) (hio : s.ioReached = true) :
    exec (.registerWrite addr data 15) s = .next (s.fieldsWrite r fs i w data.toNat) := by
  have hfind : (actions.find? fun a => a.1 = r) = none := List.find?_eq_none.mpr fun a ha => by simpa using hact a ha
  have hword : s.writeWord addr data.toNat = s.fieldsWrite r fs i w data.toNat := by
    simp only [State.writeWord, hat, hhid, hfind, Bool.false_eq_true, if_false]
  change execRegisterWrite addr data 15 s = _
  simp only [execRegisterWrite, gated, hio, if_true, ne_eq, not_true_eq_false, if_false, if_pos (regAt_some hat).1, hword]

/-- Settles O8: each field of the word is written once, by its access code. -/
theorem registerWriteByAccessCode : Obligations.RegisterWriteByAccessCode := by
  intro addr data s r fs i w hat hhid hact hacc hs hio
  obtain ⟨-, hnodup, hid⟩ := regAt_some hat
  have hsub : (fs.filter (·.inWord w)).Sublist fs := List.filter_sublist
  have wr := written_each (i := i) (w := w) (d := data.toNat) hs (hnodup.sublist (hsub.map _)) fun f hf => hid f (hsub.subset hf)
  rw [← State.fieldsWrite_eq (r := r) hacc] at wr
  have hget : ∀ f ∈ fs, f.inWord w = true → (s.fieldsWrite r fs i w data.toNat).get f i = (s.accessWrite i w data.toNat f).get f i :=
    fun f hf hw => wr.fields f (List.mem_filter.mpr ⟨hf, hw⟩)
  have hout : ∀ f ∈ fs, f.inWord w = false → (s.fieldsWrite r fs i w data.toNat).get f i = s.get f i := by
    intro f hf hw
    refine wr.kept f i (hid f hf) (.inl fun hmem => ?_)
    obtain ⟨g, hg, he⟩ := List.mem_map.mp hmem
    obtain rfl := List.inj_on_of_nodup_map hnodup (hsub.subset hg) hf he
    simp [hw] at hg
  refine ⟨_, exec_registerWrite_fields hat hhid hact hio, wr.onlyRegs, fun g j hg hn => ?_,
    fun f hf => ⟨fun hrw hw => ?_, fun hw1c b hb => ?_, ?_⟩⟩
  · refine wr.kept g j hg ?_
    by_contra hcon
    obtain ⟨hmem, rfl⟩ : g.id ∈ (fs.filter (·.inWord w)).map Field.id ∧ j = i := by tauto
    obtain ⟨f, hf, he⟩ := List.mem_map.mp hmem
    exact hn ⟨⟨f, hsub.subset hf, he⟩, rfl⟩
  · rw [hget f hf hw, State.get_accessWrite_RW hs hrw]
  · cases hw : f.inWord w with
    | true => rw [hget f hf hw, State.testBit_accessWrite_W1C hs hw1c hb, Bool.true_and]
    | false => rw [hout f hf hw, Bool.false_and, Bool.not_false, Bool.and_true]
  · rintro (hro | hw)
    · cases hw : f.inWord w with
      | true => rw [hget f hf hw]; simp only [State.accessWrite, hro]
      | false => exact hout f hf hw
    · exact hout f hf hw

end Sys2Proof.Machine
end

section
/-! ## Why a substitution can bring in more than one spare

TWN_NSUB counts the spares brought in, of all kinds, and the replay of a part may start a generation of another call sheet: where the third
replay ends the part's call sheet (R350), the rig's engines drop that sheet's generations and arms, and a shadow generation that then takes
the running slot of a failed engine brings in the spare engine of its tile (R125, R141). The substitution of a tile that replays such a part
counts two spares, the tile and the engine. -/

namespace Sys2Proof.Machine

/-- An enabled tile that needs a replacement gets one, or is retired. -/
theorem exec_tileSubstitution {s : State} {p : Nat} (errs : List (Nat × Nat)) (unread : Unread) (hneed : s.tilesNeed.contains p = true)
    (hon : s.enabled p = true) : exec (.tileSubstitution ⟨p, errs, unread⟩) s = .next (s.substitute p errs unread) := by
  change execTileSubstitution ⟨p, errs, unread⟩ s = _
  rw [execTileSubstitution, gated, hneed, hon]
  rfl

/-- A call sheet of streams: its part on tile 1 has been replayed twice, its part on tile 2 once. -/
def replayedSheet : Sheet :=
  { logno := 1, rig := 3, cs := { kind := 3, tmask := 6 }, dispatched := true,
    parts := [{ lead := 1, tiles := [1], descs := [(0, 0x1000)], gens := 1, replays := 2 },
              { lead := 2, tiles := [2], descs := [(0, 0x2000)], gens := 1, replays := 1 }] }

/-- The call sheet after it in the log, on tile 2 alone. -/
def nextSheet : Sheet :=
  { logno := 2, rig := 3, cs := { kind := 3, tmask := 4 }, dispatched := true,
    parts := [{ lead := 2, tiles := [2], descs := [(0, 0x3000)], gens := 1 }] }

/-- Tile 2 after its physical engine 0 has failed: the arm of the replay is being checked, and the generation of the next call sheet waits
behind it in the shadow. -/
def failedEngineTile : Tile :=
  { engs := [(0, { run := .checking { logno := 1, lead := 2, addr := 0x2000 }, shd := .ready { num := 1, logno := 2, lead := 2, descAddr := 0x3000 },
                   stopped := true, count := 2 })],
    badEngs := [0], perrs := [(0, 2)] }

/-- The maps of the logical tiles 1 and 2, the spare 79, and the state of rig 3: field, instance, value. -/
def twoTileFields : List (Field × Nat × Nat) :=
  [(F.GLB_TMAP_PHYS, 1, 1), (F.GLB_TMAP_PHYS, 2, 2), (F.GLB_PMAP_LOGICAL, 1, 1), (F.GLB_PMAP_LOGICAL, 2, 2), (F.GLB_PMAP_STATE, 79, 1),
   (F.IMG_RSTAT_STATE, 3, rigRunning)]

/-- The reset state with these fields written. -/
def twoTiles : State := each twoTileFields (fun s e => s.setReg e.1 e.2.2 e.2.1) State.reset

theorem twoTiles_regsOk : twoTiles.RegsOk :=
  each_ind State.RegsOk twoTileFields _ State.reset rfl fun s e _ hs => s.setReg_regsOk e.1 e.2.2 e.2.1 hs

/-- Rig 3 runs these call sheets on tiles 1 and 2, tile 79 is held as a spare, and tile 1 needs a replacement. -/
def secondSpareDue : State :=
  { twoTiles with
    tilesNeed := [1], rigs := [(3, { exists_ := true, tiles := [1, 2] })], tiles := [(2, failedEngineTile)],
    sheets := [replayedSheet, nextSheet] }

theorem secondSpareDue_regsOk : secondSpareDue.RegsOk := by
  have hregs : secondSpareDue.regs = twoTiles.regs := by rw [secondSpareDue]
  rw [State.RegsOk, hregs]
  exact twoTiles_regsOk

/-- Tile 1 is replaced by tile 79, and engine 8 of tile 2 takes the number of engine 0: the first call sheet has ended with status 0x09, and the
generation of the next one runs. -/
theorem secondSpareDue_substitute :
    (secondSpareDue.substitute 1 [] []).get F.GLB_TMAP_PHYS 1 = 79
    ∧ ((secondSpareDue.substitute 1 [] []).sheet 1).map (·.status) = some (some 0x09)
    ∧ ((secondSpareDue.substitute 1 [] []).gen? 2 0).map (·.logno) = some 2
    ∧ (secondSpareDue.substitute 1 [] []).get (emapField 0) 2 = 8
    ∧ (secondSpareDue.substitute 1 [] []).get F.TWN_NSUB_COUNT = 2 := by decide +kernel

/-- Refutes O53: with a part in progress on the failing tile, `errs = []` does not leave TWN_NSUB one up. The replay of the part on tile 1 of
`secondSpareDue` ends its call sheet, which starts the shadow generation of tile 2 on its spare engine, and TWN_NSUB goes from 0 to 2. -/
theorem not_sparesBroughtIn : ¬ Obligations.SparesBroughtIn := by
  intro h
  have hneed : secondSpareDue.tilesNeed.contains 1 = true := rfl
  have hon : secondSpareDue.enabled 1 = true := rfl
  obtain ⟨hspare, -⟩ := h secondSpareDue 1 1 [] [] (.tileSubstitution ⟨1, [], []⟩) secondSpareDue_regsOk rfl rfl hon rfl (by decide)
    (.inl ⟨rfl, hneed⟩)
  obtain ⟨u, hexec, -, -, -, -, -, -, hcount, -⟩ := hspare 79 rfl
  rw [exec_tileSubstitution _ _ hneed hon] at hexec
  obtain rfl := Host.Outcome.next.inj hexec
  obtain ⟨-, -, -, -, htwo⟩ := secondSpareDue_substitute
  have hone : (secondSpareDue.substitute 1 [] []).get F.TWN_NSUB_COUNT = 1 := hcount rfl
  omega

end Sys2Proof.Machine
end

section
/-! ## Reads that do more than read (R77, R315, R439)

A read of a register's low word fills the latch with the high one, a read of the member word moves the index on; the commands of the
control space and of the sideband are uses of `readWord`, `ioRead`, `memberWrite` and `memberNext`, whose effects are said here once. -/

namespace Sys2Proof.Machine

/-! ### A word read -/

theorem regTable_span_lt : regTable.all (fun x => decide (x.1.base + x.1.span + 4 ≤ bar2)) = true := by decide

/-- The word after one of the control space's lies below the MSI-X table's window too. -/
theorem regAt_next_lt {addr : Nat} {r : Reg} {fs : List Field} {i w : Nat} (h : regAt addr = some (r, fs, i, w)) : addr + 4 < bar2 := by
  obtain ⟨x, hx, hat⟩ := List.exists_of_findSome?_eq_some h
  obtain ⟨y, hy, he⟩ := Option.map_eq_some_iff.mp hat
  obtain ⟨-, hpos, -, -⟩ := rowOk_iff.mp (List.all_eq_true.mp regTable_rowOk x hx)
  have hlt := Reg.at_lt hpos hy
  have hend := of_decide_eq_true (List.all_eq_true.mp regTable_span_lt x hx)
  omega

theorem regAt_gmdat : regAt R.SYN_GMDAT.base = some (R.SYN_GMDAT, [F.SYN_GMDAT_ID], 0, 0) := by decide

theorem State.readWord_of_latch {s : State} {addr v : Nat} (h : s.latch.get none addr = some v) :
    s.readWord addr = (v, { s with latch := s.latch.set none addr none }) := by
  simp only [State.readWord, h]

/-- Without a latched value a read gives the live word. -/
theorem State.readWord_fst {s : State} {addr : Nat} (h : s.latch.get none addr = none) : (s.readWord addr).1 = s.liveWord addr := by
  simp only [State.readWord, h]
  split
  · rfl
  · rfl

theorem State.readWord_low {s : State} {addr i : Nat} {r : Reg} {fs : List Field} (hat : regAt addr = some (r, fs, i, 0)) (hr : r.bits = 64)
    (h : s.latch.get none addr = none) :
    s.readWord addr = (s.liveWord addr, { s with latch := s.latch.set none (addr + 4) (some (s.liveWord (addr + 4))) }) := by
  have hne : r ≠ R.SYN_GMDAT := by
    rintro rfl
    exact absurd hr (by decide)
  simp only [State.readWord, h, hat, hr, hne, decide_true, Bool.and_self, if_true, if_false]

theorem State.readWord_gmdat {s : State} (h : s.latch.get none R.SYN_GMDAT.base = none) :
    s.readWord R.SYN_GMDAT.base = (s.liveWord R.SYN_GMDAT.base, s.memberNext) := by
  simp only [State.readWord, h, regAt_gmdat]
  rfl

theorem State.memberNext_eq (s : State) : s.memberNext = { s with regs := s.memberNext.regs } := by
  unfold State.memberNext
  split
  · rfl
  · rfl

/-- Nothing but registers and the latch changes in a read. -/
theorem State.readWord_snd (s : State) (addr : Nat) :
    (s.readWord addr).2 = { s with regs := (s.readWord addr).2.regs, latch := (s.readWord addr).2.latch } := by
  unfold State.readWord
  split
  · rfl
  · split
    · dsimp only
      split
      · rw [State.memberNext_eq]
        split
        · rfl
        · rfl
      · split
        · rfl
        · rfl
    · rfl

/-- A read over CXL.io below the MSI-X table's window. -/
theorem exec_lowWordRead {s : State} {addr : Nat} (hio : s.ioReached = true) (h : addr < bar2) :
    exec (.lowWordRead addr) s = .next (s.ioRead addr) := by
  change execLowWordRead addr s = _
  simp only [execLowWordRead, gated, hio, Bool.true_or, if_true, if_pos h]

/-! ### The member words -/

theorem State.memberNext_index {s : State} (hs : s.RegsOk) :
    s.memberNext.get F.SYN_GMSEL_INDEX
      = if s.flag F.SYN_GMSEL_AINC then (s.get F.SYN_GMSEL_INDEX + 1) % 2 ^ F.SYN_GMSEL_INDEX.width else s.get F.SYN_GMSEL_INDEX := by
  unfold State.memberNext
  split
  · exact State.get_setReg_same _ _ _ _ hs
  · rfl

theorem State.memberNext_get {s : State} {g : Field} {i : Nat} (hg : g.id < 1024) (hne : g.id ≠ F.SYN_GMSEL_INDEX.id) :
    s.memberNext.get g i = s.get g i := by
  unfold State.memberNext
  split
  · exact State.get_setReg_id _ _ _ _ _ _ (by decide) hg hne
  · rfl

/-- A write of a member word that no valid group covers. -/
theorem State.memberWrite_free {s : State} {d : Nat} (hm : FMap.wf 0 s.members = true) (hfree : s.memberUsed (s.get F.SYN_GMSEL_INDEX) = false) :
    ∃ m, s.memberWrite d = ({ s with members := m } : State).memberNext
      ∧ ∀ k, m.get 0 k = if k = s.get F.SYN_GMSEL_INDEX then d % 4096 else s.members.get 0 k := by
  by_cases heq : s.members.get 0 (s.get F.SYN_GMSEL_INDEX) = d % 4096
  · refine ⟨s.members, by simp only [State.memberWrite, heq, if_true], fun k => ?_⟩
    split
    next hk => rw [hk, heq]
    next => rfl
  · refine ⟨s.members.set 0 (s.get F.SYN_GMSEL_INDEX) (d % 4096), ?_, fun k => FMap.get_set _ _ _ _ _ hm⟩
    simp only [State.memberWrite, heq, hfree, if_false, Bool.not_false, if_true]

/-- A write that would change a member word of a valid group is refused. -/
theorem State.memberWrite_used {s : State} {d : Nat} (hused : s.memberUsed (s.get F.SYN_GMSEL_INDEX) = true)
    (hne : s.members.get 0 (s.get F.SYN_GMSEL_INDEX) ≠ d % 4096) :
    s.memberWrite d = ((s.raiseFlag F.SYN_STAT_SREF).offer 0x380).memberNext := by
  simp only [State.memberWrite, hne, hused, if_false, Bool.not_true, Bool.false_eq_true]

/-! ### The commands -/

/-- The two reads of a 64-bit register (R77). -/
theorem lowWordRead_latches {s : State} {addr i : Nat} {r : Reg} {fs : List Field} (hat : regAt addr = some (r, fs, i, 0)) (hr : r.bits = 64)
    (hl : s.latch.get none addr = none) (hwf : FMap.wf none s.latch = true) (hio : s.ioReached = true) :
    ∃ t, exec (.lowWordRead addr) s = .next t
      ∧ t.out = s.out ++ [.regData addr (BitVec.ofNat 32 (s.liveWord addr))]
      ∧ { t with latch := s.latch, out := s.out } = s
      ∧ ∀ u : State, u.latch = t.latch → u.ioReached = true →
          ∃ v, exec (.lowWordRead (addr + 4)) u = .next v
            ∧ v.out = u.out ++ [.regData (addr + 4) (BitVec.ofNat 32 (s.liveWord (addr + 4)))]
            ∧ v.latch.get none (addr + 4) = none ∧ { v with latch := u.latch, out := u.out } = u := by
  have hread := State.readWord_low hat hr hl
  refine ⟨s.ioRead addr, exec_lowWordRead hio (regAt_some hat).1, ?_, ?_, fun u hu huio => ?_⟩
  · rw [State.ioRead, hread]
    rfl
  · rw [State.ioRead, hread]
    rfl
  · have hlatch : u.latch = s.latch.set none (addr + 4) (some (s.liveWord (addr + 4))) := by
      rw [hu, State.ioRead, hread]
      rfl
    have hget : u.latch.get none (addr + 4) = some (s.liveWord (addr + 4)) := by
      rw [hlatch, FMap.get_set _ _ _ _ _ hwf, if_pos rfl]
    have hwf' : FMap.wf none u.latch = true := hlatch ▸ FMap.wf_set _ _ _ _ hwf
    have hread' := State.readWord_of_latch hget
    refine ⟨u.ioRead (addr + 4), exec_lowWordRead huio (regAt_next_lt hat), ?_, ?_, ?_⟩
    · rw [State.ioRead, hread']
      rfl
    · rw [State.ioRead, hread']
      change (u.latch.set none (addr + 4) none).get none (addr + 4) = none
      rw [FMap.get_set _ _ _ _ _ hwf', if_pos rfl]
    · rw [State.ioRead, hread']
      rfl

theorem exec_synGmdatAccess_write {s : State} (d : Word) (hio : s.ioReached = true) :
    exec (.synGmdatAccess (some d)) s = .next (s.memberWrite d.toNat) := by
  change execSynGmdatAccess (some d) s = _
  simp only [execSynGmdatAccess, gated, hio, if_true]

theorem exec_synGmdatAccess_read {s : State} (hio : s.ioReached = true) :
    exec (.synGmdatAccess none) s = .next (s.ioRead R.SYN_GMDAT.base) := by
  change execSynGmdatAccess none s = _
  simp only [execSynGmdatAccess, gated, hio, if_true]

/-- A write of a member word that no valid group covers (R315). -/
theorem synGmdatAccess_free {s : State} (hs : s.RegsOk) (hm : FMap.wf 0 s.members = true) (hio : s.ioReached = true) (d : Word)
    (hfree : s.memberUsed (s.get F.SYN_GMSEL_INDEX) = false) :
    ∃ t, exec (.synGmdatAccess (some d)) s = .next t
      ∧ t.members.get 0 (s.get F.SYN_GMSEL_INDEX) = d.toNat % 4096
      ∧ (∀ k, k ≠ s.get F.SYN_GMSEL_INDEX → t.members.get 0 k = s.members.get 0 k)
      ∧ t.get F.SYN_GMSEL_INDEX = s.memberNext.get F.SYN_GMSEL_INDEX
      ∧ { t with regs := s.regs, members := s.members } = s := by
  obtain ⟨m, hw, hget⟩ := State.memberWrite_free (d := d.toNat) hm hfree
  have hmem : (s.memberWrite d.toNat).members = m := by rw [hw, State.memberNext_eq]
  refine ⟨_, exec_synGmdatAccess_write d hio, ?_, fun k hk => ?_, ?_, ?_⟩
  · rw [hmem, hget, if_pos rfl]
  · rw [hmem, hget, if_neg hk]
  · rw [hw, State.memberNext_index hs]
    exact State.memberNext_index (s := { s with members := m }) hs
  · rw [hw, State.memberNext_eq]

/-- A write that would change a member word of a valid group (R315). -/
theorem synGmdatAccess_used {s : State} (hs : s.RegsOk) (hio : s.ioReached = true) (d : Word)
    (hused : s.memberUsed (s.get F.SYN_GMSEL_INDEX) = true) (hne : s.members.get 0 (s.get F.SYN_GMSEL_INDEX) ≠ d.toNat % 4096) :
    ∃ t, exec (.synGmdatAccess (some d)) s = .next t ∧ t.members = s.members ∧ t.get F.SYN_STAT_SREF = 1 ∧ onlyRegs s t := by
  have hw := State.memberWrite_used hused hne
  refine ⟨_, exec_synGmdatAccess_write d hio, ?_, ?_, ?_⟩
  · rw [hw, State.memberNext_eq]
    exact State.offer_members _ _ _ _
  · rw [hw, State.memberNext_get (by decide) (by decide), State.get_offer _ _ _ _ _ _ (by decide) (by simp [evField]; decide)]
    exact State.get_setReg_same _ _ _ _ hs
  · rw [hw, onlyRegs, State.memberNext_eq, State.offer_eq]
    rfl

/-- A read of the member word (R315). -/
theorem synGmdatAccess_read {s : State} (hio : s.ioReached = true) (hl : s.latch.get none R.SYN_GMDAT.base = none) :
    ∃ t, exec (.synGmdatAccess none) s = .next t
      ∧ t.out = s.out ++ [.regData R.SYN_GMDAT.base (BitVec.ofNat 32 (s.liveWord R.SYN_GMDAT.base))]
      ∧ t.get F.SYN_GMSEL_INDEX = s.memberNext.get F.SYN_GMSEL_INDEX
      ∧ { t with regs := s.regs, out := s.out } = s := by
  have hread := State.readWord_gmdat hl
  refine ⟨_, exec_synGmdatAccess_read hio, ?_, ?_, ?_⟩
  · rw [State.ioRead, hread, State.memberNext_eq]
    rfl
  · rw [State.ioRead, hread]
    rfl
  · rw [State.ioRead, hread, State.memberNext_eq]
    rfl

/-! ### The sideband, while internal reset is not held -/

theorem exec_smbusSetAddress {s : State} (hreset : s.resetHeld = false) (a : Word) (k : Bool) :
    exec (.smbusSetAddress a k) s
      = .next (if k then ({ s with smbAddr := a.toNat } : State).emit (.smbAck true) else s.emit (.smbAck false)) := by
  change execSmbusSetAddress a k s = _
  simp only [execSmbusSetAddress, gated, hreset, Bool.not_false, if_true]

theorem exec_smbusBlockAccess_write {s : State} (hreset : s.resetHeld = false) (d : Word) (k : Bool) :
    exec (.smbusBlockAccess (some d) k) s
      = .next (if k then ({ (if smbWrites s.smbAddr then s.writeWord s.smbAddr d.toNat else s) with
            smbAddr := (s.smbAddr + 4) % 2 ^ 32 } : State).emit (.smbAck true)
          else s.emit (.smbAck false)) := by
  change execSmbusBlockAccess (some d) k s = _
  cases k with
  | false => simp only [execSmbusBlockAccess, gated, hreset, Bool.not_false, if_true, Bool.false_eq_true, if_false]
  | true => simp only [execSmbusBlockAccess, gated, hreset, Bool.not_false, Bool.not_true, Bool.false_eq_true, if_true, if_false]

/-- What a block read gives, with the state that the read leaves. -/
def State.smbRead (s : State) : Nat × State := if smbReads s.smbAddr then s.readWord s.smbAddr else (0, s)

theorem exec_smbusBlockAccess_read {s : State} (hreset : s.resetHeld = false) (k : Bool) :
    exec (.smbusBlockAccess none k) s
      = .next (({ s.smbRead.2 with smbAddr := (s.smbAddr + 4) % 2 ^ 32 } : State).emit
          (.regData s.smbAddr (BitVec.ofNat 32 s.smbRead.1))) := by
  change execSmbusBlockAccess none k s = _
  simp only [execSmbusBlockAccess, gated, hreset, Bool.not_false, if_true, State.smbRead]

theorem State.smbRead_of_unlisted {s : State} (hr : smbReads s.smbAddr = false) : s.smbRead = (0, s) := by
  simp only [State.smbRead, hr, Bool.false_eq_true, if_false]

/-- A block read of a listed register without a latched value. -/
theorem smbusBlockAccess_listed {s : State} (hreset : s.resetHeld = false) (k : Bool) (hr : smbReads s.smbAddr = true)
    (hl : s.latch.get none s.smbAddr = none) :
    ∃ t, exec (.smbusBlockAccess none k) s = .next t ∧ t.smbAddr = (s.smbAddr + 4) % 2 ^ 32
      ∧ t.out = s.out ++ [.regData s.smbAddr (BitVec.ofNat 32 (s.liveWord s.smbAddr))] ∧ t.tiles = s.tiles := by
  have hread : s.smbRead = s.readWord s.smbAddr := by simp only [State.smbRead, hr, if_true]
  have hframe := State.readWord_snd s s.smbAddr
  refine ⟨_, exec_smbusBlockAccess_read hreset k, rfl, ?_, ?_⟩
  · rw [hread, State.readWord_fst hl, hframe]
    rfl
  · rw [hread, hframe]
    rfl

/-- The alert line is low while a boot failure or a trip stands. -/
theorem State.smbAlertL_eq_false_iff (s : State) :
    s.smbAlertL = false ↔ s.get F.SEC_BOOT_FAIL ≠ 0 ∨ ∃ i < 18, s.get F.PWR_VP_TRIPPED i ≠ 0 := by
  simp only [State.smbAlertL, State.flag, Bool.not_eq_false', Bool.or_eq_true, bne_iff_ne, List.any_eq_true, List.mem_range]

theorem exec_smbusAlertResponse {s : State} (hreset : s.resetHeld = false) :
    exec .smbusAlertResponse s = .next (if s.smbAlertL then s else s.emit (.smbAlertResponse (0x58 + s.strapAsel))) := by
  change execSmbusAlertResponse s = _
  cases h : s.smbAlertL <;> simp [execSmbusAlertResponse, gated, hreset, h]

/-- Settles O10: one lemma for each access, by what it reads or writes. -/
theorem registerSpecials : Obligations.RegisterSpecials := by
  refine ⟨fun addr s r fs i hat hr hl hwf hio => lowWordRead_latches hat hr hl hwf hio, fun s hs hm hio => ?_, fun s hreset => ?_⟩
  · rw [← State.memberNext_index hs]
    exact ⟨synGmdatAccess_free hs hm hio, synGmdatAccess_used hs hio, synGmdatAccess_read hio⟩
  · have halert := exec_smbusAlertResponse hreset
    refine ⟨fun a => exec_smbusSetAddress hreset a true, fun a => exec_smbusSetAddress hreset a false,
      fun d => exec_smbusBlockAccess_write hreset d false, fun d hw => ?_, fun d u hw hu => ?_, fun k hr => ?_,
      fun k hr hl => smbusBlockAccess_listed hreset k hr hl, fun h => ?_, fun hfail htrip => ?_⟩
    · rw [exec_smbusBlockAccess_write hreset, hw]
      rfl
    · rw [exec_smbusBlockAccess_write hreset, hw, hu]
      rfl
    · rw [exec_smbusBlockAccess_read hreset, State.smbRead_of_unlisted hr]
      rfl
    · rw [halert, s.smbAlertL_eq_false_iff.mpr h]
      rfl
    · have hhigh : s.smbAlertL = true := by
        by_contra hlow
        obtain h | ⟨i, hi, h⟩ := s.smbAlertL_eq_false_iff.mp (by simpa using hlow)
        · exact h hfail
        · exact h (htrip i hi)
      rw [halert, hhigh]
      rfl

end Sys2Proof.Machine
end

section
/-! ## What the array's commands leave alone

A command of the array changes parts of tiles, register fields that count and flag what happened, and records of the log and of takes.
`Keeps own π s t` says that `t` has come from `s` by such changes, and by writes of the fields `own`, with the part `π` of every tile as it was:
a chain of updates keeps every part that no link of it writes. The lemmas about the links come first, then those about the operations that the array's commands share. -/

namespace Sys2Proof.Machine

/-- The fields that count and flag what the arrays do beside the fields that the statements speak of. -/
def bookFields : List Nat :=
  [F.EVT_CNT_COUNT, F.EVT_CTL_OVF, F.TWN_LSTAT_RFULL, F.TWN_NMIR_COUNT, F.TILE_NFLAG_SNX, F.TILE_NFLAG_SUF, F.TILE_NFLAG_SOF, F.TILE_NFLAG_SDZ,
   F.TILE_NFLAG_SNV, F.TILE_NFLAG_COVF, F.TILE_NFLAG_CINV, F.TILE_NFLAG_FNAN, F.TILE_NFLAG_FDNZ, F.PWR_BAL_MODENOW, F.TILE_ARR_NBAL_COUNT,
   F.TILE_ACC_NINX_COUNT, F.TILE_ACC_NCHK_COUNT, F.TILE_ACC_NDRAW_COUNT, F.TILE_ACC_NSAT_COUNT, F.TILE_ACC_STAT_SATF].map Field.id

theorem lt_of_mem_bookFields {n : Nat} (h : n ∈ bookFields) : n < 1024 := by
  have hall : bookFields.all (fun n => decide (n < 1024)) = true := by decide
  exact of_decide_eq_true (List.all_eq_true.mp hall n h)

theorem not_evField_of_notMem_bookFields {f : Field} (h : f.id ∉ bookFields) : ¬ evField f := by
  rintro (he | he)
  · exact h (he ▸ by decide)
  · exact h (he ▸ by decide)

theorem nflagField_mem_bookFields {b : Nat} {f : Field} (h : nflagField b = some f) : f.id ∈ bookFields := by
  unfold nflagField at h
  split at h
  all_goals cases h
  all_goals decide

variable {α : Type} {own : List Nat} {π : Tile → α} {s t u : State}

/-- `t` has come from `s` with the part `π` of every tile, the pages, the signals and the fields beside `own` and `bookFields` as they were, and
in order. -/
structure Keeps (own : List Nat) (π : Tile → α) (s t : State) : Prop where
  tile : ∀ q, π (t.tile q) = π (s.tile q)
  get : ∀ (f : Field) (i : Nat), f.id < 1024 → f.id ∉ own → f.id ∉ bookFields → t.get f i = s.get f i
  pages : t.pages = s.pages
  sigs : t.sigs = s.sigs
  tilesOk : FMap.wf {} t.tiles = true
  regsOk : t.RegsOk

/-! ### Links of a chain -/

theorem Keeps.refl (hr : s.RegsOk) (ht : FMap.wf {} s.tiles = true) : Keeps own π s s :=
  ⟨fun _ => rfl, fun _ _ _ _ _ => rfl, rfl, rfl, ht, hr⟩

/-- A part of what is kept is kept. -/
theorem Keeps.part {β : Type} (h : Keeps own π s t) (ρ : α → β) : Keeps own (fun x => ρ (π x)) s t :=
  ⟨fun q => congrArg ρ (h.tile q), h.get, h.pages, h.sigs, h.tilesOk, h.regsOk⟩

/-- A chain that wrote fewer fields is one that wrote these. -/
theorem Keeps.mono {own' : List Nat} (h : Keeps own π s t) (hsub : own ⊆ own') : Keeps own' π s t :=
  ⟨h.tile, fun f i hf ho hn => h.get f i hf (fun hm => ho (hsub hm)) hn, h.pages, h.sigs, h.tilesOk, h.regsOk⟩

theorem Keeps.trans (h : Keeps own π s t) (h' : Keeps own π t u) : Keeps own π s u :=
  ⟨fun q => (h'.tile q).trans (h.tile q), fun f i hf ho hn => (h'.get f i hf ho hn).trans (h.get f i hf ho hn), h'.pages.trans h.pages,
    h'.sigs.trans h.sigs, h'.tilesOk, h'.regsOk⟩

/-- The start of a chain of further changes. -/
theorem Keeps.restart {β : Type} {own' : List Nat} {ρ : Tile → β} (h : Keeps own π s t) : Keeps own' ρ t t := .refl h.regsOk h.tilesOk

/-- An update of any other fields than the register file, the tiles, the pages and the signals. -/
theorem Keeps.of_same (h : Keeps own π s t) (hr : u.regs = t.regs) (ht : u.tiles = t.tiles) (hp : u.pages = t.pages) (hs : u.sigs = t.sigs) :
    Keeps own π s u := by
  obtain ⟨h1, h2, h3, h4, h5, h6⟩ := h
  refine ⟨fun q => ?_, fun f i hf ho hn => ?_, hp.trans h3, hs.trans h4, ht ▸ h5, ?_⟩
  · simpa only [State.tile, ht] using h1 q
  · simpa only [State.get, hr] using h2 f i hf ho hn
  · simpa only [State.RegsOk, hr] using h6

/-- The same, as a record of the fields: the form in which the model writes such an update. -/
theorem Keeps.upd (h : Keeps own π s t) {
    pending fresh out latch smbAddr tapIr porst resetHeld fuses srSeed strapHsp strapAsel rigs sheets compls sqs cqs msixOpen msixPend msixTab
    queJob spaces staged outVers heldVers ledgers stagedLedgers wc bufReqs ascentQ forcedQ descentQ moves mcmd txs heldQ chunkBad
    negReads waiters obArr xbars members streams overflow rejWrs passing wrCount remoteWrs heldSigs sendStreams colls exchanges early
    collCount evStarted floors links t2 t3 portReqs reqCount chans acts actQ actCount scrubs sweeps t3wEpoch ctlReset online log logSeq
    tilesNeed mgmtFailed tether reserve ramping rampQ capHold driven vtarget volts beatFrac tmaxNext tripHold keyOp fwOp flashImg preferred
    fwKey fwId fwSvn fwDigest report reports imgDigest chain imgLoads imgSlot session everOpen flog commits staging load : _} :
    Keeps own π s ⟨
      pending, fresh, out, t.regs, latch, smbAddr, tapIr, porst, resetHeld, fuses, srSeed, strapHsp, strapAsel, t.tiles, rigs, sheets,
      compls, sqs, cqs, msixOpen, msixPend, msixTab, queJob, spaces, t.pages, staged, outVers, heldVers, ledgers, stagedLedgers, wc, bufReqs,
      ascentQ, forcedQ, descentQ, moves, mcmd, txs, heldQ, chunkBad, negReads, t.sigs, waiters, obArr, xbars, members, streams, overflow,
      rejWrs, passing, wrCount, remoteWrs, heldSigs, sendStreams, colls, exchanges, early, collCount, evStarted, floors, links, t2, t3,
      portReqs, reqCount, chans, acts, actQ, actCount, scrubs, sweeps, t3wEpoch, ctlReset, online, log, logSeq, tilesNeed, mgmtFailed,
      tether, reserve, ramping, rampQ, capHold, driven, vtarget, volts, beatFrac, tmaxNext, tripHold, keyOp, fwOp, flashImg, preferred,
      fwKey, fwId, fwSvn, fwDigest, report, reports, imgDigest, chain, imgLoads, imgSlot, session, everOpen, flog, commits, staging, load⟩ :=
  h.of_same rfl rfl rfl rfl

theorem Keeps.setReg (h : Keeps own π s t) {f : Field} {v i : Nat} (hf : f.id ∈ own ∨ f.id ∈ bookFields) (hlt : f.id < 1024) :
    Keeps own π s (t.setReg f v i) := by
  refine ⟨h.tile, fun g j hg ho hn => ?_, h.pages, h.sigs, h.tilesOk, State.setReg_regsOk _ _ _ _ h.regsOk⟩
  rw [State.get_setReg_id _ _ _ _ _ _ hlt hg fun he => hf.elim (fun hf => ho (he ▸ hf)) fun hf => hn (he ▸ hf)]
  exact h.get g j hg ho hn

/-- A write of a field that the chain is told of. -/
theorem Keeps.setOwn (h : Keeps own π s t) {f : Field} {v i : Nat} (hf : f.id ∈ own) (hlt : f.id < 1024) : Keeps own π s (t.setReg f v i) :=
  h.setReg (.inl hf) hlt

theorem Keeps.setBook (h : Keeps own π s t) {f : Field} {v i : Nat} (hf : f.id ∈ bookFields) : Keeps own π s (t.setReg f v i) :=
  h.setReg (.inr hf) (lt_of_mem_bookFields hf)

theorem Keeps.bump (h : Keeps own π s t) {f : Field} {n i : Nat} (hf : f.id ∈ bookFields) : Keeps own π s (t.bump f n i) := h.setBook hf

theorem Keeps.offer (h : Keeps own π s t) {code : Nat} {a : EvAttr} {inc : Nat} : Keeps own π s (t.offer code a inc) := by
  refine ⟨fun q => ?_, fun f i hf ho hn => ?_, ?_, ?_, ?_, State.offer_regsOk _ _ _ _ h.regsOk⟩
  · rw [State.tile, State.offer_tiles]
    exact h.tile q
  · rw [State.get_offer _ _ _ _ _ _ hf (not_evField_of_notMem_bookFields hn)]
    exact h.get f i hf ho hn
  · rw [State.offer_pages]
    exact h.pages
  · rw [State.offer_sigs]
    exact h.sigs
  · rw [State.offer_tiles]
    exact h.tilesOk

theorem Keeps.offerTile (h : Keeps own π s t) {code p inc : Nat} : Keeps own π s (t.offerTile code p inc) := h.offer

theorem State.tile_modTile {s : State} {p : Nat} {g : Tile → Tile} (ht : FMap.wf {} s.tiles = true) (q : Nat) :
    (s.modTile p g).tile q = if q = p then g (s.tile p) else s.tile q := FMap.get_upd _ _ _ _ _ ht

theorem State.tile_modTile_same {s : State} {p : Nat} {g : Tile → Tile} (ht : FMap.wf {} s.tiles = true) :
    (s.modTile p g).tile p = g (s.tile p) := by
  rw [State.tile_modTile ht, if_pos rfl]

theorem State.tile_modTile_ne {s : State} {p q : Nat} {g : Tile → Tile} (hq : q ≠ p) : (s.modTile p g).tile q = s.tile q :=
  FMap.get_upd_ne _ _ _ _ _ hq

/-- An update of a tile that leaves the part `π` of it alone. -/
theorem Keeps.modTile (h : Keeps own π s t) {p : Nat} {g : Tile → Tile} (hg : ∀ x, π (g x) = π x) : Keeps own π s (t.modTile p g) := by
  refine ⟨fun q => ?_, h.get, h.pages, h.sigs, FMap.wf_upd _ _ _ _ h.tilesOk, h.regsOk⟩
  rw [← h.tile q, State.tile_modTile h.tilesOk]
  split
  next hq => rw [hq, hg]
  next => rfl

theorem Keeps.modArr (h : Keeps own π s t) {p : Nat} {g : Arr → Arr} (hπ : ∀ (x : Tile) (a : Arr), π { x with arr := a } = π x) :
    Keeps own π s (t.modArr p g) := h.modTile fun _ => hπ _ _

theorem Keeps.modBank (h : Keeps own π s t) {p b : Nat} {g : Bank → Bank} (hπ : ∀ (x : Tile) (m : FMap Bank), π { x with banks := m } = π x) :
    Keeps own π s (t.modBank p b g) := h.modTile fun _ => hπ _ _

theorem Keeps.ite {c : Prop} [Decidable c] {a b : State} (ha : Keeps own π s a) (hb : Keeps own π s b) : Keeps own π s (if c then a else b) := by
  split
  · exact ha
  · exact hb

theorem Keeps.when (h : Keeps own π s t) {c : Bool} {f : State → State} (hf : ∀ t, Keeps own π s t → Keeps own π s (f t)) :
    Keeps own π s (when c f t) := when_ind _ c f t h (hf t)

theorem Keeps.each {β : Type} (h : Keeps own π s t) {l : List β} {f : State → β → State}
    (hf : ∀ t a, Keeps own π s t → Keeps own π s (f t a)) : Keeps own π s (each l f t) := each_ind _ l f t h fun t a _ => hf t a

theorem Keeps.emit (h : Keeps own π s t) {o : Out} : Keeps own π s (t.emit o) := h.upd

theorem Keeps.modSheet (h : Keeps own π s t) {logno : Nat} {f : Sheet → Sheet} : Keeps own π s (t.modSheet logno f) := h.upd

theorem Keeps.modPart (h : Keeps own π s t) {logno lead : Nat} {f : Part → Part} : Keeps own π s (t.modPart logno lead f) := h.modSheet

/-! ### Where a tile lies, and the numeric mode -/

theorem Keeps.phys (h : Keeps [] π s t) (n : Nat) : t.phys n = s.phys n := h.get _ _ (by decide) (by decide) (by decide)

theorem Keeps.mem (h : Keeps [] π s t) (f : Fused) (gr gc : Nat) : t.mem f gr gc = s.mem f gr gc := h.phys _

theorem Keeps.nmode (h : Keeps [] π s t) (rig : Nat) (strict : Bool) : t.nmode rig strict = s.nmode rig strict := by
  have hcovf := h.get F.IMG_RMODE_COVF rig (by decide) (by decide) (by decide)
  have hmaxmin := h.get F.IMG_RMODE_MAXMIN rig (by decide) (by decide) (by decide)
  simp only [State.nmode, State.flag, hcovf, hmaxmin]

/-! ### The log and the takes' records -/

theorem Keeps.modLink (h : Keeps own π s t) {p : Nat} {f : Link → Link} : Keeps own π s (t.modLink p f) := h.upd

theorem Keeps.pump (h : Keeps own π s t) {p : Nat} : Keeps own π s (t.pump p) :=
  .ite ((h.modLink.each fun _ _ hv => hv.emit).each fun _ _ hv => hv.emit) h

theorem Keeps.enqueue (h : Keeps own π s t) {p : Nat} {transit : Bool} {f : Frame} : Keeps own π s (t.enqueue p transit f) := h.modLink.pump

theorem Keeps.sendTether (h : Keeps own π s t) {f : Frame} : Keeps own π s (t.sendTether f) := h.enqueue.upd

theorem Keeps.ringCheck (h : Keeps own π s t) : Keeps own π s t.ringCheck :=
  .ite (h.setBook (by decide)) (.ite (h.setBook (by decide)) h)

theorem Keeps.writeLog (h : Keeps own π s t) {logno lead rig : Nat} {k : LogKind} : Keeps own π s (t.writeLog logno lead rig k) := by
  unfold State.writeLog
  exact .ringCheck (h.upd.when fun _ hv => (hv.sendTether.bump (by decide)).upd)

theorem Keeps.noteRead (h : Keeps own π s t) {logno lead key : Nat} : Keeps own π s (t.noteRead logno lead key) := by
  unfold State.noteRead
  split
  · split
    · exact h
    · split
      · exact h.writeLog
      · exact h
  · exact h

theorem Keeps.recSat (h : Keeps own π s t) {logno : Nat} : Keeps own π s (t.recOf logno State.recSat) := by
  unfold State.recOf
  split
  · exact h.upd
  · exact h

theorem Keeps.raiseNum (h : Keeps own π s t) {p b n : Nat} : Keeps own π s (t.raiseNum p b n) := by
  unfold State.raiseNum
  split
  · exact h
  next f hf => exact .ite h (h.setBook (nflagField_mem_bookFields hf)).offerTile

theorem Keeps.raiseNums (h : Keeps own π s t) {p logno : Nat} {fs : List NFlags} : Keeps own π s (t.raiseNums p logno fs) :=
  .ite (h.each fun _ _ hv => hv.raiseNum).recSat (h.each fun _ _ hv => hv.raiseNum)

/-! ### Gaps -/

/-- A part of a tile that its gap is not in. -/
def OffGap (π : Tile → α) : Prop := ∀ (x : Tile) (g : Bool) (n m k : Nat),
  π { x with arr := { x.arr with inGap := g, gap := n, gapMode := m, step := k } } = π x

/-- A gap starts where none is under way, with the mode requested (R73, R75). -/
def State.gapBegun (s : State) (p : Nat) : State :=
  if (s.tile p).arr.inGap then s
  else (s.setReg F.PWR_BAL_MODENOW (s.get F.PWR_BAL_MODE (islandOf p)) (islandOf p)).modArr p fun a => { a with
    inGap := true, gap := 0, gapMode := s.get F.PWR_BAL_MODE (islandOf p), step := if s.get F.PWR_BAL_MODE (islandOf p) = 0 then 5 else 0 }

/-- A gap slot counts, and is offered where ballast fills it. -/
theorem State.gapSlot_eq (s : State) (p : Nat) :
    let t := (s.gapBegun p).modArr p fun a => { a with gap := a.gap + 1 }
    s.gapSlot p = t ∨ s.gapSlot p = (t.bump F.TILE_ARR_NBAL_COUNT 1 p).offerTileOnly 0x045 p := by
  by_cases h : ((s.gapBegun p).tile p).arr.gapMode ≠ 0 ∧ ((s.gapBegun p).tile p).arr.step < 4
      ∧ ((s.gapBegun p).tile p).arr.gap < fullSlots ((s.gapBegun p).tile p).arr.gapMode + 192
  · exact .inr (if_pos h)
  · exact .inl (if_neg h)

theorem Keeps.gapBegun (h : Keeps own π s t) (hπ : OffGap π) {p : Nat} : Keeps own π s (t.gapBegun p) :=
  .ite h ((h.setBook (by decide)).modTile fun x => hπ x _ _ _ _)

theorem Keeps.gapSlot_of_gapBegun {p : Nat} (h : Keeps own π s (t.gapBegun p))
    (hπ : ∀ (x : Tile) (n : Nat), π { x with arr := { x.arr with gap := n } } = π x) : Keeps own π s (t.gapSlot p) := by
  have hslot : Keeps own π s ((t.gapBegun p).modArr p fun a => { a with gap := a.gap + 1 }) := h.modTile fun x => hπ x _
  obtain he | he := t.gapSlot_eq p
  · rw [he]
    exact hslot
  · rw [he]
    exact (hslot.bump (by decide)).offer

theorem Keeps.gapSlot (h : Keeps own π s t) (hπ : OffGap π) {p : Nat} : Keeps own π s (t.gapSlot p) :=
  (h.gapBegun hπ).gapSlot_of_gapBegun fun x n => hπ x x.arr.inGap n x.arr.gapMode x.arr.step

theorem Keeps.gapAll (h : Keeps own π s t) (hπ : OffGap π) {f : Fused} : Keeps own π s (t.gapAll f) := h.each fun _ _ hv => hv.gapSlot hπ

theorem Keeps.endGap (h : Keeps own π s t) (hπ : OffGap π) {f : Fused} : Keeps own π s (t.endGap f) :=
  h.each fun _ _ hv => hv.modTile fun x => hπ x _ _ x.arr.gapMode _

/-! ### A fact that each step of a chain brings about for its own index -/

/-- What a step makes true of its index, and what no step makes untrue, is true of every index in the end. -/
theorem each_reaches {β σ : Type} (I : σ → Prop) (P : β → σ → Prop) {l : List β} {f : σ → β → σ} {s : σ} (hI : I s)
    (hstep : ∀ a ∈ l, ∀ t, I t → I (f t a)) (hset : ∀ a ∈ l, ∀ t, I t → P a (f t a))
    (hkeep : ∀ a ∈ l, ∀ t b, I t → P b t → P b (f t a)) : ∀ a ∈ l, P a (Machine.each l f s) := by
  induction l generalizing s with
  | nil => simp
  | cons a l ih =>
    rw [List.forall_mem_cons] at hstep hset hkeep ⊢
    obtain ⟨hstepa, hstep⟩ := hstep
    obtain ⟨hseta, hset⟩ := hset
    obtain ⟨-, hkeep⟩ := hkeep
    have hfirst : I (Machine.each l f (f s a)) ∧ P a (Machine.each l f (f s a)) :=
      each_ind (fun t => I t ∧ P a t) l f (f s a) ⟨hstepa s hI, hseta s hI⟩ fun t b hb ⟨ht, hp⟩ => ⟨hstep b hb t ht, hkeep b hb t a ht hp⟩
    exact ⟨hfirst.2, ih (hstepa s hI) hstep hset hkeep⟩

/-- After a gap slot its tile is in a gap, and every other is as it was. -/
theorem State.gapSlot_inGap {s : State} (hr : s.RegsOk) (ht : FMap.wf {} s.tiles = true) (p q : Nat) :
    ((s.gapSlot p).tile q).arr.inGap = (decide (q = p) || (s.tile q).arr.inGap) := by
  have hbegun : ((s.gapBegun p).tile q).arr.inGap = (decide (q = p) || (s.tile q).arr.inGap) := by
    unfold State.gapBegun
    by_cases hq : q = p
    · subst hq
      split
      next h => simp [h]
      next => exact (congrArg (fun x : Tile => x.arr.inGap) (State.tile_modTile_same ht)).trans (by simp)
    · split
      · simp [hq]
      · exact (congrArg (fun x : Tile => x.arr.inGap) (State.tile_modTile_ne hq)).trans (by simp [hq]; rfl)
  have hkeep : Keeps [] (fun x : Tile => x.arr.inGap) (s.gapBegun p) (s.gapSlot p) :=
    ((Keeps.refl (own := []) (π := fun _ => ()) hr ht).gapBegun (p := p) fun _ _ _ _ _ => rfl).restart.gapSlot_of_gapBegun fun _ _ => rfl
  exact (hkeep.tile q).trans hbegun

/-- The arrays of the members are in a gap after a gap slot of each. -/
theorem State.gapAll_inGap {s : State} {f : Fused} (hr : s.RegsOk) (ht : FMap.wf {} s.tiles = true) :
    ∀ m ∈ f.members, ((s.gapAll f).tile (s.phys m)).arr.inGap = true := by
  refine each_reaches (fun t => Keeps [] (fun _ => ()) s t) (fun m t => (t.tile (s.phys m)).arr.inGap = true) (.refl hr ht)
    (fun m _ t hk => hk.gapSlot fun _ _ _ _ _ => rfl) (fun m _ t hk => ?_) fun m _ t b hk hb => ?_
  · rw [State.gapSlot_inGap hk.regsOk hk.tilesOk, hk.phys, decide_eq_true rfl, Bool.true_or]
  · rw [State.gapSlot_inGap hk.regsOk hk.tilesOk, hb, Bool.or_true]

/-- The gap of every member's array has ended. -/
theorem State.endGap_inGap {s : State} {f : Fused} (hr : s.RegsOk) (ht : FMap.wf {} s.tiles = true) :
    ∀ m ∈ f.members, ((s.endGap f).tile (s.phys m)).arr.inGap = false := by
  refine each_reaches (fun t => Keeps [] (fun _ => ()) s t) (fun m t => (t.tile (s.phys m)).arr.inGap = false) (.refl hr ht)
    (fun m _ t hk => hk.modTile fun _ => rfl) (fun m _ t hk => ?_) fun m _ t b hk hb => ?_
  · rw [State.modArr, hk.phys, State.tile_modTile_same hk.tilesOk]
  · rw [State.modArr, State.tile_modTile hk.tilesOk]
    split
    · rfl
    · exact hb

/-! ### Registers and tiles alone -/

/-- Nothing but registers and tiles changed. -/
def regsTilesOnly (s t : State) : Prop := { t with regs := s.regs, tiles := s.tiles } = s

theorem regsTilesOnly.setReg (h : regsTilesOnly s t) {f : Field} {v i : Nat} : regsTilesOnly s (t.setReg f v i) := h

theorem regsTilesOnly.modTile (h : regsTilesOnly s t) {p : Nat} {g : Tile → Tile} : regsTilesOnly s (t.modTile p g) := h

theorem regsTilesOnly.offer (h : regsTilesOnly s t) {code : Nat} {a : EvAttr} {inc : Nat} : regsTilesOnly s (t.offer code a inc) := by
  rw [State.offer_eq]
  exact h

theorem regsTilesOnly.gapSlot (h : regsTilesOnly s t) {p : Nat} : regsTilesOnly s (t.gapSlot p) := by
  have hbegun : regsTilesOnly s (t.gapBegun p) := by
    unfold State.gapBegun
    split
    · exact h
    · exact h.setReg.modTile
  obtain he | he := t.gapSlot_eq p
  · rw [he]
    exact hbegun.modTile
  · rw [he]
    exact (hbegun.modTile.setReg).offer

theorem regsTilesOnly.gapAll (h : regsTilesOnly s t) {f : Fused} : regsTilesOnly s (t.gapAll f) :=
  each_ind _ _ _ _ h fun _ _ _ hv => hv.gapSlot

end Sys2Proof.Machine
end

section
/-! ## The start of an array task (R56, R58, R66, R76, R142)

`select` and `choose` say which task starts. The start itself is two stages: the task leaves the list and becomes the run (`taskTaken`), then the
part's next segment and its routine are entered (`taskFollowed`), which adds to the list alone while generations of the task still run. -/

namespace Sys2Proof.Machine

/-! ### Which task starts -/

theorem Arr.select_zero {a : Arr} {hm : Nat} {o : ArrTask} {l : List ArrTask} (hl : a.list = o :: l)
    (h : a.names o = true ∨ hm ≤ o.passOver ∨ ∀ t ∈ l, a.names t = false) : a.select hm = 0 := by
  simp only [Arr.select, hl]
  split
  · rfl
  next hn =>
    simp only [Bool.or_eq_true, decide_eq_true_eq, not_or, Bool.not_eq_true] at hn
    obtain ⟨hno, hpass⟩ := hn
    have hall : ∀ t ∈ o :: l, a.names t = false := by
      obtain h | h | h := h
      · rw [hno] at h; cases h
      · exact absurd h hpass
      · exact List.forall_mem_cons.mpr ⟨hno, h⟩
    have hidx : (o :: l).findIdx a.names = (o :: l).length := List.findIdx_eq_length_of_false hall
    rw [hidx, if_neg (lt_irrefl _)]

theorem findIdx_of_first {β : Type} {p : β → Bool} {l : List β} {k : Nat} {t : β} (ht : l[k]? = some t) (hp : p t = true)
    (hbefore : ∀ n x, n < k → l[n]? = some x → p x = false) : l.findIdx p = k := by
  obtain ⟨hk, rfl⟩ := List.getElem?_eq_some_iff.mp ht
  exact (List.findIdx_eq hk).mpr ⟨hp, fun j hj => hbefore j _ hj (List.getElem?_eq_getElem _)⟩

theorem Arr.select_named {a : Arr} {hm k : Nat} {o t : ArrTask} {l : List ArrTask} (hl : a.list = o :: l) (ho : a.names o = false)
    (hpass : o.passOver < hm) (ht : a.list[k]? = some t) (hn : a.names t = true)
    (hbefore : ∀ n x, n < k → a.list[n]? = some x → a.names x = false) : a.select hm = k := by
  have hidx := findIdx_of_first ht hn hbefore
  have hk : k < a.list.length := (List.getElem?_eq_some_iff.mp ht).1
  rw [hl] at hidx hk
  have hcond : (a.names o || decide (o.passOver ≥ hm)) = false := by simp [ho, hpass]
  simp only [Arr.select, hl, hcond, hidx, hk, Bool.false_eq_true, if_false, if_true]

/-- The task selected starts, its data having come. -/
theorem State.choose_selected {s : State} {f : Fused} {a : Arr} {hm : Nat} {t : ArrTask} (ht : a.list[a.select hm]? = some t)
    (hr : s.taskReady f a t = true) : s.choose f a hm = some (a.select hm, if a.select hm = 0 then [] else [0]) := by
  simp only [State.choose, ht, hr, if_true]

/-- The task selected waits, and the first that names the loaded block and whose data have come starts in its place. -/
theorem State.choose_instead {s : State} {f : Fused} {a : Arr} {hm i : Nat} {w t : ArrTask} (hw : a.list[a.select hm]? = some w)
    (hwait : s.taskReady f a w = false) (hpass : w.passOver < hm) (ht : a.list[i]? = some t) (hn : a.names t = true)
    (hr : s.taskReady f a t = true) (hbefore : ∀ n x, n < i → a.list[n]? = some x → a.names x = false ∨ s.taskReady f a x = false) :
    s.choose f a hm = some (i, if a.select hm = 0 then [0] else [0, a.select hm]) := by
  have hi : i < a.list.length := (List.getElem?_eq_some_iff.mp ht).1
  have hidx : a.list.findIdx (fun x => a.names x && s.taskReady f a x) = i :=
    findIdx_of_first ht (by simp [hn, hr]) fun n x hlt hx => by
      obtain h | h := hbefore n x hlt hx
      · simp [h]
      · simp [h]
  have hage : ¬ w.passOver ≥ hm := by omega
  simp only [State.choose, hw, hwait, hidx, hage, hi, Bool.false_eq_true, if_false, if_true]

/-- No task starts. -/
theorem State.choose_none {s : State} {f : Fused} {a : Arr} {hm : Nat} {w : ArrTask} (hw : a.list[a.select hm]? = some w)
    (hwait : s.taskReady f a w = false) (h : hm ≤ w.passOver ∨ ∀ x ∈ a.list, a.names x = false ∨ s.taskReady f a x = false) :
    s.choose f a hm = none := by
  simp only [State.choose, hw, hwait, Bool.false_eq_true, if_false]
  split
  · rfl
  next hage =>
    have hall : ∀ x ∈ a.list, (a.names x && s.taskReady f a x) = false := by
      intro x hx
      obtain h | h := h.resolve_left (fun hle => hage hle) x hx
      · simp [h]
      · simp [h]
    rw [List.findIdx_eq_length_of_false hall, if_neg (lt_irrefl _)]

/-! ### The tasks passed over -/

/-- A task passed over once more. -/
def ArrTask.passed (t : ArrTask) : ArrTask := { t with passOver := t.passOver + 1 }

theorem getElem?_modAt {β : Type} (l : List β) (i k : Nat) (g : β → β) : (modAt l i g)[k]? = if k = i then l[k]?.map g else l[k]? := by
  induction l generalizing i k with
  | nil => simp [modAt]
  | cons x l ih =>
    cases i with
    | zero => cases k with
      | zero => simp [modAt]
      | succ k => simp [modAt]
    | succ i => cases k with
      | zero => simp [modAt]
      | succ k => simp [modAt, ih]

/-- Each of some different places of a list changed once. -/
theorem each_modAt {β : Type} (l : List β) (g : β → β) {places : List Nat} (hnodup : places.Nodup) :
    each places (fun l i => modAt l i g) l = l.zipIdx.map fun x => if places.contains x.2 then g x.1 else x.1 := by
  refine List.ext_getElem? fun k => ?_
  have hget : (each places (fun l i => modAt l i g) l)[k]? = if k ∈ places then l[k]?.map g else l[k]? := by
    induction places generalizing l with
    | nil => simp
    | cons i places ih =>
      obtain ⟨hi, hnodup⟩ := List.nodup_cons.mp hnodup
      rw [each_cons, ih _ hnodup, getElem?_modAt]
      by_cases hk : k = i
      · subst hk
        simp [hi]
      · simp [hk]
  rw [hget, List.getElem?_map, List.getElem?_zipIdx]
  cases l[k]? with
  | none => simp
  | some x =>
    by_cases hk : k ∈ places
    · simp [hk]
    · simp [hk]

/-! ### The stages of the start -/

/-- The array `b` once the task at place `i` of `a`, its list with the present versions, has left the list and is the run, with a load or with
the loaded block that it names. -/
def Arr.taken (a : Arr) (i : Nat) (passed : List Nat) (t : ArrTask) (b : Arr) : Arr :=
  { b with list := (each passed (fun l i => modAt l i ArrTask.passed) a.list).eraseIdx i, blk := if a.names t then b.blk else none,
           run := some { task := t, loading := !a.names t, nextRow := t.row0 } }

/-- The task at place `i` of the list is taken, and HOLDMAX comes into force. -/
def State.taskTaken (s : State) (p i : Nat) (passed : List Nat) (t : ArrTask) : State :=
  ((s.noteRead t.ref.logno t.ref.lead (keyOf t.id.space t.id.addr)).setReg F.TILE_ARR_STAT_HOLDNOW (s.get F.TILE_ARR_CTL_HOLDMAX p) p).modArr p
    ((s.freshArr (s.tile p).arr).taken i passed t)

/-- A start without a load counts, and the stationary elements that have come are dropped (R66). -/
def State.heldCounted (s : State) (named : Bool) (p : Nat) (f : Fused) (t : ArrTask) : State :=
  when named (fun s => (s.bump F.TILE_ARR_NHOLD_COUNT 1 p).skipLoaded f t) s

/-- The part's next segment enters the list (R270). -/
def State.segmentEntered (s : State) (h : Sheet) (t : ArrTask) : State :=
  match h.part t.ref.lead with
  | some q => if q.segsLeft > 0 then
      ((s.modPart t.ref.logno t.ref.lead fun q => { q with segsLeft := q.segsLeft - 1 }).enterTask (s.arrTask h q (t.ref.seg + 1))).offer
        (Config.evtCode 19) { rig := some t.rig }
    else s
  | none => s

/-- The next segment is entered, and the routine in the order of each bottom member (R119). -/
def State.taskQueued (s : State) (f : Fused) (h : Sheet) (t : ArrTask) : State :=
  let u := s.segmentEntered h t
  if h.cs.rvalid then each f.bottoms (fun s b => s.modVec (s.phys b) fun v => { v with order := v.order ++ [t.ref] }) u else u

/-- What follows where the task's call sheet is in the log; the feeds are judged last. -/
def State.taskFollowed (s : State) (f : Fused) (t : ArrTask) : State :=
  match s.sheet t.ref.logno with
  | none => s
  | some h => each f.members (fun s m => s.feedCheck (s.phys m) t.ref.logno 0) (s.taskQueued f h t)

theorem exec_arrayTaskStart {s : State} {p i : Nat} {f : Fused} {passed : List Nat} {t : ArrTask} (hf : s.geo p = some f)
    (hc : s.choose f (s.freshArr (s.tile p).arr) (s.get F.TILE_ARR_CTL_HOLDMAX p) = some (i, passed))
    (hrun : (s.tile p).arr.run = none) (hhalt : s.get F.TILE_ARR_CTL_HALT p = 0)
    (ht : (s.freshArr (s.tile p).arr).list[i]? = some t) :
    exec (.arrayTaskStart p) s = .next (((s.taskTaken p i passed t).heldCounted ((s.freshArr (s.tile p).arr).names t) p f t).taskFollowed f t) := by
  change execArrayTaskStart p s = _
  have hfree : ((s.freshArr (s.tile p).arr).run.isNone && !s.flag F.TILE_ARR_CTL_HALT p) = true := by
    simp [State.freshArr, hrun, State.flag, hhalt]
  simp only [execArrayTaskStart, hf, hc, gated, hfree, if_true, ht]
  rfl

theorem exec_arrayTaskStart_none {s : State} {p : Nat} {f : Fused} (hf : s.geo p = some f)
    (hc : s.choose f (s.freshArr (s.tile p).arr) (s.get F.TILE_ARR_CTL_HOLDMAX p) = none) : exec (.arrayTaskStart p) s = .next s := by
  change execArrayTaskStart p s = _
  simp only [execArrayTaskStart, hf, hc]

/-! ### What the stages do -/

section
variable {α : Type} {own : List Nat} {π : Tile → α} {s t u : State}

theorem Keeps.skipLoaded (h : Keeps own π s t) (hπ : ∀ (x : Tile) (l : List FeedElem) (m : FMap Nat), π { x with feedS := l, skipS := m } = π x)
    {f : Fused} {k : ArrTask} : Keeps own π s (t.skipLoaded f k) := h.each fun _ _ hv => hv.modTile fun _ => hπ _ _ _

theorem Keeps.taskTaken (h : Keeps own π s t) (ho : F.TILE_ARR_STAT_HOLDNOW.id ∈ own)
    (hπ : ∀ (x : Tile) (a : Arr), π { x with arr := a } = π x) {p i : Nat} {passed : List Nat} {k : ArrTask} :
    Keeps own π s (t.taskTaken p i passed k) := (h.noteRead.setOwn ho (by decide)).modArr hπ

theorem Keeps.heldCounted (h : Keeps own π s t) (ho : F.TILE_ARR_NHOLD_COUNT.id ∈ own)
    (hπ : ∀ (x : Tile) (l : List FeedElem) (m : FMap Nat), π { x with feedS := l, skipS := m } = π x)
    {named : Bool} {p : Nat} {f : Fused} {k : ArrTask} : Keeps own π s (t.heldCounted named p f k) :=
  h.when fun _ hv => (hv.setOwn ho (by decide)).skipLoaded hπ

/-- A part of a tile that neither the array's list nor the vector engine is in. -/
def OffQueues (π : Tile → α) : Prop := ∀ (x : Tile) (l : List ArrTask) (v : Vec), π { x with arr := { x.arr with list := l }, vec := v } = π x

theorem Keeps.segmentEntered (h : Keeps own π s t) (hπ : OffQueues π) {c : Sheet} {k : ArrTask} : Keeps own π s (t.segmentEntered c k) := by
  unfold State.segmentEntered
  split
  · exact .ite (h.modPart.modTile fun x => hπ x _ x.vec).offer h
  · exact h

theorem Keeps.taskQueued (h : Keeps own π s t) (hπ : OffQueues π) {f : Fused} {c : Sheet} {k : ArrTask} :
    Keeps own π s (t.taskQueued f c k) :=
  .ite ((h.segmentEntered hπ).each fun _ _ hv => hv.modTile fun x => hπ x x.arr.list _) (h.segmentEntered hπ)

end

/-- While a generation of the task still runs, its feeds are not judged (R449). -/
theorem State.feedCheck_of_running {s : State} {p logno e : Nat} (h : (s.tile p).gensOver logno = false) : s.feedCheck p logno e = s := by
  unfold State.feedCheck
  split
  · dsimp only
    split
    · rfl
    · simp only [h, Bool.not_false, or_true, if_true]
  · rfl

theorem each_fixed {β σ : Type} {l : List β} {f : σ → β → σ} {s : σ} (h : ∀ a ∈ l, f s a = s) : each l f s = s :=
  each_ind (fun t => t = s) l f s rfl fun _ a ha ht => ht ▸ h a ha

/-- While a generation of the task runs in every member, what follows the start is the queueing alone. -/
theorem State.taskFollowed_of_running {s : State} {f : Fused} {t : ArrTask} (hr : s.RegsOk) (ht : FMap.wf {} s.tiles = true)
    (hgens : ∀ m ∈ f.members, (s.tile (s.phys m)).gensOver t.ref.logno = false) :
    s.taskFollowed f t = s ∨ ∃ h, s.taskFollowed f t = s.taskQueued f h t := by
  unfold State.taskFollowed
  split
  · exact .inl rfl
  next h _ =>
    refine .inr ⟨h, each_fixed fun m hm => State.feedCheck_of_running ?_⟩
    have hk : Keeps [] Tile.engs s (s.taskQueued f h t) := (Keeps.refl hr ht).taskQueued fun _ _ _ => rfl
    have hengs := hk.tile (s.phys m)
    rw [hk.phys m, Tile.gensOver, hengs]
    exact hgens m hm

/-- Entering the next segment adds at most one task to an array's list. -/
theorem State.segmentEntered_list {s : State} {h : Sheet} {t : ArrTask} (ht : FMap.wf {} s.tiles = true) (p : Nat) :
    ∃ next_, ((s.segmentEntered h t).tile p).arr.list = (s.tile p).arr.list ++ next_ := by
  unfold State.segmentEntered
  split
  next q _ =>
    split
    · rw [State.tile, State.offer_tiles]
      by_cases hp : p = s.phys (s.arrTask h q (t.ref.seg + 1)).ref.lead
      · refine ⟨[(s.modPart t.ref.logno t.ref.lead fun q => { q with segsLeft := q.segsLeft - 1 }).arrTask h q (t.ref.seg + 1)], ?_⟩
        subst hp
        exact congrArg (fun x : Tile => x.arr.list) (State.tile_modTile_same ht)
      · exact ⟨[], (congrArg (fun x : Tile => x.arr.list) (State.tile_modTile_ne hp)).trans (List.append_nil _).symm⟩
    · exact ⟨[], (List.append_nil _).symm⟩
  · exact ⟨[], (List.append_nil _).symm⟩

theorem State.taskQueued_list {s : State} {f : Fused} {h : Sheet} {t : ArrTask} (hr : s.RegsOk) (ht : FMap.wf {} s.tiles = true) (p : Nat) :
    ∃ next_, ((s.taskQueued f h t).tile p).arr.list = (s.tile p).arr.list ++ next_ := by
  obtain ⟨next_, hn⟩ := s.segmentEntered_list (h := h) (t := t) ht p
  have hseg : Keeps [] (fun x : Tile => x.arr.list) (s.segmentEntered h t) (s.segmentEntered h t) :=
    ((Keeps.refl (own := []) (π := fun _ => ()) hr ht).segmentEntered fun _ _ _ => rfl).restart
  have hord : Keeps [] (fun x : Tile => x.arr.list) (s.segmentEntered h t) (s.taskQueued f h t) :=
    .ite (hseg.each fun _ _ hv => hv.modTile fun _ => rfl) hseg
  exact ⟨next_, (hord.tile p).trans hn⟩

section
variable {s : State} {p i : Nat} {f : Fused} {passed : List Nat} {t : ArrTask}

theorem State.taskTaken_arr (hr : s.RegsOk) (ht : FMap.wf {} s.tiles = true) :
    ((s.taskTaken p i passed t).tile p).arr = (s.freshArr (s.tile p).arr).taken i passed t (s.tile p).arr := by
  have hread : Keeps [] id s (s.noteRead t.ref.logno t.ref.lead (keyOf t.id.space t.id.addr)) := (Keeps.refl hr ht).noteRead
  exact (congrArg Tile.arr (State.tile_modTile_same hread.tilesOk)).trans
    (congrArg (fun x : Tile => (s.freshArr (s.tile p).arr).taken i passed t x.arr) (hread.tile p))

theorem State.taskTaken_holdNow (hr : s.RegsOk) (ht : FMap.wf {} s.tiles = true) :
    (s.taskTaken p i passed t).get F.TILE_ARR_STAT_HOLDNOW p = s.get F.TILE_ARR_CTL_HOLDMAX p % 256 := by
  have hread : Keeps [] id s (s.noteRead t.ref.logno t.ref.lead (keyOf t.id.space t.id.addr)) := (Keeps.refl hr ht).noteRead
  exact State.get_setReg_same _ F.TILE_ARR_STAT_HOLDNOW _ _ hread.regsOk

theorem State.taskTaken_nhold (hr : s.RegsOk) (ht : FMap.wf {} s.tiles = true) :
    (s.taskTaken p i passed t).get F.TILE_ARR_NHOLD_COUNT p = s.get F.TILE_ARR_NHOLD_COUNT p := by
  have htaken : Keeps [F.TILE_ARR_STAT_HOLDNOW.id] (fun _ => ()) s (s.taskTaken p i passed t) :=
    (Keeps.refl hr ht).taskTaken (by decide) fun _ _ => rfl
  exact htaken.get _ _ (by decide) (by decide) (by decide)

theorem State.heldCounted_nhold {named : Bool} (hr : s.RegsOk) (ht : FMap.wf {} s.tiles = true) :
    (s.heldCounted named p f t).get F.TILE_ARR_NHOLD_COUNT p
      = if named then (s.get F.TILE_ARR_NHOLD_COUNT p + 1) % 2 ^ 64 else s.get F.TILE_ARR_NHOLD_COUNT p := by
  cases named with
  | false => rfl
  | true =>
    have hskip : Keeps [] (fun _ => ()) (s.bump F.TILE_ARR_NHOLD_COUNT 1 p) ((s.bump F.TILE_ARR_NHOLD_COUNT 1 p).skipLoaded f t) :=
      (Keeps.refl (State.setReg_regsOk _ _ _ _ hr) ht).skipLoaded fun _ _ _ => rfl
    exact (hskip.get _ _ (by decide) (by decide) (by decide)).trans (State.get_setReg_same _ F.TILE_ARR_NHOLD_COUNT _ _ hr)

end

/-- Parts of a tile that the start of a task does not reach. -/
def Tile.unstarted (x : Tile) : Content × FMap Bank × FMap Eng := (x.store, x.banks, x.engs)

/-- What the start of a task makes of the lead's array and of the fields that it writes. -/
theorem arrayTaskStart_started {s : State} {p i : Nat} {f : Fused} {passed : List Nat} {t : ArrTask} (hr : s.RegsOk)
    (hw : FMap.wf {} s.tiles = true) (hf : s.geo p = some f)
    (hc : s.choose f (s.freshArr (s.tile p).arr) (s.get F.TILE_ARR_CTL_HOLDMAX p) = some (i, passed))
    (hrun : (s.tile p).arr.run = none) (hhalt : s.get F.TILE_ARR_CTL_HALT p = 0)
    (ht : (s.freshArr (s.tile p).arr).list[i]? = some t) (hpassed : passed.Nodup)
    (hgens : ∀ m ∈ f.members, (s.tile (s.phys m)).gensOver t.ref.logno = false) :
    ∃ u next_, exec (.arrayTaskStart p) s = .next u
      ∧ (u.tile p).arr.run = some { task := t, loading := !(s.freshArr (s.tile p).arr).names t, nextRow := t.row0 }
      ∧ (u.tile p).arr.list = (((s.freshArr (s.tile p).arr).list.zipIdx.map fun x => if passed.contains x.2 then x.1.passed else x.1).eraseIdx i)
          ++ next_
      ∧ (u.tile p).arr.blk = (if (s.freshArr (s.tile p).arr).names t then (s.tile p).arr.blk else none)
      ∧ u.get F.TILE_ARR_STAT_HOLDNOW p = s.get F.TILE_ARR_CTL_HOLDMAX p % 256
      ∧ u.get F.TILE_ARR_NHOLD_COUNT p = (if (s.freshArr (s.tile p).arr).names t then (s.get F.TILE_ARR_NHOLD_COUNT p + 1) % 2 ^ 64
          else s.get F.TILE_ARR_NHOLD_COUNT p)
      ∧ (∀ q, (u.tile q).store = (s.tile q).store) ∧ (∀ q, (u.tile q).banks = (s.tile q).banks) ∧ u.pages = s.pages ∧ u.sigs = s.sigs := by
  let named := (s.freshArr (s.tile p).arr).names t
  let v := s.taskTaken p i passed t
  let w := v.heldCounted named p f t
  have htaken : Keeps [F.TILE_ARR_STAT_HOLDNOW.id] Tile.unstarted s v := (Keeps.refl hr hw).taskTaken (by decide) fun _ _ => rfl
  have hheld : Keeps [F.TILE_ARR_NHOLD_COUNT.id] (fun x : Tile => (x.unstarted, x.arr)) v w :=
    htaken.restart.heldCounted (by decide) fun _ _ _ => rfl
  have hkept : Keeps [F.TILE_ARR_STAT_HOLDNOW.id, F.TILE_ARR_NHOLD_COUNT.id] Tile.unstarted s w :=
    (htaken.mono (by decide)).trans ((hheld.part Prod.fst).mono (by decide))
  have hrunning : ∀ m ∈ f.members, (w.tile (w.phys m)).gensOver t.ref.logno = false := by
    intro m hm
    have hphys : w.phys m = s.phys m := hkept.get _ _ (by decide) (by decide) (by decide)
    have hengs : (w.tile (s.phys m)).engs = (s.tile (s.phys m)).engs := congrArg (fun y => y.2.2) (hkept.tile (s.phys m))
    rw [hphys, Tile.gensOver, hengs]
    exact hgens m hm
  have harr : (w.tile p).arr = (s.freshArr (s.tile p).arr).taken i passed t (s.tile p).arr :=
    (congrArg Prod.snd (hheld.tile p)).trans (State.taskTaken_arr hr hw)
  obtain ⟨u, hu, hfollow, next_, hlist⟩ : ∃ u, w.taskFollowed f t = u ∧ Keeps [] (fun x : Tile => (x.unstarted, x.arr.run, x.arr.blk)) w u
      ∧ ∃ next_, (u.tile p).arr.list = (w.tile p).arr.list ++ next_ := by
    obtain h | ⟨c, h⟩ := State.taskFollowed_of_running hkept.regsOk hkept.tilesOk hrunning
    · exact ⟨w, h, hkept.restart, [], (List.append_nil _).symm⟩
    · exact ⟨_, h, hkept.restart.taskQueued fun _ _ _ => rfl, State.taskQueued_list hkept.regsOk hkept.tilesOk p⟩
  have hall := hkept.trans ((hfollow.part Prod.fst).mono (List.nil_subset _))
  refine ⟨u, next_, ?_, ?_, ?_, ?_, ?_, ?_, fun q => congrArg Prod.fst (hall.tile q), fun q => congrArg (fun y => y.2.1) (hall.tile q),
    hall.pages, hall.sigs⟩
  · rw [exec_arrayTaskStart hf hc hrun hhalt ht, hu]
  · exact (congrArg (fun y => y.2.1) (hfollow.tile p)).trans (congrArg Arr.run harr)
  · rw [hlist, harr, Arr.taken, each_modAt _ _ hpassed]
  · exact (congrArg (fun y => y.2.2) (hfollow.tile p)).trans (congrArg Arr.blk harr)
  · rw [hfollow.get _ _ (by decide) (by decide) (by decide), hheld.get _ _ (by decide) (by decide) (by decide), State.taskTaken_holdNow hr hw]
  · rw [hfollow.get _ _ (by decide) (by decide) (by decide), State.heldCounted_nhold htaken.regsOk htaken.tilesOk, State.taskTaken_nhold hr hw]

end Sys2Proof.Machine
end

section
/-! ## The stationary load (R56, R58, R69, R76)

Each row that a load moves is a slot without a row (`emptySlot`), a change of the block in the cells, and a step of the load's count (`loadStep`). -/

namespace Sys2Proof.Machine

section
variable {α : Type} {own : List Nat} {π : Tile → α} {s t u : State} {p : Nat} {f : Fused} {r : ArrRun}

/-! ### The empty slot -/

theorem Keeps.emptySlot (h : Keeps own π s t) (hπ : OffGap π)
    (hafter : ∀ (x : Tile) (n : Nat), π { x with arr := { x.arr with after := n } } = π x) : Keeps own π s (t.emptySlot p f) :=
  .ite (h.gapAll hπ) (h.modTile fun _ => hafter _ _)

theorem State.emptySlot_after (hr : s.RegsOk) (ht : FMap.wf {} s.tiles = true) :
    ((s.emptySlot p f).tile p).arr.after = (s.tile p).arr.after - 1 := by
  unfold State.emptySlot
  split
  next h0 =>
    have hgap : Keeps [] (fun x : Tile => x.arr.after) s (s.gapAll f) := (Keeps.refl hr ht).gapAll fun _ _ _ _ _ => rfl
    exact (hgap.tile p).trans (by rw [h0])
  next => exact congrArg (fun x : Tile => x.arr.after) (State.tile_modTile_same ht)

theorem State.emptySlot_inGap (hr : s.RegsOk) (ht : FMap.wf {} s.tiles = true) (h0 : (s.tile p).arr.after = 0) :
    ∀ m ∈ f.members, ((s.emptySlot p f).tile (s.phys m)).arr.inGap = true := by
  rw [State.emptySlot, if_pos h0]
  exact State.gapAll_inGap hr ht

theorem regsTilesOnly.emptySlot (h : regsTilesOnly s t) : regsTilesOnly s (t.emptySlot p f) := by
  unfold State.emptySlot
  split
  · exact h.gapAll
  · exact h.modTile

/-! ### The count of rows moved -/

/-- The run after one more row of its load has moved. -/
def ArrRun.rowMoved (r : ArrRun) (f : Fused) : ArrRun :=
  { r with loaded := r.loaded + 1, loading := !decide (r.loaded + 1 = loadRows f r.task) }

theorem Keeps.loadStep (h : Keeps own π s t) (ho : F.TILE_ARR_NLOAD_COUNT.id ∈ own)
    (hπ : ∀ (x : Tile) (o : Option ArrRun), π { x with arr := { x.arr with run := o } } = π x) : Keeps own π s (t.loadStep p f r) := by
  unfold State.loadStep
  exact Keeps.when (h.modTile fun _ => hπ _ _) fun _ hv => hv.setOwn ho (by decide)

theorem State.loadStep_run (ht : FMap.wf {} s.tiles = true) : ((s.loadStep p f r).tile p).arr.run = some (r.rowMoved f) := by
  have hrun := congrArg (fun x : Tile => x.arr.run) (State.tile_modTile_same (p := p)
    (g := fun x => { x with arr := { x.arr with run := some (r.rowMoved f) } }) ht)
  unfold State.loadStep
  exact when_ind (fun u : State => (u.tile p).arr.run = some (r.rowMoved f)) _ _ _ hrun id

theorem State.loadStep_nload (hr : s.RegsOk) :
    (s.loadStep p f r).get F.TILE_ARR_NLOAD_COUNT p = if r.loaded + 1 = loadRows f r.task then (s.get F.TILE_ARR_NLOAD_COUNT p + 1) % 2 ^ 64
      else s.get F.TILE_ARR_NLOAD_COUNT p := by
  unfold State.loadStep
  by_cases h : r.loaded + 1 = loadRows f r.task
  · simp only [h, decide_true, when_true, if_true]
    exact State.get_setReg_same _ F.TILE_ARR_NLOAD_COUNT _ _ hr
  · simp only [h, decide_false, when_false, if_false]
    rfl

theorem regsTilesOnly.loadStep (h : regsTilesOnly s t) : regsTilesOnly s (t.loadStep p f r) := by
  unfold State.loadStep
  exact when_ind (regsTilesOnly s) _ _ _ h.modTile fun hv => hv.setReg

end

/-! ### A row beyond K -/

/-- A row beyond the operand's K leaves the cells as they are (R58). -/
def State.rowBeyond (s : State) (p : Nat) (f : Fused) (r : ArrRun) : State :=
  ((s.emptySlot p f).modArr p fun a => { a with blk := some (a.filling r) }).loadStep p f r

theorem exec_stationaryRowLoad_beyond {s : State} {p : Nat} {f : Fused} {r : ArrRun} (errs : List (Nat × Nat)) (hf : s.geo p = some f)
    (hrun : (s.tile p).arr.run = some r) (hload : r.loading = true) (hfed : s.loadFed f r.task r.blk r.loaded = true)
    (hend : f.rows ≤ r.loaded ∨ r.task.klen ≤ r.blk * f.rows + r.loaded) :
    exec (.stationaryRowLoad p errs) s = .next (s.rowBeyond p f r) := by
  change execStationaryRowLoad p errs s = _
  simp only [execStationaryRowLoad, hf, hrun, gated, hload, hfed, Bool.and_self, if_true, ge_iff_le, if_pos hend]
  rfl

theorem stationaryRowLoad_beyond {s : State} {p : Nat} {f : Fused} {r : ArrRun} (errs : List (Nat × Nat)) (hr : s.RegsOk)
    (hw : FMap.wf {} s.tiles = true) (hf : s.geo p = some f) (hrun : (s.tile p).arr.run = some r) (hload : r.loading = true)
    (hfed : s.loadFed f r.task r.blk r.loaded = true) (hend : f.rows ≤ r.loaded ∨ r.task.klen ≤ r.blk * f.rows + r.loaded) :
    ∃ u, exec (.stationaryRowLoad p errs) s = .next u ∧ (u.tile p).arr.blk = some ((s.tile p).arr.filling r)
      ∧ (u.tile p).arr.run = some (r.rowMoved f)
      ∧ u.get F.TILE_ARR_NLOAD_COUNT p = (if r.loaded + 1 = loadRows f r.task then (s.get F.TILE_ARR_NLOAD_COUNT p + 1) % 2 ^ 64
          else s.get F.TILE_ARR_NLOAD_COUNT p)
      ∧ ((s.tile p).arr.after = 0 → ∀ m ∈ f.members, (u.tile (s.phys m)).arr.inGap = true)
      ∧ (u.tile p).arr.after = (s.tile p).arr.after - 1
      ∧ (∀ q, (u.tile q).feedS = (s.tile q).feedS) ∧ { u with regs := s.regs, tiles := s.tiles } = s := by
  have hslot : Keeps [] (fun x : Tile => (x.feedS, x.arr.blk)) s (s.emptySlot p f) :=
    (Keeps.refl hr hw).emptySlot (fun _ _ _ _ _ => rfl) fun _ _ => rfl
  have hblk : Keeps [] (fun x : Tile => (x.feedS, x.arr.inGap, x.arr.after)) (s.emptySlot p f)
      ((s.emptySlot p f).modArr p fun a => { a with blk := some (a.filling r) }) := hslot.restart.modTile fun _ => rfl
  have hstep : Keeps [F.TILE_ARR_NLOAD_COUNT.id] (fun x : Tile => (x.feedS, x.arr.inGap, x.arr.after, x.arr.blk))
      ((s.emptySlot p f).modArr p fun a => { a with blk := some (a.filling r) }) (s.rowBeyond p f r) :=
    hblk.restart.loadStep (by decide) fun _ _ => rfl
  have hfilling : ((s.emptySlot p f).tile p).arr.filling r = (s.tile p).arr.filling r := by
    have hcells : ((s.emptySlot p f).tile p).arr.blk = (s.tile p).arr.blk := congrArg Prod.snd (hslot.tile p)
    rw [Arr.filling, hcells, Arr.filling]
  have hgap : ∀ q, ((s.rowBeyond p f r).tile q).arr.inGap = ((s.emptySlot p f).tile q).arr.inGap := fun q =>
    (congrArg (fun y => y.2.1) (hstep.tile q)).trans (congrArg (fun y => y.2.1) (hblk.tile q))
  refine ⟨_, exec_stationaryRowLoad_beyond errs hf hrun hload hfed hend, ?_, State.loadStep_run hblk.tilesOk, ?_, fun h0 m hm => ?_, ?_,
    fun q => ?_, ?_⟩
  · calc ((s.rowBeyond p f r).tile p).arr.blk = some (((s.emptySlot p f).tile p).arr.filling r) :=
        (congrArg (fun y => y.2.2.2) (hstep.tile p)).trans (congrArg (fun x : Tile => x.arr.blk) (State.tile_modTile_same hslot.tilesOk))
      _ = _ := by rw [hfilling]
  · have hcount := (hblk.get F.TILE_ARR_NLOAD_COUNT p (by decide) (by decide) (by decide)).trans
      (hslot.get F.TILE_ARR_NLOAD_COUNT p (by decide) (by decide) (by decide))
    exact (State.loadStep_nload hblk.regsOk).trans (by rw [hcount])
  · rw [hgap]
    exact State.emptySlot_inGap hr hw h0 m hm
  · calc ((s.rowBeyond p f r).tile p).arr.after = ((s.emptySlot p f).tile p).arr.after :=
        (congrArg (fun y => y.2.2.1) (hstep.tile p)).trans (congrArg (fun y => y.2.2) (hblk.tile p))
      _ = _ := State.emptySlot_after hr hw
  · exact (congrArg Prod.fst (hstep.tile q)).trans ((congrArg Prod.fst (hblk.tile q)).trans (congrArg Prod.fst (hslot.tile q)))
  · exact (((show regsTilesOnly s s from rfl).emptySlot).modTile).loadStep

/-! ### A row of F32 operands -/

/-- Values written to successive places of a map. -/
theorem get_each_zipIdx_set {β γ : Type} [DecidableEq γ] (d : γ) (g : β → γ) (base : Nat) (l : List β) (k₀ : Nat) {m : FMap γ}
    (hwf : FMap.wf d m = true) :
    FMap.wf d (each (l.zipIdx k₀) (fun m x => m.set d (base + x.2) (g x.1)) m) = true
    ∧ (∀ n x, l[n]? = some x → (each (l.zipIdx k₀) (fun m x => m.set d (base + x.2) (g x.1)) m).get d (base + (k₀ + n)) = g x)
    ∧ ∀ k, (k < base + k₀ ∨ base + k₀ + l.length ≤ k) →
        (each (l.zipIdx k₀) (fun m x => m.set d (base + x.2) (g x.1)) m).get d k = m.get d k := by
  induction l generalizing k₀ m with
  | nil => exact ⟨hwf, by simp, fun _ _ => rfl⟩
  | cons y l ih =>
    obtain ⟨hwf', hin, hout⟩ := ih (k₀ + 1) (FMap.wf_set d m (base + k₀) (g y) hwf)
    rw [List.zipIdx_cons, each_cons]
    refine ⟨hwf', fun n x hx => ?_, fun k hk => ?_⟩
    · cases n with
      | zero =>
        obtain rfl : y = x := by simpa using hx
        rw [hout _ (.inl (by omega)), Nat.add_zero, FMap.get_set _ _ _ _ _ hwf, if_pos rfl]
      | succ n =>
        have := hin n x (by simpa using hx)
        rwa [Nat.add_right_comm, Nat.add_assoc] at this
    · have hlen : (y :: l).length = l.length + 1 := rfl
      rw [hout k (by omega), FMap.get_set_ne _ _ _ _ _ (by omega)]

/-- The stationary elements of the next row, and the members that give them. -/
def State.rowMembers (s : State) (f : Fused) (r : ArrRun) : List Nat := (List.range f.cg).map fun gc => s.mem f (r.loaded / 128) gc
def State.rowElems (s : State) (f : Fused) (r : ArrRun) : List FeedElem :=
  (List.range f.cg).flatMap fun gc => (feedOf (s.tile (s.mem f (r.loaded / 128) gc)).feedS r.task.ref.logno).take 128

/-- An element as W0 takes it where the task names no expansion: truncated to F19. -/
def FeedElem.truncated (x : FeedElem) : Nat := x.v.toNat / 2 ^ 13 * 2 ^ 13

theorem FeedElem.toNat_truncated (x : FeedElem) : (BitVec.ofNat 32 x.truncated).toNat = x.truncated := by
  have hlt := x.v.isLt
  rw [BitVec.toNat_ofNat, Nat.mod_eq_of_lt]
  exact lt_of_le_of_lt (Nat.div_mul_le_self _ _) hlt

/-- The cells with a row of truncated elements. -/
def Block.withRow (q : Block) (els : List FeedElem) (i : Nat) : Block :=
  { q with w0 := each els.zipIdx (fun m x => m.set 0 (512 * i + x.2) (BitVec.ofNat 32 x.1.truncated)) q.w0
           poisCols := (q.poisCols ++ (els.zipIdx.filter (·.1.p)).map Prod.snd).eraseDups, prox := q.prox || els.any (·.prox) }

/-- The row has left the feeds and stands in the cells. -/
def State.rowStored (s : State) (p : Nat) (f : Fused) (r : ArrRun) : State :=
  (each (s.rowMembers f r) (fun s m => s.modTile m fun x => { x with feedS := feedDrop r.task.ref.logno 128 x.feedS }) (s.emptySlot p f)).modArr p
    fun a => { a with blk := some ((a.filling r).withRow (s.rowElems f r) r.loaded) }

theorem exec_stationaryRowLoad_truncated {s : State} {p : Nat} {f : Fused} {r : ArrRun} (errs : List (Nat × Nat)) (hf : s.geo p = some f)
    (hrun : (s.tile p).arr.run = some r) (hload : r.loading = true) (hfed : s.loadFed f r.task r.blk r.loaded = true)
    (hrow : r.loaded < f.rows) (hk : r.blk * f.rows + r.loaded < r.task.klen) (hxd : r.task.xd = none) (hpass : r.task.pass ≠ 3)
    (hels : ∀ x ∈ s.rowElems f r, x.esz = 3 ∧ x.p = false) :
    ∃ flags : Nat → List NFlags, exec (.stationaryRowLoad p errs) s
      = .next ((each (s.rowMembers f r).zipIdx (fun s m => s.raiseNums m.1 r.task.ref.logno (flags m.2)) (s.rowStored p f r)).loadStep p f r) := by
  have hinside : ¬ (r.loaded ≥ f.rows ∨ r.blk * f.rows + r.loaded ≥ r.task.klen) := by omega
  have hsize : ((s.rowElems f r).any fun x => decide (x.esz ≠ stationarySize r.task.xd)) = false := by
    rw [List.any_eq_false]
    intro x hx
    simp [hxd, stationarySize, (hels x hx).1]
  have hpois : ((s.rowElems f r).any fun x => x.p) = false := by
    rw [List.any_eq_false]
    intro x hx
    simp [(hels x hx).2]
  have hreads : s.loadReads r.task (r.blk * f.rows + r.loaded) f.cols errs = (s, .got ([], [])) := by simp [State.loadReads, hxd]
  have hvalue : ∀ md tab zp x raw, stationary md r.task tab zp x raw = (raw / 2 ^ 13 * 2 ^ 13, 0, {}) := by
    intro md tab zp x raw
    simp only [stationary, hxd]
  have hw1 : (decide (r.task.pass = 3) && !r.task.strict) = false := by simp [hpass]
  have hcells : ∀ (l : List FeedElem) (m : FMap Word),
      each (l.zipIdx.map fun x => (x.2, x.1.v.toNat / 2 ^ 13 * 2 ^ 13, 0, ({} : NFlags)))
          (fun m v => m.set 0 (512 * r.loaded + v.1) (BitVec.ofNat 32 v.2.1)) m
        = each l.zipIdx (fun m x => m.set 0 (512 * r.loaded + x.2) (BitVec.ofNat 32 x.1.truncated)) m := fun _ _ => List.foldl_map
  change ∃ flags : Nat → List NFlags, execStationaryRowLoad p errs s = _
  unfold execStationaryRowLoad
  rw [hf, hrun]
  simp only [gated, hload, hfed, Bool.and_self, if_true, if_neg hinside]
  unfold State.rowElems at hsize hpois
  simp only [List.flatMap_map, hsize, hpois, hreads, hvalue, hw1, Bool.false_and, Bool.false_eq_true, if_false]
  simp only [hcells]
  refine ⟨fun k => (((s.rowElems f r).zipIdx.map fun x => (x.2, x.1.v.toNat / 2 ^ 13 * 2 ^ 13, 0, ({} : NFlags))).filter
    fun v => v.1 / 128 = k).map fun v => v.2.2.2, ?_⟩
  unfold State.rowStored Block.withRow State.rowElems State.rowMembers
  rfl

theorem stationaryRowLoad_truncated {s : State} {p : Nat} {f : Fused} {r : ArrRun} (errs : List (Nat × Nat)) (hr : s.RegsOk)
    (hw : FMap.wf {} s.tiles = true) (hf : s.geo p = some f) (hrun : (s.tile p).arr.run = some r) (hload : r.loading = true)
    (hfed : s.loadFed f r.task r.blk r.loaded = true) (hrow : r.loaded < f.rows) (hk : r.blk * f.rows + r.loaded < r.task.klen)
    (hxd : r.task.xd = none) (hpass : r.task.pass ≠ 3) (hcells : FMap.wf 0 ((s.tile p).arr.filling r).w0 = true)
    (hels : ∀ x ∈ s.rowElems f r, x.esz = 3 ∧ x.p = false) :
    ∃ u b, exec (.stationaryRowLoad p errs) s = .next u ∧ (u.tile p).arr.blk = some b
      ∧ (∀ n x, (s.rowElems f r)[n]? = some x → (b.w0.get 0 (512 * r.loaded + n)).toNat = x.truncated)
      ∧ (∀ k, (k < 512 * r.loaded ∨ 512 * r.loaded + (s.rowElems f r).length ≤ k) →
          b.w0.get 0 k = ((s.tile p).arr.filling r).w0.get 0 k)
      ∧ (u.tile p).arr.run = some (r.rowMoved f)
      ∧ u.get F.TILE_ARR_NLOAD_COUNT p = (if r.loaded + 1 = loadRows f r.task then (s.get F.TILE_ARR_NLOAD_COUNT p + 1) % 2 ^ 64
          else s.get F.TILE_ARR_NLOAD_COUNT p) := by
  obtain ⟨flags, hexec⟩ := exec_stationaryRowLoad_truncated errs hf hrun hload hfed hrow hk hxd hpass hels
  let v := each (s.rowMembers f r).zipIdx (fun s m => s.raiseNums m.1 r.task.ref.logno (flags m.2)) (s.rowStored p f r)
  let b := ((s.tile p).arr.filling r).withRow (s.rowElems f r) r.loaded
  have hused : Keeps [] (fun x : Tile => x.arr.blk) s (each (s.rowMembers f r)
      (fun s m => s.modTile m fun x => { x with feedS := feedDrop r.task.ref.logno 128 x.feedS }) (s.emptySlot p f)) :=
    ((Keeps.refl hr hw).emptySlot (fun _ _ _ _ _ => rfl) fun _ _ => rfl).each fun _ _ hu => hu.modTile fun _ => rfl
  have hstored : ((s.rowStored p f r).tile p).arr.blk = some b := by
    have hfilling := hused.tile p
    refine (congrArg (fun x : Tile => x.arr.blk) (State.tile_modTile_same hused.tilesOk)).trans ?_
    simp only [Arr.filling, hfilling, b]
  have hnums : Keeps [] (fun x : Tile => x.arr.blk) (s.rowStored p f r) v :=
    (hused.restart (own' := []) (ρ := fun _ => ()).modTile fun _ => rfl).restart.each fun _ _ hu => hu.raiseNums
  have hcount : v.get F.TILE_ARR_NLOAD_COUNT p = s.get F.TILE_ARR_NLOAD_COUNT p :=
    (hnums.get _ _ (by decide) (by decide) (by decide)).trans (hused.get F.TILE_ARR_NLOAD_COUNT p (by decide) (by decide) (by decide))
  have hstep : Keeps [F.TILE_ARR_NLOAD_COUNT.id] (fun x : Tile => x.arr.blk) v (v.loadStep p f r) :=
    hnums.restart.loadStep (by decide) fun _ _ => rfl
  obtain ⟨-, hin, hout⟩ := get_each_zipIdx_set (0 : Word) (fun x : FeedElem => BitVec.ofNat 32 x.truncated) (512 * r.loaded) (s.rowElems f r) 0 hcells
  refine ⟨_, b, hexec, ?_, fun n x hx => ?_, fun k hk => hout k (by simpa using hk), State.loadStep_run hnums.tilesOk, ?_⟩
  · exact (hstep.tile p).trans ((hnums.tile p).trans hstored)
  · have := hin n x hx
    rw [Nat.zero_add] at this
    rw [← x.toNat_truncated, ← this]
    rfl
  · rw [State.loadStep_nload hnums.regsOk, hcount]

/-- Settles O31: the choice, the two stages of the start, and the two kinds of row that a load moves. -/
theorem arrayTaskStartAndLoad : Obligations.ArrayTaskStartAndLoad := by
  intro p f s hr hw hf hp
  refine ⟨⟨fun o l hl => ⟨Arr.select_zero hl, fun k t ho hpass ht hn hbefore => Arr.select_named hl ho hpass ht hn hbefore⟩, ?_, ?_⟩, ?_, ?_⟩
  · intro i t passed hrun hhalt ht hready hchoice hgens
    obtain ⟨hc, hnodup⟩ : s.choose f (s.freshArr (s.tile p).arr) (s.get F.TILE_ARR_CTL_HOLDMAX p) = some (i, passed) ∧ passed.Nodup := by
      obtain ⟨rfl, rfl⟩ | ⟨w, hsel, hwait, hage, hn, rfl, hbefore⟩ := hchoice
      · refine ⟨State.choose_selected ht hready, ?_⟩
        split
        · exact List.nodup_nil
        · exact List.nodup_singleton _
      · refine ⟨State.choose_instead hsel hwait hage ht hn hready hbefore, ?_⟩
        split
        · exact List.nodup_singleton _
        next hne => simpa using fun h => hne h.symm
    exact arrayTaskStart_started hr hw hf hc hrun hhalt ht hnodup hgens
  · exact fun w hsel hwait h => exec_arrayTaskStart_none hf (State.choose_none hsel hwait h)
  · exact fun r errs hrun hload hfed hend => stationaryRowLoad_beyond errs hr hw hf hrun hload hfed hend
  · exact fun r errs hrun hload hfed hrow hk hxd hpass hcells hels =>
      stationaryRowLoad_truncated errs hr hw hf hrun hload hfed hrow hk hxd hpass hcells hels

end Sys2Proof.Machine
end

section
/-! ## Rows of the array (R60, R64, R79, R82, R91, R92)

A row enters in stages: its values leave the feeds (`rowTaken`), the values' flags are raised, its bank rows are reserved (`rowReserved`), and the
row is in flight with the gap over (`rowEntered`). -/

namespace Sys2Proof.Machine

section
variable {α : Type} {own : List Nat} {π : Tile → α} {s t u : State} {p : Nat} {f : Fused} {r : ArrRun}

/-! ### The stages of an admission -/

/-- The members at the heads of the row groups, with the number of values that each gives. -/
def State.rowHeads (s : State) (f : Fused) (r : ArrRun) : List (Nat × Nat) :=
  (List.range f.rg).map fun gr => (s.mem f gr 0, sliceLen f r.task r.blk gr)

/-- The values that the next row takes. -/
def State.rowGot (s : State) (f : Fused) (r : ArrRun) : List FeedElem :=
  (List.range f.rg).flatMap fun gr => (feedOf (s.tile (s.mem f gr 0)).feedT r.task.ref.logno).take (sliceLen f r.task r.blk gr)

/-- The places of the row, filled up to 128 in each row group. -/
def State.rowPlaces (s : State) (f : Fused) (r : ArrRun) : List (Option FeedElem) :=
  (s.rowHeads f r).flatMap fun m => ((feedOf (s.tile m.1).feedT r.task.ref.logno).take m.2).map some ++ List.replicate (128 - m.2) none

def State.rowTaken (s : State) (f : Fused) (r : ArrRun) : State :=
  each (s.rowHeads f r) (fun s m => s.modTile m.1 fun x => { x with feedT := feedDrop r.task.ref.logno m.2 x.feedT }) s

/-- A place's value as it enters: b_hi, b_lo, flags; a place beyond K is zero. -/
def enteredValue (md : NMode) (t : ArrTask) : Option FeedElem → Nat × Nat × NFlags
  | some y => streamed md t y
  | none => (0, 0, {})

def State.rowValues (s : State) (f : Fused) (r : ArrRun) : List (Nat × Nat × NFlags) :=
  (s.rowPlaces f r).map (enteredValue ((s.rowTaken f r).nmode r.task.rig r.task.strict) r.task)

/-- The flags of the values are raised in the member that each came from. -/
def State.rowRaised (s : State) (f : Fused) (r : ArrRun) : State :=
  each (s.rowHeads f r).zipIdx (fun u m => u.raiseNums m.1.1 r.task.ref.logno ((((s.rowValues f r).drop (128 * m.2)).take 128).map fun v => v.2.2))
    (s.rowTaken f r)

/-- With the first block of a row its bank rows are reserved. -/
def State.rowReserved (s : State) (f : Fused) (r : ArrRun) : State :=
  if r.blk = 0 then each f.bottoms (fun s b => s.reserveRow (s.phys b) r.task r.nextRow) s else s

/-- The row in flight. -/
def State.flying (s : State) (p : Nat) (f : Fused) (r : ArrRun) : RowFly :=
  { task := r.task, srcRow := r.nextRow, lastBlk := decide (r.blk + 1 = r.task.blocks f)
    vals := ((s.rowValues f r).map fun v => BitVec.ofNat 32 v.1) ++ (s.rowValues f r).map fun v => BitVec.ofNat 32 v.2.1
    block := (((s.rowRaised f r).rowReserved f r).tile p).arr.blk.getD {}
    pois := ((s.rowPlaces f r).filterMap id).any (·.p), prox := ((s.rowPlaces f r).filterMap id).any (·.prox) }

/-- The array once a row has entered. -/
def Arr.entered (f : Fused) (r : ArrRun) (row : RowFly) (a : Arr) : Arr :=
  { a with fly := a.fly ++ [row], run := r.next f, after := if r.task.strict then 15 else 0 }

def State.rowEntered (s : State) (p : Nat) (f : Fused) (r : ArrRun) (row : RowFly) : State :=
  (((s.endGap f).modArr p (Arr.entered f r row)).bump F.TILE_ARR_NROW_COUNT 1 p).offerTile 0x041 p

/-- ROW_ADMIT stage by stage. -/
theorem execRowAdmit_eq (hf : s.geo p = some f) (hrun : (s.tile p).arr.run = some r) :
    execRowAdmit p s = gated (s.admits f r) (fun s =>
      if ((s.rowPlaces f r).filterMap id).any fun x => !(x.esz = 3 || x.esz = 2) then
        (s.rowTaken f r).abortTask r.task.ref.logno 0x02 0 (some r.task.ref.lead)
      else if ((s.rowPlaces f r).filterMap id).any (·.p) && (s.rowTaken f r).abortPolicy r.task.rig then
        (s.rowTaken f r).abortTask r.task.ref.logno 0x05 ((s.rowTaken f r).detailTile p true 0) (some r.task.ref.lead)
      else ((s.rowRaised f r).rowReserved f r).rowEntered p f r (s.flying p f r)) s := by
  unfold execRowAdmit
  rw [hf, hrun]
  rfl

theorem State.rowPlaces_filterMap : (s.rowPlaces f r).filterMap id = s.rowGot f r := by
  simp only [State.rowPlaces, State.rowGot, State.rowHeads, List.filterMap_flatMap, List.flatMap_map, List.filterMap_append,
    List.filterMap_map, List.filterMap_replicate_of_none (f := id) (a := (none : Option FeedElem)) rfl, List.append_nil]
  simp

theorem sliceLen_le (f : Fused) (t : ArrTask) (b gr : Nat) : sliceLen f t b gr ≤ 128 := Nat.min_le_left _ _

theorem State.rowFed_iff : s.rowFed f r.task r.blk = true ↔
    ∀ gr < f.rg, sliceLen f r.task r.blk gr ≤ (feedOf (s.tile (s.mem f gr 0)).feedT r.task.ref.logno).length := by
  simp only [State.rowFed, List.all_eq_true, List.mem_range, decide_eq_true_eq]

theorem State.rowPlaces_length (h : s.rowFed f r.task r.blk = true) : (s.rowPlaces f r).length = f.rows := by
  have hlen : ∀ gr ∈ List.range f.rg, (((feedOf (s.tile (s.mem f gr 0)).feedT r.task.ref.logno).take (sliceLen f r.task r.blk gr)).map some
      ++ List.replicate (128 - sliceLen f r.task r.blk gr) (none : Option FeedElem)).length = 128 := by
    intro gr hgr
    have hfed := State.rowFed_iff.mp h gr (List.mem_range.mp hgr)
    have hle := sliceLen_le f r.task r.blk gr
    simp only [List.length_append, List.length_map, List.length_take, List.length_replicate]
    omega
  rw [State.rowPlaces, State.rowHeads, List.flatMap_map, List.length_flatMap, List.map_congr_left hlen]
  simp [Fused.rows, Nat.mul_comm]

theorem exec_rowAdmit (hr : s.RegsOk) (hw : FMap.wf {} s.tiles = true) (hf : s.geo p = some f) (hrun : (s.tile p).arr.run = some r)
    (hadmit : s.admits f r = true) (hsize : ∀ x ∈ s.rowGot f r, x.esz = 3 ∨ x.esz = 2)
    (hpois : (∀ x ∈ s.rowGot f r, x.p = false) ∨ s.abortPolicy r.task.rig = false) :
    exec (.rowAdmit p) s = .next (((s.rowRaised f r).rowReserved f r).rowEntered p f r (s.flying p f r)) := by
  have hsizes : ((s.rowGot f r).any fun x => !(decide (x.esz = 3) || decide (x.esz = 2))) = false := by
    rw [List.any_eq_false]
    intro x hx
    obtain h | h := hsize x hx
    · simp [h]
    · simp [h]
  have htaken : Keeps [] (fun _ => ()) s (s.rowTaken f r) := (Keeps.refl hr hw).each fun _ _ hv => hv.modTile fun _ => rfl
  have hpolicy : (s.rowTaken f r).abortPolicy r.task.rig = s.abortPolicy r.task.rig := by
    simp only [State.abortPolicy, htaken.get F.IMG_RMODE_FAULT _ (by decide) (by decide) (by decide)]
  have hnoAbort : (((s.rowGot f r).any fun x => x.p) && (s.rowTaken f r).abortPolicy r.task.rig) = false := by
    rw [hpolicy]
    obtain h | h := hpois
    · have hany : ((s.rowGot f r).any fun x => x.p) = false := by
        rw [List.any_eq_false]
        intro x hx
        simp [h x hx]
      rw [hany, Bool.false_and]
    · rw [h, Bool.and_false]
  change execRowAdmit p s = _
  rw [execRowAdmit_eq hf hrun, gated, if_pos hadmit, State.rowPlaces_filterMap, hsizes, hnoAbort]
  rfl

/-! ### What the stages of an admission leave alone -/

theorem Keeps.rowTaken (h : Keeps own π s t) (hπ : ∀ (x : Tile) (l : List FeedElem), π { x with feedT := l } = π x) :
    Keeps own π s (t.rowTaken f r) := h.each fun _ _ hv => hv.modTile fun _ => hπ _ _

theorem Keeps.rowRaised (h : Keeps own π s t) (hπ : ∀ (x : Tile) (l : List FeedElem), π { x with feedT := l } = π x) :
    Keeps own π s (t.rowRaised f r) := (h.rowTaken hπ).each fun _ _ hv => hv.raiseNums

/-- The bank's contents are recorded in the log where the task adds to them, once (R345). -/
def State.bankSaved (s : State) (p : Nat) (k : ArrTask) (n : Nat) : State :=
  let b := (s.tile p).bank (k.bankOf n)
  if k.clear || s.log.any (fun x => x.logno = k.ref.logno && x.lead = k.ref.lead && (match x.kind with
      | .bank q b' _ _ => q = p && b' = k.bankOf n
      | _ => false)) then s
  else s.writeLog k.ref.logno k.ref.lead k.rig (.bank p (k.bankOf n) b.elems b.preProx)

/-- A bank opened for the output block of a row. -/
def Bank.open_ (k : ArrTask) (n : Nat) (b : Bank) : Bank :=
  { b with task := k.ref, rig := k.rig, blockIdx := blockOf n, expect := min 128 (k.totalRows - n / 128 * 128)
           last := decide (n / 128 = (k.totalRows - 1) / 128), drainQ := bit k.drainq (k.bankOf n), fin := false, done := 0, resv := []
           sat := false, prox := false }

/-- The bank that a row goes to, opened where it serves no task. -/
def State.bankOpened (s : State) (p : Nat) (k : ArrTask) (n : Nat) : State :=
  if ((s.tile p).bank (k.bankOf n)).task.logno ≠ 0 then s else (s.bankSaved p k n).modBank p (k.bankOf n) (Bank.open_ k n)

/-- The bank with a row reserved. -/
def Bank.reserve (k : ArrTask) (n : Nat) (b : Bank) : Bank :=
  { b with resv := b.resv ++ [n % 128]
           elems := if k.clear then b.elems.keep fun i _ => decide (i / 128 ≠ n % 128) else b.elems }

theorem State.reserveRow_eq (s : State) (p : Nat) (k : ArrTask) (n : Nat) :
    s.reserveRow p k n = (s.bankOpened p k n).modBank p (k.bankOf n) (Bank.reserve k n) := rfl

theorem Keeps.bankSaved (h : Keeps own π s t) {k : ArrTask} {n : Nat} : Keeps own π s (t.bankSaved p k n) := .ite h h.writeLog

theorem Keeps.bankOpened (h : Keeps own π s t) (hπ : ∀ (x : Tile) (m : FMap Bank), π { x with banks := m } = π x) {k : ArrTask} {n : Nat} :
    Keeps own π s (t.bankOpened p k n) := .ite h (h.bankSaved.modBank hπ)

theorem Keeps.reserveRow (h : Keeps own π s t) (hπ : ∀ (x : Tile) (m : FMap Bank), π { x with banks := m } = π x) {k : ArrTask} {n : Nat} :
    Keeps own π s (t.reserveRow p k n) := by
  rw [State.reserveRow_eq]
  exact (h.bankOpened hπ).modBank hπ

theorem Keeps.rowReserved (h : Keeps own π s t) (hπ : ∀ (x : Tile) (m : FMap Bank), π { x with banks := m } = π x) :
    Keeps own π s (t.rowReserved f r) := .ite (h.each fun _ _ hv => hv.reserveRow hπ) h

theorem Keeps.rowEntered (h : Keeps own π s t) (ho : F.TILE_ARR_NROW_COUNT.id ∈ own) (hπ : ∀ (x : Tile) (a : Arr), π { x with arr := a } = π x)
    {row : RowFly} : Keeps own π s (t.rowEntered p f r row) :=
  (((h.endGap fun x _ _ _ _ => hπ x _).modArr hπ).setOwn ho (by decide)).offerTile

/-! ### The feeds -/

theorem feedOf_feedDrop (logno n : Nat) (l : List FeedElem) : feedOf (feedDrop logno n l) logno = (feedOf l logno).drop n := by
  induction l generalizing n with
  | nil => cases n with
    | zero => rfl
    | succ n => rfl
  | cons x l ih => cases n with
    | zero => rfl
    | succ n =>
      by_cases hx : x.logno = logno
      · simpa [feedDrop, feedOf, hx] using ih n
      · simpa [feedDrop, feedOf, hx] using ih (n + 1)

theorem State.tile_each_modTile_ne {β : Type} {g : β → Tile → Tile} {l : List (Nat × β)} {q : Nat} (hq : q ∉ l.map Prod.fst) :
    (each l (fun s m => s.modTile m.1 (g m.2)) s).tile q = s.tile q := by
  induction l generalizing s with
  | nil => rfl
  | cons m l ih =>
    simp only [List.map_cons, List.mem_cons, not_or] at hq
    rw [each_cons, ih hq.2, State.tile_modTile_ne hq.1]

/-- Different tiles, each changed once. -/
theorem State.tile_each_modTile {β : Type} {g : β → Tile → Tile} {l : List (Nat × β)} (hnodup : (l.map Prod.fst).Nodup)
    (ht : FMap.wf {} s.tiles = true) : ∀ m ∈ l, (each l (fun s m => s.modTile m.1 (g m.2)) s).tile m.1 = g m.2 (s.tile m.1) := by
  induction l generalizing s with
  | nil => simp
  | cons a l ih =>
    obtain ⟨ha, hnodup⟩ := List.nodup_cons.mp hnodup
    intro m hm
    obtain rfl | hm := List.mem_cons.mp hm
    · rw [each_cons, State.tile_each_modTile_ne ha, State.tile_modTile_same ht]
    · have hne : m.1 ≠ a.1 := fun he => ha (he ▸ List.mem_map_of_mem hm)
      rw [each_cons, ih hnodup (FMap.wf_upd _ _ _ _ ht) m hm, State.tile_modTile_ne hne]

theorem State.rowTaken_feedT (hw : FMap.wf {} s.tiles = true) (hnodup : ((List.range f.rg).map fun gr => s.mem f gr 0).Nodup) {gr : Nat}
    (hgr : gr < f.rg) : feedOf ((s.rowTaken f r).tile (s.mem f gr 0)).feedT r.task.ref.logno
      = (feedOf (s.tile (s.mem f gr 0)).feedT r.task.ref.logno).drop (sliceLen f r.task r.blk gr) := by
  have hfirst : (s.rowHeads f r).map Prod.fst = (List.range f.rg).map fun gr => s.mem f gr 0 := by
    simp [State.rowHeads, Function.comp_def]
  have htile := State.tile_each_modTile (l := s.rowHeads f r) (g := fun n x => { x with feedT := feedDrop r.task.ref.logno n x.feedT })
    (hfirst ▸ hnodup) hw _ (List.mem_map_of_mem (f := fun gr => (s.mem f gr 0, sliceLen f r.task r.blk gr)) (List.mem_range.mpr hgr))
  have hfeed := congrArg (fun x : Tile => feedOf x.feedT r.task.ref.logno) htile
  exact hfeed.trans (feedOf_feedDrop _ _ _)

/-! ### The banks -/

/-- Every tile's banks have their canonical form. -/
def BanksOk (s : State) : Prop := ∀ q, FMap.wf {} (s.tile q).banks = true

theorem BanksOk.of_keeps (h : BanksOk s) (hk : Keeps own Tile.banks s t) : BanksOk t := fun q => by
  rw [hk.tile q]
  exact h q

/-- An update of one bank of a tile, and of parts of the tile beside its banks. -/
theorem BanksOk.modTile (h : BanksOk s) (ht : FMap.wf {} s.tiles = true) {b : Nat} {g : Tile → Tile} {k : Bank → Bank}
    (hg : ∀ x, (g x).banks = x.banks.upd {} b k) : BanksOk (s.modTile p g) := by
  intro q
  rw [State.tile_modTile ht]
  split
  · rw [hg]
    exact FMap.wf_upd _ _ _ _ (h p)
  · exact h q

theorem State.bank_modTile (h : BanksOk s) (ht : FMap.wf {} s.tiles = true) {b : Nat} {g : Tile → Tile} {k : Bank → Bank}
    (hg : ∀ x, (g x).banks = x.banks.upd {} b k) (q c : Nat) :
    ((s.modTile p g).tile q).bank c = if q = p ∧ c = b then k ((s.tile p).bank b) else (s.tile q).bank c := by
  rw [State.tile_modTile ht]
  by_cases hq : q = p
  · subst hq
    simp only [if_true, true_and, Tile.bank, hg]
    exact FMap.get_upd _ _ _ _ _ (h q)
  · simp only [hq, if_false, false_and]

theorem BanksOk.modBank (h : BanksOk s) (ht : FMap.wf {} s.tiles = true) {b : Nat} {k : Bank → Bank} : BanksOk (s.modBank p b k) :=
  h.modTile ht fun _ => rfl

theorem State.bank_modBank (h : BanksOk s) (ht : FMap.wf {} s.tiles = true) {b : Nat} {k : Bank → Bank} (q c : Nat) :
    ((s.modBank p b k).tile q).bank c = if q = p ∧ c = b then k ((s.tile p).bank b) else (s.tile q).bank c :=
  State.bank_modTile h ht (fun _ => rfl) q c

/-- May a task reserve rows of the bank: does it serve none, or that task? -/
def Bank.freeFor (k : TaskRef) (b : Bank) : Prop := b.task.logno = 0 ∨ b.task = k

theorem State.bankOpened_banks (hr : s.RegsOk) (ht : FMap.wf {} s.tiles = true) (h : BanksOk s) {k : ArrTask} {n : Nat} :
    BanksOk (s.bankOpened p k n) ∧ (∀ q, q ≠ p → (s.bankOpened p k n).tile q = s.tile q)
      ∧ (((s.tile p).bank (k.bankOf n)).freeFor k.ref → (((s.bankOpened p k n).tile p).bank (k.bankOf n)).task = k.ref) := by
  have hsaved : Keeps [] id s (s.bankSaved p k n) := (Keeps.refl hr ht).bankSaved
  unfold State.bankOpened
  split
  next hbusy => exact ⟨h, fun _ _ => rfl, fun hfree => hfree.resolve_left hbusy⟩
  next =>
    refine ⟨(h.of_keeps (hsaved.part Tile.banks)).modBank hsaved.tilesOk, fun q hq => ?_, fun _ => ?_⟩
    · exact (State.tile_modTile_ne hq).trans (hsaved.tile q)
    · rw [State.bank_modBank (h.of_keeps (hsaved.part Tile.banks)) hsaved.tilesOk, if_pos ⟨rfl, rfl⟩]
      rfl

/-- The bank that a row goes to holds its task and the reservation. -/
def Reserved (k : ArrTask) (n : Nat) (b : Bank) : Prop := b.task = k.ref ∧ b.resv.contains (n % 128) = true

theorem State.reserveRow_banks (hr : s.RegsOk) (ht : FMap.wf {} s.tiles = true) (h : BanksOk s) {k : ArrTask} {n : Nat} :
    BanksOk (s.reserveRow p k n) ∧ (∀ q, q ≠ p → (s.reserveRow p k n).tile q = s.tile q)
      ∧ (((s.tile p).bank (k.bankOf n)).freeFor k.ref → Reserved k n (((s.reserveRow p k n).tile p).bank (k.bankOf n))) := by
  obtain ⟨hb, hother, htask⟩ := s.bankOpened_banks (p := p) hr ht h (k := k) (n := n)
  have hok : Keeps [] (fun _ => ()) s (s.bankOpened p k n) := (Keeps.refl hr ht).bankOpened fun _ _ => rfl
  rw [State.reserveRow_eq]
  refine ⟨hb.modBank hok.tilesOk, fun q hq => (State.tile_modTile_ne hq).trans (hother q hq), fun hfree => ?_⟩
  rw [State.bank_modBank hb hok.tilesOk, if_pos ⟨rfl, rfl⟩]
  exact ⟨htask hfree, by simp [Bank.reserve]⟩

/-- Every bottom member's bank holds the reservation (R64, R91). -/
theorem State.rowReserved_bank (hr : s.RegsOk) (ht : FMap.wf {} s.tiles = true) (h : BanksOk s) (hblk : r.blk = 0)
    (hfree : ∀ m ∈ f.bottoms, ((s.tile (s.phys m)).bank (r.task.bankOf r.nextRow)).freeFor r.task.ref) :
    ∀ m ∈ f.bottoms, Reserved r.task r.nextRow (((s.rowReserved f r).tile (s.phys m)).bank (r.task.bankOf r.nextRow)) := by
  rw [State.rowReserved, if_pos hblk]
  refine each_reaches (fun t => Keeps [] (fun _ => ()) s t ∧ BanksOk t
      ∧ ∀ m ∈ f.bottoms, ((t.tile (s.phys m)).bank (r.task.bankOf r.nextRow)).freeFor r.task.ref)
    (fun m t => Reserved r.task r.nextRow ((t.tile (s.phys m)).bank (r.task.bankOf r.nextRow))) ⟨.refl hr ht, h, hfree⟩
    (fun a ha t ⟨hk, hb, hf⟩ => ?_) (fun a ha t ⟨hk, hb, hf⟩ => ?_) fun a ha t m ⟨hk, hb, hf⟩ hm => ?_
  · obtain ⟨hb', hother, hres⟩ := t.reserveRow_banks (p := t.phys a) hk.regsOk hk.tilesOk hb (k := r.task) (n := r.nextRow)
    rw [hk.phys] at hb' hother hres ⊢
    refine ⟨hk.reserveRow fun _ _ => rfl, hb', fun m hm => ?_⟩
    by_cases hma : s.phys m = s.phys a
    · rw [hma]
      exact .inr (hres (hf a ha)).1
    · rw [hother _ hma]
      exact hf m hm
  · obtain ⟨-, -, hres⟩ := t.reserveRow_banks (p := t.phys a) hk.regsOk hk.tilesOk hb (k := r.task) (n := r.nextRow)
    rw [hk.phys] at hres ⊢
    exact hres (hf a ha)
  · obtain ⟨-, hother, hres⟩ := t.reserveRow_banks (p := t.phys a) hk.regsOk hk.tilesOk hb (k := r.task) (n := r.nextRow)
    rw [hk.phys] at hother hres ⊢
    by_cases hma : s.phys m = s.phys a
    · rw [hma]
      exact hres (hf a ha)
    · rw [hother _ hma]
      exact hm

theorem State.freeFor_of_admits (h : s.admits f r = true) (hblk : r.blk = 0) :
    ∀ m ∈ f.bottoms, ((s.tile (s.phys m)).bank (r.task.bankOf r.nextRow)).freeFor r.task.ref := by
  intro m hm
  simp only [State.admits, hblk, lt_irrefl, decide_false, Bool.false_or, Bool.and_eq_true, List.all_eq_true] at h
  have hmay := h.2 m hm
  simp only [State.mayReserve, Bool.and_eq_true, Bool.or_eq_true, decide_eq_true_eq] at hmay
  obtain ⟨⟨hzero | ⟨⟨htask, -⟩, -⟩, -⟩, -⟩ := hmay
  · exact .inl hzero
  · exact .inr htask

theorem State.rowFed_of_admits (h : s.admits f r = true) : s.rowFed f r.task r.blk = true := by
  simp only [State.admits, Bool.and_eq_true] at h
  exact h.1.2

/-! ### The row in flight -/

theorem State.rowEntered_arr (hr : s.RegsOk) (ht : FMap.wf {} s.tiles = true) {row : RowFly} :
    let a := ((s.rowEntered p f r row).tile p).arr
    a.fly = (s.tile p).arr.fly ++ [row] ∧ a.run = r.next f ∧ a.blk = (s.tile p).arr.blk ∧ a.after = if r.task.strict then 15 else 0 := by
  have hgap : Keeps [] (fun x : Tile => (x.arr.fly, x.arr.blk)) s (s.endGap f) := (Keeps.refl hr ht).endGap fun _ _ _ _ _ => rfl
  have harr : ((s.rowEntered p f r row).tile p).arr = Arr.entered f r row ((s.endGap f).tile p).arr := by
    rw [State.rowEntered, State.offerTile, State.tile, State.offer_tiles]
    exact congrArg Tile.arr (State.tile_modTile_same (p := p) (g := fun x => { x with arr := Arr.entered f r row x.arr }) hgap.tilesOk)
  have hfly : ((s.endGap f).tile p).arr.fly = (s.tile p).arr.fly := congrArg Prod.fst (hgap.tile p)
  have hblk : ((s.endGap f).tile p).arr.blk = (s.tile p).arr.blk := congrArg Prod.snd (hgap.tile p)
  rw [harr]
  exact ⟨by rw [← hfly]; rfl, rfl, hblk, rfl⟩

theorem State.rowEntered_inGap (hr : s.RegsOk) (ht : FMap.wf {} s.tiles = true) {row : RowFly} :
    ∀ m ∈ f.members, ((s.rowEntered p f r row).tile (s.phys m)).arr.inGap = false := by
  intro m hm
  have hgap : Keeps [] (fun _ => ()) s (s.endGap f) := (Keeps.refl hr ht).endGap fun _ _ _ _ _ => rfl
  have harr : Keeps [F.TILE_ARR_NROW_COUNT.id] (fun x : Tile => x.arr.inGap) (s.endGap f)
      ((s.endGap f).modArr p (Arr.entered f r row)) := hgap.restart.modTile fun _ => rfl
  have hkept := (harr.setOwn (f := F.TILE_ARR_NROW_COUNT) (v := ((s.endGap f).modArr p (Arr.entered f r row)).get F.TILE_ARR_NROW_COUNT p + 1)
    (i := p) (by decide) (by decide)).offerTile (code := 0x041) (p := p) (inc := 1)
  exact (hkept.tile _).trans (State.endGap_inGap hr ht m hm)

theorem State.rowEntered_nrow (hr : s.RegsOk) (ht : FMap.wf {} s.tiles = true) {row : RowFly} :
    (s.rowEntered p f r row).get F.TILE_ARR_NROW_COUNT p = (s.get F.TILE_ARR_NROW_COUNT p + 1) % 2 ^ 64 := by
  have hgap : Keeps [] (fun _ => ()) s ((s.endGap f).modArr p (Arr.entered f r row)) :=
    ((Keeps.refl hr ht).endGap fun _ _ _ _ _ => rfl).modTile fun _ => rfl
  rw [State.rowEntered, State.offerTile, State.get_offer _ _ _ _ _ _ (by decide) (by simp [evField]; decide)]
  rw [← hgap.get F.TILE_ARR_NROW_COUNT p (by decide) (by decide) (by decide)]
  exact State.get_setReg_same _ F.TILE_ARR_NROW_COUNT _ _ hgap.regsOk

end

/-- ROW_ADMIT. -/
theorem rowAdmit_entered {s : State} {p : Nat} {f : Fused} {r : ArrRun} (hr : s.RegsOk) (hw : FMap.wf {} s.tiles = true)
    (hb : ∀ q, FMap.wf {} (s.tile q).banks = true) (hf : s.geo p = some f) (hrun : (s.tile p).arr.run = some r)
    (hadmit : s.admits f r = true) (hheads : ((List.range f.rg).map fun gr => s.mem f gr 0).Nodup)
    (hsize : ∀ x ∈ s.rowGot f r, x.esz = 3 ∨ x.esz = 2)
    (hpois : (∀ x ∈ s.rowGot f r, x.p = false) ∨ s.abortPolicy r.task.rig = false) :
    ∃ u row, exec (.rowAdmit p) s = .next u ∧ (u.tile p).arr.fly = (s.tile p).arr.fly ++ [row]
      ∧ row.task = r.task ∧ row.srcRow = r.nextRow ∧ row.lastBlk = decide (r.blk + 1 = r.task.blocks f)
      ∧ row.pois = (s.rowGot f r).any (·.p) ∧ row.block = (s.tile p).arr.blk.getD {} ∧ row.vals.length = 2 * f.rows
      ∧ (u.tile p).arr.run = r.next f ∧ (u.tile p).arr.blk = (s.tile p).arr.blk ∧ (u.tile p).arr.after = (if r.task.strict then 15 else 0)
      ∧ (∀ gr, gr < f.rg → feedOf (u.tile (s.mem f gr 0)).feedT r.task.ref.logno
          = (feedOf (s.tile (s.mem f gr 0)).feedT r.task.ref.logno).drop (sliceLen f r.task r.blk gr))
      ∧ (∀ m ∈ f.members, (u.tile (s.phys m)).arr.inGap = false)
      ∧ (r.blk = 0 → ∀ m ∈ f.bottoms, Reserved r.task r.nextRow ((u.tile (s.phys m)).bank (r.task.bankOf r.nextRow)))
      ∧ u.get F.TILE_ARR_NROW_COUNT p = (s.get F.TILE_ARR_NROW_COUNT p + 1) % 2 ^ 64
      ∧ (∀ q, (u.tile q).store = (s.tile q).store) ∧ u.pages = s.pages ∧ u.sigs = s.sigs := by
  have htaken : Keeps [] (fun x : Tile => (x.store, x.arr, x.banks)) s (s.rowTaken f r) := (Keeps.refl hr hw).rowTaken fun _ _ => rfl
  have hraised : Keeps [] (fun x : Tile => (x.store, x.arr, x.banks)) s (s.rowRaised f r) := (Keeps.refl hr hw).rowRaised fun _ _ => rfl
  have hfeed : Keeps [] Tile.feedT (s.rowTaken f r) (s.rowRaised f r) := htaken.restart.each fun _ _ hv => hv.raiseNums
  have hres : Keeps [] (fun x : Tile => (x.store, x.arr, x.feedT)) (s.rowRaised f r) ((s.rowRaised f r).rowReserved f r) :=
    hraised.restart.rowReserved fun _ _ => rfl
  have hent : Keeps [F.TILE_ARR_NROW_COUNT.id] (fun x : Tile => (x.store, x.feedT, x.banks)) ((s.rowRaised f r).rowReserved f r)
      (((s.rowRaised f r).rowReserved f r).rowEntered p f r (s.flying p f r)) := hres.restart.rowEntered (by decide) fun _ _ => rfl
  have hbefore : Keeps [] (fun x : Tile => (x.store, x.arr)) s ((s.rowRaised f r).rowReserved f r) :=
    (hraised.part fun y => (y.1, y.2.1)).trans (hres.part fun y => (y.1, y.2.1))
  have hall : Keeps [F.TILE_ARR_NROW_COUNT.id] Tile.store s (((s.rowRaised f r).rowReserved f r).rowEntered p f r (s.flying p f r)) :=
    ((hbefore.part Prod.fst).mono (List.nil_subset _)).trans (hent.part Prod.fst)
  have harr : (((s.rowRaised f r).rowReserved f r).tile p).arr = (s.tile p).arr := congrArg Prod.snd (hbefore.tile p)
  obtain ⟨hfly, hnext, hblk, hafter⟩ := State.rowEntered_arr (p := p) (f := f) (r := r) hres.regsOk hres.tilesOk (row := s.flying p f r)
  refine ⟨_, s.flying p f r, exec_rowAdmit hr hw hf hrun hadmit hsize hpois, ?_, rfl, rfl, rfl, ?_, ?_, ?_, hnext, ?_, hafter, fun gr hgr => ?_,
    fun m hm => ?_, fun h0 m hm => ?_, ?_, hall.tile, hall.pages, hall.sigs⟩
  · rw [hfly, harr]
  · rw [State.flying, State.rowPlaces_filterMap]
  · rw [State.flying, harr]
  · have hlen := State.rowPlaces_length (State.rowFed_of_admits hadmit)
    simp only [State.flying, List.length_append, List.length_map, State.rowValues, hlen]
    omega
  · rw [hblk, harr]
  · have hkeep := (congrArg (fun y => y.2.1) (hent.tile (s.mem f gr 0))).trans
      ((congrArg (fun y => y.2.2) (hres.tile (s.mem f gr 0))).trans (hfeed.tile (s.mem f gr 0)))
    exact (congrArg (fun l => feedOf l r.task.ref.logno) hkeep).trans (State.rowTaken_feedT hw hheads hgr)
  · rw [← hbefore.phys m]
    exact State.rowEntered_inGap hres.regsOk hres.tilesOk m hm
  · have hbank : ∀ q, ((s.rowRaised f r).tile q).banks = (s.tile q).banks := fun q => congrArg (fun y => y.2.2) (hraised.tile q)
    have hkeep := congrArg (fun y => y.2.2) (hent.tile (s.phys m))
    have hfree : ∀ m ∈ f.bottoms, (((s.rowRaised f r).tile ((s.rowRaised f r).phys m)).bank (r.task.bankOf r.nextRow)).freeFor r.task.ref := by
      intro m hm
      rw [hraised.phys m, Tile.bank, hbank]
      exact State.freeFor_of_admits hadmit h0 m hm
    have hreserved := State.rowReserved_bank hraised.regsOk hraised.tilesOk (fun q => hbank q ▸ hb q) h0 hfree m hm
    rw [hraised.phys m] at hreserved
    exact (congrArg (fun l : FMap Bank => Reserved r.task r.nextRow (l.get {} (r.task.bankOf r.nextRow))) hkeep).mpr hreserved
  · rw [State.rowEntered_nrow hres.regsOk hres.tilesOk, hbefore.get F.TILE_ARR_NROW_COUNT p (by decide) (by decide) (by decide)]

end Sys2Proof.Machine
end

section
/-! ## A row completes (R59, R78 to R86, R92)

Each output column writes one element of one bank: different columns write different places, so the columns can be completed one after the other
(`Completed`). After the last block the bottom members release the bank row (`rowDone`). -/

namespace Sys2Proof.Machine

section
variable {α : Type} {own : List Nat} {π : Tile → α} {s t u : State} {p : Nat} {f : Fused} {row : RowFly}

/-! ### Elements of the banks -/

/-- An element of a bank. -/
def State.cell (s : State) (q c k : Nat) : Elem := ((s.tile q).bank c).elems.get {} k

theorem State.cell_of_keeps (h : Keeps own Tile.banks s t) (q c k : Nat) : t.cell q c k = s.cell q c k := by
  rw [State.cell, Tile.bank, h.tile q]
  rfl

/-! ### One column -/

/-- The tile and the place where output column `n` of a row goes. -/
def State.outTile (s : State) (f : Fused) (n : Nat) : Nat := s.mem f (f.rg - 1) (n / 128)
def RowFly.key (row : RowFly) (n : Nat) : Nat := 128 * (row.srcRow % 128) + n % 128
def RowFly.bank (row : RowFly) : Nat := row.task.bankOf row.srcRow

/-- What column `n` becomes, with the draws of its tile. -/
def State.columnOut (s : State) (f : Fused) (row : RowFly) (n : Nat) : ElemOut :=
  if row.task.strict then strictColumn (s.nmode row.task.rig true) row f n (s.cell (s.outTile f n) row.bank (row.key n))
  else fastColumn row f n (s.cell (s.outTile f n) row.bank (row.key n)) fun i =>
    (Config.srDraw s.srSeed (s.outTile f n) ((s.tile (s.outTile f n)).draws + i)).toNat

/-- The bank with the new element of column `n`. -/
def Bank.withColumn (row : RowFly) (n : Nat) (o : ElemOut) (k : Bank) : Bank :=
  { k with elems := k.elems.set {} (row.key n) { o.e with p := o.e.p || row.pois || row.block.poisCols.contains n }
           sat := k.sat || decide (o.sats > 0), prox := k.prox || row.prox || row.block.prox }

def Tile.withColumn (row : RowFly) (n : Nat) (o : ElemOut) (x : Tile) : Tile :=
  ({ x with draws := x.draws + o.draws }).modBank row.bank (Bank.withColumn row n o)

def State.columnStored (s : State) (f : Fused) (row : RowFly) (n : Nat) : State :=
  s.modTile (s.outTile f n) (Tile.withColumn row n (s.columnOut f row n))

/-- The flags of a column's operations are raised, and its chunks that were not exact count. -/
def State.columnFlagged (s : State) (f : Fused) (row : RowFly) (n : Nat) : State :=
  let o := s.columnOut f row n
  let u := (s.columnStored f row n).raiseNums (s.outTile f n) row.task.ref.logno o.flags
  let u := each o.chunkFlags (fun s c => s.raiseNums (s.mem f c.1 (n / 128)) row.task.ref.logno [c.2]) u
  each o.inexact (fun s g => (s.bump F.TILE_ACC_NINX_COUNT 1 (s.mem f g (n / 128))).offerTile 0x061 (s.mem f g (n / 128))) u

/-- A column's chunks and draws count. -/
def State.columnCounted (s : State) (f : Fused) (row : RowFly) (n : Nat) : State :=
  (if row.task.strict then s.columnFlagged f row n
    else (s.columnFlagged f row n).bump F.TILE_ACC_NCHK_COUNT (f.rows / 32) (s.outTile f n)).bump
      F.TILE_ACC_NDRAW_COUNT (s.columnOut f row n).draws (s.outTile f n)

theorem State.completeColumn_eq (s : State) (f : Fused) (row : RowFly) (n : Nat) :
    s.completeColumn f row n = if (s.columnOut f row n).sats = 0 then s.columnCounted f row n
      else ((((s.columnCounted f row n).bump F.TILE_ACC_NSAT_COUNT (s.columnOut f row n).sats (s.outTile f n)).orReg
        F.TILE_ACC_STAT_SATF row.bank (s.outTile f n)).offerTile 0x060 (s.outTile f n) (s.columnOut f row n).sats).recOf row.task.ref.logno
          State.recSat := rfl

/-- What follows the write of a column counts and flags alone. -/
theorem Keeps.completeColumn_of_stored {n : Nat} (h : Keeps own π s (t.columnStored f row n)) : Keeps own π s (t.completeColumn f row n) := by
  have hflagged : Keeps own π s (t.columnFlagged f row n) :=
    (h.raiseNums.each fun _ _ hv => hv.raiseNums).each fun _ _ hv => (hv.bump (by decide)).offerTile
  have hcounted : Keeps own π s (t.columnCounted f row n) := (Keeps.ite hflagged (hflagged.bump (by decide))).bump (by decide)
  rw [State.completeColumn_eq]
  exact .ite hcounted ((hcounted.bump (by decide)).setBook (by decide)).offerTile.recSat

/-- The banks and their elements have their canonical form. -/
structure CellsOk (s : State) : Prop where
  banks : BanksOk s
  elems : ∀ q c, FMap.wf {} ((s.tile q).bank c).elems = true

theorem CellsOk.of_keeps (h : CellsOk s) (hk : Keeps own Tile.banks s t) : CellsOk t := by
  refine ⟨h.banks.of_keeps hk, fun q c => ?_⟩
  rw [Tile.bank, hk.tile q]
  exact h.elems q c

theorem State.columnStored_cells (ht : FMap.wf {} s.tiles = true) (h : CellsOk s) (n : Nat) :
    CellsOk (s.columnStored f row n) ∧ ∀ q c k, (s.columnStored f row n).cell q c k =
      if q = s.outTile f n ∧ c = row.bank ∧ k = row.key n then
        { (s.columnOut f row n).e with p := (s.columnOut f row n).e.p || row.pois || row.block.poisCols.contains n }
      else s.cell q c k := by
  have hbank := State.bank_modTile (p := s.outTile f n) (b := row.bank) (g := Tile.withColumn row n (s.columnOut f row n))
    (k := Bank.withColumn row n (s.columnOut f row n)) h.banks ht fun _ => rfl
  refine ⟨⟨h.banks.modTile (b := row.bank) (k := Bank.withColumn row n (s.columnOut f row n)) ht fun _ => rfl, fun q c => ?_⟩, fun q c k => ?_⟩
  · rw [State.columnStored, hbank]
    split
    · exact FMap.wf_set _ _ _ _ (h.elems _ _)
    · exact h.elems q c
  · rw [State.cell, State.columnStored, hbank]
    by_cases hqc : q = s.outTile f n ∧ c = row.bank
    · obtain ⟨rfl, rfl⟩ := hqc
      simp only [and_self, true_and, if_true]
      exact FMap.get_set _ _ _ _ _ (h.elems _ _)
    · rw [if_neg hqc, if_neg fun hq => hqc ⟨hq.1, hq.2.1⟩]
      rfl

/-! ### What a column becomes -/

/-- A row rounded to nearest takes no draws. -/
theorem fastColumn_of_accn (h : row.task.accn = true) (f : Fused) (n : Nat) (start : Elem) (d d' : Nat → Nat) :
    fastColumn row f n start d = fastColumn row f n start d' := by
  simp only [fastColumn, h, if_true]

theorem fastColumn_p (f : Fused) (n : Nat) (start : Elem) (d : Nat → Nat) : (fastColumn row f n start d).e.p = start.p :=
  each_ind (fun o : ElemOut => o.e.p = start.p) _ _ _ rfl fun _ _ _ ho => ho

theorem strictColumn_p (md : NMode) (f : Fused) (n : Nat) (start : Elem) : (strictColumn md row f n start).e.p = start.p := rfl

/-- Column `n` of a row that takes no draws, from the bank's element `start`. -/
def columnValue (md : NMode) (row : RowFly) (f : Fused) (n : Nat) (start : Elem) : ElemOut :=
  if row.task.strict then strictColumn md row f n start else fastColumn row f n start fun _ => 0

/-- The element that column `n` of a row leaves in the bank. -/
def State.columnElem (s : State) (f : Fused) (row : RowFly) (n : Nat) : Elem :=
  let start := s.cell (s.outTile f n) row.bank (row.key n)
  { (columnValue (s.nmode row.task.rig true) row f n start).e with p := start.p || row.pois || row.block.poisCols.contains n }

theorem State.columnOut_elem (h : row.task.strict = true ∨ row.task.accn = true) (n : Nat) :
    { (s.columnOut f row n).e with p := (s.columnOut f row n).e.p || row.pois || row.block.poisCols.contains n } = s.columnElem f row n := by
  cases hs : row.task.strict with
  | true => simp only [State.columnOut, State.columnElem, columnValue, hs, if_true, strictColumn_p]
  | false =>
    have haccn := h.resolve_left (by simp [hs])
    simp only [State.columnOut, State.columnElem, columnValue, hs, Bool.false_eq_true, if_false, fastColumn_p,
      fastColumn_of_accn haccn f n _ (fun i => (Config.srDraw s.srSeed (s.outTile f n) ((s.tile (s.outTile f n)).draws + i)).toNat) fun _ => 0]

/-! ### All columns -/

/-- Different columns go to different places. -/
theorem State.column_inj (hnodup : ((List.range f.cg).map fun gc => s.mem f (f.rg - 1) gc).Nodup) {n m : Nat} (hn : n < f.cols) (hm : m < f.cols)
    (htile : s.outTile f n = s.outTile f m) (hkey : row.key n = row.key m) : n = m := by
  have hcg : ∀ k, k < f.cols → k / 128 ∈ List.range f.cg := fun k hk => List.mem_range.mpr (by unfold Fused.cols at hk; omega)
  have hgroup : n / 128 = m / 128 := List.inj_on_of_nodup_map hnodup (hcg n hn) (hcg m hm) htile
  unfold RowFly.key at hkey
  omega

/-- `u` has come from `s` by the completion of the first `m` columns of a row. -/
structure Completed (s : State) (f : Fused) (row : RowFly) (m : Nat) (u : State) : Prop where
  kept : Keeps [] (fun x : Tile => (x.store, x.arr)) s u
  cells : CellsOk u
  done : ∀ n < m, u.cell (s.outTile f n) row.bank (row.key n) = s.columnElem f row n
  other : ∀ q c k, (∀ n < m, ¬ (q = s.outTile f n ∧ c = row.bank ∧ k = row.key n)) → u.cell q c k = s.cell q c k

theorem Completed.next {m : Nat} (h : Completed s f row m u) (hmode : row.task.strict = true ∨ row.task.accn = true)
    (hnodup : ((List.range f.cg).map fun gc => s.mem f (f.rg - 1) gc).Nodup) (hm : m < f.cols) :
    Completed s f row (m + 1) (u.completeColumn f row m) := by
  have hout : u.outTile f m = s.outTile f m := h.kept.mem _ _ _
  obtain ⟨hcells, hcell⟩ := u.columnStored_cells (f := f) (row := row) h.kept.tilesOk h.cells m
  have hstored : Keeps [] (fun x : Tile => (x.store, x.arr)) s (u.columnStored f row m) := h.kept.modTile fun _ => rfl
  have hbanks : Keeps [] Tile.banks (u.columnStored f row m) (u.completeColumn f row m) := hstored.restart.completeColumn_of_stored
  have hstart : u.cell (s.outTile f m) row.bank (row.key m) = s.cell (s.outTile f m) row.bank (row.key m) :=
    h.other _ _ _ fun n hn ⟨htile, _, hkey⟩ => hn.ne' (State.column_inj hnodup hm (hn.trans hm) htile hkey)
  have helem : u.columnElem f row m = s.columnElem f row m := by
    simp only [State.columnElem, hout, hstart, h.kept.nmode]
  have hnew : ∀ q c k, (u.completeColumn f row m).cell q c k
      = if q = s.outTile f m ∧ c = row.bank ∧ k = row.key m then s.columnElem f row m else u.cell q c k := by
    intro q c k
    rw [State.cell_of_keeps hbanks, hcell, State.columnOut_elem hmode, helem, hout]
  refine ⟨hstored.completeColumn_of_stored, hcells.of_keeps hbanks, fun n hn => ?_, fun q c k hne => ?_⟩
  · rw [hnew]
    split
    next heq => rw [State.column_inj (row := row) hnodup (by omega) hm heq.1 heq.2.2]
    next hne =>
      have hlt : n < m := by
        refine lt_of_le_of_ne (by omega) fun he => hne ?_
        subst he
        exact ⟨rfl, rfl, rfl⟩
      exact h.done n hlt
  · rw [hnew, if_neg (hne m (Nat.lt_succ_self m))]
    exact h.other q c k fun n hn => hne n (hn.trans (Nat.lt_succ_self m))

theorem completed_columns (hr : s.RegsOk) (ht : FMap.wf {} s.tiles = true) (hc : CellsOk s)
    (hmode : row.task.strict = true ∨ row.task.accn = true) (hnodup : ((List.range f.cg).map fun gc => s.mem f (f.rg - 1) gc).Nodup)
    {m : Nat} (hm : m ≤ f.cols) : Completed s f row m (each (List.range m) (fun s n => s.completeColumn f row n) s) := by
  induction m with
  | zero => exact ⟨.refl hr ht, hc, by simp, fun _ _ _ _ => rfl⟩
  | succ m ih =>
    have hsplit : each (List.range (m + 1)) (fun s n => s.completeColumn f row n) s
        = (each (List.range m) (fun s n => s.completeColumn f row n) s).completeColumn f row m := by
      simp [each, List.range_succ]
    rw [hsplit]
    exact (ih (by omega)).next hmode hnodup (by omega)

/-! ### The bank row is released -/

/-- A bank once its row `r` has completed its last block. -/
def Bank.rowReleased (r : Nat) (k : Bank) : Bank :=
  { k with resv := k.resv.filter (· ≠ r), done := k.done + 1, fin := decide (k.done + 1 ≥ k.expect) }

theorem State.rowDone_eq (s : State) (p b r : Nat) :
    let u := s.modBank p b (Bank.rowReleased r)
    s.rowDone p b r = when (((u.tile p).bank b).fin && ((u.tile p).bank b).drainQ) (fun s => s.modTile p fun t => { t with finQ := t.finQ ++ [b] }) u :=
  rfl

theorem Keeps.rowDone (h : Keeps own π s t) (hπ : ∀ (x : Tile) (m : FMap Bank) (l : List Nat), π { x with banks := m, finQ := l } = π x) {b r : Nat} :
    Keeps own π s (t.rowDone p b r) := by
  rw [State.rowDone_eq]
  exact (h.modTile fun x => hπ x _ x.finQ).when fun _ hv => hv.modTile fun x => hπ x x.banks _

theorem State.rowDone_bank (hr : s.RegsOk) (ht : FMap.wf {} s.tiles = true) (h : BanksOk s) (p b r : Nat) :
    BanksOk (s.rowDone p b r) ∧ ∀ q c, ((s.rowDone p b r).tile q).bank c
      = if q = p ∧ c = b then ((s.tile p).bank b).rowReleased r else (s.tile q).bank c := by
  have hstart : Keeps [] (fun _ => ()) s (s.modBank p b (Bank.rowReleased r)) := (Keeps.refl hr ht).modTile fun _ => rfl
  have hbanks : Keeps [] Tile.banks (s.modBank p b (Bank.rowReleased r)) (s.rowDone p b r) := by
    rw [State.rowDone_eq]
    exact hstart.restart.when fun _ hv => hv.modTile fun _ => rfl
  refine ⟨(h.modBank ht).of_keeps hbanks, fun q c => ?_⟩
  rw [← State.bank_modBank h ht, Tile.bank, hbanks.tile q]
  rfl

/-- `u` has come from `s` by releases of bank rows: the elements are as they were. -/
structure Released (s u : State) : Prop where
  kept : Keeps [] (fun x : Tile => (x.store, x.arr)) s u
  banks : BanksOk u
  cell : ∀ q c k, u.cell q c k = s.cell q c k

theorem Released.rowDone (h : Released s u) (p b r : Nat) : Released s (u.rowDone p b r) := by
  obtain ⟨hbanks, hbank⟩ := State.rowDone_bank h.kept.regsOk h.kept.tilesOk h.banks p b r
  refine ⟨h.kept.rowDone fun _ _ _ => rfl, hbanks, fun q c k => ?_⟩
  rw [← h.cell q c k, State.cell, hbank]
  split
  next hq => rw [hq.1, hq.2]; rfl
  next => rfl

/-- The bank row is released in every bottom member (R92). -/
theorem rowsDone_released (hr : s.RegsOk) (ht : FMap.wf {} s.tiles = true) (h : BanksOk s) {l : List Nat} (b r : Nat) :
    Released s (each l (fun s m => s.rowDone (s.phys m) b r) s)
      ∧ ∀ m ∈ l, (((each l (fun s m => s.rowDone (s.phys m) b r) s).tile (s.phys m)).bank b).resv.contains r = false := by
  have hstart : Released s s := ⟨.refl hr ht, h, fun _ _ _ => rfl⟩
  have hfilter : ∀ k : Bank, (k.rowReleased r).resv.contains r = false := by simp [Bank.rowReleased]
  refine ⟨each_ind (Released s) _ _ _ hstart fun t m _ hv => hv.rowDone _ _ _, ?_⟩
  refine each_reaches (Released s) (fun m t => ((t.tile (s.phys m)).bank b).resv.contains r = false) hstart (fun a _ t hv => hv.rowDone _ _ _)
    (fun a _ t hv => ?_) fun a _ t m hv hm => ?_
  · rw [hv.kept.phys, (State.rowDone_bank hv.kept.regsOk hv.kept.tilesOk hv.banks _ b r).2, if_pos ⟨rfl, rfl⟩]
    exact hfilter _
  · rw [(State.rowDone_bank hv.kept.regsOk hv.kept.tilesOk hv.banks _ b r).2]
    split
    · exact hfilter _
    · exact hm

/-! ### The command -/

/-- The row has left the array and its columns are in the banks. -/
def State.columnsDone (s : State) (p : Nat) (f : Fused) (row : RowFly) (rest : List RowFly) : State :=
  each (List.range f.cols) (fun s n => s.completeColumn f row n) (s.modArr p fun a => { a with fly := rest })

theorem exec_rowComplete {rest : List RowFly} (hf : s.geo p = some f) (hfly : (s.tile p).arr.fly = row :: rest) :
    exec (.rowComplete p) s = .next (if row.lastBlk then
        (each f.bottoms (fun s b => s.rowDone (s.phys b) row.bank (row.srcRow % 128)) (s.columnsDone p f row rest)).modPart
          row.task.ref.logno row.task.ref.lead fun q => { q with rowsLeft := q.rowsLeft - 1 }
      else s.columnsDone p f row rest) := by
  change execRowComplete p s = _
  unfold execRowComplete
  rw [hf, hfly]
  rfl

theorem columnsDone_completed {rest : List RowFly} (hr : s.RegsOk) (ht : FMap.wf {} s.tiles = true) (hc : CellsOk s)
    (hmode : row.task.strict = true ∨ row.task.accn = true) (hnodup : ((List.range f.cg).map fun gc => s.mem f (f.rg - 1) gc).Nodup) :
    let u := s.columnsDone p f row rest
    Keeps [] Tile.store s u ∧ CellsOk u ∧ (u.tile p).arr.fly = rest
      ∧ (∀ n < f.cols, u.cell (s.outTile f n) row.bank (row.key n) = s.columnElem f row n)
      ∧ (∀ q c k, (∀ n < f.cols, ¬ (q = s.outTile f n ∧ c = row.bank ∧ k = row.key n)) → u.cell q c k = s.cell q c k) := by
  have hstart : Keeps [] (fun x : Tile => (x.store, x.banks)) s (s.modArr p fun a => { a with fly := rest }) :=
    (Keeps.refl hr ht).modTile fun _ => rfl
  have hfly := congrArg (fun x : Tile => x.arr.fly)
    (State.tile_modTile_same (p := p) (g := fun x => { x with arr := { x.arr with fly := rest } }) ht)
  have hcell := State.cell_of_keeps (hstart.part Prod.snd)
  have hout : ∀ n, (s.modArr p fun a => { a with fly := rest }).outTile f n = s.outTile f n := fun n => hstart.mem _ _ _
  have helem : ∀ n, (s.modArr p fun a => { a with fly := rest }).columnElem f row n = s.columnElem f row n := by
    intro n
    simp only [State.columnElem, hout, hcell, hstart.nmode]
  obtain ⟨hkept, hcells, hdone, hother⟩ := completed_columns (row := row) hstart.regsOk hstart.tilesOk (hc.of_keeps (hstart.part Prod.snd)) hmode
    (by simpa only [hstart.mem] using hnodup) (le_refl f.cols)
  refine ⟨(hstart.part Prod.fst).trans (hkept.part Prod.fst), hcells, ?_, fun n hn => ?_, fun q c k hne => ?_⟩
  · exact (congrArg (fun y => y.2.fly) (hkept.tile p)).trans hfly
  · rw [← hout n, ← helem n]
    exact hdone n hn
  · rw [← hcell q c k]
    exact hother q c k fun n hn => hout n ▸ hne n hn

/-- The tile of an output column is a bottom member's. -/
theorem outTile_mem_bottoms (hlen : f.members.length = f.rg * f.cg) {n : Nat} (hn : n < f.cols) : ∃ m ∈ f.bottoms, s.outTile f n = s.phys m := by
  have hcg : n / 128 < f.cg := by unfold Fused.cols at hn; omega
  have hrg : 0 < f.rg := Nat.two_pow_pos _
  have hplace : (f.rg - 1) * f.cg + n / 128 < f.members.length := by
    have hrows : f.rg * f.cg = (f.rg - 1) * f.cg + f.cg := by
      rw [← Nat.succ_mul, Nat.succ_eq_add_one, Nat.sub_add_cancel hrg]
    omega
  refine ⟨f.members.getD ((f.rg - 1) * f.cg + n / 128) 0, ?_, rfl⟩
  rw [List.getD_eq_getElem _ _ hplace, Fused.bottoms, List.mem_drop_iff_getElem]
  exact ⟨n / 128, by omega, rfl⟩

theorem Released.modPart {logno lead : Nat} {g : Part → Part} (h : Released s u) : Released s (u.modPart logno lead g) :=
  ⟨h.kept.modPart, h.banks, h.cell⟩

/-- ROW_COMPLETE: its columns, then after the last block the releases. -/
theorem rowComplete_released {rest : List RowFly} (hf : s.geo p = some f)
    (hfly : (s.tile p).arr.fly = row :: rest) (hc : Keeps [] Tile.store s (s.columnsDone p f row rest))
    (hcb : BanksOk (s.columnsDone p f row rest)) :
    ∃ u, exec (.rowComplete p) s = .next u ∧ Released (s.columnsDone p f row rest) u
      ∧ (row.lastBlk = true → ∀ m ∈ f.bottoms, ((u.tile (s.phys m)).bank row.bank).resv.contains (row.srcRow % 128) = false) := by
  refine ⟨_, exec_rowComplete hf hfly, ?_, fun hlast m hm => ?_⟩
  · split
    · exact (rowsDone_released hc.regsOk hc.tilesOk hcb _ _).1.modPart
    · exact ⟨hc.restart, hcb, fun _ _ _ => rfl⟩
  · rw [if_pos hlast, ← hc.phys m]
    exact (rowsDone_released hc.regsOk hc.tilesOk hcb row.bank (row.srcRow % 128)).2 m hm

end

/-- Settles O32: the stages of an admission; the columns of a completion one after the other, then the releases. -/
theorem arrayRows : Obligations.ArrayRows := by
  intro p f s hr hw hb hf hp
  refine ⟨fun r hrun hadmit hheads hsize hpois => rowAdmit_entered hr hw hb hf hrun hadmit hheads hsize hpois, ?_⟩
  intro row rest hfly hmode hnodup hlen helems
  obtain ⟨hstore, hcells, hfly', hdone, hother⟩ := columnsDone_completed (p := p) (rest := rest) hr hw ⟨hb, helems⟩ hmode hnodup
  obtain ⟨u, hexec, hrel, hfree⟩ := rowComplete_released hf hfly hstore hcells.banks
  refine ⟨u, hexec, ?_, fun n hn => (hrel.cell _ _ _).trans (hdone n hn), fun q c k hout => (hrel.cell _ _ _).trans (hother q c k ?_),
    fun hlast n hn => ?_, fun q => ?_, hrel.kept.pages.trans hstore.pages, hrel.kept.sigs.trans hstore.sigs⟩
  · exact (congrArg (fun y => y.2.fly) (hrel.kept.tile p)).trans hfly'
  · rintro n hn ⟨hq, hc, hk⟩
    obtain h | h | h := hout
    · exact h hc
    · exact h (by rw [hk, RowFly.key]; omega)
    · exact h n hn hq
  · obtain ⟨m, hm, htile⟩ := outTile_mem_bottoms (s := s) hlen hn
    have hcontains := hfree hlast m hm
    rw [← htile] at hcontains
    exact hcontains
  · exact (congrArg Prod.fst (hrel.kept.tile q)).trans (hstore.tile q)

end Sys2Proof.Machine
end

section
/-! ## An instruction of the vector engine (R99, R102, R109, R111, R115)

An instruction that issues changes the engine of its tile, the flags of that tile, the counters of events, the takes' records and the number of free
values drawn: `Engine p w s t` says that `t` has come from `s` by such changes and that the engine is now `w`. The registers come first, then the
links of such a chain, then the two ends that an instruction has: it is done, or poison stops the routine. -/

namespace Sys2Proof.Machine

theorem gated_of_true {c : Bool} (h : c = true) (f : State → State) (s : State) : gated c f s = .next (f s) := by
  rw [gated, if_pos h]

/-- An instruction of a routine has its effect where its word is the next one: `e` is the meaning that the dispatch calls. -/
theorem exec_of_issues {s : State} {c : Instr} {e : State → Result} {p w : Nat} {g : State → State} (h : s.issues p w = true)
    (hexec : exec c s = e s) (he : e s = gated (s.issues p w) g s) : exec c s = .next (g s) :=
  hexec.trans (he.trans (gated_of_true h g s))

/-! ### Maps written as lists -/

theorem FMap.get_eq_lookup {α : Type} (d : α) (m : FMap α) (i : Nat) : m.get d i = (m.lookup i).getD d := by
  induction m with
  | nil => rfl
  | cons e m ih =>
    simp only [FMap.get, FMap.lookup, ih]
    split <;> rfl

theorem FMap.lookup_append {α : Type} (m n : FMap α) (i : Nat) : FMap.lookup (m ++ n) i = (m.lookup i).or (n.lookup i) := by
  induction m with
  | nil => rfl
  | cons e m ih =>
    simp only [List.cons_append, FMap.lookup, ih]
    split <;> rfl

theorem FMap.lookup_keep {α : Type} (q : Nat → Bool) (m : FMap α) (i : Nat) :
    (m.keep fun k _ => q k).lookup i = if q i = true then m.lookup i else none := by
  unfold FMap.keep
  induction m with
  | nil => simp [FMap.lookup]
  | cons e m ih =>
    by_cases hi : i = e.1
    · subst hi
      by_cases hq : q e.1 = true <;> simp [hq, FMap.lookup, ih]
    · by_cases hq : q e.1 = true <;> simp [hq, hi, FMap.lookup, ih]

theorem FMap.lookup_map {α : Type} (l : List Nat) (f : Nat → α) (i : Nat) :
    FMap.lookup (l.map fun k => (k, f k)) i = if i ∈ l then some (f i) else none := by
  induction l with
  | nil => simp [FMap.lookup]
  | cons k l ih =>
    by_cases hi : i = k
    · simp [FMap.lookup, hi]
    · simp [FMap.lookup, hi, ih]

/-! ### The registers -/

namespace Vec

/-- The lanes of a register that is written, and of the others. -/
theorem lane_putReg (v : Vec) (d r : Nat) (f : Nat → Elem) {l : Nat} (hl : l < 256) :
    (v.putReg d f).lane r l = if r = d then f l else v.lane r l := by
  have hnew : FMap.lookup ((List.range 256).map fun k => (256 * d + k, some (f k))) (256 * r + l) = if r = d then some (some (f l)) else none := by
    have hmap : ((List.range 256).map fun k => (256 * d + k, some (f k)))
        = ((List.range 256).map (256 * d + ·)).map fun k => (k, some (f (k - 256 * d))) := by
      simp only [List.map_map, Function.comp_def, Nat.add_sub_cancel_left]
    rw [hmap, FMap.lookup_map]
    by_cases hr : r = d
    · rw [if_pos hr, hr, Nat.add_sub_cancel_left, if_pos (List.mem_map.2 ⟨l, List.mem_range.2 hl, rfl⟩)]
    · rw [if_neg hr, if_neg]
      rintro hmem
      obtain ⟨k, hk, he⟩ := List.mem_map.1 hmem
      have := List.mem_range.1 hk
      omega
  simp only [lane, putReg, FMap.get_eq_lookup, FMap.lookup_append, FMap.lookup_keep, hnew, decide_eq_true_eq]
  by_cases hr : r = d
  · simp only [hr, if_true]
    rw [if_neg (by omega), if_neg (by omega)]
    rfl
  · simp only [hr, if_false]
    obtain h | h : 256 * r + l < 256 * d ∨ 256 * d + 256 ≤ 256 * r + l := by omega
    · rw [if_pos h, if_neg (by omega), Option.or_none, Option.or_none]
    · rw [if_neg (by omega), if_pos h, Option.none_or, Option.none_or]

/-- What a lane reads depends on the registers and on what they held at the routine's start. -/
theorem lane_congr {v w : Vec} (hv : w.v = v.v) (hs : w.seed = v.seed) (r l : Nat) : w.lane r l = v.lane r l := by
  rw [lane, lane, hv, hs]

/-- Flags of lanes become sticky. -/
def flagged (v : Vec) (fs : List (Nat × NFlags)) : Vec := each fs (fun v f => v.flagLane f.1 f.2) v

theorem flagged_eq (v : Vec) (fs : List (Nat × NFlags)) : v.flagged fs = { v with lf := (v.flagged fs).lf } := by
  unfold flagged
  induction fs generalizing v with
  | nil => rfl
  | cons f fs ih => rw [each_cons, ih]; rfl

@[simp] theorem flagged_m (v : Vec) (fs : List (Nat × NFlags)) : (v.flagged fs).m = v.m := by rw [flagged_eq]
@[simp] theorem flagged_sr (v : Vec) (fs : List (Nat × NFlags)) : (v.flagged fs).sr = v.sr := by rw [flagged_eq]
@[simp] theorem flagged_q (v : Vec) (fs : List (Nat × NFlags)) : (v.flagged fs).q = v.q := by rw [flagged_eq]
@[simp] theorem flagged_v (v : Vec) (fs : List (Nat × NFlags)) : (v.flagged fs).v = v.v := by rw [flagged_eq]
@[simp] theorem flagged_seed (v : Vec) (fs : List (Nat × NFlags)) : (v.flagged fs).seed = v.seed := by rw [flagged_eq]
@[simp] theorem flagged_lane (v : Vec) (fs : List (Nat × NFlags)) (r l : Nat) : (v.flagged fs).lane r l = v.lane r l :=
  lane_congr (flagged_v v fs) (flagged_seed v fs) r l
@[simp] theorem advance_lane (v : Vec) (r l : Nat) : v.advance.lane r l = v.lane r l := rfl

/-- `w` differs from `v` in the engine's registers, masks, scalars, lane flags and row pair alone. -/
def Moved (v w : Vec) : Prop := { w with v := v.v, m := v.m, sr := v.sr, lf := v.lf, q := v.q } = v

theorem Moved.pc {v w : Vec} (h : Moved v w) : w.pc = v.pc := by
  have hpc := congrArg Vec.pc h
  exact hpc
theorem Moved.loops {v w : Vec} (h : Moved v w) : w.loops = v.loops := by
  have hloops := congrArg Vec.loops h
  exact hloops
theorem Moved.advance {v w : Vec} (h : Moved v w) :
    { w.advance with v := v.v, m := v.m, sr := v.sr, lf := v.lf, q := v.q, pc := v.pc, loops := v.loops, wait := v.wait } = v := by
  unfold Moved at h
  exact congrArg (fun x : Vec => { x with pc := v.pc, loops := v.loops, wait := v.wait }) h

theorem Moved.refl (v : Vec) : Moved v v := rfl
theorem Moved.putReg {v w : Vec} (h : Moved v w) {d : Nat} {f : Nat → Elem} : Moved v (w.putReg d f) := h
theorem Moved.putScalar {v w : Vec} (h : Moved v w) {i n : Nat} : Moved v (w.putScalar i n) := h
theorem Moved.flagged {v w : Vec} (h : Moved v w) {fs : List (Nat × NFlags)} : Moved v (w.flagged fs) := by
  rw [flagged_eq]
  exact h
theorem Moved.putMask {v w : Vec} (h : Moved v w) {i : Nat} {f : Nat → Bool} : Moved v (w.putMask i f) := by
  unfold Moved at h ⊢
  unfold Vec.putMask
  split
  · exact h
  · exact h

/-- The lanes active under a mask. -/
theorem mem_actives {v : Vec} {msk l : Nat} : l ∈ v.actives msk ↔ l < 256 ∧ v.active msk l = true := by
  rw [actives, List.mem_filter, List.mem_range]

theorem any_actives {v : Vec} {msk : Nat} {q : Nat → Bool} :
    (v.actives msk).any q = true ↔ ∃ l, l < 256 ∧ v.active msk l = true ∧ q l = true := by
  simp only [List.any_eq_true, mem_actives, and_assoc]

end Vec

/-! ### Links of a chain -/

variable {p d : Nat} {v w : Vec} {s t u : State}

theorem State.modTile_tilesOk {g : Tile → Tile} (ht : FMap.wf {} s.tiles = true) : FMap.wf {} (s.modTile p g).tiles = true :=
  FMap.wf_upd _ _ _ _ ht

theorem State.modVec_tile {f : Vec → Vec} (ht : FMap.wf {} s.tiles = true) :
    (s.modVec p f).tile p = { s.tile p with vec := f (s.tile p).vec } := by
  rw [State.modVec, State.tile_modTile_same ht]

theorem State.modVec_tile_ne {f : Vec → Vec} {q : Nat} (hq : q ≠ p) : (s.modVec p f).tile q = s.tile q := by
  rw [State.modVec, State.tile_modTile_ne hq]

/-- `t` has come from `s` by changes of the engine of tile `p`, which is now `w`, of the tile's flags, of the event counters, of the takes' records
and of the number of free values drawn. -/
structure Engine (p : Nat) (w : Vec) (s t : State) : Prop where
  rest : { t with regs := s.regs, tiles := s.tiles, rigs := s.rigs, fresh := s.fresh } = s
  other : ∀ q, q ≠ p → t.tile q = s.tile q
  tile : t.tile p = { s.tile p with vec := w }
  regs : regsKept (fun g i => (i = p ∧ ∃ b h, nflagField b = some h ∧ g.id = h.id) ∨ evField g) s t
  tilesOk : FMap.wf {} t.tiles = true
  regsOk : t.RegsOk

theorem Engine.refl (hr : s.RegsOk) (ht : FMap.wf {} s.tiles = true) : Engine p (s.tile p).vec s s :=
  ⟨rfl, fun _ _ => rfl, rfl, fun _ _ _ _ => rfl, ht, hr⟩

theorem Engine.vec (h : Engine p w s t) : (t.tile p).vec = w := by rw [h.tile]

theorem Engine.modVec (h : Engine p w s t) {f : Vec → Vec} : Engine p (f w) s (t.modVec p f) := by
  refine ⟨h.rest, fun q hq => (State.modVec_tile_ne hq).trans (h.other q hq), ?_, h.regs, State.modTile_tilesOk h.tilesOk, h.regsOk⟩
  rw [State.modVec_tile h.tilesOk, h.tile]

theorem Engine.spend (h : Engine p w s t) : Engine p w s t.spend := ⟨h.rest, h.other, h.tile, h.regs, h.tilesOk, h.regsOk⟩

theorem Engine.modTake (h : Engine p w s t) {n : Nat} {f : Take → Take} : Engine p w s (t.modTake n f) :=
  ⟨h.rest, h.other, h.tile, h.regs, h.tilesOk, h.regsOk⟩

theorem Engine.recOf (h : Engine p w s t) {logno : Nat} {f : State → Nat → State} (hf : ∀ n, Engine p w s (f t n)) :
    Engine p w s (t.recOf logno f) := by
  unfold State.recOf
  split
  · exact hf _
  · exact h

theorem Engine.offer (h : Engine p w s t) {code : Nat} {a : EvAttr} {inc : Nat} : Engine p w s (t.offer code a inc) := by
  have htiles : ∀ q, (t.offer code a inc).tile q = t.tile q := fun q => by rw [State.tile, State.offer_tiles]; rfl
  refine ⟨?_, fun q hq => (htiles q).trans (h.other q hq), (htiles p).trans h.tile, fun f i hf hn => ?_, ?_,
    State.offer_regsOk _ _ _ _ h.regsOk⟩
  · rw [State.offer_eq]
    exact h.rest
  · rw [State.get_offer _ _ _ _ _ _ hf fun he => hn (.inr he)]
    exact h.regs f i hf hn
  · rw [State.offer_tiles]
    exact h.tilesOk

theorem Engine.offerTile (h : Engine p w s t) {code q inc : Nat} : Engine p w s (t.offerTile code q inc) := h.offer

/-- Flags of the tile's own. -/
theorem Engine.raiseNum (h : Engine p w s t) {b n : Nat} : Engine p w s (t.raiseNum p b n) := by
  unfold State.raiseNum
  split
  · exact h
  next f hf =>
    split
    · exact h
    · have hlt := lt_of_mem_bookFields (nflagField_mem_bookFields hf)
      have hset : Engine p w s (t.setReg f 1 p) := by
        refine ⟨h.rest, h.other, h.tile, fun g i hg hn => ?_, h.tilesOk, State.setReg_regsOk _ _ _ _ h.regsOk⟩
        rw [State.get_setReg_ne _ _ _ _ _ _ fun he => hn ?_]
        · exact h.regs g i hg hn
        · obtain ⟨hid, hi⟩ := (Field.key_inj hg hlt).1 he
          exact .inl ⟨hi, b, f, hf, hid⟩
      exact hset.offerTile

theorem Engine.each {β : Type} (h : Engine p w s t) {l : List β} {f : State → β → State} (hf : ∀ t a, Engine p w s t → Engine p w s (f t a)) :
    Engine p w s (each l f t) := each_ind _ l f t h fun t a _ => hf t a

theorem Engine.ite {c : Prop} [Decidable c] {a b : State} (ha : Engine p w s a) (hb : Engine p w s b) : Engine p w s (if c then a else b) := by
  split
  · exact ha
  · exact hb

theorem Engine.raiseNums (h : Engine p w s t) {logno : Nat} {fs : List NFlags} : Engine p w s (t.raiseNums p logno fs) := by
  have hflags : Engine p w s (Machine.each [0, 1, 2, 3, 4, 8, 9, 10, 11]
      (fun s b => s.raiseNum p b (fs.filter fun f => f.toList.any fun e => e.1 = b && e.2).length) t) := h.each fun _ _ ht => ht.raiseNum
  exact .ite (hflags.recOf fun _ => hflags.modTake) hflags

theorem Engine.vecFlags (h : Engine p w s t) {fs : List (Nat × NFlags)} : Engine p (w.flagged fs) s (t.vecFlags p fs) := by
  have hset : Engine p (w.flagged fs) s (t.modVec p (·.flagged fs)) := h.modVec
  exact hset.raiseNums.each fun _ _ ht => .ite ht ht.offerTile

/-! ### The instruction is done -/

theorem not_nflagField_of_id {g : Field} (hg : g.id ∉ bookFields) {b : Nat} {h : Field} (hb : nflagField b = some h) : g.id ≠ h.id :=
  fun he => hg (he ▸ nflagField_mem_bookFields hb)

/-- A field beside the flags and the event counters. -/
theorem Engine.get (h : Engine p w s t) {f : Field} {i : Nat} (hf : f.id < 1024) (hn : f.id ∉ bookFields) : t.get f i = s.get f i := by
  refine h.regs f i hf ?_
  rintro (⟨-, b, g, hb, hid⟩ | he)
  · exact not_nflagField_of_id hn hb hid
  · exact not_evField_of_notMem_bookFields hn he

theorem Engine.abortPolicy (h : Engine p w s t) (n : Nat) : t.abortPolicy n = s.abortPolicy n := by
  rw [State.abortPolicy, h.get (by decide) (by decide)]
  rfl

/-- An instruction that is done counts, and its routine goes on; nothing else changes. -/
theorem State.vecDone_nins (hr : s.RegsOk) : (s.vecDone p).get F.VEC_NINS_COUNT p = (s.get F.VEC_NINS_COUNT p + 1) % 2 ^ 64 :=
  State.get_setReg_same _ _ _ _ hr

theorem State.vecDone_tile (ht : FMap.wf {} s.tiles = true) : (s.vecDone p).tile p = { s.tile p with vec := (s.tile p).vec.advance } :=
  State.modVec_tile (f := Vec.advance) ht

theorem State.vecDone_tile_ne {q : Nat} (hq : q ≠ p) : (s.vecDone p).tile q = s.tile q := State.modVec_tile_ne (f := Vec.advance) hq

theorem Engine.vecDone_vec (h : Engine p w s t) : ((t.vecDone p).tile p).vec = w.advance := h.modVec.vec

/-- The count of instructions, and nothing else of what the chain keeps, changes as an instruction is done. -/
theorem Engine.vecDone_only (h : Engine p w s t)
    (hw : { w.advance with v := (s.tile p).vec.v, m := (s.tile p).vec.m, sr := (s.tile p).vec.sr, lf := (s.tile p).vec.lf, q := (s.tile p).vec.q
                           pc := (s.tile p).vec.pc, loops := (s.tile p).vec.loops, wait := (s.tile p).vec.wait } = (s.tile p).vec) :
    vecOnly p s (t.vecDone p) := by
  have hnext : Engine p w.advance s (t.modVec p (·.advance)) := h.modVec
  refine ⟨hnext.rest, hnext.other, ?_, ?_, fun g i hg hn => ?_⟩
  · rw [State.vecDone_tile h.tilesOk, h.tile]
  · rw [h.vecDone_vec]
    exact hw
  · rw [State.vecDone, State.bump_eq, State.get_setReg_ne _ _ _ _ _ _ fun he => hn ?_]
    · exact hnext.regs g i hg fun hc => hn (hc.imp_left fun hc => ⟨hc.1, .inr hc.2⟩)
    · obtain ⟨hid, hi⟩ := (Field.key_inj hg (by decide)).1 he
      exact .inl ⟨hi, .inl hid⟩

theorem Engine.vecDone (h : Engine p w s t) (hw : Vec.Moved (s.tile p).vec w) : vecWent p s (t.vecDone p) := by
  refine ⟨h.vecDone_only hw.advance, ?_, ?_, ?_, ?_⟩
  · rw [State.vecDone_nins h.regsOk, h.get (by decide) (by decide)]
  · rw [h.vecDone_vec]
    simp only [Vec.advance, hw.pc, hw.loops]
  · rw [h.vecDone_vec]
    simp only [Vec.advance, hw.pc, hw.loops]
  · rw [h.vecDone_vec]
    rfl

/-- The registers other than `d`, as they stand in the engine. -/
theorem vecOtherRegs_of_vec (hvec : (t.tile p).vec = w.advance)
    (hlane : ∀ r l, r ≠ d → l < 256 → w.lane r l = (s.tile p).vec.lane r l) (hm : w.m = (s.tile p).vec.m) (hsr : w.sr = (s.tile p).vec.sr)
    (hq : w.q = (s.tile p).vec.q) : vecOtherRegs p d s t := by
  unfold vecOtherRegs
  rw [hvec]
  exact ⟨hlane, hm, hsr, hq⟩

/-- A register has been written, and flags of lanes set. -/
theorem vecOtherRegs_putReg {f : Nat → Elem} {fs : List (Nat × NFlags)}
    (hvec : (t.tile p).vec = (((s.tile p).vec.putReg d f).flagged fs).advance) :
    vecOtherRegs p d s t ∧ ∀ l, l < 256 → (t.tile p).vec.lane d l = f l := by
  refine ⟨vecOtherRegs_of_vec hvec (fun r l hr hl => ?_) (Vec.flagged_m _ _) (Vec.flagged_sr _ _) (Vec.flagged_q _ _), fun l hl => ?_⟩
  · rw [Vec.flagged_lane, Vec.lane_putReg _ _ _ _ hl, if_neg hr]
  · rw [hvec, Vec.advance_lane, Vec.flagged_lane, Vec.lane_putReg _ _ _ _ hl, if_pos rfl]

/-! ### Poison -/

theorem State.guardPois_effect {pois : Bool} {f : State → State} (h : pois = false ∨ s.abortPolicy (s.tile p).vec.rig = false) :
    s.guardPois p pois f = f s := by
  rw [State.guardPois, if_neg]
  rintro hc
  rw [Bool.and_eq_true] at hc
  obtain h | h := h
  · exact absurd (hc.1.symm.trans h) (by decide)
  · exact absurd (hc.2.symm.trans h) (by decide)

theorem State.guardPois_stop {pois : Bool} {f : State → State} (hp : pois = true) (ha : s.abortPolicy (s.tile p).vec.rig = true) :
    s.guardPois p pois f = s.vecStop p F.VEC_STAT_ABRT 0x05 := by
  rw [State.guardPois, hp, ha]
  rfl

/-- The routine of tile `p` has stopped with ABRT, while `l` are the call sheets. -/
structure Aborted (p : Nat) (l : List Sheet) (s : State) : Prop where
  abrt : s.get F.VEC_STAT_ABRT p = 1
  idle : (s.tile p).vec.running = false
  sheets : s.sheets = l
  tilesOk : FMap.wf {} s.tiles = true

section
variable {l : List Sheet}

/-- An update that writes neither the register file nor the tiles nor the call sheets. -/
theorem Aborted.of_same (h : Aborted p l t) (hr : u.regs = t.regs) (ht : u.tiles = t.tiles) (hs : u.sheets = t.sheets) : Aborted p l u := by
  obtain ⟨h1, h2, h3, h4⟩ := h
  exact ⟨by simpa only [State.get, hr] using h1, by simpa only [State.tile, ht] using h2, hs.trans h3, ht ▸ h4⟩

theorem Aborted.setReg (h : Aborted p l t) {f : Field} {n i : Nat} (hf : f.id < 1024) (hne : f.id ≠ F.VEC_STAT_ABRT.id) :
    Aborted p l (t.setReg f n i) :=
  ⟨(State.get_setReg_id _ _ _ _ _ _ hf (by decide) hne.symm).trans h.abrt, h.idle, h.sheets, h.tilesOk⟩

theorem Aborted.offer (h : Aborted p l t) {code : Nat} {a : EvAttr} {inc : Nat} : Aborted p l (t.offer code a inc) := by
  refine ⟨?_, ?_, ?_, ?_⟩
  · rw [State.get_offer _ _ _ _ _ _ (by decide) (not_evField_of_notMem_bookFields (by decide))]
    exact h.abrt
  · rw [State.tile, State.offer_tiles]
    exact h.idle
  · rw [State.offer_sheets]
    exact h.sheets
  · rw [State.offer_tiles]
    exact h.tilesOk

/-- An update of a tile that starts no routine. -/
theorem Aborted.modTile (h : Aborted p l t) {q : Nat} {g : Tile → Tile} (hg : ∀ x : Tile, x.vec.running = false → (g x).vec.running = false) :
    Aborted p l (t.modTile q g) := by
  refine ⟨h.abrt, ?_, h.sheets, FMap.wf_upd _ _ _ _ h.tilesOk⟩
  rw [State.tile_modTile h.tilesOk]
  split
  next hq => exact hg _ (hq ▸ h.idle)
  next => exact h.idle

theorem Aborted.modEng (h : Aborted p l t) {q e : Nat} {f : Eng → Eng} : Aborted p l (t.modEng q e f) := h.modTile fun _ hx => hx

theorem Aborted.each {β : Type} (h : Aborted p l t) {k : List β} {f : State → β → State} (hf : ∀ t a, Aborted p l t → Aborted p l (f t a)) :
    Aborted p l (each k f t) := each_ind _ k f t h fun t a _ => hf t a

theorem Aborted.when (h : Aborted p l t) {c : Bool} {f : State → State} (hf : ∀ t, Aborted p l t → Aborted p l (f t)) :
    Aborted p l (when c f t) := when_ind _ c f t h (hf t)

theorem Aborted.ite {c : Prop} [Decidable c] {a b : State} (ha : Aborted p l a) (hb : Aborted p l b) : Aborted p l (if c then a else b) := by
  split
  · exact ha
  · exact hb

theorem Aborted.emit (h : Aborted p l t) {o : Out} : Aborted p l (t.emit o) := h.of_same rfl rfl rfl

theorem Aborted.modLink (h : Aborted p l t) {q : Nat} {f : Link → Link} : Aborted p l (t.modLink q f) := h.of_same rfl rfl rfl

theorem Aborted.startAct (h : Aborted p l t) {a : Act} : Aborted p l (t.startAct a) := by
  have hacts : Aborted p l { t with acts := t.acts ++ [a] } := h.of_same rfl rfl rfl
  have hchan : Aborted p l { t with acts := t.acts ++ [a], chans := t.chans.upd {} a.arg fun x => { x with cp := 0 } } := h.of_same rfl rfl rfl
  unfold State.startAct State.linkState State.sendSets
  refine .ite ?_ (.ite (.each ?_ fun _ _ hv => hv.emit) hacts)
  · exact ((hchan.setReg (by decide) (by decide)).setReg (by decide) (by decide)).when fun _ hv => hv.setReg (by decide) (by decide)
  · exact .ite (hacts.modLink.setReg (by decide) (by decide)) (.ite (hacts.modLink.setReg (by decide) (by decide)) hacts.modLink)

theorem Aborted.wantCommit (h : Aborted p l t) {c : Commit} : Aborted p l (t.wantCommit c) := by
  unfold State.wantCommit State.requestAct
  refine Aborted.setReg (.ite (Aborted.offer ?_) (Aborted.startAct ?_)) (by decide) (by decide)
  · exact h.of_same rfl rfl rfl
  · exact h.of_same rfl rfl rfl

theorem Aborted.journal (h : Aborted p l t) {typ ukind unit : Nat} {data : List Byte} : Aborted p l (t.journal typ ukind unit data) := by
  unfold State.journal
  refine .ite (Aborted.wantCommit ?_) ?_
  · exact h.of_same rfl rfl rfl
  · exact h.of_same rfl rfl rfl

theorem Aborted.spareIn (h : Aborted p l t) {kind ukind unit failed by_ : Nat} : Aborted p l (t.spareIn kind ukind unit failed by_) := by
  have hcount : Aborted p l ((t.bump F.TWN_NSUB_COUNT).flCount (732 + kind)) :=
    Aborted.of_same (Aborted.setReg h (by decide) (by decide)) rfl rfl rfl
  unfold State.spareIn
  exact .ite hcount.journal.offer hcount.journal.offer

theorem emapField_id (e : Nat) : (emapField e).id < 1024 ∧ (emapField e).id ≠ F.VEC_STAT_ABRT.id := by
  unfold emapField
  split
  all_goals decide

theorem Aborted.engineSpare (h : Aborted p l t) {q e : Nat} : Aborted p l (t.engineSpare q e) := by
  unfold State.engineSpare
  exact .ite (((h.setReg (emapField_id e).1 (emapField_id e).2).setReg (by decide) (by decide)).setReg (by decide) (by decide)).spareIn h

theorem Aborted.startGen (h : Aborted p l t) {q e : Nat} {g : Gen} : Aborted p l (t.startGen q e g) :=
  h.engineSpare.modEng.setReg (by decide) (by decide)

theorem Aborted.promote (h : Aborted p l t) {q e : Nat} : Aborted p l (t.promote q e) := by
  unfold State.promote
  refine Aborted.modEng ?_
  split
  · exact .ite h h.modEng.startGen
  · exact h.modEng
  · exact h

theorem Aborted.unwait (h : Aborted p l t) {q k : Nat} : Aborted p l (t.unwait q k) := h.of_same rfl rfl rfl

theorem Aborted.dropTile (h : Aborted p l t) {logno q : Nat} : Aborted p l (t.dropTile logno q) := by
  refine ((h.when fun _ hv => hv.unwait).each fun _ _ hv => (hv.modEng.when fun _ hv => hv.unwait).promote).modTile fun x hx => ?_
  rw [Tile.dropTask, hx]
  rfl

theorem Aborted.dropUnsent (h : Aborted p l t) {logno : Nat} : Aborted p l (t.dropUnsent logno) :=
  (h.each fun _ _ hv => hv.modLink).each fun _ _ hv => hv.of_same rfl rfl rfl

end

/-- The call sheet that a change of one sheet gives. -/
theorem State.sheet_modSheet {logno : Nat} {f : Sheet → Sheet} (hf : ∀ x : Sheet, (f x).logno = x.logno) :
    (s.modSheet logno f).sheet logno = (s.sheet logno).map f := by
  unfold State.sheet State.modSheet
  induction s.sheets with
  | nil => rfl
  | cons x l ih =>
    rw [List.map_cons]
    by_cases hx : x.logno = logno
    · rw [if_pos hx, List.find?_cons_of_pos (by simpa only [hf, decide_eq_true_eq] using hx), List.find?_cons_of_pos (by simpa using hx)]
      rfl
    · rw [if_neg hx, List.find?_cons_of_neg (by simpa using hx), List.find?_cons_of_neg (by simpa using hx)]
      exact ih

theorem State.recOf_recAbort (s : State) (logno : Nat) : ∃ rigs, s.recOf logno State.recAbort = { s with rigs := rigs } := by
  unfold State.recOf
  split
  · exact ⟨_, rfl⟩
  · exact ⟨_, rfl⟩

/-- The end of an abort: the call sheet ends and the take's record says so. -/
theorem Aborted.ended {l : List Sheet} (h : Aborted p l t) {logno status : Nat} {f : Sheet → Sheet} (hlog : ∀ x : Sheet, (f x).logno = x.logno)
    (hstatus : ∀ x : Sheet, (f x).status = some (x.status.getD status)) :
    ((t.modSheet logno f).recOf logno State.recAbort).get F.VEC_STAT_ABRT p = 1
      ∧ (((t.modSheet logno f).recOf logno State.recAbort).tile p).vec.running = false
      ∧ ∀ x, t.sheet logno = some x → x.status = none →
          (((t.modSheet logno f).recOf logno State.recAbort).sheet logno).map (·.status) = some (some status) := by
  obtain ⟨rigs, hrec⟩ := (t.modSheet logno f).recOf_recAbort logno
  rw [hrec]
  refine ⟨h.abrt, h.idle, fun x hx hnone => ?_⟩
  have hsheet : (t.modSheet logno f).sheet logno = some (f x) := by rw [State.sheet_modSheet hlog, hx]; rfl
  have hend : ((t.modSheet logno f).sheet logno).map (·.status) = some (some status) := by rw [hsheet, Option.map_some, hstatus, hnone]; rfl
  exact hend

/-- What an abort of a task makes of a routine that has stopped and of the task's call sheet (R146). -/
theorem Aborted.abortTask {l : List Sheet} (h : Aborted p l t) {logno status detail : Nat} {lead : Option Nat} :
    (t.abortTask logno status detail lead).get F.VEC_STAT_ABRT p = 1
      ∧ ((t.abortTask logno status detail lead).tile p).vec.running = false
      ∧ ∀ x, t.sheet logno = some x → x.status = none →
          ((t.abortTask logno status detail lead).sheet logno).map (·.status) = some (some status) := by
  unfold State.abortTask
  split
  next hn => exact ⟨h.abrt, h.idle, fun x hx => nomatch hn.symm.trans hx⟩
  next x hx =>
    have hdrop : Aborted p l (Machine.each (t.rigTiles x.rig) (fun s p => s.dropTile logno p) t) := h.each fun _ _ hv => hv.dropTile
    have hcolls : Aborted p l { (Machine.each (t.rigTiles x.rig) (fun s p => s.dropTile logno p) t) with
        colls := (Machine.each (t.rigTiles x.rig) (fun s p => s.dropTile logno p) t).colls.filter fun c => !(c.rig.isNone && c.logno = logno) } :=
      hdrop.of_same rfl rfl rfl
    obtain ⟨habrt, hidle, hend⟩ := (hcolls.dropUnsent (logno := logno)).ended (logno := logno) (status := status)
      (f := fun h => { h with status := some (h.status.getD status), detail := if h.status.isNone then detail else h.detail
                              fpart := min h.fpart (match lead with | some l => x.parts.findIdx (·.lead = l) | none => 0xFF), stopped := true
                              parts := h.parts.map fun q => { q with segsLeft := 0, routLeft := 0, rowsLeft := 0, gens := 0 } })
      (fun _ => rfl) fun _ => rfl
    refine ⟨habrt, hidle, fun y hy hnone => hend y ?_ hnone⟩
    rw [State.sheet, hcolls.dropUnsent.sheets, ← h.sheets]
    exact hy

/-- A routine that runs no more. -/
def Vec.halted (v : Vec) : Vec := { v with running := false, wait := 0 }

/-- Poison under the abort policy (R111): the routine has stopped with ABRT, and its call sheet ends with the poison abort. -/
theorem State.vecStop_abrt (hr : s.RegsOk) (ht : FMap.wf {} s.tiles = true) :
    (s.vecStop p F.VEC_STAT_ABRT 0x05).get F.VEC_STAT_ABRT p = 1 ∧ ((s.vecStop p F.VEC_STAT_ABRT 0x05).tile p).vec.running = false
      ∧ ∀ x, s.sheet (s.tile p).vec.task.logno = some x → x.status = none →
          ((s.vecStop p F.VEC_STAT_ABRT 0x05).sheet (s.tile p).vec.task.logno).map (·.status) = some (some 0x05) := by
  have hflag : (s.raiseFlag F.VEC_STAT_ABRT p).get F.VEC_STAT_ABRT p = 1 := State.get_setReg_same _ _ _ _ hr
  have hcount : ((s.raiseFlag F.VEC_STAT_ABRT p).bump F.VEC_NINS_COUNT 1 p).get F.VEC_STAT_ABRT p = 1 :=
    (State.get_setReg_id _ _ _ _ _ _ (by decide) (by decide) (by decide)).trans hflag
  have hstop : Aborted p s.sheets (((s.raiseFlag F.VEC_STAT_ABRT p).bump F.VEC_NINS_COUNT 1 p).modVec p Vec.halted) := by
    unfold State.modVec
    refine ⟨hcount, ?_, rfl, State.modTile_tilesOk ht⟩
    exact congrArg (fun x : Tile => x.vec.running) (State.tile_modTile_same (s := (s.raiseFlag F.VEC_STAT_ABRT p).bump F.VEC_NINS_COUNT 1 p) ht)
  unfold State.vecStop
  exact hstop.abortTask

end Sys2Proof.Machine
end

section
/-! ## The lane instructions (R106, R107, R109, R111)

Each of them is `vecLanes` with its own function: `laneOp_exec` reads this off for every instruction, and what `vecLanes` makes of the
registers is shown once. -/

namespace Sys2Proof.Machine

variable {p : Nat} {s s₀ : State} {o : VOp} {pois : Nat → Bool} {f : Nat → Nat × NFlags}

/-- What an active lane of the result becomes, and an inactive one (R107). -/
def Vec.laneResult (v : Vec) (o : VOp) (pois : Nat → Bool) (val : Nat → Nat) (l : Nat) : Elem :=
  if v.active o.msk l then { v := BitVec.ofNat 32 (val l), p := pois l } else if o.mz = 1 then {} else v.lane o.d l

/-- The lanes of `rs` written into vD, the others after MZ. -/
def Vec.putLanes (o : VOp) (pois : Nat → Bool) (rs : FMap (Nat × NFlags)) (v : Vec) : Vec :=
  v.putReg o.d fun l => match rs.lookup l with
    | some r => { v := BitVec.ofNat 32 r.1, p := pois l }
    | none => if o.mz = 1 then {} else v.lane o.d l

/-- The values of the active lanes. -/
def Vec.activeResults (v : Vec) (msk : Nat) (f : Nat → Nat × NFlags) : FMap (Nat × NFlags) := (v.actives msk).map fun l => (l, f l)

theorem State.vecLanes_eq (s : State) (p : Nat) (o : VOp) (pois : Nat → Bool) (f : Nat → Nat × NFlags) :
    s.vecLanes p o pois f = s.guardPois p (((s.tile p).vec.actives o.msk).any pois) fun u =>
      ((u.modVec p (Vec.putLanes o pois ((s.tile p).vec.activeResults o.msk f))).vecFlags p
        (((s.tile p).vec.activeResults o.msk f).map fun r => (r.1, r.2.2))).vecDone p := rfl

/-- No active lane reads poison. -/
theorem Vec.any_actives_false {v : Vec} {msk : Nat} {q : Nat → Bool} (h : ∀ l, l < 256 → v.active msk l = true → q l = false) :
    (v.actives msk).any q = false := by
  rw [List.any_eq_false]
  intro l hl
  obtain ⟨hlt, hact⟩ := Vec.mem_actives.1 hl
  simp [h l hlt hact]

/-- The entry of a lane in a list of the active ones. -/
theorem Vec.lookup_actives {α : Type} (v : Vec) (msk : Nat) (g : Nat → α) {l : Nat} (hl : l < 256) :
    FMap.lookup ((v.actives msk).map fun k => (k, g k)) l = if v.active msk l = true then some (g l) else none := by
  rw [FMap.lookup_map]
  simp only [Vec.mem_actives, hl, true_and]

/-- A lane instruction without an abort: from `s₀`, where at most the number of free values drawn has changed. -/
theorem vecLanes_done (h : Engine p (s₀.tile p).vec s₀ s)
    (hpois : (∀ l, l < 256 → (s₀.tile p).vec.active o.msk l = true → pois l = false) ∨ s₀.abortPolicy (s₀.tile p).vec.rig = false) :
    vecWent p s₀ (s.vecLanes p o pois f) ∧ vecOtherRegs p o.d s₀ (s.vecLanes p o pois f)
      ∧ ∀ l, l < 256 → ((s.vecLanes p o pois f).tile p).vec.lane o.d l = (s₀.tile p).vec.laneResult o pois (fun l => (f l).1) l := by
  have hvec := h.vec
  have hchain := (h.modVec (f := Vec.putLanes o pois ((s₀.tile p).vec.activeResults o.msk f))).vecFlags
    (fs := ((s₀.tile p).vec.activeResults o.msk f).map fun r => (r.1, r.2.2))
  rw [State.vecLanes_eq, State.guardPois_effect, hvec]
  · obtain ⟨hother, hlane⟩ := vecOtherRegs_putReg (s := s₀) hchain.vecDone_vec
    refine ⟨hchain.vecDone (Vec.Moved.refl _).putReg.flagged, hother, fun l hl => (hlane l hl).trans ?_⟩
    rw [Vec.activeResults, Vec.lookup_actives _ _ _ hl, Vec.laneResult]
    by_cases hact : (s₀.tile p).vec.active o.msk l = true
    · rw [if_pos hact, if_pos hact]
    · rw [if_neg hact, if_neg hact]
  · rw [hvec, h.abortPolicy]
    exact hpois.imp_left Vec.any_actives_false

/-- Poison in an active lane under the abort policy. -/
theorem vecLanes_stop (hex : ∃ l, l < 256 ∧ (s.tile p).vec.active o.msk l = true ∧ pois l = true)
    (ha : s.abortPolicy (s.tile p).vec.rig = true) : s.vecLanes p o pois f = s.vecStop p F.VEC_STAT_ABRT 0x05 :=
  (s.vecLanes_eq p o pois f).trans (State.guardPois_stop (Vec.any_actives.2 hex) ha)

theorem lanes_of_exec {c : Instr} {x : LaneOp} {u : State} {f : Nat → Nat × NFlags} (hexec : exec c s = .next u)
    (hu : u = s.vecLanes x.p x.o x.pois f) (hval : ∀ l, (f l).1 = x.val l) :
    ∃ s' f, exec c s = .next (s'.vecLanes x.p x.o x.pois f) ∧ (∀ l, (f l).1 = x.val l) ∧ (s' = s ∨ s' = s.spend) :=
  ⟨s, f, hexec.trans (congrArg _ hu), hval, .inl rfl⟩

/-- A function whose result is free within a bound draws a free value first (R116). -/
theorem lanes_of_exec_spend {c : Instr} {x : LaneOp} {u : State} {f : Nat → Nat × NFlags} (hexec : exec c s = .next u)
    (hu : u = s.spend.vecLanes x.p x.o x.pois f) (hval : ∀ l, (f l).1 = x.val l) :
    ∃ s' f, exec c s = .next (s'.vecLanes x.p x.o x.pois f) ∧ (∀ l, (f l).1 = x.val l) ∧ (s' = s ∨ s' = s.spend) :=
  ⟨s.spend, f, hexec.trans (congrArg _ hu), hval, .inr rfl⟩

/-- Every lane instruction is `vecLanes` with the poison and the values that `laneOp` names, here or after a free value is drawn. -/
theorem laneOp_exec {c : Instr} {x : LaneOp} (hx : laneOp s c = some x) (hissue : s.issues x.p x.word = true) :
    ∃ s' f, exec c s = .next (s'.vecLanes x.p x.o x.pois f) ∧ (∀ l, (f l).1 = x.val l) ∧ (s' = s ∨ s' = s.spend) := by
  unfold laneOp at hx
  split at hx
  case h_20 => exact nomatch hx
  case h_14 p o =>
    by_cases hsub : o.sub = 3
    · rw [if_pos hsub] at hx
      obtain rfl := Option.some.inj hx
      exact lanes_of_exec (exec_of_issues (e := execFsgn p o) hissue rfl rfl) (if_pos hsub) fun _ => rfl
    · rw [if_neg hsub] at hx
      obtain rfl := Option.some.inj hx
      exact lanes_of_exec (exec_of_issues (e := execFsgn p o) hissue rfl rfl) (if_neg hsub) fun _ => rfl
  all_goals obtain rfl := Option.some.inj hx
  case h_1 p o => exact lanes_of_exec (exec_of_issues (e := execFadd p o) hissue rfl rfl) rfl fun _ => rfl
  case h_2 p o => exact lanes_of_exec (exec_of_issues (e := execFsub p o) hissue rfl rfl) rfl fun _ => rfl
  case h_3 p o => exact lanes_of_exec (exec_of_issues (e := execFmul p o) hissue rfl rfl) rfl fun _ => rfl
  case h_4 p o => exact lanes_of_exec (exec_of_issues (e := execFma p o) hissue rfl rfl) rfl fun _ => rfl
  case h_5 p o => exact lanes_of_exec_spend (exec_of_issues (e := execFdiv p o) hissue rfl rfl) rfl fun _ => rfl
  case h_6 p o => exact lanes_of_exec (exec_of_issues (e := execFmax p o) hissue rfl rfl) rfl fun _ => rfl
  case h_7 p o => exact lanes_of_exec (exec_of_issues (e := execFmin p o) hissue rfl rfl) rfl fun _ => rfl
  case h_8 p o => exact lanes_of_exec_spend (exec_of_issues (e := execFsqrt p o) hissue rfl rfl) rfl fun _ => rfl
  case h_9 p o => exact lanes_of_exec_spend (exec_of_issues (e := execFrsq p o) hissue rfl rfl) rfl fun _ => rfl
  case h_10 p o => exact lanes_of_exec_spend (exec_of_issues (e := execFrcp p o) hissue rfl rfl) rfl fun _ => rfl
  case h_11 p o => exact lanes_of_exec_spend (exec_of_issues (e := execFexp p o) hissue rfl rfl) rfl fun _ => rfl
  case h_12 p o => exact lanes_of_exec_spend (exec_of_issues (e := execFlog p o) hissue rfl rfl) rfl fun _ => rfl
  case h_13 p o => exact lanes_of_exec_spend (exec_of_issues (e := execFtanh p o) hissue rfl rfl) rfl fun _ => rfl
  case h_15 p o => exact lanes_of_exec (exec_of_issues (e := execMov p o) hissue rfl rfl) rfl fun _ => rfl
  case h_16 p o => exact lanes_of_exec (exec_of_issues (e := execExpd p o) hissue rfl rfl) rfl fun _ => rfl
  case h_17 p o => exact lanes_of_exec (exec_of_issues (e := execFold p o) hissue rfl rfl) rfl fun _ => rfl
  case h_18 p o => exact lanes_of_exec (exec_of_issues (e := execCvt p o) hissue rfl rfl) rfl fun _ => rfl
  case h_19 p o => exact lanes_of_exec (exec_of_issues (e := execQdq p o) hissue rfl rfl) rfl fun _ => rfl

/-- Settles O34: every lane instruction is `vecLanes`, which has its effect on the lanes or stops the routine. -/
theorem vectorLaneInstructions : Obligations.VectorLaneInstructions := by
  intro c s x hx hr ht hissue
  obtain ⟨s', f, hexec, hval, hs'⟩ := laneOp_exec hx hissue
  have hfrom : Engine x.p (s.tile x.p).vec s s' := by
    obtain rfl | rfl := hs'
    · exact Engine.refl hr ht
    · exact (Engine.refl hr ht).spend
  have hfun : (fun l => (f l).1) = x.val := funext hval
  refine ⟨fun hpois => ?_, fun hpois habort => ?_⟩
  · obtain ⟨hwent, hother, hlane⟩ := vecLanes_done (f := f) hfrom hpois
    exact ⟨_, hexec, hwent, hother, fun l hl => (hlane l hl).trans (by rw [hfun]; rfl)⟩
  · have hstop : s'.vecLanes x.p x.o x.pois f = s'.vecStop x.p F.VEC_STAT_ABRT 0x05 := by
      refine vecLanes_stop ?_ ?_
      · rw [hfrom.vec]
        exact hpois
      · rw [hfrom.vec, hfrom.abortPolicy]
        exact habort
    have hend := State.vecStop_abrt (p := x.p) hfrom.regsOk hfrom.tilesOk
    rw [hfrom.vec, ← hstop] at hend
    have hsheet : s'.sheet = s.sheet := by
      obtain rfl | rfl := hs'
      · rfl
      · rfl
    rw [hsheet] at hend
    exact ⟨_, hexec, hend⟩

end Sys2Proof.Machine
end

section
/-! ## Masks, compares, compress and reductions (R106, R107, R109, R111 to R113, R115)

What an instruction has written stands in the engine: a mask, a scalar, a vector register, or lane flags alone. One lemma for each says what an
instruction that ends so has done; the instructions are then read off their meanings. -/

namespace Sys2Proof.Machine

/-! ### Masks and scalars -/

namespace Vec

theorem sum_bits_lt (f : Nat → Bool) (n : Nat) : ((List.range n).map fun l => if f l then 2 ^ l else 0).sum < 2 ^ n := by
  induction n with
  | zero => simp
  | succ n ih =>
    rw [List.range_succ, List.map_append, List.sum_append, Nat.pow_succ]
    have hbit : (List.map (fun l => if f l then 2 ^ l else 0) [n]).sum ≤ 2 ^ n := by
      rw [List.map_singleton, List.sum_singleton]
      split
      · exact Nat.le_refl _
      · exact Nat.zero_le _
    omega

/-- The bits of a mask that is written as a sum. -/
theorem testBit_sum_bits (f : Nat → Bool) (n l : Nat) :
    (((List.range n).map fun l => if f l then 2 ^ l else 0).sum).testBit l = (decide (l < n) && f l) := by
  induction n with
  | zero => simp
  | succ n ih =>
    have hlt := sum_bits_lt f n
    have hor : ((List.range (n + 1)).map fun l => if f l then 2 ^ l else 0).sum
        = 2 ^ n * (f n).toNat ||| ((List.range n).map fun l => if f l then 2 ^ l else 0).sum := by
      rw [← Nat.two_pow_add_eq_or_of_lt hlt, List.range_succ, List.map_append, List.sum_append, List.map_singleton, List.sum_singleton, Nat.add_comm]
      cases f n <;> simp
    have htop : (2 ^ n * (f n).toNat).testBit l = (decide (l = n) && f n) := by
      cases f n with
      | false => simp
      | true => simp [Nat.testBit_two_pow, eq_comm]
    rw [hor, Nat.testBit_or, ih, htop]
    obtain h | rfl | h := Nat.lt_trichotomy l n
    · simp [h, Nat.ne_of_lt h, Nat.lt_succ_of_lt h]
    · simp
    · simp [Nat.not_lt.2 (Nat.le_of_lt h), Nat.ne_of_gt h, Nat.not_lt.2 (Nat.succ_le_of_lt h)]

theorem getLsbD_sum_bits (f : Nat → Bool) {l : Nat} (hl : l < 256) :
    (BitVec.ofNat 256 (((List.range 256).map fun l => if f l then 2 ^ l else 0).sum)).getLsbD l = f l := by
  rw [BitVec.getLsbD_ofNat, testBit_sum_bits]
  simp [hl]

theorem maskAt_putMask_same {v : Vec} (hm : FMap.wf 0 v.m = true) {d l : Nat} (f : Nat → Bool) (hd : d % 8 ≠ 0) (hl : l < 256) :
    ((v.putMask d f).maskAt d).getLsbD l = f l := by
  rw [maskAt, if_neg hd, putMask, if_neg hd, FMap.get_set _ _ _ _ _ hm, if_pos rfl, getLsbD_sum_bits f hl]

theorem maskAt_putMask_ne (v : Vec) {d k : Nat} (f : Nat → Bool) (hk : k % 8 ≠ d % 8) : (v.putMask d f).maskAt k = v.maskAt k := by
  unfold putMask
  split
  · rfl
  · rw [maskAt, maskAt, FMap.get_set_ne _ _ _ _ _ hk]

theorem putMask_zero (v : Vec) {d : Nat} (f : Nat → Bool) (hd : d % 8 = 0) : v.putMask d f = v := if_pos hd

@[simp] theorem putMask_v (v : Vec) (d : Nat) (f : Nat → Bool) : (v.putMask d f).v = v.v := by
  unfold putMask
  split
  · rfl
  · rfl
@[simp] theorem putMask_sr (v : Vec) (d : Nat) (f : Nat → Bool) : (v.putMask d f).sr = v.sr := by
  unfold putMask
  split
  · rfl
  · rfl
@[simp] theorem putMask_q (v : Vec) (d : Nat) (f : Nat → Bool) : (v.putMask d f).q = v.q := by
  unfold putMask
  split
  · rfl
  · rfl

theorem scalar_putScalar_same {v : Vec} (hs : FMap.wf 0 v.sr = true) (i n : Nat) : (v.putScalar i n).scalar i = n % 2 ^ 32 := by
  rw [scalar, putScalar, FMap.get_set _ _ _ _ _ hs, if_pos rfl, BitVec.toNat_ofNat]

theorem scalar_putScalar_ne (v : Vec) {i k : Nat} (n : Nat) (hk : k % 32 ≠ i % 32) : (v.putScalar i n).scalar k = v.scalar k := by
  rw [scalar, scalar, putScalar, FMap.get_set_ne _ _ _ _ _ hk]

/-- Where no lane is poisoned, no second operand is. -/
theorem opB_p {v : Vec} (h : ∀ r l, (v.lane r l).p = false) (o : VOp) (l : Nat) : (v.opB o l).p = false := by
  unfold opB
  split
  · exact h _ _
  · exact h _ _
  · exact h _ _
  · rfl

end Vec

/-! ### The ends of an instruction -/

variable {p d : Nat} {o : VOp} {s t u : State} {fs : List (Nat × NFlags)}

/-- A vector register has been written. -/
theorem Engine.regDone {f : Nat → Elem} (h : Engine p (((s.tile p).vec.putReg d f).flagged fs) s u) :
    vecWent p s (u.vecDone p) ∧ vecOtherRegs p d s (u.vecDone p) ∧ ∀ l, l < 256 → ((u.vecDone p).tile p).vec.lane d l = f l :=
  ⟨h.vecDone (Vec.Moved.refl _).putReg.flagged, vecOtherRegs_putReg h.vecDone_vec⟩

/-- At most lane flags have been set: no register is named by 64. -/
theorem Engine.flagsDone (h : Engine p ((s.tile p).vec.flagged fs) s u) : vecWent p s (u.vecDone p) ∧ vecOtherRegs p 64 s (u.vecDone p) :=
  ⟨h.vecDone (Vec.Moved.refl _).flagged, vecOtherRegs_of_vec h.vecDone_vec (fun _ _ _ _ => Vec.flagged_lane _ _ _ _) (Vec.flagged_m _ _)
    (Vec.flagged_sr _ _) (Vec.flagged_q _ _)⟩

/-- Mask `d` holds the bits `f`, unless it is m0; no other mask and no register has changed. -/
def maskWritten (p d : Nat) (f : Nat → Bool) (s t : State) : Prop :=
  (∀ l, l < 256 → d % 8 ≠ 0 → ((t.tile p).vec.maskAt d).getLsbD l = f l) ∧ (d % 8 = 0 → (t.tile p).vec.m = (s.tile p).vec.m)
    ∧ (∀ k, k % 8 ≠ d % 8 → (t.tile p).vec.maskAt k = (s.tile p).vec.maskAt k) ∧ (t.tile p).vec.v = (s.tile p).vec.v
    ∧ (t.tile p).vec.sr = (s.tile p).vec.sr ∧ (t.tile p).vec.q = (s.tile p).vec.q

/-- A mask has been written: only the lanes that it has count. -/
theorem Engine.maskDone {f g : Nat → Bool} (hm : FMap.wf 0 (s.tile p).vec.m = true) (h : Engine p (((s.tile p).vec.putMask d f).flagged fs) s u)
    (hf : ∀ l, l < 256 → f l = g l) : vecWent p s (u.vecDone p) ∧ maskWritten p d g s (u.vecDone p) := by
  have hmask : ∀ k, (((s.tile p).vec.putMask d f).flagged fs).advance.maskAt k = ((s.tile p).vec.putMask d f).maskAt k := fun k => by
    rw [Vec.maskAt, Vec.maskAt]
    exact congrArg (fun m : FMap (BitVec 256) => if k % 8 = 0 then BitVec.allOnes 256 else m.get 0 (k % 8)) (Vec.flagged_m _ fs)
  refine ⟨h.vecDone (Vec.Moved.refl _).putMask.flagged, ?_⟩
  unfold maskWritten
  rw [h.vecDone_vec]
  refine ⟨fun l hl hd => ?_, fun hd => ?_, fun k hk => ?_, ?_, ?_, ?_⟩
  · rw [hmask, Vec.maskAt_putMask_same hm f hd hl, hf l hl]
  · exact (Vec.flagged_m _ fs).trans (congrArg Vec.m (Vec.putMask_zero _ f hd))
  · rw [hmask, Vec.maskAt_putMask_ne _ f hk]
  · exact (Vec.flagged_v _ fs).trans (Vec.putMask_v _ _ _)
  · exact (Vec.flagged_sr _ fs).trans (Vec.putMask_sr _ _ _)
  · exact (Vec.flagged_q _ fs).trans (Vec.putMask_q _ _ _)

/-- Scalar `d` holds `n`; no other scalar and no other register has changed. -/
def scalarWritten (p d n : Nat) (s t : State) : Prop :=
  (t.tile p).vec.v = (s.tile p).vec.v ∧ (t.tile p).vec.m = (s.tile p).vec.m ∧ (t.tile p).vec.q = (s.tile p).vec.q
    ∧ (t.tile p).vec.scalar d = n % 2 ^ 32 ∧ ∀ k, k % 32 ≠ d % 32 → (t.tile p).vec.scalar k = (s.tile p).vec.scalar k

/-- A scalar has been written. -/
theorem Engine.scalarDone {n : Nat} (hsr : FMap.wf 0 (s.tile p).vec.sr = true) (h : Engine p (((s.tile p).vec.putScalar d n).flagged fs) s u) :
    vecWent p s (u.vecDone p) ∧ scalarWritten p d n s (u.vecDone p) := by
  have hscalar : ∀ k, (((s.tile p).vec.putScalar d n).flagged fs).advance.scalar k = ((s.tile p).vec.putScalar d n).scalar k := fun k =>
    congrArg (fun m : FMap Word => (m.get 0 (k % 32)).toNat) (Vec.flagged_sr _ fs)
  refine ⟨h.vecDone (Vec.Moved.refl _).putScalar.flagged, ?_⟩
  unfold scalarWritten
  rw [h.vecDone_vec]
  refine ⟨Vec.flagged_v _ fs, Vec.flagged_m _ fs, Vec.flagged_q _ fs, ?_, fun k hk => ?_⟩
  · rw [hscalar, Vec.scalar_putScalar_same hsr]
  · rw [hscalar, Vec.scalar_putScalar_ne _ _ hk]

/-- No flag set is a flagging too: the ends serve an instruction that sets none. -/
theorem Engine.noFlags {w : Vec} (h : Engine p w s u) : Engine p (w.flagged []) s u := h

/-- An instruction that writes a vector register and sets no flag. -/
theorem putReg_done (hr : s.RegsOk) (ht : FMap.wf {} s.tiles = true) (f : Nat → Elem) :
    vecWent p s ((s.modVec p fun v => v.putReg d f).vecDone p) ∧ vecOtherRegs p d s ((s.modVec p fun v => v.putReg d f).vecDone p)
      ∧ ∀ l, l < 256 → (((s.modVec p fun v => v.putReg d f).vecDone p).tile p).vec.lane d l = f l := by
  have hchain := (Engine.refl (p := p) hr ht).modVec (f := fun v => v.putReg d f)
  exact hchain.noFlags.regDone

/-- An instruction that writes a scalar and sets no flag. -/
theorem putScalar_done (hr : s.RegsOk) (ht : FMap.wf {} s.tiles = true) (hsr : FMap.wf 0 (s.tile p).vec.sr = true) (f : Vec → Nat) :
    vecWent p s ((s.modVec p fun v => v.putScalar d (f v)).vecDone p)
      ∧ scalarWritten p d (f (s.tile p).vec) s ((s.modVec p fun v => v.putScalar d (f v)).vecDone p) := by
  have hchain := (Engine.refl (p := p) hr ht).modVec (f := fun v => v.putScalar d (f v))
  exact hchain.noFlags.scalarDone hsr

/-! ### Masks -/

/-- The bits of the active lanes written into mD, the others after MZ. -/
def Vec.putMaskLanes (o : VOp) (rs : FMap (Bool × NFlags)) (v : Vec) : Vec :=
  v.putMask o.d fun l => match rs.lookup l with
    | some r => r.1
    | none => o.mz = 0 && (v.maskAt o.d).getLsbD l

theorem State.vecMask_eq (s : State) (p : Nat) (o : VOp) (pois : Nat → Bool) (f : Nat → Bool × NFlags) :
    s.vecMask p o pois f = s.guardPois p (((s.tile p).vec.actives o.msk).any pois) fun u =>
      ((u.modVec p (Vec.putMaskLanes o (((s.tile p).vec.actives o.msk).map fun l => (l, f l)))).vecFlags p
        ((((s.tile p).vec.actives o.msk).map fun l => (l, f l)).map fun r => (r.1, r.2.2))).vecDone p := rfl

/-- A mask instruction without an abort. -/
theorem vecMask_done (hr : s.RegsOk) (ht : FMap.wf {} s.tiles = true) (hm : FMap.wf 0 (s.tile p).vec.m = true) {pois : Nat → Bool}
    {f : Nat → Bool × NFlags} (hpois : (∀ l, pois l = false) ∨ s.abortPolicy (s.tile p).vec.rig = false) :
    vecWent p s (s.vecMask p o pois f) ∧ maskWritten p o.d
      (fun l => if (s.tile p).vec.active o.msk l then (f l).1 else o.mz = 0 && ((s.tile p).vec.maskAt o.d).getLsbD l) s (s.vecMask p o pois f) := by
  rw [State.vecMask_eq, State.guardPois_effect (hpois.imp_left fun h => Vec.any_actives_false fun l _ _ => h l)]
  refine Engine.maskDone hm ((Engine.refl hr ht).modVec (f := Vec.putMaskLanes o _)).vecFlags fun l hl => ?_
  rw [Vec.lookup_actives _ _ _ hl]
  by_cases hact : (s.tile p).vec.active o.msk l = true
  · rw [if_pos hact, if_pos hact]
  · rw [if_neg hact, if_neg hact]

/-- MLOG and MFIRST write every lane. -/
theorem putMask_done (hr : s.RegsOk) (ht : FMap.wf {} s.tiles = true) (hm : FMap.wf 0 (s.tile p).vec.m = true) {f : Vec → Nat → Bool}
    {g keep : Nat → Bool} (hfg : ∀ l, l < 256 → f (s.tile p).vec l = g l) :
    vecWent p s ((s.modVec p fun v => v.putMask d (f v)).vecDone p)
      ∧ maskWritten p d (fun l => if (s.tile p).vec.active 0 l then g l else keep l) s ((s.modVec p fun v => v.putMask d (f v)).vecDone p) := by
  have hchain := (Engine.refl (p := p) hr ht).modVec (f := fun v => v.putMask d (f v))
  refine Engine.maskDone (f := f (s.tile p).vec) (fs := []) hm hchain.noFlags fun l hl => ?_
  have hact : (s.tile p).vec.active 0 l = true := by
    rw [Vec.active, Vec.maskAt, if_pos rfl, BitVec.getLsbD_allOnes]
    exact decide_eq_true hl
  rw [if_pos hact, hfg l hl]

/-- The bits of MLOG's operations. -/
theorem mlog_bit (sub : Nat) (a b : BitVec 256) (l : Nat) (hl : l < 256) :
    (match sub with
      | 0 => a &&& b
      | 1 => a ||| b
      | 2 => a ^^^ b
      | _ => a &&& ~~~b).getLsbD l
    = if sub = 0 then a.getLsbD l && b.getLsbD l else if sub = 1 then a.getLsbD l || b.getLsbD l
      else if sub = 2 then a.getLsbD l != b.getLsbD l else a.getLsbD l && !b.getLsbD l := by
  split
  · simp
  · simp
  · simp
  · simp_all

/-! ### Lane flags -/

theorem get_each_set_zero (l : List Nat) {m : FMap Nat} (hm : FMap.wf 0 m = true) (i : Nat) :
    (each l (fun m k => m.set 0 k 0) m).get 0 i = if i ∈ l then 0 else m.get 0 i := by
  induction l generalizing m with
  | nil => simp
  | cons k l ih =>
    rw [each_cons, ih (FMap.wf_set _ _ _ _ hm), FMap.get_set _ _ _ _ _ hm]
    by_cases hi : i ∈ l
    · simp [hi]
    · simp [hi]

/-- FLGM with bit 5 of D. -/
theorem flgm_clear (hr : s.RegsOk) (ht : FMap.wf {} s.tiles = true) (hlf : FMap.wf 0 (s.tile p).vec.lf = true) (msk : Nat) :
    let t := (s.modVec p fun v => { v with lf := each (v.actives msk) (fun m l => m.set 0 l 0) v.lf }).vecDone p
    vecWent p s t ∧ vecOtherRegs p 64 s t
      ∧ ∀ l, l < 256 → (t.tile p).vec.lf.get 0 l = (if (s.tile p).vec.active msk l then 0 else (s.tile p).vec.lf.get 0 l) := by
  have hchain := (Engine.refl (p := p) hr ht).modVec (f := fun v => { v with lf := each (v.actives msk) (fun m l => m.set 0 l 0) v.lf })
  have hvec := hchain.vecDone_vec
  refine ⟨hchain.vecDone rfl, vecOtherRegs_of_vec hvec (fun _ _ _ _ => rfl) rfl rfl rfl, fun l hl => ?_⟩
  rw [hvec]
  refine (get_each_set_zero _ hlf l).trans ?_
  simp only [Vec.mem_actives, hl, true_and]

/-! ### CHKF and the take's record -/

/-- The record of rig `n`'s take holds a non-finite value (R251). -/
def struck (n : Nat) (s : State) : Prop := FMap.wf {} s.rigs = true ∧ (s.rig n).take.nonfin = true

theorem struck_of_rigs {n : Nat} (h : struck n s) (hr : t.rigs = s.rigs) : struck n t := by
  unfold struck State.rig
  rw [hr]
  exact h

theorem State.rig_modRig {n m : Nat} {g : Rig → Rig} (hw : FMap.wf {} s.rigs = true) :
    (s.modRig m g).rig n = if n = m then g (s.rig m) else s.rig n := FMap.get_upd _ _ _ _ _ hw

theorem State.modRig_rigsOk {m : Nat} {g : Rig → Rig} (hw : FMap.wf {} s.rigs = true) : FMap.wf {} (s.modRig m g).rigs = true :=
  FMap.wf_upd _ _ _ _ hw

theorem struck_modTake {n m : Nat} {f : Take → Take} (h : struck n s) (hf : ∀ x : Take, x.nonfin = true → (f x).nonfin = true) :
    struck n (s.modTake m f) := by
  obtain ⟨hw, hn⟩ := h
  unfold State.modTake
  refine ⟨State.modRig_rigsOk hw, ?_⟩
  rw [State.rig_modRig hw]
  split
  next hnm => exact hf _ (hnm ▸ hn)
  next => exact hn

theorem State.raiseNum_rigs (s : State) (p b n : Nat) : (s.raiseNum p b n).rigs = s.rigs := by
  unfold State.raiseNum
  split
  · rfl
  · split
    · rfl
    · exact State.offer_rigs _ _ _ _

theorem State.laneEvents_rigs (s : State) (p : Nat) (fs : List NFlags) : (s.laneEvents p fs).rigs = s.rigs := by
  unfold State.laneEvents
  refine each_ind (fun t : State => t.rigs = s.rigs) _ _ _ rfl fun t b _ ht => ?_
  dsimp only
  split
  · exact ht
  · exact (State.offer_rigs _ _ _ _).trans ht

theorem struck_vecFlags {n : Nat} (h : struck n s) : struck n (s.vecFlags p fs) := by
  refine struck_of_rigs ?_ (State.laneEvents_rigs _ _ _)
  have hflags : struck n (each [0, 1, 2, 3, 4, 8, 9, 10, 11]
      (fun s b => s.raiseNum p b ((fs.map Prod.snd).filter fun f => f.toList.any fun e => e.1 = b && e.2).length)
      (s.modVec p fun v => each fs (fun v f => v.flagLane f.1 f.2) v)) :=
    each_ind (struck n) _ _ _ h fun t b _ ht => struck_of_rigs ht (State.raiseNum_rigs _ _ _ _)
  unfold State.raiseNums
  split
  · unfold State.recOf
    dsimp only
    split
    · exact struck_modTake hflags fun _ hx => hx
    · exact hflags
  · exact hflags

/-- CHKF's check of the active lanes. -/
def State.checked (s : State) (p : Nat) (o : VOp) : State :=
  if ((s.tile p).vec.actives o.msk).any fun l => !fp32.isFinite ((s.tile p).vec.lane o.a l).v.toNat then
    s.recOf (s.tile p).vec.task.logno State.recNonfin else s

theorem Engine.checked (hr : s.RegsOk) (ht : FMap.wf {} s.tiles = true) : Engine p (s.tile p).vec s (s.checked p o) :=
  .ite ((Engine.refl hr ht).recOf fun _ => (Engine.refl hr ht).modTake) (Engine.refl hr ht)

theorem struck_checked {n : Nat} (hex : ∃ l, l < 256 ∧ (s.tile p).vec.active o.msk l = true ∧ fp32.isFinite ((s.tile p).vec.lane o.a l).v.toNat = false)
    (hn : s.inTake (s.tile p).vec.task.logno = some n) (hw : FMap.wf {} s.rigs = true) : struck n (s.checked p o) := by
  have hany : (((s.tile p).vec.actives o.msk).any fun l => !fp32.isFinite ((s.tile p).vec.lane o.a l).v.toNat) = true := by
    obtain ⟨l, hl, hact, hfin⟩ := hex
    exact Vec.any_actives.2 ⟨l, hl, hact, by rw [hfin]; rfl⟩
  rw [State.checked, if_pos hany, State.recOf, hn]
  dsimp only [State.recNonfin, State.modTake]
  refine ⟨State.modRig_rigsOk hw, ?_⟩
  rw [State.rig_modRig hw, if_pos rfl]

/-- CHKF changes no register and records a non-finite value. -/
theorem chkf_done (hr : s.RegsOk) (ht : FMap.wf {} s.tiles = true) :
    vecWent p s (((s.checked p o).vecFlags p fs).vecDone p) ∧ vecOtherRegs p 64 s (((s.checked p o).vecFlags p fs).vecDone p)
      ∧ ((∃ l, l < 256 ∧ (s.tile p).vec.active o.msk l = true ∧ fp32.isFinite ((s.tile p).vec.lane o.a l).v.toNat = false) → ∀ n,
        s.inTake (s.tile p).vec.task.logno = some n → FMap.wf {} s.rigs = true →
        ((((s.checked p o).vecFlags p fs).vecDone p).rig n).take.nonfin = true) := by
  obtain ⟨hwent, hother⟩ := (Engine.checked (o := o) hr ht).vecFlags.flagsDone (fs := fs)
  refine ⟨hwent, hother, fun hex n hn hw => ?_⟩
  have hflags : struck n ((s.checked p o).vecFlags p fs) := struck_vecFlags (struck_checked hex hn hw)
  have hdone : (((s.checked p o).vecFlags p fs).vecDone p).rigs = ((s.checked p o).vecFlags p fs).rigs := rfl
  exact (struck_of_rigs hflags hdone).2

/-! ### SEL and CMPR -/

/-- The `rank`-th active lane is the first whose rank it is (R112). -/
theorem Vec.actives_rank {α : Type} {v : Vec} {msk l : Nat} (f : Nat → α) (dflt : α) (hl : l < 256) (hact : v.active msk l = true) :
    ((v.actives msk).map f).getD ((List.range l).filter (v.active msk)).length dflt = f l := by
  have hsplit : List.range 256 = List.range l ++ l :: (List.range (255 - l)).map (l + 1 + ·) := by
    have h256 : 256 = l + ((255 - l) + 1) := by omega
    rw [h256, List.range_add, List.range_succ_eq_map, List.map_cons, List.map_map]
    refine congrArg _ (congrArg₂ _ (Nat.add_zero l) ?_)
    have hlast : l + (255 - l + 1) - 1 - l = 255 - l := by omega
    refine List.map_congr_left fun k _ => ?_
    simp only [Function.comp_apply]
    omega
  rw [Vec.actives, hsplit, List.filter_append, List.filter_cons_of_pos hact, List.map_append, List.getD_eq_getElem?_getD,
    List.getElem?_append_right (by rw [List.length_map]), List.length_map, Nat.sub_self]
  rfl

/-- CMPR's registers. -/
theorem cmpr_done (hr : s.RegsOk) (ht : FMap.wf {} s.tiles = true) (hsr : FMap.wf 0 (s.tile p).vec.sr = true) :
    let v := (s.tile p).vec
    let l := (v.actives o.msk).map (v.lane o.a)
    let t := (s.modVec p fun v => (v.putReg o.d fun i => l.getD i {}).putScalar o.b l.length).vecDone p
    vecWent p s t ∧ (∀ r l, r ≠ o.d → l < 256 → (t.tile p).vec.lane r l = v.lane r l) ∧ (t.tile p).vec.m = v.m
      ∧ (t.tile p).vec.scalar o.b = (v.actives o.msk).length
      ∧ (∀ l, l < 256 → v.active o.msk l = true → (t.tile p).vec.lane o.d ((List.range l).filter (v.active o.msk)).length = v.lane o.a l)
      ∧ ∀ i, (v.actives o.msk).length ≤ i → i < 256 → (t.tile p).vec.lane o.d i = {} := by
  intro v l t
  have hchain := (Engine.refl (p := p) hr ht).modVec (f := fun v => (v.putReg o.d fun i => l.getD i {}).putScalar o.b l.length)
  have hvec : (t.tile p).vec = ((v.putReg o.d fun i => l.getD i {}).putScalar o.b l.length).advance := hchain.vecDone_vec
  have hlane : ∀ r i, i < 256 → (t.tile p).vec.lane r i = if r = o.d then l.getD i {} else v.lane r i := fun r i hi => by
    rw [hvec]
    exact Vec.lane_putReg v o.d r _ hi
  have hcount : (v.actives o.msk).length ≤ 256 := (List.length_filter_le _ _).trans_eq List.length_range
  refine ⟨hchain.vecDone (Vec.Moved.refl _).putReg.putScalar, fun r i hne hi => ?_, ?_, ?_, fun i hi hact => ?_, fun i hle hi => ?_⟩
  · rw [hlane r i hi, if_neg hne]
  · rw [hvec]
    rfl
  · have hscalar := Vec.scalar_putScalar_same (v := v.putReg o.d fun i => l.getD i {}) hsr o.b l.length
    rw [hvec]
    refine hscalar.trans ?_
    rw [List.length_map, Nat.mod_eq_of_lt (by omega)]
  · have hrank : ((List.range i).filter (v.active o.msk)).length ≤ i := (List.length_filter_le _ _).trans_eq List.length_range
    rw [hlane _ _ (by omega), if_pos rfl, Vec.actives_rank _ _ hi hact]
  · rw [hlane _ _ hi, if_pos rfl, List.getD_eq_default]
    rw [List.length_map]
    exact hle


/-! ### RED -/

section
variable (n : Nat) (r : Nat × NFlags) (pois : Bool)

/-- RED to a scalar: the state before it is done, from one in which the call sheet is marked where an active lane is poisoned (R113). -/
theorem Engine.redScalar (hr : s.RegsOk) (ht : FMap.wf {} s.tiles = true) :
    Engine p (((s.tile p).vec.putScalar d n).flagged [(0, r.2)]) (if pois then s.markPois (s.tile p).vec.task.logno else s)
      ((if pois then ((s.modVec p fun v => v.putScalar d n).markPois (s.tile p).vec.task.logno).recOf (s.tile p).vec.task.logno State.recPois
        else s.modVec p fun v => v.putScalar d n).vecFlags p [(0, r.2)]) := by
  cases pois with
  | false =>
    have hput := (Engine.refl (p := p) hr ht).modVec (f := fun v => v.putScalar d n)
    exact hput.vecFlags
  | true =>
    have hmarked : Engine p (s.tile p).vec (s.markPois (s.tile p).vec.task.logno) (s.markPois (s.tile p).vec.task.logno) :=
      Engine.refl (s := s.markPois (s.tile p).vec.task.logno) hr ht
    have hput := hmarked.modVec (f := fun v => v.putScalar d n)
    exact (hput.recOf fun _ => hput.modTake).vecFlags

/-- RED to a scalar is done: the sheets are those of the marking. -/
theorem redScalar_done (hr : s.RegsOk) (ht : FMap.wf {} s.tiles = true) (hsr : FMap.wf 0 (s.tile p).vec.sr = true) :
    let t := ((if pois then ((s.modVec p fun v => v.putScalar d n).markPois (s.tile p).vec.task.logno).recOf (s.tile p).vec.task.logno State.recPois
        else s.modVec p fun v => v.putScalar d n).vecFlags p [(0, r.2)]).vecDone p
    vecWent p { s with sheets := t.sheets } t ∧ scalarWritten p d n s t
      ∧ t.sheets = (if pois then s.markPois (s.tile p).vec.task.logno else s).sheets := by
  intro t
  have hchain := Engine.redScalar (p := p) (d := d) n r pois hr ht
  have hsheets : t.sheets = (if pois then s.markPois (s.tile p).vec.task.logno else s).sheets := by
    have hrest := congrArg State.sheets hchain.rest
    exact hrest
  have hstart : (if pois then s.markPois (s.tile p).vec.task.logno else s) = { s with sheets := t.sheets } := by
    rw [hsheets]
    cases pois
    · rfl
    · rfl
  rw [hstart] at hchain
  obtain ⟨hwent, hwritten⟩ := Engine.scalarDone (s := { s with sheets := t.sheets }) hsr hchain
  exact ⟨hwent, hwritten, hsheets⟩

end

/-- RED of the two halves (R113). -/
theorem redHalves_done (hr : s.RegsOk) (ht : FMap.wf {} s.tiles = true) (e g : Elem) {fs : List (Nat × NFlags)} :
    let t := ((s.modVec p fun v => v.putReg d fun l =>
        if l = 2 * v.q then e else if l = 2 * v.q + 1 then g else v.lane d l).vecFlags p fs).vecDone p
    vecWent p s t ∧ vecOtherRegs p d s t ∧ ∀ l, l < 256 → (t.tile p).vec.lane d l
      = (if l = 2 * (s.tile p).vec.q then e else if l = 2 * (s.tile p).vec.q + 1 then g else (s.tile p).vec.lane d l) := by
  have hchain := ((Engine.refl (p := p) hr ht).modVec (f := fun v => v.putReg d fun l =>
    if l = 2 * v.q then e else if l = 2 * v.q + 1 then g else v.lane d l)).vecFlags (fs := fs)
  exact hchain.regDone

/-! ### Poison -/

/-- An instruction that poison stops. -/
theorem abort_of_guard {c : Instr} {pois : Bool} {f : State → State} (hr : s.RegsOk) (ht : FMap.wf {} s.tiles = true)
    (habort : s.abortPolicy (s.tile p).vec.rig = true) (hexec : exec c s = .next (s.guardPois p pois f)) (hp : pois = true) :
    ∃ t, exec c s = .next t ∧ t.get F.VEC_STAT_ABRT p = 1 ∧ (t.tile p).vec.running = false
      ∧ ∀ h, s.sheet (s.tile p).vec.task.logno = some h → h.status = none →
          (t.sheet (s.tile p).vec.task.logno).map (·.status) = some (some 0x05) :=
  ⟨_, hexec.trans (congrArg _ (State.guardPois_stop hp habort)), State.vecStop_abrt hr ht⟩

/-- An instruction that poison does not stop. -/
theorem effect_of_guard {c : Instr} {pois : Bool} {f : State → State} (hexec : exec c s = .next (s.guardPois p pois f))
    (h : pois = false ∨ s.abortPolicy (s.tile p).vec.rig = false) : exec c s = .next (f s) :=
  hexec.trans (congrArg _ (State.guardPois_effect h))

theorem any_false_of_forall {l : List Nat} {q : Nat → Bool} (h : ∀ i, q i = false) : l.any q = false := by
  simp [h]

/-- Settles O35: each instruction writes a mask, a scalar, a register or lane flags, or poison stops the routine. -/
theorem vectorMasksAndReductions : Obligations.VectorMasksAndReductions := by
  intro p o s hr ht hm hsr
  refine ⟨fun hpois => ⟨?_, ?_, ?_, ?_, ?_, ?_, ?_, ?_, ?_, ?_, fun hissue => ⟨fun hbm => ?_, fun hbm => ?_⟩⟩, fun habort c hc => ?_⟩
  · exact fun hissue => ⟨_, exec_of_issues (e := execFcmp p o) hissue rfl rfl,
      vecMask_done hr ht hm (hpois.imp_left fun h l => by rw [h, Vec.opB_p h]; rfl)⟩
  · exact fun hissue => ⟨_, exec_of_issues (e := execFcls p o) hissue rfl rfl, vecMask_done hr ht hm (hpois.imp_left fun h l => h _ _)⟩
  · exact fun hissue => ⟨_, exec_of_issues (e := execMlog p o) hissue rfl rfl, putMask_done hr ht hm fun l hl => mlog_bit _ _ _ _ hl⟩
  · exact fun hissue => ⟨_, exec_of_issues (e := execMfirst p o) hissue rfl rfl, putMask_done hr ht hm fun _ _ => rfl⟩
  · exact fun hissue hd => ⟨_, (exec_of_issues (e := execFlgm p o) hissue rfl rfl).trans (congrArg _ (if_neg (Nat.not_le.2 hd))),
      vecMask_done hr ht hm (.inl fun _ => rfl)⟩
  · exact fun hissue hd hlf => ⟨_, (exec_of_issues (e := execFlgm p o) hissue rfl rfl).trans (congrArg _ (if_pos hd)), flgm_clear hr ht hlf _⟩
  · intro hissue
    obtain ⟨hwent, hv, hmk, -, hcount, hother⟩ := putScalar_done (p := p) (d := o.d) hr ht hsr fun v =>
      ((List.range 256).filter fun l => v.active o.msk l && (v.maskAt o.a).getLsbD l).length
    have hle := (List.length_filter_le (fun l => (s.tile p).vec.active o.msk l && ((s.tile p).vec.maskAt o.a).getLsbD l) (List.range 256)).trans_eq
      List.length_range
    exact ⟨_, exec_of_issues (e := execMpop p o) hissue rfl rfl, hwent, hv, hmk, hcount.trans (Nat.mod_eq_of_lt (by omega)), hother⟩
  · intro hissue
    have hgo := effect_of_guard (c := .chkf p o) (exec_of_issues (e := execChkf p o) hissue rfl rfl)
      (hpois.imp_left fun h => any_false_of_forall fun l => h _ _)
    exact ⟨_, hgo, chkf_done hr ht⟩
  · intro hissue
    have hgo := effect_of_guard (c := .sel p o) (exec_of_issues (e := execSel p o) hissue rfl rfl) (hpois.imp_left fun h => any_false_of_forall fun l => ?_)
    · exact ⟨_, hgo, putReg_done hr ht _⟩
    · dsimp only
      split
      · exact h _ _
      · exact Vec.opB_p h _ _
  · intro hissue
    have hgo := effect_of_guard (c := .cmpr p o) (exec_of_issues (e := execCmpr p o) hissue rfl rfl) (hpois.imp_left fun h => ?_)
    · exact ⟨_, hgo, cmpr_done hr ht hsr⟩
    · simp [h]
  · have hgo := effect_of_guard (c := .red p o) (exec_of_issues (e := execRed p o) hissue rfl rfl) (hpois.imp_left fun h => any_false_of_forall fun l => by
      rw [h, Bool.and_false])
    obtain ⟨hwent, ⟨hv, hmk, -, hscalar, hother⟩, hsheets⟩ := redScalar_done (p := p) (d := o.d) _ _ _ hr ht hsr
    exact ⟨_, hgo.trans (congrArg _ (if_pos hbm)), hwent, hv, hmk, hsheets, hscalar, hother⟩
  · have hgo := effect_of_guard (c := .red p o) (exec_of_issues (e := execRed p o) hissue rfl rfl) (hpois.imp_left fun h => any_false_of_forall fun l => by
      rw [h, Bool.and_false])
    exact ⟨_, hgo.trans (congrArg _ (if_neg (by rw [hbm]; decide))), redHalves_done hr ht _ _⟩
  · obtain ⟨rfl, hissue, l, hl, hact, hp⟩ | ⟨rfl, hissue, l, hl, hp⟩ | ⟨hc, l, hl, hact, hp⟩ := hc
    · exact abort_of_guard hr ht habort ((exec_of_issues (e := execFcmp p o) hissue rfl rfl).trans (congrArg _ (s.vecMask_eq _ _ _ _)))
        (Vec.any_actives.2 ⟨l, hl, hact, hp⟩)
    · exact abort_of_guard hr ht habort (exec_of_issues (e := execSel p o) hissue rfl rfl) (List.any_eq_true.2 ⟨l, List.mem_range.2 hl, hp⟩)
    · have hany : ((s.tile p).vec.actives o.msk).any (fun l => ((s.tile p).vec.lane o.a l).p) = true := Vec.any_actives.2 ⟨l, hl, hact, hp⟩
      obtain ⟨rfl, hissue⟩ | ⟨rfl, hissue⟩ | ⟨rfl, hissue⟩ | ⟨rfl, hissue⟩ := hc
      · exact abort_of_guard hr ht habort ((exec_of_issues (e := execFcls p o) hissue rfl rfl).trans (congrArg _ (s.vecMask_eq _ _ _ _))) hany
      · exact abort_of_guard hr ht habort (exec_of_issues (e := execChkf p o) hissue rfl rfl) hany
      · exact abort_of_guard hr ht habort (exec_of_issues (e := execCmpr p o) hissue rfl rfl) (List.any_map.trans hany)
      · refine abort_of_guard hr ht habort (exec_of_issues (e := execRed p o) hissue rfl rfl) (List.any_eq_true.2 ⟨l, List.mem_range.2 hl, ?_⟩)
        simp only [Nat.zero_add, hact, hp, Bool.and_self]

end Sys2Proof.Machine
end

section
/-! ## Scalars, the queue and END (R109, R117, R120)

The scalar instructions end as those above do. A queue instruction on an entry of the routine's own task goes on with that entry (`onEntry_own`); STT
and POPT change the queue, END the queue and the call sheet. -/

namespace Sys2Proof.Machine

variable {p d : Nat} {s t u : State}

/-! ### Scalars and loops -/

/-- An instruction that changes the row pair or nothing. -/
theorem setq_done (hr : s.RegsOk) (ht : FMap.wf {} s.tiles = true) (f : Vec → Nat) :
    let t := (s.modVec p fun v => { v with q := f v }).vecDone p
    vecWent p s t ∧ (t.tile p).vec.v = (s.tile p).vec.v ∧ (t.tile p).vec.m = (s.tile p).vec.m ∧ (t.tile p).vec.sr = (s.tile p).vec.sr
      ∧ (t.tile p).vec.q = f (s.tile p).vec := by
  have hchain := (Engine.refl (p := p) hr ht).modVec (f := fun v => { v with q := f v })
  intro t
  have hvec : (t.tile p).vec = ({ (s.tile p).vec with q := f (s.tile p).vec } : Vec).advance := hchain.vecDone_vec
  refine ⟨hchain.vecDone rfl, ?_⟩
  rw [hvec]
  exact ⟨rfl, rfl, rfl, rfl⟩

/-- LOOP changes the loops alone. -/
theorem loop_done (hr : s.RegsOk) (ht : FMap.wf {} s.tiles = true) (f : Vec → List VLoop) :
    let t := (s.modVec p fun v => { v with loops := f v }).vecDone p
    vecOnly p s t ∧ vecOtherRegs p 64 s t ∧ (t.tile p).vec.pc = ({ (s.tile p).vec with loops := f (s.tile p).vec } : Vec).advance.pc := by
  have hchain := (Engine.refl (p := p) hr ht).modVec (f := fun v => { v with loops := f v })
  have hvec := hchain.vecDone_vec
  exact ⟨hchain.vecDone_only rfl, vecOtherRegs_of_vec hvec (fun _ _ _ _ => rfl) rfl rfl rfl, congrArg Vec.pc hvec⟩

/-- A sign-extended sum in 32 bits. -/
theorem wrap_add_sext {n imm : Nat} (himm : imm < 2 ^ 16) :
    wrap 32 ((n : Int) + sext 16 imm) % 2 ^ 32 = (if imm < 2 ^ 15 then n + imm else n + imm + (2 ^ 32 - 2 ^ 16)) % 2 ^ 32 := by
  have hmod : imm % 2 ^ 16 = imm := Nat.mod_eq_of_lt himm
  rw [wrap, sext, hmod]
  norm_num at himm ⊢
  split
  · omega
  · omega

/-- SFOP draws a free value, writes the scalar and raises flags of the tile. -/
theorem sfop_done (hr : s.RegsOk) (ht : FMap.wf {} s.tiles = true) (hsr : FMap.wf 0 (s.tile p).vec.sr = true) (n logno : Nat) (fs : List NFlags) :
    vecWent p s (((s.spend.modVec p fun v => v.putScalar d n).raiseNums p logno fs).vecDone p)
      ∧ scalarWritten p d n s (((s.spend.modVec p fun v => v.putScalar d n).raiseNums p logno fs).vecDone p) := by
  have hput := (Engine.refl (p := p) hr ht).spend.modVec (f := fun v => v.putScalar d n)
  exact (hput.raiseNums (logno := logno) (fs := fs)).noFlags.scalarDone hsr

theorem scalarWritten_mod {n m : Nat} (h : n % 2 ^ 32 = m % 2 ^ 32) (hw : scalarWritten p d n s t) : scalarWritten p d m s t := by
  obtain ⟨hv, hm, hq, hscalar, hother⟩ := hw
  exact ⟨hv, hm, hq, hscalar.trans h, hother⟩

/-! ### Entries of the queue -/

theorem State.onEntry_own {e : Nat} {x : FtqEntry} {f : FtqEntry → State} (hx : (s.tile p).ftq[e]? = some x) (hown : x.task = (s.tile p).vec.task) :
    s.onEntry p e f = f x := by
  rw [State.onEntry]
  simp only [hx, hown, if_true]

theorem State.onEntry_none {e : Nat} {f : FtqEntry → State} (hx : (s.tile p).ftq[e]? = none) : s.onEntry p e f = s.queueWait p := by
  rw [State.onEntry]
  simp only [hx]

/-- LDT without an entry waits (R120). -/
theorem queueWait_done (hr : s.RegsOk) (ht : FMap.wf {} s.tiles = true) :
    (s.queueWait p).get F.VEC_NWAIT_COUNT p = (s.get F.VEC_NWAIT_COUNT p + 1) % 2 ^ 64
      ∧ ((s.queueWait p).tile p).vec = { (s.tile p).vec with wait := 1 } ∧ onlyTile p s (s.queueWait p) := by
  have hcount : ((s.modVec p fun v => { v with wait := 1 }).bump F.VEC_NWAIT_COUNT 1 p).get F.VEC_NWAIT_COUNT p
      = (s.get F.VEC_NWAIT_COUNT p + 1) % 2 ^ 64 := State.get_setReg_same _ _ _ _ hr
  have htile : ∀ q, (s.queueWait p).tile q = (s.modVec p fun v => { v with wait := 1 }).tile q := fun q => by
    rw [State.queueWait, State.offerTile, State.tile, State.offer_tiles]
    rfl
  refine ⟨?_, ?_, ?_, fun q hq => ?_⟩
  · rw [State.queueWait, State.offerTile, State.get_offer _ _ _ _ _ _ (by decide) (not_evField_of_notMem_bookFields (by decide))]
    exact hcount
  · rw [htile, State.modVec_tile ht]
  · rw [State.queueWait, State.offerTile, State.offer_eq]
    rfl
  · rw [htile, State.modVec_tile_ne hq]

theorem modAt_eq_set {α : Type} {l : List α} {i : Nat} {x : α} (hx : l[i]? = some x) (f : α → α) : modAt l i f = l.set i (f x) := by
  induction l generalizing i with
  | nil => simp at hx
  | cons y l ih =>
    cases i with
    | zero =>
      obtain rfl : y = x := by simpa using hx
      rfl
    | succ i => exact congrArg (y :: ·) (ih (by simpa using hx))

/-- Values written to a range of a map. -/
theorem get_each_range_set {γ : Type} [DecidableEq γ] (dflt : γ) (g : Nat → γ) (base n : Nat) {m : FMap γ} (hm : FMap.wf dflt m = true) :
    FMap.wf dflt (each (List.range n) (fun m l => m.set dflt (base + l) (g l)) m) = true
      ∧ ∀ k, (each (List.range n) (fun m l => m.set dflt (base + l) (g l)) m).get dflt k
          = if base ≤ k ∧ k < base + n then g (k - base) else m.get dflt k := by
  induction n with
  | zero => exact ⟨hm, fun k => by rw [if_neg (by omega)]; rfl⟩
  | succ n ih =>
    obtain ⟨hwf, hget⟩ := ih
    have hsucc : each (List.range (n + 1)) (fun m l => m.set dflt (base + l) (g l)) m
        = (each (List.range n) (fun m l => m.set dflt (base + l) (g l)) m).set dflt (base + n) (g n) := by
      rw [each, List.range_succ, List.foldl_append]
      rfl
    rw [hsucc]
    refine ⟨FMap.wf_set _ _ _ _ hwf, fun k => ?_⟩
    rw [FMap.get_set _ _ _ _ _ hwf, hget]
    by_cases hk : k = base + n
    · rw [if_pos hk, if_pos (by omega), hk, Nat.add_sub_cancel_left]
    · rw [if_neg hk]
      by_cases hin : base ≤ k ∧ k < base + n
      · rw [if_pos hin, if_pos (by omega)]
      · rw [if_neg hin, if_neg (by omega)]

/-- The row pair of an entry that STT has written. -/
def FtqEntry.withPair (x : FtqEntry) (q : Nat) (f : Nat → Elem) : FtqEntry :=
  { x with vals := each (List.range 256) (fun m l => m.set {} (pairIdx q l) (f l)) x.vals }

theorem FtqEntry.withPair_get {x : FtqEntry} (hx : FMap.wf {} x.vals = true) (q : Nat) (f : Nat → Elem) :
    (∀ l, l < 256 → (x.withPair q f).vals.get {} (256 * q + l) = f l)
      ∧ ∀ k, k / 256 ≠ q → (x.withPair q f).vals.get {} k = x.vals.get {} k := by
  have hget : ∀ k, (x.withPair q f).vals.get {} k = if 256 * q ≤ k ∧ k < 256 * q + 256 then f (k - 256 * q) else x.vals.get {} k := fun k => by
    simp only [FtqEntry.withPair, pairIdx]
    exact (get_each_range_set ({} : Elem) f (256 * q) 256 hx).2 k
  refine ⟨fun l hl => ?_, fun k hk => ?_⟩
  · rw [hget, if_pos (by omega), Nat.add_sub_cancel_left]
  · rw [hget, if_neg (by omega)]

/-- An instruction that changes the queue of its tile and no register. -/
theorem queue_done (ht : FMap.wf {} s.tiles = true) {g : Tile → Tile} (hg : (g (s.tile p)).vec = (s.tile p).vec) :
    ((s.modTile p g).vecDone p).tile p = { g (s.tile p) with vec := (s.tile p).vec.advance } ∧ vecOtherRegs p 64 s ((s.modTile p g).vecDone p)
      ∧ { (s.modTile p g).vecDone p with regs := s.regs, tiles := s.tiles } = s := by
  have htile : ((s.modTile p g).vecDone p).tile p = { g (s.tile p) with vec := (s.tile p).vec.advance } := by
    rw [State.vecDone_tile (State.modTile_tilesOk ht), State.tile_modTile_same ht, hg]
  refine ⟨htile, vecOtherRegs_of_vec (w := (s.tile p).vec) ?_ (fun _ _ _ _ => rfl) rfl rfl rfl, ?_⟩
  · rw [htile]
  · exact (((show regsTilesOnly s s from rfl).modTile).modTile).setReg

/-! ### END -/

/-- END pops the routine's own entries at the head. -/
theorem popOwn_eq (r : TaskRef) (n : Nat) (x : Tile) (hn : x.ftq.length ≤ n) :
    ∃ k, popOwn r n x = { x with ftq := x.ftq.dropWhile (fun y => decide (y.task = r)), ftqHead := k } := by
  induction n generalizing x with
  | zero =>
    have hnil : x.ftq = [] := List.length_eq_zero_iff.1 (Nat.le_zero.1 hn)
    exact ⟨x.ftqHead, by rw [hnil, popOwn, List.dropWhile_nil, ← hnil]⟩
  | succ n ih =>
    cases hq : x.ftq with
    | nil => exact ⟨x.ftqHead, by simp only [popOwn, hq, List.dropWhile_nil]; rw [← hq]⟩
    | cons y l =>
      by_cases hy : y.task = r
      · have htail : x.popEntry.ftq = l := by rw [Tile.popEntry, hq]; rfl
        obtain ⟨k, hk⟩ := ih x.popEntry (by rw [htail]; rw [hq, List.length_cons] at hn; omega)
        refine ⟨k, ?_⟩
        rw [popOwn, hq]
        simp only [hy, if_true]
        rw [hk, htail, List.dropWhile_cons_of_pos (by simpa using hy)]
        rfl
      · refine ⟨x.ftqHead, ?_⟩
        rw [popOwn, hq]
        simp only [hy, if_false]
        rw [List.dropWhile_cons_of_neg (by simpa using hy), ← hq]

/-- The tile after END: its own entries popped, the routine over. -/
def State.ownPopped (s : State) (p : Nat) : State :=
  let left := ((s.tile p).ftq.head?.map (·.task)) = some (s.tile p).vec.task
  when left (·.raiseFlag F.VEC_STAT_LEFT p) (s.modTile p fun t => popOwn (s.tile p).vec.task 8 t)

def State.routineEnded (s : State) (p : Nat) : State := (s.modVec p Vec.halted).bump F.VEC_NINS_COUNT 1 p

theorem exec_endRoutine (hissue : s.issuesOp p 0x3F = true) :
    exec (.endRoutine p) s = .next (((s.ownPopped p).routineEnded p).modPart (s.tile p).vec.task.logno (s.tile p).vec.task.lead fun q =>
      { q with routLeft := q.routLeft - 1 }) :=
  (show exec (.endRoutine p) s = execEndRoutine p s from rfl).trans (gated_of_true hissue _ _)

theorem State.ownPopped_eq (s : State) (p : Nat) :
    ∃ regs, s.ownPopped p = { s.modTile p fun t => popOwn (s.tile p).vec.task 8 t with regs := regs } := by
  unfold State.ownPopped when
  dsimp only
  split
  · exact ⟨_, rfl⟩
  · exact ⟨_, rfl⟩

theorem State.ownPopped_left (hr : s.RegsOk) : (s.ownPopped p).RegsOk ∧ (s.ownPopped p).get F.VEC_STAT_LEFT p
    = (if (s.tile p).ftq.head?.map (·.task) = some (s.tile p).vec.task then 1 else s.get F.VEC_STAT_LEFT p)
      ∧ (s.ownPopped p).get F.VEC_NINS_COUNT p = s.get F.VEC_NINS_COUNT p := by
  unfold State.ownPopped when
  by_cases hleft : (s.tile p).ftq.head?.map (·.task) = some (s.tile p).vec.task
  · simp only [hleft, decide_true, if_true]
    exact ⟨State.setReg_regsOk _ _ _ _ hr, State.get_setReg_same _ _ _ _ hr, State.get_setReg_id _ _ _ _ _ _ (by decide) (by decide) (by decide)⟩
  · simp only [hleft, decide_false, if_false, Bool.false_eq_true]
    exact ⟨hr, rfl, rfl⟩

theorem endRoutine_done (hr : s.RegsOk) (ht : FMap.wf {} s.tiles = true) (hissue : s.issuesOp p 0x3F = true) (hlen : (s.tile p).ftq.length ≤ 8) :
    ∃ t, exec (.endRoutine p) s = .next t
        ∧ (t.tile p).vec.running = false ∧ (t.tile p).ftq = (s.tile p).ftq.dropWhile (fun x => decide (x.task = (s.tile p).vec.task))
        ∧ t.get F.VEC_STAT_LEFT p = (if (s.tile p).ftq.head?.map (·.task) = some (s.tile p).vec.task then 1 else s.get F.VEC_STAT_LEFT p)
        ∧ (∀ q, (t.tile q).store = (s.tile q).store)
        ∧ t.get F.VEC_NINS_COUNT p = (s.get F.VEC_NINS_COUNT p + 1) % 2 ^ 64 ∧ t.sheet (s.tile p).vec.task.logno
          = (s.sheet (s.tile p).vec.task.logno).map fun h => h.modPart (s.tile p).vec.task.lead fun q => { q with routLeft := q.routLeft - 1 } := by
  obtain ⟨regs, hpop⟩ := s.ownPopped_eq p
  obtain ⟨k, hown⟩ := popOwn_eq (s.tile p).vec.task 8 (s.tile p) hlen
  obtain ⟨hregs, hleft, hnins⟩ := State.ownPopped_left (p := p) hr
  have hwf : FMap.wf {} (s.ownPopped p).tiles = true := by
    rw [hpop]
    exact State.modTile_tilesOk ht
  have hsheets : (s.ownPopped p).sheets = s.sheets := by rw [hpop]; rfl
  have htile : ∀ q, (s.ownPopped p).tile q
      = if q = p then { s.tile p with ftq := (s.tile p).ftq.dropWhile (fun y => decide (y.task = (s.tile p).vec.task)), ftqHead := k } else s.tile q := fun q => by
    rw [hpop, ← hown]
    exact State.tile_modTile ht q
  have hend : ((s.ownPopped p).routineEnded p).tile p = { (s.ownPopped p).tile p with vec := ((s.ownPopped p).tile p).vec.halted } :=
    State.modVec_tile hwf
  refine ⟨_, exec_endRoutine hissue, ?_, ?_, ?_, fun q => ?_, ?_, ?_⟩
  · change (((s.ownPopped p).routineEnded p).tile p).vec.running = false
    rw [hend]
    rfl
  · change (((s.ownPopped p).routineEnded p).tile p).ftq = _
    rw [hend, htile, if_pos rfl]
  · change ((s.ownPopped p).routineEnded p).get F.VEC_STAT_LEFT p = _
    rw [← hleft]
    exact State.get_setReg_id _ _ _ _ _ _ (by decide) (by decide) (by decide)
  · change (((s.ownPopped p).routineEnded p).tile q).store = _
    by_cases hq : q = p
    · rw [hq, hend, htile, if_pos rfl]
    · have hother : ((s.ownPopped p).routineEnded p).tile q = (s.ownPopped p).tile q := State.modVec_tile_ne hq
      rw [hother, htile, if_neg hq]
  · change ((s.ownPopped p).routineEnded p).get F.VEC_NINS_COUNT p = _
    rw [← hnins]
    exact State.get_setReg_same _ _ _ _ hregs
  · rw [State.modPart, State.sheet_modSheet (by exact fun _ => rfl)]
    exact congrArg (fun l : List Sheet => (l.find? fun x => decide (x.logno = (s.tile p).vec.task.logno)).map _) hsheets

end Sys2Proof.Machine
end

section
/-! ## The tile store (R103, R114)

An access of the vector engine waits for the port or goes on with its count of beats cleared (`portGranted`). LDV in FP32 then reads 1024 bytes and
writes a register. -/

namespace Sys2Proof.Machine

variable {p d : Nat} {o : MOp} {s t u : State}

/-! ### The port -/

/-- The engine has got the port. -/
def State.portGranted (s : State) (p : Nat) : State := s.modVec p fun v => { v with portWait := 0 }

theorem State.portTurn_waits {f : State → State} (hready : s.localReady p = true) (hwait : (s.tile p).vec.portWait < 3) :
    s.portTurn p f = s.modVec p fun v => { v with wait := 3 } := by
  rw [State.portTurn, hready, decide_eq_true hwait]
  rfl

theorem State.portTurn_goes {f : State → State} (h : s.localReady p = false ∨ 3 ≤ (s.tile p).vec.portWait) :
    s.portTurn p f = f (s.portGranted p) := by
  rw [State.portTurn, if_neg]
  · rfl
  · rw [Bool.and_eq_true, decide_eq_true_eq]
    rintro ⟨hready, hwait⟩
    obtain h | h := h
    · exact absurd (hready.symm.trans h) (by decide)
    · omega

theorem State.portGranted_vec (ht : FMap.wf {} s.tiles = true) : ((s.portGranted p).tile p).vec = { (s.tile p).vec with portWait := 0 } := by
  rw [State.portGranted, State.modVec_tile ht]

theorem State.portGranted_tile (ht : FMap.wf {} s.tiles = true) :
    (s.portGranted p).tile p = { s.tile p with vec := { (s.tile p).vec with portWait := 0 } } := State.modVec_tile ht

/-- An access in FP32 that lies inside the store. -/
theorem Vec.memOk_fp32 {v : Vec} (hfmt : o.fmt = 0) (h : v.memAddr o + 1024 ≤ 6 * 2 ^ 20) : v.memOk o = true := by
  rw [Vec.memOk, hfmt, mfmtBytes, storeSize, decide_eq_true (by omega)]
  rfl

/-! ### Bytes read -/

theorem Content.read_length (c : Content) (a n : Nat) : (c.read a n).length = n := by
  rw [Content.read, List.length_map, List.length_range]

/-- A part of a read is a read. -/
theorem Content.take_drop_read (c : Content) (a : Nat) {n k m : Nat} (h : k + m ≤ n) : ((c.read a n).drop k).take m = c.read (a + k) m := by
  refine List.ext_getElem ?_ fun i h1 h2 => ?_
  · rw [List.length_take, List.length_drop, Content.read_length, Content.read_length]
    omega
  · simp only [Content.read, List.getElem_take, List.getElem_drop, List.getElem_map, List.getElem_range, Nat.add_assoc]

theorem leNat_lt (bs : List Byte) : leNat bs < 256 ^ bs.length := by
  induction bs with
  | nil => simp [leNat]
  | cons b bs ih =>
    have hb := b.isLt
    rw [leNat, List.length_cons, Nat.pow_succ]
    omega

/-! ### LDV -/

/-- The values of 256 FP32 elements, as their bytes give them, with the flags of the lanes. -/
def fp32Rows (bs : List (Byte × Bool)) : FMap (Nat × NFlags) :=
  (List.range 256).map fun l => (l, leNat (((bs.drop (4 * l)).take 4).map Prod.fst), {})

def fp32Flags (bs : List (Byte × Bool)) : List (Nat × NFlags) := (fp32Rows bs).map fun r => (r.1, r.2.2)

/-- The register that the bytes give, with their poison. -/
def fp32Reg (bs : List (Byte × Bool)) (l : Nat) : Elem :=
  { v := BitVec.ofNat 32 ((fp32Rows bs).get (0, {}) l).1, p := ((bs.drop (4 * l)).take 4).any Prod.snd || false }

theorem fp32Reg_read (c : Content) (a : Nat) {l : Nat} (hl : l < 256) :
    (fp32Reg (c.read a 1024) l).v.toNat = leNat ((c.read (a + 4 * l) 4).map Prod.fst) := by
  have hlt := leNat_lt ((c.read (a + 4 * l) 4).map Prod.fst)
  rw [List.length_map, Content.read_length] at hlt
  rw [fp32Reg, fp32Rows, FMap.get_eq_lookup, FMap.lookup_map, if_pos (List.mem_range.2 hl), Content.take_drop_read c a (by omega),
    BitVec.toNat_ofNat]
  exact Nat.mod_eq_of_lt hlt

/-- Bytes without poison make a register without. -/
theorem fp32_clean {bs : List (Byte × Bool)} (h : bs.any Prod.snd = false) (l : Nat) : (((bs.drop (4 * l)).take 4).any Prod.snd || false) = false := by
  rw [Bool.or_false, List.any_eq_false]
  exact fun x hx => List.any_eq_false.1 h x (List.mem_of_mem_drop (List.mem_of_mem_take hx))

/-- What LDV in FP32 does once it has the port. -/
def State.loadFp32 (s : State) (p : Nat) (o : MOp) : State :=
  let a := (s.tile p).vec.memAddr o
  let bs := (s.tile p).store.read a 1024
  (s.traffic 0 4).guardPois p ((List.range 256).any fun l => ((bs.drop (4 * l)).take 4).any Prod.snd || false) fun u =>
    let u := (u.modVec p fun v => v.putReg o.d (fp32Reg bs)).vecFlags p (fp32Flags bs)
    (when ((u.tile p).proxIn a 1024 || false) (·.markProx (s.tile p).vec.task.logno) u).vecDone p

theorem exec_ldv_fp32 (hissue : s.issues p (o.word 0x30) = true) (hport : s.localReady p = false ∨ 3 ≤ (s.tile p).vec.portWait) (hfmt : o.fmt = 0)
    (hok : ((s.portGranted p).tile p).vec.memOk o = true) : exec (.ldv p o []) s = .next ((s.portGranted p).loadFp32 p o) := by
  refine (exec_of_issues (e := execLdv p o []) hissue rfl rfl).trans (congrArg _ ?_)
  rw [State.portTurn_goes hport]
  dsimp only
  rw [hok, hfmt, if_neg (by decide), if_neg (by decide), State.storeRead]
  simp only [mfmtBytes, List.isEmpty_nil, if_true, loadElem]
  rfl

theorem Tile.proxIn_vec (x : Tile) (w : Vec) (a n : Nat) : ({ x with vec := w } : Tile).proxIn a n = x.proxIn a n := rfl

theorem vecOnly_scrubs (h : vecOnly p s t) : t.scrubs = s.scrubs := by
  obtain ⟨hrest, -⟩ := h
  have hscrubs := congrArg State.scrubs hrest
  exact hscrubs

/-- What a load in FP32 does where no byte read is poisoned or derived through a proxy. -/
theorem loadFp32_done (hr : u.RegsOk) (ht : FMap.wf {} u.tiles = true) (hclean : ((u.tile p).store.read ((u.tile p).vec.memAddr o) 1024).any Prod.snd = false)
    (hprox : (u.tile p).proxIn ((u.tile p).vec.memAddr o) 1024 = false) :
    vecWent p (u.traffic 0 4) (u.loadFp32 p o) ∧ vecOtherRegs p o.d (u.traffic 0 4) (u.loadFp32 p o)
      ∧ ∀ l, l < 256 → ((u.loadFp32 p o).tile p).vec.lane o.d l = fp32Reg ((u.tile p).store.read ((u.tile p).vec.memAddr o) 1024) l := by
  have hchain : Engine p (u.tile p).vec (u.traffic 0 4) (u.traffic 0 4) := .refl (s := u.traffic 0 4) hr ht
  have hload := (hchain.modVec (f := fun v => v.putReg o.d (fp32Reg ((u.tile p).store.read ((u.tile p).vec.memAddr o) 1024)))).vecFlags
    (fs := fp32Flags ((u.tile p).store.read ((u.tile p).vec.memAddr o) 1024))
  have hpois : ((List.range 256).any fun l => ((((u.tile p).store.read ((u.tile p).vec.memAddr o) 1024).drop (4 * l)).take 4).any Prod.snd || false) = false :=
    any_false_of_forall fun l => fp32_clean hclean l
  unfold State.loadFp32
  dsimp only
  have htile : (u.traffic 0 4).tile p = u.tile p := rfl
  rw [State.guardPois_effect (.inl hpois), hload.tile, htile, Tile.proxIn_vec, hprox]
  exact hload.regDone

/-- LDV in FP32 with the port granted: the register holds the 256 elements that the bytes give. -/
theorem ldv_done (hr : s.RegsOk) (ht : FMap.wf {} s.tiles = true) (hissue : s.issues p (o.word 0x30) = true)
    (hport : s.localReady p = false ∨ 3 ≤ (s.tile p).vec.portWait) (hfmt : o.fmt = 0) (hin : (s.tile p).vec.memAddr o + 1024 ≤ 6 * 2 ^ 20)
    (hclean : ((s.tile p).store.read ((s.tile p).vec.memAddr o) 1024).any Prod.snd = false)
    (hprox : (s.tile p).proxIn ((s.tile p).vec.memAddr o) 1024 = false) :
    ∃ t, exec (.ldv p o []) s = .next t ∧ vecWent p ({ s with scrubs := t.scrubs }.portGranted p) t ∧ vecOtherRegs p o.d s t
      ∧ ∀ l, l < 256 → ((t.tile p).vec.lane o.d l).v.toNat = leNat (((s.tile p).store.read ((s.tile p).vec.memAddr o + 4 * l) 4).map Prod.fst) := by
  have htile := State.portGranted_tile (p := p) ht
  have hok : ((s.portGranted p).tile p).vec.memOk o = true := by
    rw [htile]
    exact Vec.memOk_fp32 hfmt hin
  have haddr : ((s.portGranted p).tile p).vec.memAddr o = (s.tile p).vec.memAddr o := by
    rw [htile]
    rfl
  have hstore : ((s.portGranted p).tile p).store = (s.tile p).store := by rw [htile]
  have hdone := loadFp32_done (p := p) (o := o) (u := s.portGranted p) hr (State.modTile_tilesOk ht) (by rw [haddr, hstore]; exact hclean)
    (by rw [haddr, htile]; exact hprox)
  obtain ⟨hwent, hothers, hlane⟩ := hdone
  have hscrubs : ((s.portGranted p).loadFp32 p o).scrubs = ((s.portGranted p).traffic 0 4).scrubs := vecOnly_scrubs hwent.1
  refine ⟨_, exec_ldv_fp32 hissue hport hfmt hok, ?_, ?_, fun l hl => ?_⟩
  · rw [hscrubs]
    exact hwent
  · unfold vecOtherRegs at hothers ⊢
    rw [show ((s.portGranted p).traffic 0 4).tile p = _ from htile] at hothers
    exact hothers
  · rw [hlane l hl, fp32Reg_read _ _ hl, haddr, hstore]

end Sys2Proof.Machine
end

section
/-! ## STV in FP32 (R114)

The bytes of 256 elements, four to each; what a write of bytes without poison leaves outside them; then the instruction. -/

namespace Sys2Proof.Machine

variable {p : Nat} {o : MOp} {s u : State}

/-! ### The bytes of a register -/

theorem leBytes_length (n x : Nat) : (leBytes n x).length = n := by
  induction n generalizing x with
  | zero => rfl
  | succ n ih => rw [leBytes, List.length_cons, ih]

theorem leNat_leBytes (n x : Nat) : leNat (leBytes n x) = x % 256 ^ n := by
  induction n generalizing x with
  | zero => rw [leBytes, leNat, Nat.pow_zero, Nat.mod_one]
  | succ n ih =>
    rw [leBytes, leNat, ih, BitVec.toNat_ofNat, show 256 ^ (n + 1) = 256 * 256 ^ n from Nat.pow_succ', Nat.mod_mul]

/-- Lists of `k` elements each, one after the other: their length, and where the elements of each stand. -/
theorem flatMap_range {α : Type} (g : Nat → List α) (k n : Nat) (hg : ∀ l, (g l).length = k) :
    ((List.range n).flatMap g).length = k * n ∧ ∀ l i, l < n → i < k → ((List.range n).flatMap g)[k * l + i]? = (g l)[i]? := by
  induction n with
  | zero => exact ⟨rfl, fun l i hl => absurd hl (by omega)⟩
  | succ n ih =>
    obtain ⟨hlen, hget⟩ := ih
    rw [List.range_succ, List.flatMap_append, List.flatMap_singleton]
    refine ⟨by rw [List.length_append, hlen, hg, Nat.mul_succ], fun l i hl hi => ?_⟩
    obtain rfl | hlt : l = n ∨ l < n := by omega
    · rw [List.getElem?_append_right (by omega), hlen, Nat.add_sub_cancel_left]
    · have hin : k * (l + 1) ≤ k * n := Nat.mul_le_mul_left k hlt
      rw [Nat.mul_succ] at hin
      rw [List.getElem?_append_left (by omega), hget l i hlt hi]

/-- The bytes of 256 FP32 elements, each with its element's poison. -/
def fp32Bytes (f : Nat → Elem) : List (Byte × Bool) :=
  (List.range 256).flatMap fun l => (leBytes 4 (f l).v.toNat).map fun b => (b, (f l).p)

theorem fp32Bytes_get (f : Nat → Elem) : (fp32Bytes f).length = 1024
    ∧ ∀ l i, l < 256 → i < 4 → (fp32Bytes f)[4 * l + i]? = ((leBytes 4 (f l).v.toNat)[i]?).map fun b => (b, (f l).p) := by
  obtain ⟨hlen, hget⟩ := flatMap_range (fun l => (leBytes 4 (f l).v.toNat).map fun b => (b, (f l).p)) 4 256 fun l => by
    rw [List.length_map, leBytes_length]
  refine ⟨hlen, fun l i hl hi => ?_⟩
  rw [fp32Bytes, hget l i hl hi, List.getElem?_map]

theorem fp32Bytes_clean {f : Nat → Elem} (h : ∀ l, (f l).p = false) : ∀ b ∈ fp32Bytes f, b.2 = false := by
  intro b hb
  obtain ⟨l, -, hl⟩ := List.mem_flatMap.1 hb
  obtain ⟨x, -, rfl⟩ := List.mem_map.1 hl
  exact h l

/-! ### A write of bytes without poison -/

theorem poisOf_clean {bs : List (Byte × Bool)} (h : ∀ b ∈ bs, b.2 = false) (a w : Nat) : poisOf a bs w = false := by
  refine any_false_of_forall fun k => ?_
  rw [Bool.and_eq_false_iff]
  refine .inr ?_
  cases hb : bs[8 * w + k - a]? with
  | none => rfl
  | some b => exact h b (List.mem_of_getElem? hb)

/-- The word of a byte outside a write keeps its poison, where the write brings none. -/
theorem Content.poisoned_settlePois_outside {c : Content} (hc : FMap.wf false c.pois = true) {a n x : Nat} {pw : Nat → Bool}
    (hpw : ∀ w, pw w = false) (hx : x < a ∨ a + n ≤ x) : (c.settlePois a n pw).poisoned x = c.poisoned x := by
  unfold Content.settlePois
  split
  · rfl
  · refine (each_ind (fun t : Content => FMap.wf false t.pois = true ∧ t.poisoned x = c.poisoned x) _ _ _ ⟨hc, rfl⟩ fun t k _ ih => ?_).2
    obtain ⟨hwf, hsame⟩ := ih
    refine ⟨FMap.wf_set _ _ _ _ hwf, ?_⟩
    rw [← hsame, Content.poisoned, Content.setPois, FMap.get_set _ _ _ _ _ hwf]
    by_cases hw : x / 8 = a / 8 + k
    · rw [if_pos hw, hpw, Bool.or_false, if_neg, ← hw]
      · rfl
      · rw [Bool.and_eq_true, decide_eq_true_eq, decide_eq_true_eq]
        omega
    · rw [if_neg hw]
      rfl

theorem Content.putBytes_pois (bs : List Byte) (c : Content) (a : Nat) : (c.putBytes a bs).pois = c.pois := by
  induction bs generalizing c a with
  | nil => rfl
  | cons b bs ih => exact ih _ _

/-- Bytes outside a write without poison. -/
theorem Content.read_writeP_outside {c : Content} (hb : FMap.wf 0 c.bytes = true) (hp : FMap.wf false c.pois = true) {a x : Nat}
    {bs : List (Byte × Bool)} (hbs : ∀ b ∈ bs, b.2 = false) (hx : x < a ∨ a + bs.length ≤ x) : (c.writeP a bs).read x 1 = c.read x 1 := by
  have hbyte : (c.writeP a bs).byte x = c.byte x := by
    rw [Content.writeP, Content.byte_write _ _ _ _ _ hb, if_neg]
    rw [List.length_map]
    omega
  have hpois : (c.writeP a bs).poisoned x = c.poisoned x := by
    have hput : (c.putBytes a (bs.map Prod.fst)).pois = c.pois := Content.putBytes_pois _ _ _
    rw [Content.writeP, Content.write, Content.poisoned_settlePois_outside (hput ▸ hp) (poisOf_clean hbs a) (by rwa [List.length_map]),
      Content.poisoned, hput, Content.poisoned]
  exact congrArg₂ (fun b q => [(b, q)]) hbyte hpois

/-- An element read after a register has been written. -/
theorem Content.read_writeP_fp32 {c : Content} (hb : FMap.wf 0 c.bytes = true) (a : Nat) (f : Nat → Elem) {l : Nat} (hl : l < 256) :
    leNat (((c.writeP a (fp32Bytes f)).read (a + 4 * l) 4).map Prod.fst) = (f l).v.toNat := by
  obtain ⟨hlen, hget⟩ := fp32Bytes_get f
  have hbytes : ((c.writeP a (fp32Bytes f)).read (a + 4 * l) 4).map Prod.fst = leBytes 4 (f l).v.toNat := by
    refine List.ext_getElem (by rw [List.length_map, Content.read_length, leBytes_length]) fun i hi hj => ?_
    rw [leBytes_length] at hj
    have hin : a ≤ a + 4 * l + i ∧ a + 4 * l + i < a + ((fp32Bytes f).map Prod.fst).length := by
      rw [List.length_map, hlen]
      omega
    simp only [Content.read, List.getElem_map, List.getElem_range]
    rw [Content.writeP, Content.byte_write _ _ _ _ _ hb, if_pos hin, show a + 4 * l + i - a = 4 * l + i by omega, List.getD_eq_getElem?_getD,
      List.getElem?_map, hget l i hl hj, List.getElem?_eq_getElem (by rwa [leBytes_length])]
    rfl
  rw [hbytes, leNat_leBytes]
  exact Nat.mod_eq_of_lt (f l).v.isLt

/-! ### Lanes without flags -/

theorem State.raiseNum_zero (s : State) (p b : Nat) : s.raiseNum p b 0 = s := by
  unfold State.raiseNum
  split
  · rfl
  · rfl

/-- Operations that set no flag set none of those with a number. -/
theorem flagged_none {fs : List NFlags} (h : ∀ f ∈ fs, f = {}) (b : Nat) :
    (fs.filter fun f => f.toList.any fun e => e.1 = b && e.2).length = 0 := by
  rw [List.length_eq_zero_iff, List.filter_eq_nil_iff]
  intro f hf hany
  rw [h f hf] at hany
  obtain ⟨e, he, hset⟩ := List.any_eq_true.1 hany
  have hclear : ∀ e ∈ ({} : NFlags).toList, e.2 = false := by decide
  rw [hclear e he, Bool.and_false] at hset
  exact absurd hset (by decide)

theorem State.vecFlags_quiet {fs : List (Nat × NFlags)} (h : ∀ f ∈ fs, f.2 = {}) : s.vecFlags p fs = s.modVec p (·.flagged fs) := by
  have hnone : ∀ f ∈ fs.map Prod.snd, f = {} := fun f hf => by
    obtain ⟨e, he, rfl⟩ := List.mem_map.1 hf
    exact h e he
  have hnums : ∀ (u : State) (logno : Nat), u.raiseNums p logno (fs.map Prod.snd) = u := fun u logno => by
    have hcovf : ¬ (fs.map Prod.snd).any (·.covf) = true := fun hany => by
      obtain ⟨f, hf, hset⟩ := List.any_eq_true.1 hany
      rw [hnone f hf] at hset
      exact absurd hset (by decide)
    rw [State.raiseNums, if_neg hcovf]
    refine each_ind (· = u) _ _ _ rfl fun t b _ ht => ?_
    rw [flagged_none hnone, State.raiseNum_zero, ht]
  have hevents : ∀ u : State, u.laneEvents p (fs.map Prod.snd) = u := fun u => by
    refine each_ind (· = u) _ _ _ rfl fun t b _ ht => ?_
    rw [flagged_none hnone, ht]
    rfl
  rw [State.vecFlags, hnums, hevents]
  rfl

/-! ### STV -/

/-- The lanes of an FP32 store, none with a flag. -/
def quietLanes : List (Nat × NFlags) := (List.range 256).map fun l => (l, {})

theorem quietLanes_quiet : ∀ f ∈ quietLanes, f.2 = {} := by
  intro f hf
  obtain ⟨l, -, rfl⟩ := List.mem_map.1 hf
  rfl

/-- Register `d` of the engine written to the store at the instruction's address. -/
def State.writeFp32 (s : State) (p : Nat) (o : MOp) : State :=
  s.storeWrite p ((s.tile p).vec.memAddr o) (fp32Bytes ((s.tile p).vec.lane o.d))

/-- What STV in FP32 does once it has the port, with no poison in the register. -/
def State.storeFp32 (s : State) (p : Nat) (o : MOp) : State :=
  ((s.writeFp32 p o).vecFlags p quietLanes).vecDone p

theorem exec_stv_fp32 (hissue : s.issues p (o.word 0x31) = true) (hport : s.localReady p = false ∨ 3 ≤ (s.tile p).vec.portWait) (hfmt : o.fmt = 0)
    (hok : ((s.portGranted p).tile p).vec.memOk o = true) (hclean : ∀ l, (((s.portGranted p).tile p).vec.lane o.d l).p = false) :
    exec (.stv p o) s = .next ((s.portGranted p).storeFp32 p o) := by
  refine (exec_of_issues (e := execStv p o) hissue rfl rfl).trans (congrArg _ ?_)
  have hpois : ((List.range 256).any fun l => (((s.portGranted p).tile p).vec.lane o.d l).p) = false := any_false_of_forall hclean
  rw [State.portTurn_goes hport]
  dsimp only
  rw [hok, hfmt, hpois, State.guardPois_effect (.inl rfl), if_neg (by decide), if_neg (by decide)]
  simp only [mfmtBytes, storeElem, when, if_false, Bool.false_eq_true, List.flatMap_map, List.map_map, Function.comp_def]
  rfl

theorem storeFp32_eq (s : State) (p : Nat) (o : MOp) :
    s.storeFp32 p o = ((s.writeFp32 p o).modVec p (·.flagged quietLanes)).vecDone p := by
  rw [State.storeFp32, State.vecFlags_quiet quietLanes_quiet]

theorem State.storeWrite_tile (ht : FMap.wf {} s.tiles = true) (a : Nat) (bs : List (Byte × Bool)) :
    (s.storeWrite p a bs).tile p = { s.tile p with store := (s.tile p).store.writeP a bs } :=
  State.tile_modTile_same (s := s) (g := fun t => { t with store := t.store.writeP a bs }) ht

theorem State.storeWrite_tile_ne {q : Nat} (hq : q ≠ p) (a : Nat) (bs : List (Byte × Bool)) : (s.storeWrite p a bs).tile q = s.tile q :=
  State.tile_modTile_ne (s := s) (g := fun t => { t with store := t.store.writeP a bs }) hq

theorem State.storeWrite_tilesOk (ht : FMap.wf {} s.tiles = true) (a : Nat) (bs : List (Byte × Bool)) :
    FMap.wf {} (s.storeWrite p a bs).tiles = true :=
  State.modTile_tilesOk (s := s) (g := fun t => { t with store := t.store.writeP a bs }) ht

/-- The content of a store after STV. -/
def State.storedFp32 (s : State) (p : Nat) (o : MOp) : Content :=
  (s.tile p).store.writeP ((s.tile p).vec.memAddr o) (fp32Bytes ((s.tile p).vec.lane o.d))

theorem storeFp32_tile (ht : FMap.wf {} s.tiles = true) :
    (s.storeFp32 p o).tile p = { s.tile p with vec := ((s.tile p).vec.flagged quietLanes).advance, store := s.storedFp32 p o }
      ∧ ∀ q, q ≠ p → (s.storeFp32 p o).tile q = s.tile q := by
  have hwritten : (s.writeFp32 p o).tile p = { s.tile p with store := s.storedFp32 p o } := State.storeWrite_tile ht _ _
  have hok : FMap.wf {} (s.writeFp32 p o).tiles = true := State.storeWrite_tilesOk ht _ _
  rw [storeFp32_eq]
  refine ⟨?_, fun q hq => ?_⟩
  · have hflagged : FMap.wf {} ((s.writeFp32 p o).modVec p (·.flagged quietLanes)).tiles = true := State.modTile_tilesOk hok
    rw [State.vecDone_tile hflagged, State.modVec_tile hok, hwritten]
  · rw [State.vecDone_tile_ne hq, State.modVec_tile_ne hq]
    exact State.storeWrite_tile_ne hq _ _

theorem regsTilesOnly_refl (s : State) : regsTilesOnly s s := rfl

/-- Accesses are counted, and nothing else changes. -/
theorem traffic_rest {t : State} (h : regsTilesOnly s t) (mem lines : Nat) :
    { t.traffic mem lines with regs := s.regs, tiles := s.tiles, scrubs := s.scrubs } = s := by
  have hsame := congrArg (fun x : State => { x with scrubs := s.scrubs }) h
  exact hsame

theorem rest_of_regsTilesOnly {w t : State} (h : regsTilesOnly w t) (hw : { w with regs := s.regs, tiles := s.tiles, scrubs := s.scrubs } = s) :
    { t with regs := s.regs, tiles := s.tiles, scrubs := s.scrubs } = s := by
  have hsame := congrArg (fun x : State => { x with regs := s.regs, tiles := s.tiles, scrubs := s.scrubs }) h
  exact hsame.trans hw

theorem storeFp32_rest (h : regsTilesOnly s u) : { u.storeFp32 p o with regs := s.regs, tiles := s.tiles, scrubs := s.scrubs } = s := by
  refine rest_of_regsTilesOnly (w := u.writeFp32 p o) ?_ (traffic_rest h.modTile _ _)
  rw [storeFp32_eq]
  exact ((regsTilesOnly_refl _).modTile.modTile).setReg

theorem State.vecDone_nins_of_regs {t : State} (hr : s.RegsOk) (h : t.regs = s.regs) :
    (t.vecDone p).get F.VEC_NINS_COUNT p = (s.get F.VEC_NINS_COUNT p + 1) % 2 ^ 64 := by
  have hget : t.get F.VEC_NINS_COUNT p = s.get F.VEC_NINS_COUNT p := by rw [State.get, State.get, h]
  have hok : t.RegsOk := by
    rw [State.RegsOk, h]
    exact hr
  rw [State.vecDone_nins hok, hget]

theorem State.storeWrite_regs (s : State) (p a : Nat) (bs : List (Byte × Bool)) : (s.storeWrite p a bs).regs = s.regs := rfl

theorem Vec.flagged_advance_pc (v : Vec) (fs : List (Nat × NFlags)) : (v.flagged fs).advance.pc = v.advance.pc := by
  rw [Vec.flagged_eq]
  rfl

/-- STV in FP32 with the port granted: 1024 bytes of the store hold the register, and no other byte has changed. -/
theorem stv_done (hr : s.RegsOk) (ht : FMap.wf {} s.tiles = true) (hissue : s.issues p (o.word 0x31) = true)
    (hport : s.localReady p = false ∨ 3 ≤ (s.tile p).vec.portWait) (hfmt : o.fmt = 0) (hin : (s.tile p).vec.memAddr o + 1024 ≤ 6 * 2 ^ 20)
    (hclean : ∀ r l, ((s.tile p).vec.lane r l).p = false) (hbytes : FMap.wf 0 (s.tile p).store.bytes = true)
    (hpois : FMap.wf false (s.tile p).store.pois = true) :
    ∃ t, exec (.stv p o) s = .next t ∧ vecOtherRegs p 64 s t ∧ (∀ q, q ≠ p → t.tile q = s.tile q) ∧ (t.tile p).vec.pc = (s.tile p).vec.advance.pc
      ∧ t.get F.VEC_NINS_COUNT p = (s.get F.VEC_NINS_COUNT p + 1) % 2 ^ 64
      ∧ (∀ l, l < 256 → leNat (((t.tile p).store.read ((s.tile p).vec.memAddr o + 4 * l) 4).map Prod.fst) = ((s.tile p).vec.lane o.d l).v.toNat)
      ∧ (∀ k, (k < (s.tile p).vec.memAddr o ∨ (s.tile p).vec.memAddr o + 1024 ≤ k) → (t.tile p).store.read k 1 = (s.tile p).store.read k 1)
      ∧ { t with regs := s.regs, tiles := s.tiles, scrubs := s.scrubs } = s := by
  have hvec := State.portGranted_vec (p := p) ht
  have htile := State.portGranted_tile (p := p) ht
  have hlane : ∀ r l, ((s.portGranted p).tile p).vec.lane r l = (s.tile p).vec.lane r l := fun r l => by
    rw [hvec]
    rfl
  have hstored : (s.portGranted p).storedFp32 p o = (s.tile p).store.writeP ((s.tile p).vec.memAddr o) (fp32Bytes ((s.tile p).vec.lane o.d)) := by
    rw [State.storedFp32, htile]
    rfl
  have hok : ((s.portGranted p).tile p).vec.memOk o = true := by
    rw [hvec]
    exact Vec.memOk_fp32 hfmt hin
  have hnopois : ∀ b ∈ fp32Bytes ((s.tile p).vec.lane o.d), b.2 = false := fp32Bytes_clean (hclean o.d)
  have hlen : (fp32Bytes ((s.tile p).vec.lane o.d)).length = 1024 := (fp32Bytes_get _).1
  obtain ⟨hsame, hothers⟩ := storeFp32_tile (p := p) (o := o) (s := s.portGranted p) (State.modTile_tilesOk ht)
  refine ⟨_, exec_stv_fp32 hissue hport hfmt hok fun l => (congrArg Elem.p (hlane o.d l)).trans (hclean o.d l), ?_, fun q hq => ?_, ?_, ?_,
    fun l hl => ?_, fun k hk => ?_, ?_⟩
  · refine vecOtherRegs_of_vec (w := ((s.portGranted p).tile p).vec.flagged quietLanes) (by rw [hsame]) (fun r l _ _ => ?_) ?_ ?_ ?_
    · rw [Vec.flagged_lane, hlane]
    · rw [Vec.flagged_m, hvec]
    · rw [Vec.flagged_sr, hvec]
    · rw [Vec.flagged_q, hvec]
  · rw [hothers q hq]
    exact State.modVec_tile_ne hq
  · rw [hsame, hvec, Vec.flagged_advance_pc]
    rfl
  · rw [storeFp32_eq]
    refine State.vecDone_nins_of_regs hr ?_
    rw [State.modVec, State.modTile_regs, State.writeFp32, State.storeWrite_regs, State.portGranted, State.modVec, State.modTile_regs]
  · rw [hsame, hstored]
    exact Content.read_writeP_fp32 hbytes _ _ hl
  · rw [hsame, hstored]
    exact Content.read_writeP_outside hbytes hpois hnopois (by rwa [hlen])
  · exact storeFp32_rest (regsTilesOnly_refl s).modTile

end Sys2Proof.Machine
end

section
/-! ## The scalar, queue, load, store and END instructions (R103, R109, R114, R117, R120) -/

namespace Sys2Proof.Machine

variable {p : Nat} {s : State}

/-- The scalars an SFOP names in its immediate. -/
theorem sfop_fields (imm : Nat) : bits imm 7 5 = imm / 32 % 8 ∧ bits imm 4 0 = imm % 32 := by
  simp only [bits, Nat.shiftRight_eq_div_pow]
  norm_num

/-- A row pair written into an entry of the queue. -/
def Tile.withPair (t : Tile) (e q : Nat) (f : Nat → Elem) : Tile := { t with ftq := modAt t.ftq e fun x => x.withPair q f }

theorem stt_done (ht : FMap.wf {} s.tiles = true) {o : TOp} {x : FtqEntry} (hissue : s.issues p (o.word 0x29) = true)
    (hx : (s.tile p).ftq[o.e]? = some x) (hown : x.task = (s.tile p).vec.task) (hclean : ∀ r l, ((s.tile p).vec.lane r l).p = false) :
    ∃ t, exec (.stt p o) s = .next t
      ∧ (t.tile p).ftq = (s.tile p).ftq.set o.e (x.withPair (s.tile p).vec.q ((s.tile p).vec.lane o.d))
      ∧ vecOtherRegs p 64 s t ∧ { t with regs := s.regs, tiles := s.tiles } = s := by
  have hpois : ((List.range 256).any fun l => ((s.tile p).vec.lane o.d l).p) = false := any_false_of_forall fun _ => hclean _ _
  have hgo : exec (.stt p o) s = .next ((s.modTile p fun t => t.withPair o.e (s.tile p).vec.q ((s.tile p).vec.lane o.d)).vecDone p) := by
    refine (exec_of_issues (e := execStt p o) hissue rfl rfl).trans (congrArg _ ((State.onEntry_own hx hown).trans ?_))
    dsimp only
    rw [hpois, State.guardPois_effect (.inl rfl)]
    rfl
  obtain ⟨htile, hregs, hrest⟩ := queue_done (p := p) (g := fun t => t.withPair o.e (s.tile p).vec.q ((s.tile p).vec.lane o.d)) ht rfl
  refine ⟨_, hgo, ?_, hregs, hrest⟩
  rw [htile, Tile.withPair, modAt_eq_set hx]

theorem popt_done (hr : s.RegsOk) (ht : FMap.wf {} s.tiles = true) {x : FtqEntry} {l : List FtqEntry}
    (hissue : s.issues p (({} : TOp).word 0x2A) = true) (hq : (s.tile p).ftq = x :: l) (hown : x.task = (s.tile p).vec.task) :
    ∃ t, exec (.popt p) s = .next t ∧ (t.tile p).ftq = l ∧ (t.tile p).ftqHead = ((s.tile p).ftqHead + 1) % 8 ∧ vecOtherRegs p 64 s t
      ∧ t.get F.VEC_NINS_COUNT p = (s.get F.VEC_NINS_COUNT p + 1) % 2 ^ 64 ∧ { t with regs := s.regs, tiles := s.tiles } = s := by
  have hgo : exec (.popt p) s = .next ((s.modTile p (·.popEntry)).vecDone p) := by
    refine (exec_of_issues (e := execPopt p) hissue rfl rfl).trans (congrArg _ ?_)
    dsimp only
    rw [hq, List.isEmpty_cons, Bool.false_and, if_neg (by decide), State.onEntry_own (by rw [hq]; rfl) hown]
  obtain ⟨htile, hregs, hrest⟩ := queue_done (p := p) (g := Tile.popEntry) ht rfl
  refine ⟨_, hgo, ?_, ?_, hregs, State.vecDone_nins_of_regs hr (State.modTile_regs _ _ _), hrest⟩
  · rw [htile, Tile.popEntry, hq]
    rfl
  · rw [htile, Tile.popEntry]

theorem ldt_done (hr : s.RegsOk) (ht : FMap.wf {} s.tiles = true) {o : TOp} {x : FtqEntry} (hissue : s.issues p (o.word 0x28) = true)
    (hx : (s.tile p).ftq[o.e]? = some x) (hown : x.task = (s.tile p).vec.task) (hclean : ∀ k, (x.vals.get {} k).p = false) :
    ∃ t, exec (.ldt p o) s = .next t ∧ vecWent p s t ∧ vecOtherRegs p o.d s t
      ∧ ∀ l, l < 256 → (t.tile p).vec.lane o.d l = x.vals.get {} (256 * (s.tile p).vec.q + l) :=
  have hpois : ((List.range 256).any fun l => (x.vals.get {} (pairIdx (s.tile p).vec.q l)).p) = false := any_false_of_forall fun _ => hclean _
  ⟨_, (exec_of_issues (e := execLdt p o) hissue rfl rfl).trans
    (congrArg _ ((State.onEntry_own hx hown).trans (State.guardPois_effect (.inl hpois)))), putReg_done hr ht _⟩

theorem ldv_waits (ht : FMap.wf {} s.tiles = true) {o : MOp} {errs : List (Nat × Nat)} (hissue : s.issues p (o.word 0x30) = true)
    (hready : s.localReady p = true) (hwait : (s.tile p).vec.portWait < 3) :
    ∃ t, exec (.ldv p o errs) s = .next t ∧ (t.tile p).vec = { (s.tile p).vec with wait := 3 } ∧ t.regs = s.regs ∧ onlyTile p s t :=
  ⟨_, (exec_of_issues (e := execLdv p o errs) hissue rfl rfl).trans (congrArg _ (State.portTurn_waits hready hwait)),
    by rw [State.modVec_tile ht], rfl, rfl, fun _ hq => State.modVec_tile_ne hq⟩

/-- Settles O36: a scalar, the row pair, an entry of the queue, a register or 1024 bytes of the store change, or the routine ends or waits. -/
theorem vectorScalarsQueueAndMemory : Obligations.VectorScalarsQueueAndMemory := by
  intro p s hr ht hsr hclean
  refine ⟨fun hissue => ?_, fun cnt len hissue => ?_, fun o hissue => ?_, fun o hissue => ?_, fun o hissue himm => ?_, fun o hissue => ?_,
    fun o hissue => ?_, fun o x hissue hx hown hpois => ldt_done hr ht hissue hx hown hpois, fun o x hissue hx hown hvals => ?_,
    fun o x hissue hx hown => ?_, fun x l hissue hq hown => popt_done hr ht hissue hq hown, fun o hissue hx => ?_,
    fun o errs hissue hready hwait => ldv_waits ht hissue hready hwait,
    fun o hissue hport hfmt hin hbytes hprox => ldv_done hr ht hissue hport hfmt hin hbytes hprox,
    fun o hissue hport hfmt hin hbytes hpois => stv_done hr ht hissue hport hfmt hin hclean hbytes hpois,
    fun hissue hlen _ => endRoutine_done hr ht hissue hlen⟩
  · exact ⟨_, exec_of_issues (e := execNop p) hissue rfl rfl, (Engine.refl hr ht).noFlags.flagsDone⟩
  · exact ⟨_, exec_of_issues (e := execLoop p cnt len) hissue rfl rfl,
      loop_done hr ht fun v => { first := v.pc + 1, last := v.pc + len, left := cnt } :: v.loops⟩
  · exact ⟨_, exec_of_issues (e := execSli p o) hissue rfl rfl, putScalar_done hr ht hsr fun _ => o.imm * 2 ^ 16⟩
  · exact ⟨_, exec_of_issues (e := execSori p o) hissue rfl rfl, putScalar_done hr ht hsr fun v => v.scalar o.sa ||| o.imm⟩
  · obtain ⟨hwent, hwritten⟩ := putScalar_done (p := p) (d := o.sd) hr ht hsr fun v => wrap 32 ((v.scalar o.sa : Int) + sext 16 o.imm)
    exact ⟨_, exec_of_issues (e := execSadd p o) hissue rfl rfl, hwent, scalarWritten_mod (wrap_add_sext himm) hwritten⟩
  · obtain ⟨hop, hsrc⟩ := sfop_fields o.imm
    rw [← hop, ← hsrc]
    exact ⟨_, exec_of_issues (e := execSfop p o) hissue rfl rfl, sfop_done hr ht hsr _ _ _⟩
  · exact ⟨_, exec_of_issues (e := execSetq p o) hissue rfl rfl, setq_done hr ht fun v => if o.sub = 0 then o.imm % 64 else (v.q + 1) % 64⟩
  · obtain ⟨t, hexec, hftq, hregs, hrest⟩ := stt_done ht hissue hx hown hclean
    obtain ⟨hnew, hold⟩ := FtqEntry.withPair_get hvals (s.tile p).vec.q ((s.tile p).vec.lane o.d)
    exact ⟨t, _, hexec, hftq, rfl, rfl, hnew, hold, hregs, hrest⟩
  · obtain ⟨hwent, hwritten⟩ := putScalar_done (p := p) (d := o.d) hr ht hsr fun _ => if o.sub = 0 then x.tag % 2 ^ 32 else x.tag / 2 ^ 32
    refine ⟨_, (exec_of_issues (e := execTag p o) hissue rfl rfl).trans (congrArg _ (State.onEntry_own hx hown)), hwent, scalarWritten_mod ?_ hwritten⟩
    split
    · exact Nat.mod_mod _ _
    · rfl
  · exact ⟨_, (exec_of_issues (e := execLdt p o) hissue rfl rfl).trans (congrArg _ (State.onEntry_none hx)), queueWait_done hr ht⟩

end Sys2Proof.Machine
end

section
/-! ## Register writes, read back

What the writes of a chain of register writes read as: a write of the value that a field holds changes nothing, a static field of a stopped unit is
simply written, and a chain of writes leaves alone every field that no link of it names. -/

namespace Sys2Proof.Machine

/-! ### Bits of a written word -/

theorem bit_iff (n i : Nat) : bit n i = true ↔ n / 2 ^ i % 2 = 1 := by
  simp only [bit, Nat.shiftRight_eq_div_pow, decide_eq_true_eq]

theorem bit_eq_false_iff (n i : Nat) : bit n i = false ↔ n / 2 ^ i % 2 = 0 := by
  rw [← Bool.not_eq_true, bit_iff]
  omega

theorem bits_eq (n hi lo : Nat) : bits n hi lo = n / 2 ^ lo % 2 ^ (hi + 1 - lo) := by
  rw [bits, Nat.shiftRight_eq_div_pow]

theorem b2n_bit (n i : Nat) : b2n (bit n i) = n / 2 ^ i % 2 := by
  cases h : bit n i with
  | true => exact ((bit_iff n i).mp h).symm
  | false => exact ((bit_eq_false_iff n i).mp h).symm

/-! ### A write of what stands there already -/

theorem FMap.erase_of_get_eq_default {α : Type} [DecidableEq α] {d : α} {m : FMap α} {b i : Nat} (h : FMap.wfFrom d b m = true)
    (hi : FMap.get d m i = d) : FMap.erase m i = m := by
  induction m generalizing b with
  | nil => rfl
  | cons e m ih =>
    obtain ⟨k, v⟩ := e
    simp only [FMap.wfFrom, Bool.and_eq_true, decide_eq_true_eq] at h
    obtain ⟨⟨-, hv⟩, hm⟩ := h
    have hne : i ≠ k := fun he => hv (by simpa [FMap.get, he] using hi)
    rw [FMap.get, if_neg hne] at hi
    rw [FMap.erase, if_neg (Ne.symm hne), ih hm hi]

theorem FMap.put_get {α : Type} [DecidableEq α] {d : α} {m : FMap α} {b i : Nat} (h : FMap.wfFrom d b m = true)
    (hi : FMap.get d m i ≠ d) : FMap.put m i (FMap.get d m i) = m := by
  induction m generalizing b with
  | nil => exact absurd rfl hi
  | cons e m ih =>
    obtain ⟨k, v⟩ := e
    have hlow : k ≤ i := by
      by_contra hlt
      refine hi (FMap.get_of_wfFrom d ((k, v) :: m) k i ?_ (by omega))
      simp only [FMap.wfFrom, Bool.and_eq_true, decide_eq_true_eq] at h ⊢
      exact ⟨⟨le_rfl, h.1.2⟩, h.2⟩
    simp only [FMap.wfFrom, Bool.and_eq_true, decide_eq_true_eq] at h
    rw [FMap.put, if_neg (by omega)]
    by_cases hk : i = k
    · rw [if_pos hk, FMap.get, if_pos hk]
    · rw [FMap.get, if_neg hk] at hi ⊢
      rw [if_neg hk, ih h.2 hi]

/-- In a map in canonical form a write of what a key reads as is no change. -/
theorem FMap.set_get {α : Type} [DecidableEq α] {d : α} {m : FMap α} (h : FMap.wf d m = true) (i : Nat) :
    FMap.set d m i (FMap.get d m i) = m := by
  unfold FMap.set
  split
  next hd => exact FMap.erase_of_get_eq_default h hd
  next hd => exact FMap.put_get h hd

theorem State.setReg_of_get_eq {s : State} {f : Field} {v i : Nat} (hs : s.RegsOk) (h : s.get f i = v % 2 ^ f.width) : s.setReg f v i = s := by
  have hraw : v % 2 ^ f.width ^^^ f.rst = FMap.get 0 s.regs (f.key i) := by
    rw [← h, State.get, Nat.xor_assoc, Nat.xor_self, Nat.xor_zero]
  rw [State.setReg, hraw, FMap.set_get hs]

/-! ### Static fields (R169) -/

/-- While its unit is stopped a static field is written like any other. -/
theorem State.staticWrite_stopped {s : State} (hs : s.RegsOk) (f g : Field) (i v j ev : Nat) : s.staticWrite f i v true g j ev = s.setReg f v i := by
  unfold State.staticWrite
  split
  next h => exact (State.setReg_of_get_eq hs h).symm
  next => rfl

theorem State.staticWrite_refused {s : State} {f g : Field} {i v j ev : Nat} (h : s.get f i ≠ v % 2 ^ f.width) :
    s.staticWrite f i v false g j ev = (s.setReg g 1 j).offer ev := if_neg h

theorem State.staticWrite_unchanged {s : State} {f g : Field} {i v j ev : Nat} {stopped : Bool} (h : s.get f i = v % 2 ^ f.width) :
    s.staticWrite f i v stopped g j ev = s := if_pos h

/-! ### What a chain of writes leaves alone -/

theorem onlyRegs_refl (s : State) : onlyRegs s s := rfl

theorem onlyRegs.setReg {s t : State} (h : onlyRegs s t) {f : Field} {v i : Nat} : onlyRegs s (t.setReg f v i) := h

theorem onlyRegs.offer {s t : State} (h : onlyRegs s t) {code inc : Nat} {a : EvAttr} : onlyRegs s (t.offer code a inc) :=
  onlyRegs_trans h (State.offer_spec t code a inc).1

theorem onlyRegs.staticWrite {s t : State} (h : onlyRegs s t) {f g : Field} {i v j ev : Nat} {stopped : Bool} :
    onlyRegs s (t.staticWrite f i v stopped g j ev) := by
  unfold State.staticWrite
  split
  · exact h
  · split
    · exact h
    · exact onlyRegs.offer (t := t.raiseFlag g j) h

theorem onlyRegs.each {α : Type} {s t : State} (h : onlyRegs s t) {l : List α} {f : State → α → State}
    (hf : ∀ t a, a ∈ l → onlyRegs s t → onlyRegs s (f t a)) : onlyRegs s (each l f t) := each_ind _ l f t h hf

/-- What shows no register reads as before where only registers changed. -/
theorem onlyRegs.field {α : Type} {s t : State} (h : onlyRegs s t) (π : State → α) (hπ : ∀ (u : State) (regs : FMap Nat), π { u with regs := regs } = π u) :
    π t = π s :=
  (hπ t s.regs).symm.trans (congrArg π h)

section
variable {ok : Field → Nat → Prop} {s t : State}

theorem regsKept_refl (s : State) : regsKept ok s s := fun _ _ _ _ => rfl

/-- A link that writes a place which may change. -/
theorem regsKept.setReg (h : regsKept ok s t) {f : Field} {v i : Nat} (hf : f.id < 1024) (hok : ∀ g : Field, g.id = f.id → ok g i) :
    regsKept ok s (t.setReg f v i) := by
  intro g j hg hn
  rw [State.get_setReg_ne, h g j hg hn]
  rintro he
  obtain ⟨hid, rfl⟩ := (Field.key_inj hg hf).mp he
  exact hn (hok g hid)

theorem regsKept.mono {ok' : Field → Nat → Prop} (h : regsKept ok s t) (hok : ∀ f i, ok f i → ok' f i) : regsKept ok' s t :=
  fun f i hf hn => h f i hf fun h' => hn (hok f i h')

theorem regsKept.offer (h : regsKept ok s t) {code inc : Nat} {a : EvAttr} (hok : ∀ f i, evField f → ok f i) : regsKept ok s (t.offer code a inc) := by
  intro f i hf hn
  rw [State.get_offer _ _ _ _ _ _ hf fun he => hn (hok f i he)]
  exact h f i hf hn

theorem regsKept.each {α : Type} (h : regsKept ok s t) {l : List α} {f : State → α → State}
    (hf : ∀ t a, a ∈ l → regsKept ok s t → regsKept ok s (f t a)) : regsKept ok s (each l f t) := each_ind _ l f t h hf

end

theorem regsOk_each {α : Type} {s : State} (hs : s.RegsOk) {l : List α} {f : State → α → State} (hf : ∀ t a, t.RegsOk → (f t a).RegsOk) :
    (each l f s).RegsOk := each_ind State.RegsOk l f s hs fun t a _ => hf t a

/-- One field written at each of several places reads there as the last value written, where it is one value. -/
theorem State.get_each_setReg {s : State} (hs : s.RegsOk) (f : Field) (v : Nat) (l : List Nat) :
    ∀ i ∈ l, (each l (fun s i => s.setReg f v i) s).get f i = v % 2 ^ f.width := by
  refine each_reaches State.RegsOk (fun i t => t.get f i = v % 2 ^ f.width) hs (fun a _ t ht => t.setReg_regsOk f v a ht)
    (fun a _ t ht => State.get_setReg_same t f v a ht) fun a _ t b ht hb => ?_
  by_cases hab : b = a
  · rw [hab, State.get_setReg_same _ _ _ _ ht]
  · rw [State.get_setReg_idx _ _ _ _ _ hab, hb]

end Sys2Proof.Machine
end

section
/-! ## The controls of the event counters (R412, R414) -/

namespace Sys2Proof.Machine

variable {s : State}

/-! ### CLRALL and FREEZE -/

/-- The state after a write of EVT_GCTL, before FREEZE takes its bit. -/
def State.counts (s : State) (clear : Bool) : State := when clear (fun s => each (List.range 512) (fun s c => s.setReg F.EVT_CNT_COUNT 0 c) s) s

theorem State.gctl_eq (s : State) (d : Nat) : s.gctl d = (s.counts (bit d 1)).setReg F.EVT_GCTL_FREEZE (bits d 0 0) := rfl

theorem State.counts_kept (s : State) (clear : Bool) : regsKept (fun f _ => f.id = F.EVT_CNT_COUNT.id) s (s.counts clear) :=
  when_ind _ _ _ _ (regsKept_refl s) fun h => h.each fun _ _ _ ht => ht.setReg (by decide) fun _ he => he

theorem State.counts_onlyRegs (s : State) (clear : Bool) : onlyRegs s (s.counts clear) :=
  when_ind _ _ _ _ (onlyRegs_refl s) fun h => h.each fun _ _ _ ht => ht.setReg

theorem State.counts_regsOk (hs : s.RegsOk) (clear : Bool) : (s.counts clear).RegsOk :=
  when_ind _ _ _ _ hs fun h => regsOk_each h fun t a ht => t.setReg_regsOk _ _ a ht

theorem State.counts_cleared (hs : s.RegsOk) {k : Nat} (hk : k < 512) : (s.counts true).get F.EVT_CNT_COUNT k = 0 :=
  State.get_each_setReg hs F.EVT_CNT_COUNT 0 _ k (List.mem_range.mpr hk)

theorem gctl_done (hs : s.RegsOk) (d : Nat) :
    (s.gctl d).get F.EVT_GCTL_FREEZE = d % 2
      ∧ (d / 2 % 2 = 1 → ∀ k, k < 512 → (s.gctl d).get F.EVT_CNT_COUNT k = 0)
      ∧ (d / 2 % 2 = 0 → ∀ k, (s.gctl d).get F.EVT_CNT_COUNT k = s.get F.EVT_CNT_COUNT k)
      ∧ onlyRegs s (s.gctl d) ∧ regsKept (fun f _ => f.id = F.EVT_GCTL_FREEZE.id ∨ f.id = F.EVT_CNT_COUNT.id) s (s.gctl d) := by
  have hcount : ∀ k, (s.gctl d).get F.EVT_CNT_COUNT k = (s.counts (bit d 1)).get F.EVT_CNT_COUNT k := fun k => by
    rw [State.gctl_eq, State.get_setReg_id _ _ _ _ _ _ (by decide) (by decide) (by decide)]
  refine ⟨?_, fun h k hk => ?_, fun h k => ?_, (s.counts_onlyRegs _).setReg, ?_⟩
  · rw [State.gctl_eq, State.get_setReg_same _ _ _ _ (State.counts_regsOk hs _), bits_eq]
    simp [show F.EVT_GCTL_FREEZE.width = 1 from rfl]
  · rw [hcount, (bit_iff d 1).mpr h, State.counts_cleared hs hk]
  · rw [hcount, (bit_eq_false_iff d 1).mpr h]
    rfl
  · exact ((s.counts_kept _).mono fun _ _ h => .inr h).setReg (by decide) fun _ he => .inl he

/-! ### EN and MODE of one counter -/

/-- The sticky bits of a counter that the write clears. -/
def State.stickyCleared (s : State) (c d : Nat) : State :=
  when (bit d 2) (·.setReg F.EVT_CTL_SREF 0 c) (when (bit d 3) (·.setReg F.EVT_CTL_OVF 0 c) s)

/-- The counter's bits as far as MODE: the write of a counter that stays enabled judges MODE as a static field. -/
def State.modeWritten (s : State) (c d : Nat) (runs : Bool) : State :=
  (s.stickyCleared c d).staticWrite F.EVT_CTL_MODE c (bits d 1 1) (!runs) F.EVT_CTL_SREF c 0x000

/-- A start that is forgotten, where the counter does not stay enabled. -/
def State.startForgotten (s : State) (c : Nat) (runs : Bool) : State :=
  if runs then s else { s with evStarted := s.evStarted.set false c false }

theorem State.counterCtl_eq (s : State) (c d : Nat) : s.counterCtl c d =
    ((s.modeWritten c d (s.flag F.EVT_CTL_EN c && bit d 0)).startForgotten c (s.flag F.EVT_CTL_EN c && bit d 0)).setReg F.EVT_CTL_EN (b2n (bit d 0)) c := rfl

theorem State.startForgotten_regs (s : State) (c : Nat) (runs : Bool) : (s.startForgotten c runs).regs = s.regs := by
  unfold State.startForgotten
  split <;> rfl

theorem State.startForgotten_get (s : State) (c : Nat) (runs : Bool) (f : Field) (i : Nat) : (s.startForgotten c runs).get f i = s.get f i := by
  rw [State.get, State.startForgotten_regs, State.get]

theorem State.stickyCleared_regsOk (hs : s.RegsOk) (c d : Nat) : (s.stickyCleared c d).RegsOk :=
  when_ind _ _ _ _ (when_ind _ _ _ _ hs (State.setReg_regsOk _ _ _ _)) (State.setReg_regsOk _ _ _ _)

theorem State.stickyCleared_kept (s : State) (c d : Nat) :
    regsKept (fun f i => i = c ∧ (f.id = F.EVT_CTL_OVF.id ∨ f.id = F.EVT_CTL_SREF.id)) s (s.stickyCleared c d) :=
  when_ind _ _ _ _ (when_ind _ _ _ _ (regsKept_refl s) fun h => h.setReg (by decide) fun _ he => ⟨rfl, .inl he⟩)
    fun h => h.setReg (by decide) fun _ he => ⟨rfl, .inr he⟩

theorem State.stickyCleared_onlyRegs (s : State) (c d : Nat) : onlyRegs s (s.stickyCleared c d) :=
  when_ind _ _ _ _ (when_ind _ _ _ _ (onlyRegs_refl s) fun h => h.setReg) fun h => h.setReg

theorem State.stickyCleared_sref (hs : s.RegsOk) (c : Nat) {d : Nat} (h : bit d 2 = true) : (s.stickyCleared c d).get F.EVT_CTL_SREF c = 0 := by
  rw [State.stickyCleared, h]
  exact State.get_setReg_same _ _ _ _ (when_ind _ _ _ _ hs (State.setReg_regsOk _ _ _ _))

theorem State.stickyCleared_ovf (hs : s.RegsOk) (c : Nat) {d : Nat} (h : bit d 3 = true) : (s.stickyCleared c d).get F.EVT_CTL_OVF c = 0 := by
  have hinner : (s.setReg F.EVT_CTL_OVF 0 c).get F.EVT_CTL_OVF c = 0 := State.get_setReg_same _ _ _ _ hs
  rw [State.stickyCleared, h]
  exact when_ind (fun t : State => t.get F.EVT_CTL_OVF c = 0) _ _ _ hinner fun ht => by
    rw [State.get_setReg_id _ _ _ _ _ _ (by decide) (by decide) (by decide), ht]

theorem State.modeWritten_regsOk (hs : s.RegsOk) (c d : Nat) (runs : Bool) : (s.modeWritten c d runs).RegsOk :=
  (Follows.refl _).staticWrite.regsOk (State.stickyCleared_regsOk hs c d)

theorem State.modeWritten_onlyRegs (s : State) (c d : Nat) (runs : Bool) : onlyRegs s (s.modeWritten c d runs) :=
  (s.stickyCleared_onlyRegs c d).staticWrite

theorem counterCtl_en (hs : s.RegsOk) (c d : Nat) : (s.counterCtl c d).get F.EVT_CTL_EN c = d % 2 := by
  have hok : ((s.modeWritten c d (s.flag F.EVT_CTL_EN c && bit d 0)).startForgotten c (s.flag F.EVT_CTL_EN c && bit d 0)).RegsOk := by
    rw [State.RegsOk, State.startForgotten_regs]
    exact State.modeWritten_regsOk hs c d _
  rw [State.counterCtl_eq, State.get_setReg_same _ _ _ _ hok, b2n_bit]
  simp [show F.EVT_CTL_EN.width = 1 from rfl]

/-- Fields other than EN read as after the write of MODE. -/
theorem counterCtl_get (s : State) (c d : Nat) {f : Field} (i : Nat) (hf : f.id < 1024) (hne : f.id ≠ F.EVT_CTL_EN.id) :
    (s.counterCtl c d).get f i = (s.modeWritten c d (s.flag F.EVT_CTL_EN c && bit d 0)).get f i := by
  rw [State.counterCtl_eq, State.get_setReg_id _ _ _ _ _ _ (by decide) hf hne, State.startForgotten_get]

theorem counterCtl_frame (s : State) (c d : Nat) : { s.counterCtl c d with regs := s.regs, evStarted := s.evStarted } = s := by
  have hmode := s.modeWritten_onlyRegs c d (s.flag F.EVT_CTL_EN c && bit d 0)
  have hstart : { (s.modeWritten c d (s.flag F.EVT_CTL_EN c && bit d 0)).startForgotten c (s.flag F.EVT_CTL_EN c && bit d 0) with
      regs := s.regs, evStarted := s.evStarted } = s := by
    unfold State.startForgotten
    split <;> exact congrArg (fun t : State => { t with evStarted := s.evStarted }) hmode
  exact hstart

theorem counterCtl_kept (s : State) (c d : Nat) {ok : Field → Nat → Prop} (hen : ∀ f : Field, f.id = F.EVT_CTL_EN.id → ok f c)
    (h : regsKept ok s (s.modeWritten c d (s.flag F.EVT_CTL_EN c && bit d 0))) : regsKept ok s (s.counterCtl c d) := by
  rw [State.counterCtl_eq]
  refine regsKept.setReg (fun f i hf hn => ?_) (by decide) hen
  rw [State.startForgotten_get]
  exact h f i hf hn

/-- A counter that was stopped, or is stopped by the write, takes MODE and forgets any start. -/
theorem counterCtl_stopped (hs : s.RegsOk) {c d : Nat} (hst : FMap.wf false s.evStarted = true) (h : (s.flag F.EVT_CTL_EN c && bit d 0) = false) :
    (s.counterCtl c d).get F.EVT_CTL_MODE c = d / 2 % 2 ∧ (s.counterCtl c d).evStarted.get false c = false
      ∧ (d / 8 % 2 = 1 → (s.counterCtl c d).get F.EVT_CTL_OVF c = 0) ∧ (d / 4 % 2 = 1 → (s.counterCtl c d).get F.EVT_CTL_SREF c = 0)
      ∧ regsKept (fun f i => i = c ∧ (f.id = F.EVT_CTL_EN.id ∨ f.id = F.EVT_CTL_MODE.id ∨ f.id = F.EVT_CTL_OVF.id ∨ f.id = F.EVT_CTL_SREF.id)) s
        (s.counterCtl c d) := by
  have hok := State.stickyCleared_regsOk hs c d
  have hmode : s.modeWritten c d false = (s.stickyCleared c d).setReg F.EVT_CTL_MODE (bits d 1 1) c := State.staticWrite_stopped hok _ _ _ _ _ _
  have hget : ∀ {f : Field}, f.id < 1024 → f.id ≠ F.EVT_CTL_EN.id → f.id ≠ F.EVT_CTL_MODE.id →
      (s.counterCtl c d).get f c = (s.stickyCleared c d).get f c := fun hf hen hmo => by
    rw [counterCtl_get _ _ _ _ hf hen, h, hmode, State.get_setReg_id _ _ _ _ _ _ (by decide) hf hmo]
  refine ⟨?_, ?_, fun hb => ?_, fun hb => ?_, counterCtl_kept s c d (fun _ he => ⟨rfl, .inl he⟩) ?_⟩
  · rw [counterCtl_get _ _ _ _ (by decide) (by decide), h, hmode, State.get_setReg_same _ _ _ _ hok, bits_eq]
    simp [show F.EVT_CTL_MODE.width = 1 from rfl]
  · have hev : (s.stickyCleared c d).evStarted = s.evStarted := (s.stickyCleared_onlyRegs c d).field State.evStarted fun _ _ => rfl
    rw [State.counterCtl_eq, h, hmode]
    change FMap.get false ((s.stickyCleared c d).evStarted.set false c false) c = false
    rw [hev, FMap.get_set _ _ _ _ _ hst, if_pos rfl]
  · rw [hget (by decide) (by decide) (by decide), State.stickyCleared_ovf hs c ((bit_iff d 3).mpr hb)]
  · rw [hget (by decide) (by decide) (by decide), State.stickyCleared_sref hs c ((bit_iff d 2).mpr hb)]
  · rw [h, hmode]
    exact ((s.stickyCleared_kept c d).mono fun _ _ ⟨hi, he⟩ => ⟨hi, .inr (.inr he)⟩).setReg (by decide) fun _ he => ⟨rfl, .inr (.inl he)⟩

/-- A counter that stays enabled keeps its MODE and its start; another MODE is refused. -/
theorem counterCtl_running (hs : s.RegsOk) {c d : Nat} (h : (s.flag F.EVT_CTL_EN c && bit d 0) = true) :
    (s.counterCtl c d).evStarted = s.evStarted ∧ (s.counterCtl c d).get F.EVT_CTL_MODE c = s.get F.EVT_CTL_MODE c
      ∧ (s.get F.EVT_CTL_MODE c ≠ d / 2 % 2 → (s.counterCtl c d).get F.EVT_CTL_SREF c = 1) := by
  have hok := State.stickyCleared_regsOk hs c d
  have hold : (s.stickyCleared c d).get F.EVT_CTL_MODE c = s.get F.EVT_CTL_MODE c := s.stickyCleared_kept c d _ _ (by decide) (by simp; decide)
  have hbit : bits d 1 1 % 2 ^ F.EVT_CTL_MODE.width = d / 2 % 2 := by
    rw [bits_eq]
    simp [show F.EVT_CTL_MODE.width = 1 from rfl]
  have hrefused : s.get F.EVT_CTL_MODE c ≠ d / 2 % 2 → s.modeWritten c d true = ((s.stickyCleared c d).setReg F.EVT_CTL_SREF 1 c).offer 0 := fun hne =>
    State.staticWrite_refused (by rwa [hold, hbit])
  refine ⟨?_, ?_, fun hne => ?_⟩
  · rw [State.counterCtl_eq, h]
    exact (s.modeWritten_onlyRegs c d true).field State.evStarted fun _ _ => rfl
  · rw [counterCtl_get _ _ _ _ (by decide) (by decide), h]
    by_cases he : s.get F.EVT_CTL_MODE c = d / 2 % 2
    · rw [State.modeWritten, State.staticWrite_unchanged (by rw [hold, hbit, he]), hold]
    · rw [hrefused he, State.get_offer _ _ _ _ _ _ (by decide) (by simp [evField]; decide),
        State.get_setReg_id _ _ _ _ _ _ (by decide) (by decide) (by decide), hold]
  · rw [counterCtl_get _ _ _ _ (by decide) (by decide), h, hrefused hne, State.get_offer _ _ _ _ _ _ (by decide) (by simp [evField]; decide),
      State.get_setReg_same _ _ _ _ hok]
    rfl

theorem exec_counterEnableWrite (hio : s.ioReached = true) (c : Nat) (d : Word) :
    exec (.counterEnableWrite c d) s = .next (s.counterCtl c d.toNat) :=
  gated_of_true hio (·.counterCtl c d.toNat) s

/-- Settles O51: the writes of EVT_GCTL, then those of EVT_CTL, by whether the counter stays enabled. -/
theorem counterControls : Obligations.CounterControls := by
  intro s d c hs hio
  refine ⟨fun cmd hcmd => ⟨s.gctl d.toNat, ?_, gctl_done hs d.toNat⟩, fun hst =>
    ⟨s.counterCtl c d.toNat, exec_counterEnableWrite hio c d, counterCtl_en hs c _, counterCtl_frame s c _, fun hoff => ?_, fun hon hd => ?_⟩⟩
  · obtain rfl | rfl := hcmd
    · exact gated_of_true hio (·.gctl d.toNat) s
    · exact gated_of_true hio (·.gctl d.toNat) s
  · refine counterCtl_stopped hs hst ?_
    obtain h | h := hoff
    · simp [State.flag, h]
    · simp [(bit_eq_false_iff d.toNat 0).mpr (by simpa using h)]
  · refine counterCtl_running hs ?_
    simp [State.flag, hon, (bit_iff d.toNat 0).mpr (by simpa using hd)]

end Sys2Proof.Machine
end

section
/-! ## Values of a rig's modes that are refused (R159, R169, R175)

The word of IMG_RLIVE is written live field by live field, that of IMG_RSTC static field by static field. -/

namespace Sys2Proof.Machine

variable {s t : State} {n v d : Nat}

/-- A field that lies in the low word takes its bits of the word, whatever it held. -/
theorem Field.merge_low {f : Field} (h : f.lo + f.width ≤ 32) (old d : Nat) : f.merge old 0 d = d / 2 ^ f.lo % 2 ^ f.width := by
  have hword : 2 ^ 32 = 2 ^ f.lo * (2 ^ f.width * 2 ^ (32 - f.lo - f.width)) := by
    rw [← Nat.pow_add, ← Nat.pow_add]
    congr 1
    omega
  unfold Field.merge
  simp only [Nat.mul_zero, Nat.zero_add, Nat.pow_zero, Nat.mul_one, Nat.mod_one, Nat.add_zero]
  rw [hword, Nat.mul_left_comm, Nat.mul_add_div (Nat.two_pow_pos _), Nat.mul_left_comm, Nat.mul_add_mod]

/-! ### One live field (R170, R175) -/

theorem State.liveWrite_ignored {f b : Field} (h : ignored f v = (true, some b)) (i n : Nat) : s.liveWrite f i n v = s.setReg b 1 n := by
  simp only [State.liveWrite, h, if_true]
  rfl

theorem State.liveWrite_taken {f g : Field} (h : (ignored f v).1 = false) (hg : (inForceOf.find? fun x => x.1 = f) = some (f, g)) (i n : Nat) :
    s.liveWrite f i n v =
      if (s.setReg f v i).rigState n = rigStopped then (s.setReg f v i).setReg g v i else s.setReg f v i := by
  simp only [State.liveWrite, h, hg, Bool.false_eq_true, if_false]

/-- What a write of the live field `f` of rig `n`, with `g` its field in force, makes of the rig's registers: a value that is ignored sets BADW
alone, another one is taken. -/
structure LiveWritten (f g : Field) (n v : Nat) (bad : Prop) (s t : State) : Prop where
  regsOk : t.RegsOk
  onlyRegs : onlyRegs s t
  refused : bad → t.get f n = s.get f n ∧ t.get F.IMG_RSTAT_BADW n = 1
  taken : ¬ bad → t.get f n = v % 2 ^ f.width ∧ t.get F.IMG_RSTAT_BADW n = s.get F.IMG_RSTAT_BADW n
  kept : ∀ h : Field, h.id < 1024 → h.id ≠ f.id → h.id ≠ g.id → h.id ≠ F.IMG_RSTAT_BADW.id → t.get h n = s.get h n

theorem liveWritten (hs : s.RegsOk) {f g : Field} {bad : Prop} [Decidable bad] (hbad : ignored f v = (decide bad, some F.IMG_RSTAT_BADW))
    (hg : (inForceOf.find? fun x => x.1 = f) = some (f, g)) (hf : f.id < 1024) (hg' : g.id < 1024) (hfg : f.id ≠ g.id)
    (hfb : f.id ≠ F.IMG_RSTAT_BADW.id) (hgb : g.id ≠ F.IMG_RSTAT_BADW.id) : LiveWritten f g n v bad s (s.liveWrite f n n v) := by
  have hbid : F.IMG_RSTAT_BADW.id < 1024 := by decide
  have hok : (s.setReg f v n).RegsOk := s.setReg_regsOk f v n hs
  have hsame : (s.setReg f v n).get f n = v % 2 ^ f.width := State.get_setReg_same s f v n hs
  have hother : ∀ {h : Field}, h.id < 1024 → h.id ≠ f.id → (s.setReg f v n).get h n = s.get h n := fun hh hne =>
    State.get_setReg_id _ _ _ _ _ _ hf hh hne
  by_cases hb : bad
  · rw [State.liveWrite_ignored (by simpa [hb] using hbad)]
    refine ⟨s.setReg_regsOk _ _ _ hs, rfl, fun _ => ⟨?_, State.get_setReg_same _ _ _ _ hs⟩, absurd hb, fun h hh _ _ hne => ?_⟩
    · exact State.get_setReg_id _ _ _ _ _ _ hbid hf hfb
    · exact State.get_setReg_id _ _ _ _ _ _ hbid hh hne
  · rw [State.liveWrite_taken (by simp [hbad, hb]) hg]
    split
    · refine ⟨State.setReg_regsOk _ _ _ _ hok, rfl, fun h => absurd h hb, fun _ => ⟨?_, ?_⟩, fun h hh hne hne' _ => ?_⟩
      · rw [State.get_setReg_id _ _ _ _ _ _ hg' hf hfg, hsame]
      · rw [State.get_setReg_id _ _ _ _ _ _ hg' hbid (Ne.symm hgb), hother hbid (Ne.symm hfb)]
      · rw [State.get_setReg_id _ _ _ _ _ _ hg' hh hne', hother hh hne]
    · exact ⟨hok, rfl, fun h => absurd h hb, fun _ => ⟨hsame, hother hbid (Ne.symm hfb)⟩, fun h hh hne _ _ => hother hh hne⟩

/-! ### The word of the live fields -/

/-- A write of a word with two fields, both live, of a block that has one register per rig. -/
theorem State.fieldsWrite_live {r : Reg} {f g : Field} {w : Nat} (hin : [f, g].filter (·.inWord w) = [f, g]) (hr : r.count / 72 = 1)
    (hf : f.acc = .WL) (hg : g.acc = .WL) (s : State) (n d : Nat) {t : State} (ht : t = s.liveWrite f n n (f.merge (s.get f n) w d)) :
    s.fieldsWrite r [f, g] n w d = t.liveWrite g n n (g.merge (t.get g n) w d) := by
  simp only [State.fieldsWrite, hin, each_cons, each_nil, hf, hg, hr, Nat.div_one, ht]

theorem rlive_done (hs : s.RegsOk) (n : Nat) (d : Word) {t : State}
    (ht : t = s.fieldsWrite R.IMG_RLIVE [F.IMG_RLIVE_LSGROW, F.IMG_RLIVE_STRAG] n 0 d.toNat) :
    onlyRegs s t
      ∧ (d.toNat / 2 ^ 16 = 0 → t.get F.IMG_RLIVE_LSGROW n = s.get F.IMG_RLIVE_LSGROW n ∧ t.get F.IMG_RSTAT_BADW n = 1)
      ∧ (d.toNat / 2 ^ 16 ≠ 0 → t.get F.IMG_RLIVE_LSGROW n = d.toNat / 2 ^ 16)
      ∧ (d.toNat % 4 = 3 → t.get F.IMG_RLIVE_STRAG n = s.get F.IMG_RLIVE_STRAG n ∧ t.get F.IMG_RSTAT_BADW n = 1)
      ∧ (d.toNat % 4 ≠ 3 → t.get F.IMG_RLIVE_STRAG n = d.toNat % 4)
      ∧ (d.toNat / 2 ^ 16 ≠ 0 → d.toNat % 4 ≠ 3 → t.get F.IMG_RSTAT_BADW n = s.get F.IMG_RSTAT_BADW n) := by
  have hd : d.toNat < 2 ^ 32 := d.isLt
  obtain ⟨x, hx⟩ : ∃ x, x = d.toNat := ⟨_, rfl⟩
  rw [← hx] at hd ht ⊢
  have hgrow : ∀ old, F.IMG_RLIVE_LSGROW.merge old 0 x = x / 2 ^ 16 := fun old => by
    rw [Field.merge_low (by decide)]
    exact Nat.mod_eq_of_lt (by simp [show F.IMG_RLIVE_LSGROW.width = 16 from rfl, show F.IMG_RLIVE_LSGROW.lo = 16 from rfl]; omega)
  have hstrag : ∀ old, F.IMG_RLIVE_STRAG.merge old 0 x = x % 4 := fun old => by
    rw [Field.merge_low (by decide)]
    simp [show F.IMG_RLIVE_STRAG.width = 2 from rfl, show F.IMG_RLIVE_STRAG.lo = 0 from rfl]
  rw [State.fieldsWrite_live (by decide) (by decide) rfl rfl s n x rfl, hgrow, hstrag] at ht
  have one := liveWritten (n := n) (v := x / 2 ^ 16) (bad := x / 2 ^ 16 = 0) hs (f := F.IMG_RLIVE_LSGROW) (g := F.IMG_RLNOW_LSGROW) rfl (by decide)
    (by decide) (by decide) (by decide) (by decide) (by decide)
  have two := liveWritten (n := n) (v := x % 4) (bad := x % 4 = 3) one.regsOk (f := F.IMG_RLIVE_STRAG) (g := F.IMG_RLNOW_STRAG) rfl (by decide)
    (by decide) (by decide) (by decide) (by decide) (by decide)
  rw [← ht] at two
  have hkept := one.kept F.IMG_RLIVE_STRAG (by decide) (by decide) (by decide) (by decide)
  have hkept' := two.kept F.IMG_RLIVE_LSGROW (by decide) (by decide) (by decide) (by decide)
  have hlate : (s.liveWrite F.IMG_RLIVE_LSGROW n n (x / 2 ^ 16)).get F.IMG_RSTAT_BADW n = 1 → t.get F.IMG_RSTAT_BADW n = 1 := fun h => by
    by_cases hb : x % 4 = 3
    · exact (two.refused hb).2
    · rw [(two.taken hb).2, h]
  refine ⟨onlyRegs_trans one.onlyRegs two.onlyRegs, fun h => ⟨hkept'.trans (one.refused h).1, hlate (one.refused h).2⟩, fun h => ?_,
    fun h => ⟨(two.refused h).1.trans hkept, (two.refused h).2⟩, fun h => ?_, fun h h' => (two.taken h').2.trans (one.taken h).2⟩
  · rw [hkept', (one.taken h).1]
    exact Nat.mod_eq_of_lt (by simp [show F.IMG_RLIVE_LSGROW.width = 16 from rfl]; omega)
  · rw [(two.taken h).1]
    exact Nat.mod_eq_of_lt (by simp [show F.IMG_RLIVE_STRAG.width = 2 from rfl]; omega)

/-! ### The word of the static fields -/

theorem unitOf_rstc (s : State) (n : Nat) : s.unitOf R.IMG_RSTC n = (decide (s.rigState n = rigStopped), F.IMG_RSTAT_SREF, n, 0x200) := rfl

/-- One of the static fields GRAD and SATNF. -/
def State.rstcWrite (s : State) (n d : Nat) (f : Field) : State :=
  s.staticWrite f n (f.merge (s.get f n) 0 d) (decide (s.rigState n = rigStopped)) F.IMG_RSTAT_SREF n 0x200

/-- SEGLEN with a value that R159 does not allow. -/
theorem fieldsWrite_rstc (s : State) (n d : Nat) (hne : F.IMG_RSTC_SEGLEN.merge (s.get F.IMG_RSTC_SEGLEN n) 0 d ≠ s.get F.IMG_RSTC_SEGLEN n)
    (hbad : seglenOk (F.IMG_RSTC_SEGLEN.merge (s.get F.IMG_RSTC_SEGLEN n) 0 d) = false) :
    s.fieldsWrite R.IMG_RSTC [F.IMG_RSTC_SEGLEN, F.IMG_RSTC_GRAD, F.IMG_RSTC_SATNF] n 0 d =
      ((if s.rigState n = rigStopped then s.setReg F.IMG_RSTAT_BADW 1 n else s.rstcWrite n d F.IMG_RSTC_SEGLEN).rstcWrite n d
        F.IMG_RSTC_GRAD).rstcWrite n d F.IMG_RSTC_SATNF := by
  have hin : [F.IMG_RSTC_SEGLEN, F.IMG_RSTC_GRAD, F.IMG_RSTC_SATNF].filter (·.inWord 0) = [F.IMG_RSTC_SEGLEN, F.IMG_RSTC_GRAD, F.IMG_RSTC_SATNF] := by
    decide
  have hgrad : F.IMG_RSTC_GRAD ≠ F.IMG_RSTC_SEGLEN := by decide
  have hsatnf : F.IMG_RSTC_SATNF ≠ F.IMG_RSTC_SEGLEN := by decide
  simp only [State.fieldsWrite, hin, each_cons, each_nil, show F.IMG_RSTC_SEGLEN.acc = .WS from rfl, show F.IMG_RSTC_GRAD.acc = .WS from rfl,
    show F.IMG_RSTC_SATNF.acc = .WS from rfl, unitOf_rstc, hgrad, hsatnf, decide_true, decide_false, Bool.true_and, Bool.false_and, hbad,
    Bool.not_false, Bool.and_true, bne_iff_ne.mpr hne, decide_eq_true_eq, Bool.false_eq_true, if_false]
  rfl

/-- While the rig is stopped a static field is written. -/
theorem rstcWrite_stopped (hs : s.RegsOk) (h : s.rigState n = rigStopped) (d : Nat) (f : Field) :
    s.rstcWrite n d f = s.setReg f (f.merge (s.get f n) 0 d) n := by
  rw [State.rstcWrite, decide_eq_true h, State.staticWrite_stopped hs]

/-- SREF of the rig is set, and but for it and the counters of events the registers are as they were. -/
structure Refused (n : Nat) (s t : State) : Prop where
  regsOk : t.RegsOk
  onlyRegs : onlyRegs s t
  sref : t.get F.IMG_RSTAT_SREF n = 1
  kept : ∀ f : Field, f.id < 1024 → f.id ≠ F.IMG_RSTAT_SREF.id → ¬ evField f → t.get f n = s.get f n

theorem refused_now (hs : s.RegsOk) (n code : Nat) : Refused n s ((s.setReg F.IMG_RSTAT_SREF 1 n).offer code) where
  regsOk := State.offer_regsOk _ _ _ _ (s.setReg_regsOk _ _ _ hs)
  onlyRegs := (onlyRegs_refl s).setReg.offer
  sref := by
    rw [State.get_offer _ _ _ _ _ _ (by decide) (by simp [evField]; decide), State.get_setReg_same _ _ _ _ hs]
    rfl
  kept f hf hne hev := by rw [State.get_offer _ _ _ _ _ _ hf hev, State.get_setReg_id _ _ _ _ _ _ (by decide) hf hne]

theorem Refused.trans {u : State} (h : Refused n s t) (h' : Refused n t u) : Refused n s u :=
  ⟨h'.regsOk, onlyRegs_trans h.onlyRegs h'.onlyRegs, h'.sref, fun f hf hne hev => (h'.kept f hf hne hev).trans (h.kept f hf hne hev)⟩

/-- While the rig is not stopped a further static field is refused, or holds what is written. -/
theorem Refused.rstcWrite (h : Refused n s t) (hrun : s.rigState n ≠ rigStopped) (d : Nat) (f : Field) : Refused n s (t.rstcWrite n d f) := by
  have hstate : t.rigState n = s.rigState n := h.kept F.IMG_RSTAT_STATE (by decide) (by decide) (by simp [evField]; decide)
  rw [State.rstcWrite, hstate, decide_eq_false hrun]
  by_cases he : t.get f n = f.merge (t.get f n) 0 d % 2 ^ f.width
  · rwa [State.staticWrite_unchanged he]
  · rw [State.staticWrite_refused he]
    exact h.trans (refused_now h.regsOk n _)

theorem rstc_done (hs : s.RegsOk) (n : Nat) (d : Word) (hbad : d.toNat / 2 ^ 16 % 128 ≠ 0) (hne : d.toNat / 2 ^ 16 ≠ s.get F.IMG_RSTC_SEGLEN n)
    {t : State} (ht : t = s.fieldsWrite R.IMG_RSTC [F.IMG_RSTC_SEGLEN, F.IMG_RSTC_GRAD, F.IMG_RSTC_SATNF] n 0 d.toNat) :
    onlyRegs s t ∧ t.get F.IMG_RSTC_SEGLEN n = s.get F.IMG_RSTC_SEGLEN n
      ∧ (s.rigState n = rigStopped → t.get F.IMG_RSTAT_BADW n = 1 ∧ t.get F.IMG_RSTAT_SREF n = s.get F.IMG_RSTAT_SREF n)
      ∧ (s.rigState n ≠ rigStopped → t.get F.IMG_RSTAT_SREF n = 1 ∧ t.get F.IMG_RSTAT_BADW n = s.get F.IMG_RSTAT_BADW n) := by
  have hd : d.toNat < 2 ^ 32 := d.isLt
  obtain ⟨x, hx⟩ : ∃ x, x = d.toNat := ⟨_, rfl⟩
  rw [← hx] at hd hbad hne ht
  have hseg : F.IMG_RSTC_SEGLEN.merge (s.get F.IMG_RSTC_SEGLEN n) 0 x = x / 2 ^ 16 := by
    rw [Field.merge_low (by decide)]
    exact Nat.mod_eq_of_lt (by simp [show F.IMG_RSTC_SEGLEN.width = 16 from rfl, show F.IMG_RSTC_SEGLEN.lo = 16 from rfl]; omega)
  have hno : seglenOk (x / 2 ^ 16) = false := by rw [seglenOk, decide_eq_false hbad, Bool.false_and]
  rw [fieldsWrite_rstc s n x (by rwa [hseg]) (by rwa [hseg])] at ht
  by_cases hstop : s.rigState n = rigStopped
  · have hok : (s.setReg F.IMG_RSTAT_BADW 1 n).RegsOk := s.setReg_regsOk _ _ _ hs
    rw [if_pos hstop, rstcWrite_stopped hok, rstcWrite_stopped (State.setReg_regsOk _ _ _ _ hok)] at ht
    · have hkept : ∀ {f : Field}, f.id < 1024 → f.id ≠ F.IMG_RSTC_GRAD.id → f.id ≠ F.IMG_RSTC_SATNF.id →
          t.get f n = (s.setReg F.IMG_RSTAT_BADW 1 n).get f n := fun hf hg hsat => by
        rw [ht, State.get_setReg_id _ _ _ _ _ _ (by decide) hf hsat, State.get_setReg_id _ _ _ _ _ _ (by decide) hf hg]
      refine ⟨ht ▸ (onlyRegs_refl s).setReg.setReg.setReg, ?_, fun _ => ⟨?_, ?_⟩, absurd hstop⟩
      · rw [hkept (by decide) (by decide) (by decide), State.get_setReg_id _ _ _ _ _ _ (by decide) (by decide) (by decide)]
      · rw [hkept (by decide) (by decide) (by decide), State.get_setReg_same _ _ _ _ hs]
        rfl
      · rw [hkept (by decide) (by decide) (by decide), State.get_setReg_id _ _ _ _ _ _ (by decide) (by decide) (by decide)]
    · rw [State.rigState, State.get_setReg_id _ _ _ _ _ _ (by decide) (by decide) (by decide),
        State.get_setReg_id _ _ _ _ _ _ (by decide) (by decide) (by decide)]
      exact hstop
    · rw [State.rigState, State.get_setReg_id _ _ _ _ _ _ (by decide) (by decide) (by decide)]
      exact hstop
  · have hfirst : Refused n s (s.rstcWrite n x F.IMG_RSTC_SEGLEN) := by
      rw [State.rstcWrite, decide_eq_false hstop, State.staticWrite_refused]
      · exact refused_now hs n _
      · rw [hseg, Nat.mod_eq_of_lt (by simp [show F.IMG_RSTC_SEGLEN.width = 16 from rfl]; omega)]
        exact Ne.symm hne
    rw [if_neg hstop] at ht
    have hall := (hfirst.rstcWrite hstop x F.IMG_RSTC_GRAD).rstcWrite hstop x F.IMG_RSTC_SATNF
    rw [← ht] at hall
    exact ⟨hall.onlyRegs, hall.kept _ (by decide) (by decide) (by simp [evField]; decide), fun h => absurd h hstop,
      fun _ => ⟨hall.sref, hall.kept _ (by decide) (by decide) (by simp [evField]; decide)⟩⟩

theorem rlive_notAction : ∀ a ∈ actions, a.1 ≠ R.IMG_RLIVE := by
  have hall : actions.all (fun a => decide (a.1 ≠ R.IMG_RLIVE)) = true := by decide
  exact fun a ha => of_decide_eq_true (List.all_eq_true.mp hall a ha)

theorem rstc_notAction : ∀ a ∈ actions, a.1 ≠ R.IMG_RSTC := by
  have hall : actions.all (fun a => decide (a.1 ≠ R.IMG_RSTC)) = true := by decide
  exact fun a ha => of_decide_eq_true (List.all_eq_true.mp hall a ha)

/-- Settles O59: the two words of a rig's modes, each field judged by what is written to it. -/
theorem refusedModeValues : Obligations.RefusedModeValues := by
  intro addr n d s hs hio
  exact ⟨fun hat hhid => ⟨_, exec_registerWrite_fields hat hhid rlive_notAction hio, rlive_done hs n d rfl⟩,
    fun hat hhid hbad hne => ⟨_, exec_registerWrite_fields hat hhid rstc_notAction hio, rstc_done hs n d hbad hne rfl⟩⟩

end Sys2Proof.Machine
end

section
/-! ## The books beside the rigs

Counters, events, links, the arbiter, the flight log and the continuity log are kept beside everything that the device does. `Beside π s t` says
that `t` has come from `s` by such updates, with the view `π` of the state, which shows none of these books, and every rig's state as they were. -/

namespace Sys2Proof.Machine

variable {α : Type} {π : State → α} {s t u : State}

/-- A view that shows no register and none of the books. -/
def OffBooks (π : State → α) : Prop :=
  ∀ (s : State) (regs : FMap Nat) (out : List Out) (fresh : Nat) (links : FMap Link) (acts actQ : List Act) (actCount : Nat) (chans : FMap Chan)
    (commits : List Commit) (flog : Flog) (log : List LogRec) (logSeq : Nat) (tether : Tether) (scrubs : FMap Scrub),
    π { s with regs := regs, out := out, fresh := fresh, links := links, acts := acts, actQ := actQ, actCount := actCount, chans := chans
               commits := commits, flog := flog, log := log, logSeq := logSeq, tether := tether, scrubs := scrubs } = π s

/-- `t` has come from `s` with the view `π` and the states of the rigs as they were. -/
structure Beside (π : State → α) (s t : State) : Prop where
  off : OffBooks π
  view : π t = π s
  rigState : ∀ n, t.rigState n = s.rigState n

/-! ### Links of a chain -/

theorem Beside.refl (hπ : OffBooks π) (s : State) : Beside π s s := ⟨hπ, rfl, fun _ => rfl⟩

/-- An update outside the register file that the view does not show. -/
theorem Beside.of_view (h : Beside π s t) (hv : π u = π t) (hr : u.regs = t.regs) : Beside π s u := by
  refine ⟨h.off, hv.trans h.view, fun n => ?_⟩
  rw [← h.rigState n, State.rigState, State.get, hr, State.rigState, State.get]

/-- An update of the books. -/
theorem Beside.book (h : Beside π s t) {out fresh links acts actQ actCount chans commits flog log logSeq tether scrubs : _} :
    Beside π s { t with out := out, fresh := fresh, links := links, acts := acts, actQ := actQ, actCount := actCount, chans := chans
                        commits := commits, flog := flog, log := log, logSeq := logSeq, tether := tether, scrubs := scrubs } :=
  h.of_view (h.off t t.regs out fresh links acts actQ actCount chans commits flog log logSeq tether scrubs) rfl

theorem Beside.setReg (h : Beside π s t) {f : Field} {v i : Nat} (hf : f.id < 1024) (hne : f.id ≠ F.IMG_RSTAT_STATE.id) :
    Beside π s (t.setReg f v i) := by
  refine ⟨h.off, (h.off t _ t.out t.fresh t.links t.acts t.actQ t.actCount t.chans t.commits t.flog t.log t.logSeq t.tether t.scrubs).trans h.view,
    fun n => ?_⟩
  rw [← h.rigState n]
  exact State.get_setReg_id _ _ _ _ _ _ hf (by decide) (Ne.symm hne)

theorem Beside.bump (h : Beside π s t) {f : Field} {n i : Nat} (hf : f.id < 1024) (hne : f.id ≠ F.IMG_RSTAT_STATE.id) : Beside π s (t.bump f n i) :=
  h.setReg hf hne

theorem Beside.offer (h : Beside π s t) {code inc : Nat} {a : EvAttr} : Beside π s (t.offer code a inc) := by
  refine ⟨h.off, ?_, fun n => ?_⟩
  · rw [State.offer_eq]
    exact (h.off t _ t.out t.fresh t.links t.acts t.actQ t.actCount t.chans t.commits t.flog t.log t.logSeq t.tether t.scrubs).trans h.view
  · rw [← h.rigState n]
    exact State.get_offer _ _ _ _ _ _ (by decide) (by simp [evField]; decide)

theorem Beside.ite {c : Prop} [Decidable c] {a b : State} (ha : Beside π s a) (hb : Beside π s b) : Beside π s (if c then a else b) := by
  split
  · exact ha
  · exact hb

theorem Beside.when (h : Beside π s t) {c : Bool} {f : State → State} (hf : ∀ t, Beside π s t → Beside π s (f t)) : Beside π s (when c f t) :=
  when_ind _ c f t h (hf t)

theorem Beside.each {β : Type} (h : Beside π s t) {l : List β} {f : State → β → State} (hf : ∀ t a, Beside π s t → Beside π s (f t a)) :
    Beside π s (each l f t) := each_ind _ l f t h fun t a _ => hf t a

theorem Beside.emit (h : Beside π s t) {o : Out} : Beside π s (t.emit o) := h.book

theorem Beside.spend (h : Beside π s t) : Beside π s t.spend := h.book

theorem Beside.traffic (h : Beside π s t) {m n : Nat} : Beside π s (t.traffic m n) := h.book

theorem Beside.modChan (h : Beside π s t) {c : Nat} {f : Chan → Chan} : Beside π s (t.modChan c f) := h.book

theorem Beside.modLink (h : Beside π s t) {p : Nat} {f : Link → Link} : Beside π s (t.modLink p f) := h.book

/-! ### Ports and the arbiter -/

theorem Beside.pump (h : Beside π s t) {p : Nat} : Beside π s (t.pump p) :=
  .ite ((h.modLink.each fun _ _ hv => hv.emit).each fun _ _ hv => hv.emit) h

theorem Beside.enqueue (h : Beside π s t) {p : Nat} {transit : Bool} {f : Frame} : Beside π s (t.enqueue p transit f) := h.modLink.pump

theorem Beside.linkState (h : Beside π s t) {port st : Nat} : Beside π s (t.linkState port st) :=
  .ite (h.setReg (by decide) (by decide)) (.ite (h.setReg (by decide) (by decide)) h)

theorem Beside.startAct (h : Beside π s t) {a : Act} : Beside π s (t.startAct a) := by
  have hacts : Beside π s { t with acts := t.acts ++ [a] } := h.book
  refine .ite ?_ (.ite (hacts.modLink.linkState.each fun _ _ hv => hv.emit) hacts)
  exact ((hacts.modChan.setReg (by decide) (by decide)).setReg (by decide) (by decide)).when fun _ hv => hv.setReg (by decide) (by decide)

theorem Beside.requestAct (h : Beside π s t) {a : Act} : Beside π s (t.requestAct a) := by
  have hcount : Beside π s { t with actCount := t.actCount + 1 } := h.book
  exact .ite (Beside.offer hcount.book) hcount.startAct

theorem Beside.startQueued (h : Beside π s t) {l kept : List Act} : Beside π s (startQueued l kept t) := by
  induction l generalizing kept t with
  | nil => exact h.book
  | cons a l ih => exact .ite (ih h) (ih h.startAct)

theorem Beside.endAct (h : Beside π s t) {id : Nat} : Beside π s (t.endAct id) :=
  Beside.startQueued (t := { t with acts := t.acts.filter (·.id ≠ id) }) h.book

/-! ### The logs -/

theorem Beside.flCount (h : Beside π s t) {i n : Nat} : Beside π s (t.flCount i n) := h.book

theorem Beside.wantCommit (h : Beside π s t) {c : Commit} : Beside π s (t.wantCommit c) :=
  (Beside.requestAct (t := { t with commits := t.commits ++ [c] }) h.book).setReg (by decide) (by decide)

theorem Beside.journal (h : Beside π s t) {typ ukind unit : Nat} {data : List Byte} : Beside π s (t.journal typ ukind unit data) :=
  .ite (Beside.wantCommit h.book) h.book

theorem Beside.spareIn (h : Beside π s t) {kind ukind unit failed by_ : Nat} : Beside π s (t.spareIn kind ukind unit failed by_) :=
  have hlog := (h.bump (by decide) (by decide)).flCount.journal
  .ite hlog.offer hlog.offer

theorem Beside.ringCheck (h : Beside π s t) : Beside π s t.ringCheck :=
  .ite (h.setReg (by decide) (by decide)) (.ite (h.setReg (by decide) (by decide)) h)

theorem Beside.sendTether (h : Beside π s t) {f : Frame} : Beside π s (t.sendTether f) := h.enqueue.book

theorem Beside.writeLog (h : Beside π s t) {logno lead rig : Nat} {k : LogKind} : Beside π s (t.writeLog logno lead rig k) := by
  unfold State.writeLog
  refine (Beside.when h.book fun u hu => ?_).ringCheck
  exact (hu.sendTether.bump (by decide) (by decide)).book

end Sys2Proof.Machine
end

section
/-! ## The control of a rig (R164, R176)

An immediate stop aborts the rig's tasks one by one. An abort drops the task from tiles and engines, which changes neither the rigs nor the call
sheets, then ends the call sheet, and records itself in a take that is otherwise as it was. -/

namespace Sys2Proof.Machine

variable {s t u : State} {n : Nat}

/-! ### A task is dropped -/

/-- The rigs and the call sheets. -/
def rigsAndSheets (s : State) : FMap Rig × List Sheet := (s.rigs, s.sheets)

theorem offBooks_rigsAndSheets : OffBooks rigsAndSheets := fun _ _ _ _ _ _ _ _ _ _ _ _ _ _ _ => rfl

theorem Beside.unwait (h : Beside rigsAndSheets s t) {p e : Nat} : Beside rigsAndSheets s (t.unwait p e) := h.of_view rfl rfl

theorem Beside.modTile (h : Beside rigsAndSheets s t) {p : Nat} {g : Tile → Tile} : Beside rigsAndSheets s (t.modTile p g) := h.of_view rfl rfl

theorem emapField_unlike (e : Nat) : (emapField e).id < 1024 ∧ (emapField e).id ≠ F.IMG_RSTAT_STATE.id := by
  unfold emapField
  split <;> decide

theorem Beside.engineSpare (h : Beside rigsAndSheets s t) {p e : Nat} : Beside rigsAndSheets s (t.engineSpare p e) :=
  have ⟨hlt, hne⟩ := emapField_unlike e
  .ite (((h.setReg hlt hne).setReg (by decide) (by decide)).setReg (by decide) (by decide)).spareIn h

theorem Beside.startGen (h : Beside rigsAndSheets s t) {p e : Nat} {g : Gen} : Beside rigsAndSheets s (t.startGen p e g) :=
  h.engineSpare.modTile.setReg (by decide) (by decide)

theorem Beside.promote (h : Beside rigsAndSheets s t) {p e : Nat} : Beside rigsAndSheets s (t.promote p e) := by
  unfold State.promote
  refine .modTile ?_
  split
  · exact .ite h (Beside.modTile h).startGen
  · exact h.modTile
  · exact h

theorem Beside.dropEng (h : Beside rigsAndSheets s t) {logno p e : Nat} : Beside rigsAndSheets s (t.dropEng logno p e) :=
  ((Beside.modTile h).when fun _ hv => hv.unwait).promote

theorem Beside.dropTile (h : Beside rigsAndSheets s t) {logno p : Nat} : Beside rigsAndSheets s (t.dropTile logno p) :=
  ((h.when fun _ hv => hv.unwait).each fun _ _ hv => hv.dropEng).modTile

theorem Beside.dropUnsent (h : Beside rigsAndSheets s t) {logno : Nat} : Beside rigsAndSheets s (t.dropUnsent logno) :=
  (h.each fun _ _ hv => hv.modLink).each fun _ _ hv => hv.of_view rfl rfl

/-! ### A task is aborted -/

/-- The call sheet as the abort of its task leaves it. -/
def Sheet.aborted (status detail idx : Nat) (h : Sheet) : Sheet :=
  { h with status := some (h.status.getD status), detail := if h.status.isNone then detail else h.detail, fpart := min h.fpart idx, stopped := true
           parts := h.parts.map fun q => { q with segsLeft := 0, routLeft := 0, rowsLeft := 0, gens := 0 } }

/-- The part that an abort names: that of the lead tile at fault, if one is. -/
def Sheet.partAt (h : Sheet) (lead : Option Nat) : Nat :=
  match lead with
  | some l => h.parts.findIdx (·.lead = l)
  | none => 0xFF

/-- The collectives that host or device started for a task are given up. -/
def State.collsDropped (s : State) (logno : Nat) : State := { s with colls := s.colls.filter fun c => !(c.rig.isNone && c.logno = logno) }

theorem Beside.collsDropped (h : Beside rigsAndSheets s t) {logno : Nat} : Beside rigsAndSheets s (t.collsDropped logno) := h.of_view rfl rfl

/-- The state in which every unit of rig `n` has dropped a task. -/
def State.taskDropped (s : State) (n logno : Nat) : State :=
  ((each (s.rigTiles n) (fun s p => s.dropTile logno p) s).collsDropped logno).dropUnsent logno

theorem State.taskDropped_beside (s : State) (n logno : Nat) : Beside rigsAndSheets s (s.taskDropped n logno) :=
  ((Beside.refl offBooks_rigsAndSheets s).each fun _ _ hv => hv.dropTile).collsDropped.dropUnsent

theorem State.abortTask_eq {h : Sheet} {logno : Nat} (hs : s.sheet logno = some h) (status detail : Nat) (lead : Option Nat) :
    s.abortTask logno status detail lead
      = ((s.taskDropped h.rig logno).modSheet logno (Sheet.aborted status detail (h.partAt lead))).recOf logno State.recAbort := by
  unfold State.abortTask
  rw [hs]
  rfl

/-- What the abort of a task leaves of a call sheet: the same sheet, ended where it was ended before. -/
structure SameSheet (h h' : Sheet) : Prop where
  rig : h'.rig = h.rig
  dispatched : h'.dispatched = h.dispatched
  logno : h'.logno = h.logno
  ended : h.status.isSome = true → h'.status.isSome = true

theorem SameSheet.refl (h : Sheet) : SameSheet h h := ⟨rfl, rfl, rfl, id⟩

theorem SameSheet.trans {h h' h'' : Sheet} (a : SameSheet h h') (b : SameSheet h' h'') : SameSheet h h'' :=
  ⟨b.rig.trans a.rig, b.dispatched.trans a.dispatched, b.logno.trans a.logno, b.ended ∘ a.ended⟩

/-- What aborts of tasks leave alone: the states of the rigs, each take's state, and of the call sheets all but their ends. -/
structure TasksAborted (s t : State) : Prop where
  rigsOk : FMap.wf {} t.rigs = true
  rigState : ∀ n, t.rigState n = s.rigState n
  take : ∀ n, (t.rig n).take.state = (s.rig n).take.state
  sheets : ∀ h' ∈ t.sheets, ∃ h ∈ s.sheets, SameSheet h h'

theorem TasksAborted.refl (hw : FMap.wf {} s.rigs = true) : TasksAborted s s := ⟨hw, fun _ => rfl, fun _ => rfl, fun h hh => ⟨h, hh, .refl h⟩⟩

theorem TasksAborted.trans (h : TasksAborted s t) (h' : TasksAborted t u) : TasksAborted s u := by
  refine ⟨h'.rigsOk, fun n => (h'.rigState n).trans (h.rigState n), fun n => (h'.take n).trans (h.take n), fun x hx => ?_⟩
  obtain ⟨y, hy, hyx⟩ := h'.sheets x hx
  obtain ⟨z, hz, hzy⟩ := h.sheets y hy
  exact ⟨z, hz, hzy.trans hyx⟩

theorem Beside.aborted (h : Beside rigsAndSheets s t) (hw : FMap.wf {} s.rigs = true) : TasksAborted s t := by
  obtain ⟨hrigs, hsheets⟩ : t.rigs = s.rigs ∧ t.sheets = s.sheets := Prod.ext_iff.mp h.view
  exact ⟨hrigs ▸ hw, h.rigState, fun n => by rw [State.rig, hrigs, State.rig], fun x hx => ⟨x, hsheets ▸ hx, .refl x⟩⟩

theorem aborted_modSheet (hw : FMap.wf {} s.rigs = true) (logno status detail idx : Nat) :
    TasksAborted s (s.modSheet logno (Sheet.aborted status detail idx)) := by
  refine ⟨hw, fun _ => rfl, fun _ => rfl, fun x hx => ?_⟩
  obtain ⟨y, hy, rfl⟩ := List.mem_map.mp hx
  refine ⟨y, hy, ?_⟩
  split
  · exact ⟨rfl, rfl, rfl, fun _ => rfl⟩
  · exact .refl y

theorem aborted_recAbort (hw : FMap.wf {} s.rigs = true) (logno : Nat) : TasksAborted s (s.recOf logno State.recAbort) := by
  unfold State.recOf
  split
  next m _ =>
    refine ⟨State.modRig_rigsOk hw, fun _ => rfl, fun k => ?_, fun x hx => ⟨x, hx, .refl x⟩⟩
    rw [State.recAbort, State.modTake, State.rig_modRig hw]
    split
    next hk => rw [hk]
    next => rfl
  next => exact .refl hw

/-- The call sheet with a log number has ended. -/
def sheetEnded (logno : Nat) (s : State) : Prop := ∀ h ∈ s.sheets, h.logno = logno → h.status.isSome = true

theorem sheetEnded.aborted {logno : Nat} (h : sheetEnded logno s) (ha : TasksAborted s t) : sheetEnded logno t := by
  intro x hx hno
  obtain ⟨y, hy, hyx⟩ := ha.sheets x hx
  exact hyx.ended (h y hy (hyx.logno ▸ hno))

theorem sheetEnded_modSheet (s : State) (logno status detail idx : Nat) : sheetEnded logno (s.modSheet logno (Sheet.aborted status detail idx)) := by
  intro x hx hno
  obtain ⟨y, -, rfl⟩ := List.mem_map.mp hx
  split
  · rfl
  next hy =>
    rw [if_neg hy] at hno
    exact absurd hno hy

theorem abortTask_done (hw : FMap.wf {} s.rigs = true) (logno status detail : Nat) (lead : Option Nat) :
    TasksAborted s (s.abortTask logno status detail lead) ∧ sheetEnded logno (s.abortTask logno status detail lead) := by
  cases hs : s.sheet logno with
  | none =>
    have hsame : s.abortTask logno status detail lead = s := by
      unfold State.abortTask
      rw [hs]
    rw [hsame]
    refine ⟨.refl hw, fun x hx hno => ?_⟩
    simpa [hno] using List.find?_eq_none.mp hs x hx
  | some h =>
    have hdrop := (s.taskDropped_beside h.rig logno).aborted hw
    have hend := aborted_modSheet hdrop.rigsOk logno status detail (h.partAt lead)
    have hrec := aborted_recAbort hend.rigsOk logno
    rw [State.abortTask_eq hs]
    exact ⟨(hdrop.trans hend).trans hrec, (sheetEnded_modSheet _ logno status detail _).aborted hrec⟩

theorem abortSheets_done (hw : FMap.wf {} s.rigs = true) (n status : Nat) (q : Sheet → Bool) :
    TasksAborted s (s.abortSheets n status q)
      ∧ ∀ h ∈ s.sheets, h.rig = n → h.dispatched = true → q h = true → sheetEnded h.logno (s.abortSheets n status q) := by
  have hall : TasksAborted s (s.abortSheets n status q) :=
    each_ind (TasksAborted s) _ _ _ (.refl hw) fun t a _ ht => ht.trans (abortTask_done ht.rigsOk a.logno status 0 none).1
  have hends : ∀ h ∈ s.sheets.filter fun h => h.rig = n && h.dispatched && q h, sheetEnded h.logno (s.abortSheets n status q) :=
    each_reaches (fun t => FMap.wf {} t.rigs = true) (fun h : Sheet => sheetEnded h.logno) hw
      (fun a _ t ht => (abortTask_done ht a.logno status 0 none).1.rigsOk) (fun a _ t ht => (abortTask_done ht a.logno status 0 none).2)
      fun a _ t b ht hb => hb.aborted (abortTask_done ht a.logno status 0 none).1
  exact ⟨hall, fun h hh hrig hd hq => hends h (List.mem_filter.mpr ⟨hh, by simp [hrig, hd, hq]⟩)⟩

/-! ### The immediate stop -/

/-- A take under way that has not reached Printing is struck with the rig's stop as the cause. -/
def State.takeStopped (s : State) (n : Nat) : State :=
  let st := (s.rig n).take.state
  when ((decide (1 ≤ st) && decide (st ≤ 6)) || st = 8) (·.strikeTake n fun t => { t with stop := true }) s

/-- The tasks of rig `n` aborted, its take struck, and the rig marked as stopped at once. -/
def State.killed (s : State) (n : Nat) : State :=
  ((s.abortSheets n 0x0A fun h => h.status.isNone).takeStopped n).modRig n fun r => { r with killed := true }

theorem State.killRig_eq (s : State) (n : Nat) :
    s.killRig n = if (s.killed n).rigState n = rigRunning then (s.killed n).setReg F.IMG_RSTAT_STATE rigStopping n else s.killed n := rfl

theorem State.takeStopped_rig (hw : FMap.wf {} s.rigs = true) (n : Nat) :
    FMap.wf {} (s.takeStopped n).rigs = true
      ∧ ((s.rig n).take.state = 0 → ((s.takeStopped n).rig n).take.state = 0)
      ∧ ((1 ≤ (s.rig n).take.state ∧ (s.rig n).take.state ≤ 6) ∨ (s.rig n).take.state = 8 →
          ((s.takeStopped n).rig n).take.state = 8 ∧ ((s.takeStopped n).rig n).take.stop = true) := by
  have hstruck : ((s.strikeTake n fun t => { t with stop := true }).rig n).take = { (s.rig n).take with stop := true, state := 8 } := by
    rw [State.strikeTake, State.modTake, State.rig_modRig hw, if_pos rfl]
  refine ⟨when_ind (fun t : State => FMap.wf {} t.rigs = true) _ _ _ hw fun _ => State.modRig_rigsOk hw, fun h => ?_, fun h => ?_⟩
  · simp only [State.takeStopped, h, when]
    simpa using h
  · have hcond : ((decide (1 ≤ (s.rig n).take.state) && decide ((s.rig n).take.state ≤ 6)) || decide ((s.rig n).take.state = 8)) = true := by
      simpa using h
    simp only [State.takeStopped, hcond, when_true, hstruck, and_self]

theorem State.takeStopped_frame (s : State) (n : Nat) : (s.takeStopped n).regs = s.regs ∧ (s.takeStopped n).sheets = s.sheets :=
  when_ind (fun t : State => t.regs = s.regs ∧ t.sheets = s.sheets) _ _ _ ⟨rfl, rfl⟩ id

theorem killRig_done (hs : s.RegsOk) (hw : FMap.wf {} s.rigs = true) (n : Nat) (hrun : s.rigState n = rigRunning ∨ s.rigState n = rigStopping) :
    (s.killRig n).rigState n = rigStopping ∧ ((s.killRig n).rig n).killed = true
      ∧ (∀ h ∈ (s.killRig n).sheets, h.rig = n → h.dispatched = true → h.status.isSome = true)
      ∧ ((s.rig n).take.state = 0 → ((s.killRig n).rig n).take.state = 0)
      ∧ ((1 ≤ (s.rig n).take.state ∧ (s.rig n).take.state ≤ 6) ∨ (s.rig n).take.state = 8 →
          ((s.killRig n).rig n).take.state = 8 ∧ ((s.killRig n).rig n).take.stop = true) := by
  obtain ⟨hab, hends⟩ := abortSheets_done hw n 0x0A fun h => h.status.isNone
  obtain ⟨a, ha⟩ : ∃ a, a = s.abortSheets n 0x0A fun h => h.status.isNone := ⟨_, rfl⟩
  have haok : a.RegsOk := ha ▸ (Follows.refl s).abortSheets.regsOk hs
  rw [← ha] at hab hends
  obtain ⟨hsw, hzero, hstruck⟩ := State.takeStopped_rig hab.rigsOk n
  rw [hab.take n] at hzero hstruck
  have hkilled : s.killed n = (a.takeStopped n).modRig n fun r => { r with killed := true } := by rw [State.killed, ← ha]
  obtain ⟨hregs, hsheets⟩ : (s.killed n).regs = a.regs ∧ (s.killed n).sheets = a.sheets := by
    rw [hkilled]
    exact a.takeStopped_frame n
  have hrig : (s.killed n).rig n = { (a.takeStopped n).rig n with killed := true } := by
    rw [hkilled, State.rig_modRig hsw, if_pos rfl]
  have hstate : (s.killed n).rigState n = s.rigState n := by
    rw [← hab.rigState n, State.rigState, State.get, hregs, State.rigState, State.get]
  have hrigs : (s.killRig n).rigs = (s.killed n).rigs ∧ (s.killRig n).sheets = (s.killed n).sheets := by
    rw [State.killRig_eq]
    split
    · exact ⟨rfl, rfl⟩
    · exact ⟨rfl, rfl⟩
  have hrig' : (s.killRig n).rig n = { (a.takeStopped n).rig n with killed := true } := by rw [State.rig, hrigs.1, ← hrig, State.rig]
  refine ⟨?_, by rw [hrig'], fun h hh hn hd => ?_, fun h => by rw [hrig']; exact hzero h, fun h => by rw [hrig']; exact hstruck h⟩
  · rw [State.killRig_eq]
    split
    · exact State.get_setReg_same _ _ _ _ (by rw [State.RegsOk, hregs]; exact haok)
    next hne => exact hstate.trans (hrun.resolve_left (hstate ▸ hne))
  · rw [hrigs.2, hsheets] at hh
    obtain ⟨x, hx, hxh⟩ := hab.sheets h hh
    cases hst : x.status.isSome with
    | true => exact hxh.ended hst
    | false =>
      exact hends x hx (hxh.rig ▸ hn) (hxh.dispatched ▸ hd) (by simpa using hst) h hh hxh.logno

/-! ### The write of IMG_RCTL -/

variable {d : Nat}

theorem exec_rigGo (hio : s.ioReached = true) (n : Nat) (d : Word) : exec (.rigGo n d) s = .next (s.rigCtl n d.toNat) :=
  gated_of_true hio (·.rigCtl n d.toNat) s

theorem exec_rigStop (hio : s.ioReached = true) (n : Nat) (d : Word) : exec (.rigStop n d) s = .next (s.rigCtl n d.toNat) :=
  gated_of_true hio (·.rigCtl n d.toNat) s

theorem exec_rigKill (hio : s.ioReached = true) (n : Nat) (d : Word) : exec (.rigKill n d) s = .next (s.rigCtl n d.toNat) :=
  gated_of_true hio (·.rigCtl n d.toNat) s

theorem exec_rigStopped (h : s.rigState n = rigStopping) (hidle : s.rigIdle n = true) :
    exec (.rigStopped n) s = .next (s.setReg F.IMG_RSTAT_STATE rigStopped n) :=
  gated_of_true (by rw [h, hidle]; rfl) (·.setReg F.IMG_RSTAT_STATE rigStopped n) s

theorem State.rigCtl_absent (h : s.rigState n = rigAbsent) (d : Nat) : s.rigCtl n d = s := if_pos h

theorem State.rigCtl_loading (h : s.rigState n = rigLoading) (d : Nat) : s.rigCtl n d = s.setReg F.IMG_RSTAT_BADW 1 n := by
  simp only [State.rigCtl, h]
  rfl

/-- The states in which a rig runs or ends its tasks: running, or stopping gracefully. -/
def State.rigWorks (s : State) (n : Nat) : Prop := s.rigState n = rigRunning ∨ (s.rigState n = rigStopping ∧ (s.rig n).killed = false)

theorem State.rigCtl_kill (h : s.rigWorks n) (hd : bit d 2 = true) : s.rigCtl n d = s.killRig n := by
  obtain h | ⟨h, hk⟩ := h
  · simp [State.rigCtl, h, hd, rigRunning, rigAbsent, rigLoading]
  · simp [State.rigCtl, h, hk, hd, rigStopping, rigRunning, rigAbsent, rigLoading]

theorem State.rigCtl_stop (h : s.rigState n = rigRunning) (hd : bit d 1 = true) (hkill : bit d 2 = false) :
    s.rigCtl n d = s.setReg F.IMG_RSTAT_STATE rigStopping n := by
  simp [State.rigCtl, h, hd, hkill, rigRunning, rigAbsent, rigLoading]

theorem State.rigCtl_go (h : s.rigState n = rigStopped ∨ (s.rigState n = rigStopping ∧ (s.rig n).killed = false)) (hd : bit d 0 = true)
    (hstop : bit d 1 = false) (hkill : bit d 2 = false) (hwhole : s.rigWhole n = true) (htrip : s.tripHold = false) :
    s.rigCtl n d = (s.modRig n fun r => { r with killed := false }).setReg F.IMG_RSTAT_STATE rigRunning n := by
  obtain h | ⟨h, hk⟩ := h
  · simp [State.rigCtl, h, hd, hstop, hkill, hwhole, htrip, rigStopped, rigAbsent, rigLoading]
  · simp [State.rigCtl, h, hk, hd, hstop, hkill, hwhole, htrip, rigStopping, rigStopped, rigAbsent, rigLoading]

/-- The state of a rig written, and nothing else. -/
theorem rigState_written (hs : s.RegsOk) (n : Nat) {v : Nat} (hv : v < 8) :
    (s.setReg F.IMG_RSTAT_STATE v n).rigState n = v ∧ onlyRegs s (s.setReg F.IMG_RSTAT_STATE v n)
      ∧ regsKept (fun f i => f.id = F.IMG_RSTAT_STATE.id ∧ i = n) s (s.setReg F.IMG_RSTAT_STATE v n) :=
  ⟨(State.get_setReg_same _ _ _ _ hs).trans (Nat.mod_eq_of_lt hv), rfl, (regsKept_refl s).setReg (by decide) fun _ he => ⟨he, rfl⟩⟩

/-- Settles O15: the write by the rig's state, the bits in their precedence. -/
theorem rigControl : Obligations.RigControl := by
  intro n d s hs hio
  refine ⟨fun h hgo hstop hkill hwhole htrip => ⟨_, exec_rigGo hio n d, ?_⟩, fun h hstop hkill => ⟨_, exec_rigStop hio n d, ?_⟩,
    fun h hkill hw => ⟨_, exec_rigKill hio n d, ?_⟩, fun h => ⟨_, exec_rigGo hio n d, exec_rigStop hio n d, exec_rigKill hio n d, ?_⟩,
    fun h => ?_, fun h hidle => ⟨_, exec_rigStopped h hidle, rigState_written hs n (by decide)⟩⟩
  · rw [State.rigCtl_go h hgo hstop hkill hwhole htrip]
    obtain ⟨hstate, -, hkept⟩ := rigState_written (s := s.modRig n fun r => { r with killed := false }) hs n (v := rigRunning) (by decide)
    exact ⟨hstate, rfl, hkept⟩
  · rw [State.rigCtl_stop h hstop hkill]
    exact rigState_written hs n (by decide)
  · rw [State.rigCtl_kill h hkill]
    exact killRig_done hs hw n (h.imp_right And.left)
  · rw [State.rigCtl_loading h]
    exact ⟨State.get_setReg_same _ _ _ _ hs, rfl, (regsKept_refl s).setReg (by decide) fun _ he => ⟨he, rfl⟩⟩
  · rw [exec_rigGo hio, exec_rigStop hio, exec_rigKill hio, State.rigCtl_absent h]
    exact ⟨rfl, rfl, rfl⟩

end Sys2Proof.Machine
end

section
/-! ## Load start and the check of an image (R161, R163, R166, R399) -/

namespace Sys2Proof.Machine

variable {s t : State} {n : Nat} {l : Load}

/-! ### A rig's block cleared -/

/-- A field of a rig's block stands at one place or more per rig; it is not the loader's state, and the rig's state stands at one place per rig. -/
def rigFieldOk (count : Nat) (f : Field) : Bool :=
  decide (f.id < 1024) && decide (f.id ≠ F.IMG_STAT_STATE.id) && (decide (f.id ≠ F.IMG_RSTAT_STATE.id) || decide (count / 72 = 1))

theorem rigFields_ok : rigFields.all (fun r => r.2.all (rigFieldOk r.1.count)) = true := by decide

theorem rigFieldOk_of_mem {r : Reg × List Field} {f : Field} (hr : r ∈ rigFields) (hf : f ∈ r.2) :
    f.id < 1024 ∧ f.id ≠ F.IMG_STAT_STATE.id ∧ (f.id = F.IMG_RSTAT_STATE.id → r.1.count / 72 = 1) := by
  have h := List.all_eq_true.mp (List.all_eq_true.mp rigFields_ok r hr) f hf
  simp only [rigFieldOk, Bool.and_eq_true, Bool.or_eq_true, decide_eq_true_eq] at h
  obtain ⟨⟨hid, hstate⟩, hrig⟩ := h
  exact ⟨hid, hstate, fun he => hrig.resolve_left (not_not_intro he)⟩

/-- The registers that a load start or a rig's removal clears: no other rig's state, and not the loader's. -/
def rigCleared (n : Nat) (f : Field) (i : Nat) : Prop := f.id ≠ F.IMG_STAT_STATE.id ∧ (f.id = F.IMG_RSTAT_STATE.id → i = n)

theorem clearRig_kept (h : regsKept (rigCleared n) s t) : regsKept (rigCleared n) s (t.clearRig n) := by
  refine h.each fun t r hr ht => ht.each fun t f hf ht => ht.each fun t i hi ht => ?_
  obtain ⟨hid, hstate, hrig⟩ := rigFieldOk_of_mem hr hf
  refine ht.setReg hid fun g hg => ⟨hg ▸ hstate, fun he => ?_⟩
  have hm : r.1.count / 72 = 1 := hrig (hg ▸ he)
  have hi0 : i = 0 := by simpa [hm] using hi
  simp only [hm, hi0, Nat.one_mul, Nat.add_zero]

theorem clearRig_onlyRegs (h : onlyRegs s t) : onlyRegs s (t.clearRig n) := h.each fun _ _ _ h => h.each fun _ _ _ h => h.each fun _ _ _ h => h.setReg

/-! ### The rigs of a load are set to loading -/

/-- Without an immediate stop a rig that is new has its block cleared, and the rig is set to loading. -/
theorem stopForLoad_zero (s : State) (n : Nat) :
    s.stopForLoad 0 n = (if (s.rig n).exists_ then s else s.clearRig n).setReg F.IMG_RSTAT_STATE rigLoading n := by
  simp [State.stopForLoad]

theorem stopForLoad_onlyRegs (h : onlyRegs s t) : onlyRegs s (t.stopForLoad 0 n) := by
  rw [stopForLoad_zero]
  split
  · exact h.setReg
  · exact (clearRig_onlyRegs h).setReg

theorem stopForLoad_kept (s : State) (n : Nat) : regsKept (rigCleared n) s (s.stopForLoad 0 n) := by
  have hok : ∀ g : Field, g.id = F.IMG_RSTAT_STATE.id → rigCleared n g n := fun g hg => ⟨by rw [hg]; decide, fun _ => rfl⟩
  rw [stopForLoad_zero]
  split
  · exact (regsKept_refl s).setReg (by decide) hok
  · exact (clearRig_kept (regsKept_refl s)).setReg (by decide) hok

theorem stopForLoad_rigState_ne (s : State) {n k : Nat} (hk : k ≠ n) : (s.stopForLoad 0 n).rigState k = s.rigState k :=
  stopForLoad_kept s n F.IMG_RSTAT_STATE k (by decide) fun h => hk (h.2 rfl)

theorem stopForLoad_rigState (hs : s.RegsOk) (n : Nat) : (s.stopForLoad 0 n).rigState n = rigLoading := by
  rw [stopForLoad_zero]
  exact State.get_setReg_same _ _ _ _ (by split; exacts [hs, (Follows.refl s).clearRig.regsOk hs])

/-- A list of rigs set to loading. -/
theorem stopForLoads_done (hs : s.RegsOk) (ns : List Nat) {t : State} (ht : t = each ns (fun s n => s.stopForLoad 0 n) s) :
    t.get F.IMG_STAT_STATE = s.get F.IMG_STAT_STATE ∧ (∀ n ∈ ns, t.rigState n = rigLoading)
      ∧ (∀ n, n ∉ ns → t.rigState n = s.rigState n) ∧ onlyRegs s t := by
  have hok : ∀ t : State, t.RegsOk → ∀ n, (t.stopForLoad 0 n).RegsOk := fun t ht n => (Follows.refl t).stopForLoad.regsOk ht
  rw [ht]
  refine ⟨?_, ?_, fun k hk => ?_, (onlyRegs_refl s).each fun t n _ h => stopForLoad_onlyRegs h⟩
  · refine each_ind (fun t : State => t.get F.IMG_STAT_STATE = s.get F.IMG_STAT_STATE) _ _ _ rfl fun t n _ h => ?_
    rw [← h]
    exact stopForLoad_kept t n F.IMG_STAT_STATE 0 (by decide) fun hc => hc.1 rfl
  · refine each_reaches State.RegsOk (fun n t => t.rigState n = rigLoading) hs (fun n _ t ht => hok t ht n)
      (fun n _ t ht => stopForLoad_rigState ht n) fun n _ t k ht hk => ?_
    by_cases hkn : k = n
    · rw [hkn, stopForLoad_rigState ht]
    · rw [stopForLoad_rigState_ne _ hkn, hk]
  · refine each_ind (fun t : State => t.rigState k = s.rigState k) _ _ _ rfl fun t n hn h => ?_
    rw [stopForLoad_rigState_ne _ (fun he : k = n => hk (by rwa [he])), h]

/-! ### START -/

theorem exec_loadStart (hio : s.ioReached = true) (d : Word) : exec (.loadStart d) s = .next (s.imgCtl d.toNat) := gated_of_true hio (·.imgCtl d.toNat) s

/-- The settings of a load, taken by the write of IMG_CTL. -/
def State.loadSet (s : State) (d : Nat) : State := (s.setReg F.IMG_CTL_HOLD (bits d 4 4)).setReg F.IMG_CTL_HOW (bits d 1 1)

theorem State.loadSet_get (s : State) (d : Nat) {f : Field} (hf : f.id < 1024) (hhold : f.id ≠ F.IMG_CTL_HOLD.id) (hhow : f.id ≠ F.IMG_CTL_HOW.id) (i : Nat) :
    (s.loadSet d).get f i = s.get f i := by
  rw [State.loadSet, State.get_setReg_id _ _ _ _ _ _ (by decide) hf hhow, State.get_setReg_id _ _ _ _ _ _ (by decide) hf hhold]

theorem State.loadSet_regsOk (hs : s.RegsOk) (d : Nat) : (s.loadSet d).RegsOk := State.setReg_regsOk _ _ _ _ (s.setReg_regsOk _ _ _ hs)

/-- What START latches. -/
def State.loadLatched (s : State) (d : Nat) : Load :=
  { how := bits d 1 1, hold := bit d 4, enrolled := slotBits s.enrolled, revoked := slotBits s.revoked, img := s.staging }

/-- The loader takes the image: it is read, and the check begins. -/
def State.loadTaken (s : State) (l : Load) : State :=
  { (s.setReg F.IMG_STAT_STATE 1).tier0Bytes ((min (imgTotal s.staging) (2 ^ 26) + 255) / 256) with load := some l }

theorem State.imgCtl_starts {d : Nat} (hb : bit d 0 = true) (hstep : 10 ≤ s.get F.SEC_BOOT_STEP) :
    s.imgCtl d = if s.get F.IMG_STAT_STATE ≠ 0 ∨ (s.fwOp.map (·.copying)).getD false = true then (s.loadSet d).setReg F.IMG_STAT_BUSYW 1
      else (s.loadSet d).loadTaken ((s.loadSet d).loadLatched d) := by
  have hgo : (!bit d 0 || decide ((s.loadSet d).get F.SEC_BOOT_STEP < 10)) = false := by
    rw [s.loadSet_get d (by decide) (by decide) (by decide), hb]
    simpa using hstep
  have heq : s.imgCtl d = if (!bit d 0 || decide ((s.loadSet d).get F.SEC_BOOT_STEP < 10)) = true then s.loadSet d
      else if ((s.loadSet d).get F.IMG_STAT_STATE != 0 || ((s.fwOp.map (·.copying)).getD false)) = true then (s.loadSet d).setReg F.IMG_STAT_BUSYW 1
      else (s.loadSet d).loadTaken ((s.loadSet d).loadLatched d) := rfl
  rw [heq, hgo, if_neg Bool.false_ne_true, s.loadSet_get d (by decide) (by decide) (by decide)]
  simp only [Bool.or_eq_true, bne_iff_ne]

theorem State.loadLatched_set (s : State) (d : Nat) :
    ((s.loadSet d).loadLatched d).enrolled = slotBits s.enrolled ∧ ((s.loadSet d).loadLatched d).revoked = slotBits s.revoked := by
  have hslots : (s.loadSet d).enrolled = s.enrolled ∧ (s.loadSet d).revoked = s.revoked := by
    constructor <;> rfl
  exact ⟨congrArg slotBits hslots.1, congrArg slotBits hslots.2⟩

theorem State.tier0Bytes_frame (s : State) (lines : Nat) : { s.tier0Bytes lines with regs := s.regs, scrubs := s.scrubs } = s := by
  unfold State.tier0Bytes State.traffic State.bump State.setReg
  rfl

theorem State.loadTaken_frame (s : State) (l : Load) : { s.loadTaken l with regs := s.regs, load := s.load, scrubs := s.scrubs } = s :=
  congrArg (fun t : State => { t with regs := s.regs, load := s.load, scrubs := s.scrubs }) ((s.setReg F.IMG_STAT_STATE 1).tier0Bytes_frame _)

theorem State.loadTaken_state (hs : s.RegsOk) (l : Load) : (s.loadTaken l).get F.IMG_STAT_STATE = 1 := by
  have hget : (s.loadTaken l).get F.IMG_STAT_STATE = ((s.setReg F.IMG_STAT_STATE 1).bump F.TIER_EBYTE_COUNT
      (256 * ((min (imgTotal s.staging) (2 ^ 26) + 255) / 256))).get F.IMG_STAT_STATE := by
    unfold State.loadTaken State.tier0Bytes State.traffic State.get
    rfl
  rw [hget, State.bump, State.get_setReg_id _ _ _ _ _ _ (by decide) (by decide) (by decide), State.get_setReg_same _ _ _ _ hs]
  rfl

theorem loadStart_free (hs : s.RegsOk) (d : Nat) (l : Load) : ((s.loadSet d).loadTaken l).get F.IMG_STAT_STATE = 1
    ∧ ((s.loadSet d).loadTaken l).load = some l ∧ { (s.loadSet d).loadTaken l with regs := s.regs, load := s.load, scrubs := s.scrubs } = s :=
  ⟨State.loadTaken_state (State.loadSet_regsOk hs d) l, by unfold State.loadTaken; rfl,
    congrArg (fun t : State => { t with regs := s.regs, load := s.load, scrubs := s.scrubs }) ((s.loadSet d).loadTaken_frame l)⟩

theorem loadStart_busy (hs : s.RegsOk) (d : Nat) {t : State} (ht : t = (s.loadSet d).setReg F.IMG_STAT_BUSYW 1) :
    t.get F.IMG_STAT_BUSYW = 1 ∧ t.get F.IMG_STAT_STATE = s.get F.IMG_STAT_STATE ∧ onlyRegs s t := by
  rw [ht]
  refine ⟨State.get_setReg_same _ _ _ _ (State.loadSet_regsOk hs d), ?_, (onlyRegs_refl s).setReg.setReg.setReg⟩
  rw [State.get_setReg_id _ _ _ _ _ _ (by decide) (by decide) (by decide), s.loadSet_get d (by decide) (by decide) (by decide)]

/-! ### The check -/

theorem exec_imageCheck_rules (hl : s.load = some l) (hstate : s.get F.IMG_STAT_STATE = 1) :
    exec .imageCheckComplete s = .next (if s.check1 l = 0 then s.setReg F.IMG_STAT_STATE 2 else s.rejectImage (s.check1 l)) := by
  have hexec : exec .imageCheckComplete s = execImageCheckComplete s := rfl
  rw [hexec, execImageCheckComplete, hl]
  simp only [hstate, if_true]
  split
  next h => rw [if_pos h]
  next e h => rw [if_neg h]

theorem exec_imageCheck_structure (hl : s.load = some l) (hstate : s.get F.IMG_STAT_STATE = 2) :
    exec .imageCheckComplete s = .next (if s.check2 l.img = 0 then
      each (s.loadRigs l.img) (fun s n => s.stopForLoad l.how n) (s.setReg F.IMG_STAT_STATE 3) else s.rejectImage (s.check2 l.img)) := by
  have hexec : exec .imageCheckComplete s = execImageCheckComplete s := rfl
  rw [hexec, execImageCheckComplete, hl]
  simp only [hstate, if_true, show (2 = 1) = False from by simp, if_false]
  split
  next h => rw [if_pos h]
  next e h => rw [if_neg h]

theorem rejectImage_done (hs : s.RegsOk) (e : Nat) {t : State} (ht : t = s.rejectImage e) :
    t.get F.IMG_STAT_REJ = 1 ∧ t.get F.IMG_STAT_CODE = e % 2 ^ 16 ∧ t.get F.IMG_STAT_STATE = 0 ∧ t.load = none
      ∧ { t with regs := s.regs, load := s.load } = s
      ∧ regsKept (fun f i => (f.id = F.IMG_STAT_REJ.id ∨ f.id = F.IMG_STAT_CODE.id ∨ f.id = F.IMG_STAT_STATE.id) ∧ i = 0) s t := by
  have hcode : (s.setReg F.IMG_STAT_CODE e).RegsOk := s.setReg_regsOk _ _ _ hs
  have hrej : ((s.setReg F.IMG_STAT_CODE e).setReg F.IMG_STAT_REJ 1).RegsOk := State.setReg_regsOk _ _ _ _ hcode
  have hget : ∀ (f : Field) (i : Nat), t.get f i = (((s.setReg F.IMG_STAT_CODE e).setReg F.IMG_STAT_REJ 1).setReg F.IMG_STAT_STATE 0).get f i := by
    intro f i
    rw [ht]
    rfl
  have hkept : regsKept (fun f i => (f.id = F.IMG_STAT_REJ.id ∨ f.id = F.IMG_STAT_CODE.id ∨ f.id = F.IMG_STAT_STATE.id) ∧ i = 0) s
      (((s.setReg F.IMG_STAT_CODE e).setReg F.IMG_STAT_REJ 1).setReg F.IMG_STAT_STATE 0) :=
    (((regsKept_refl s).setReg (by decide) fun _ he => ⟨.inr (.inl he), rfl⟩).setReg (by decide) fun _ he => ⟨.inl he, rfl⟩).setReg (by decide)
      fun _ he => ⟨.inr (.inr he), rfl⟩
  refine ⟨?_, ?_, ?_, by rw [ht]; rfl, by rw [ht]; rfl, fun f i hf hn => (hget f i).trans (hkept f i hf hn)⟩
  · rw [hget, State.get_setReg_id _ _ _ _ _ _ (by decide) (by decide) (by decide), State.get_setReg_same _ _ _ _ hcode]
    rfl
  · rw [hget, State.get_setReg_id _ _ _ _ _ _ (by decide) (by decide) (by decide), State.get_setReg_id _ _ _ _ _ _ (by decide) (by decide) (by decide),
      State.get_setReg_same _ _ _ _ hs]
    rfl
  · rw [hget, State.get_setReg_same _ _ _ _ hrej]
    rfl

/-- Settles O13: START by whether the staging area is held, and the two comings of the check by what they find. -/
theorem loadStartAndCheck : Obligations.LoadStartAndCheck := by
  refine ⟨fun d s hs hio hb hstep => ⟨fun hidle hcopy => ?_, fun hheld => ?_⟩, fun l s hs hl => ⟨fun hstate hok => ?_, fun hstate hok hhow => ?_,
    fun e he hne => ?_⟩⟩
  · obtain ⟨hen, hrev⟩ := s.loadLatched_set d.toNat
    obtain ⟨hone, hload, hframe⟩ := loadStart_free hs d.toNat ((s.loadSet d.toNat).loadLatched d.toNat)
    exact ⟨_, _, by rw [exec_loadStart hio, State.imgCtl_starts hb hstep, if_neg (by simp [hidle, hcopy])], hone, hload, rfl, rfl, rfl, hen, hrev, hframe⟩
  · exact ⟨_, by rw [exec_loadStart hio, State.imgCtl_starts hb hstep, if_pos hheld], loadStart_busy hs d.toNat rfl⟩
  · exact ⟨s.setReg F.IMG_STAT_STATE 2, by rw [exec_imageCheck_rules hl hstate, if_pos hok], State.get_setReg_same _ _ _ _ hs, rfl,
      (regsKept_refl s).setReg (by decide) fun _ he => ⟨he, rfl⟩⟩
  · have hset : (s.setReg F.IMG_STAT_STATE 3).RegsOk := s.setReg_regsOk _ _ _ hs
    obtain ⟨hst, hload, hother, honly⟩ := stopForLoads_done hset (s.loadRigs l.img) rfl
    refine ⟨_, by rw [exec_imageCheck_structure hl hstate, if_pos hok, hhow], ?_, hload, fun n hn => ?_, onlyRegs_trans (onlyRegs_refl s).setReg honly⟩
    · rw [hst, State.get_setReg_same _ _ _ _ hs]
      rfl
    · rw [hother n hn]
      exact State.get_setReg_id _ _ _ _ _ _ (by decide) (by decide) (by decide)
  · obtain ⟨hstate, rfl⟩ | ⟨hstate, rfl⟩ := he
    · exact ⟨_, by rw [exec_imageCheck_rules hl hstate, if_neg hne], rejectImage_done hs _ rfl⟩
    · exact ⟨_, by rw [exec_imageCheck_structure hl hstate, if_neg hne], rejectImage_done hs _ rfl⟩

end Sys2Proof.Machine
end

section
/-! ## Raises by the host and on-chip barriers (R169, R296 to R299, R305 to R307)

No enabled barrier takes the signals of these raises, and that stays so: a raise writes no field that enables a barrier or names its signal. -/

namespace Sys2Proof.Machine

variable {s t u : State} {sig k : Nat}

/-! ### Signals that no barrier takes -/

/-- A key that does not read as an unlisted one is listed. -/
theorem FMap.mem_of_get_ne {α : Type} {d : α} {m : FMap α} {i : Nat} (h : FMap.get d m i ≠ d) : (i, FMap.get d m i) ∈ m := by
  induction m with
  | nil => exact absurd rfl h
  | cons e m ih =>
    obtain ⟨j, v⟩ := e
    by_cases hij : i = j
    · rw [FMap.get, if_pos hij, hij]
      exact List.mem_cons_self
    · rw [FMap.get, if_neg hij] at h ⊢
      exact List.mem_cons_of_mem _ (ih h)

/-- The instances at which a field of reset value 0 is listed: every one that is set is among them. -/
theorem State.mem_instances_of_flag {f : Field} (hf : f.id < 1024) (hrst : f.rst = 0) (h : s.flag f k = true) :
    k ∈ s.regs.filterMap fun e => if e.1 % 1024 = f.id then some (e.1 / 1024) else none := by
  have hne : s.regs.get 0 (f.key k) ≠ 0 := by
    rw [State.flag, State.get, hrst, Nat.xor_zero] at h
    simpa using h
  have hmod : f.key k % 1024 = f.id := by
    rw [Field.key]
    omega
  refine List.mem_filterMap.mpr ⟨_, FMap.mem_of_get_ne hne, ?_⟩
  dsimp only
  rw [if_pos hmod, Field.key]
  congr 1
  omega

theorem State.obOf_eq_none_iff : s.obOf sig = none ↔ ∀ k, s.flag F.SYN_OB_0_EN k = true → s.get F.SYN_OB_0_ARRS k ≠ sig := by
  rw [State.obOf, List.find?_eq_none]
  refine ⟨fun h k hen ha => h k (State.mem_instances_of_flag (by decide) rfl hen) (by simp [hen, ha]), fun h k _ hk => ?_⟩
  simp only [Bool.and_eq_true, decide_eq_true_eq] at hk
  exact h k hk.1 hk.2

theorem State.xbOf_eq_none_iff : s.xbOf sig = none ↔ ∀ k, s.flag F.SYN_XB_0_EN k = true → s.get F.SYN_XB_0_ARRS k ≠ sig := by
  rw [State.xbOf, List.find?_eq_none]
  refine ⟨fun h k hen ha => ?_, fun h k hk ha => ?_⟩
  · exact h k (List.mem_filter.mpr ⟨State.mem_instances_of_flag (by decide) rfl hen, hen⟩) (by simpa using ha)
  · exact h k (List.mem_filter.mp hk).2 (by simpa using ha)

/-- No enabled barrier has the signal as its ARRS. -/
structure FreeSig (sig : Nat) (s : State) : Prop where
  ob : s.obOf sig = none
  xb : s.xbOf sig = none

/-- The fields that a raise which counts may write. -/
def raiseField (f : Field) : Prop := f.id = F.SYN_NRAISE_COUNT.id ∨ evField f

/-- Fields of a barrier are none that a raise writes. -/
theorem raiseField_not {f : Field} (h : f.id ≠ F.SYN_NRAISE_COUNT.id ∧ f.id ≠ F.EVT_CNT_COUNT.id ∧ f.id ≠ F.EVT_CTL_OVF.id) : ¬ raiseField f := by
  obtain ⟨hraise, hcnt, hovf⟩ := h
  rintro (he | he | he)
  · exact hraise he
  · exact hcnt he
  · exact hovf he

theorem FreeSig.kept (h : FreeSig sig s) {ok : Field → Nat → Prop} (hk : regsKept ok s t)
    (hok : ∀ f ∈ [F.SYN_OB_0_EN, F.SYN_OB_0_ARRS, F.SYN_XB_0_EN, F.SYN_XB_0_ARRS], ∀ k, ¬ ok f k) : FreeSig sig t := by
  have hget : ∀ f ∈ [F.SYN_OB_0_EN, F.SYN_OB_0_ARRS, F.SYN_XB_0_EN, F.SYN_XB_0_ARRS], ∀ k, t.get f k = s.get f k := fun f hf k =>
    hk f k (by revert hf; revert f; decide) (hok f hf k)
  refine ⟨State.obOf_eq_none_iff.mpr fun k hen ha => ?_, State.xbOf_eq_none_iff.mpr fun k hen ha => ?_⟩
  · rw [State.flag, hget _ (by simp)] at hen
    rw [hget _ (by simp)] at ha
    exact State.obOf_eq_none_iff.mp h.ob k hen ha
  · rw [State.flag, hget _ (by simp)] at hen
    rw [hget _ (by simp)] at ha
    exact State.xbOf_eq_none_iff.mp h.xb k hen ha

theorem FreeSig.raised (h : FreeSig sig s) (hk : regsKept (fun f _ => raiseField f) s t) : FreeSig sig t :=
  h.kept hk fun f hf _ => by
    simp only [List.mem_cons, List.not_mem_nil, or_false] at hf
    obtain rfl | rfl | rfl | rfl := hf
    · exact raiseField_not (by decide)
    · exact raiseField_not (by decide)
    · exact raiseField_not (by decide)
    · exact raiseField_not (by decide)

/-! ### A raise is noted -/

/-- The raise is counted, observed by the event counters and offered. -/
def State.raiseNoted (s : State) (sig : Nat) : State :=
  ((s.bump F.SYN_NRAISE_COUNT).observeRaise sig).offer (Config.evtCode 73) { rig := s.rigOfSig sig }

theorem State.observeRaise_frame (s : State) (sig : Nat) : { s.observeRaise sig with evStarted := s.evStarted } = s := by
  refine each_ind (fun t : State => { t with evStarted := s.evStarted } = s) _ _ _ rfl fun t c _ ht => ?_
  dsimp only
  split
  · split
    · split
      · exact ht
      · exact ht
    · split
      · exact ht
      · split
        · exact ht
        · exact ht
  · exact ht

theorem State.observeRaise_regs (s : State) (sig : Nat) : (s.observeRaise sig).regs = s.regs :=
  (congrArg State.regs (s.observeRaise_frame sig) :)

theorem State.observeRaise_get (s : State) (sig : Nat) (f : Field) (i : Nat) : (s.observeRaise sig).get f i = s.get f i := by
  rw [State.get, State.observeRaise_regs, State.get]

theorem State.raiseNoted_frame (s : State) (sig : Nat) : { s.raiseNoted sig with regs := s.regs, evStarted := s.evStarted } = s := by
  have hoffer : onlyRegs ((s.bump F.SYN_NRAISE_COUNT).observeRaise sig) (s.raiseNoted sig) := (onlyRegs_refl _).offer
  have hobserve := (s.bump F.SYN_NRAISE_COUNT).observeRaise_frame sig
  exact (congrArg (fun t : State => { t with regs := s.regs, evStarted := s.evStarted }) hoffer).trans
    (congrArg (fun t : State => { t with regs := s.regs, evStarted := s.evStarted }) hobserve)

theorem State.raiseNoted_kept (s : State) (sig : Nat) : regsKept (fun f _ => raiseField f) s (s.raiseNoted sig) := by
  refine regsKept.offer (fun f i hf hn => ?_) fun _ _ he => .inr he
  have hbump : regsKept (fun f _ => raiseField f) s (s.bump F.SYN_NRAISE_COUNT) := (regsKept_refl s).setReg (by decide) fun _ he => .inl he
  rw [State.observeRaise_get]
  exact hbump f i hf hn

theorem State.raiseNoted_regsOk (hs : s.RegsOk) (sig : Nat) : (s.raiseNoted sig).RegsOk := (Follows.refl s).bump.observeRaise.offer.regsOk hs

theorem State.raiseNoted_count (hs : s.RegsOk) (sig : Nat) :
    (s.raiseNoted sig).get F.SYN_NRAISE_COUNT = (s.get F.SYN_NRAISE_COUNT + 1) % 2 ^ 64 := by
  rw [State.raiseNoted, State.get_offer _ _ _ _ _ _ (by decide) (by simp [evField]; decide), State.observeRaise_get, State.bump,
    State.get_setReg_same _ _ _ _ hs]
  rfl

/-- What the raise is noted in hides nothing else: a view of neither registers nor the counters' starts reads as before. -/
theorem State.raiseNoted_view {α : Type} (π : State → α) (hπ : ∀ (u : State) (regs : FMap Nat) (st : FMap Bool), π { u with regs := regs, evStarted := st } = π u)
    (s : State) (sig : Nat) : π (s.raiseNoted sig) = π s :=
  (hπ _ s.regs s.evStarted).symm.trans (congrArg π (s.raiseNoted_frame sig))

/-- A raise of a signal that no barrier takes is noted and reaches the signal's count. -/
theorem FreeSig.raiseSig (h : FreeSig sig s) (src : Option Nat) : s.raiseSig src sig = (s.raiseNoted sig).raiseCount sig := by
  obtain ⟨hob, hxb⟩ := h.raised (s.raiseNoted_kept sig)
  unfold State.raiseNoted at hob hxb ⊢
  rw [State.raiseSig, State.raiseDeep]
  simp only [hob, hxb]

/-! ### The count of a signal -/

theorem State.raiseCount_up (hw : s.waiters.get [] sig = []) (hc : s.sigs.get 0 sig < 65535) :
    s.raiseCount sig = { s with sigs := s.sigs.set 0 sig (s.sigs.get 0 sig + 1) } := by
  unfold State.raiseCount
  rw [hw]
  exact if_pos hc

theorem State.raiseCount_lost (hw : s.waiters.get [] sig = []) (hc : 65535 ≤ s.sigs.get 0 sig) :
    s.raiseCount sig = (((s.setReg F.SYN_STAT_SSAT 1).setReg F.SYN_SLAST_SIG sig).bump F.SYN_NSAT_COUNT).offer 0x383 { rig := s.rigOfSig sig } := by
  unfold State.raiseCount
  rw [hw]
  exact if_neg (by omega)

theorem State.raiseCount_wakes {w : Waiter} {ws : List Waiter} (hw : s.waiters.get [] sig = w :: ws) :
    s.raiseCount sig = ({ s with waiters := s.waiters.set [] sig ws }).wake w := by
  unfold State.raiseCount
  rw [hw]

/-- `n` raises of a signal have been counted. -/
structure Raised (sig n : Nat) (s t : State) : Prop where
  regsOk : t.RegsOk
  sigsOk : FMap.wf 0 t.sigs = true
  count : t.sigs.get 0 sig = s.sigs.get 0 sig + n
  others : ∀ k, k ≠ sig → t.sigs.get 0 k = s.sigs.get 0 k
  frame : { t with regs := s.regs, sigs := s.sigs, evStarted := s.evStarted } = s
  kept : regsKept (fun f _ => raiseField f) s t

theorem Raised.refl (hs : s.RegsOk) (hg : FMap.wf 0 s.sigs = true) : Raised sig 0 s s := ⟨hs, hg, rfl, fun _ _ => rfl, rfl, regsKept_refl s⟩

theorem Raised.trans {m n : Nat} (h : Raised sig m s t) (h' : Raised sig n t u) : Raised sig (m + n) s u := by
  refine ⟨h'.regsOk, h'.sigsOk, by rw [h'.count, h.count, Nat.add_assoc], fun k hk => (h'.others k hk).trans (h.others k hk), ?_,
    fun f i hf hn => (h'.kept f i hf hn).trans (h.kept f i hf hn)⟩
  exact (congrArg (fun v : State => { v with regs := s.regs, sigs := s.sigs, evStarted := s.evStarted }) h'.frame).trans h.frame

theorem Raised.waiters {n : Nat} (h : Raised sig n s t) : t.waiters = s.waiters := (congrArg State.waiters h.frame :)

theorem Raised.obArr {n : Nat} (h : Raised sig n s t) : t.obArr = s.obArr := (congrArg State.obArr h.frame :)

theorem raised_one (hs : s.RegsOk) (hg : FMap.wf 0 s.sigs = true) (hfree : FreeSig sig s) (hw : s.waiters.get [] sig = [])
    (hc : s.sigs.get 0 sig < 65535) (src : Option Nat) : Raised sig 1 s (s.raiseSig src sig) := by
  have hsigs : (s.raiseNoted sig).sigs = s.sigs := s.raiseNoted_view State.sigs (fun _ _ _ => rfl) sig
  have hwait : (s.raiseNoted sig).waiters = s.waiters := s.raiseNoted_view State.waiters (fun _ _ _ => rfl) sig
  rw [hfree.raiseSig, State.raiseCount_up (by rw [hwait, hw]) (by rwa [hsigs]), hsigs]
  have hset := FMap.wf_set 0 s.sigs sig (s.sigs.get 0 sig + 1) hg
  have hget := fun i => FMap.get_set 0 s.sigs sig i (s.sigs.get 0 sig + 1) hg
  refine ⟨s.raiseNoted_regsOk hs sig, hset, (hget sig).trans (if_pos rfl), fun k hk => (hget k).trans (if_neg hk), ?_, s.raiseNoted_kept sig⟩
  exact congrArg (fun v : State => { v with sigs := s.sigs }) (s.raiseNoted_frame sig)

/-- A field that names a signal, and several raises of it. -/
theorem raised_each {f : Field} (hf : f.id < 1024) (hfield : ¬ raiseField f) (l : List Nat) (s : State) (hs : s.RegsOk)
    (hg : FMap.wf 0 s.sigs = true) (hfree : FreeSig (s.get f k) s) (hw : s.waiters.get [] (s.get f k) = [])
    (hc : s.sigs.get 0 (s.get f k) + l.length ≤ 65535) :
    Raised (s.get f k) l.length s (each l (fun s _ => s.raiseSig none (s.get f k)) s) := by
  induction l generalizing s with
  | nil => exact .refl hs hg
  | cons a l ih =>
    rw [List.length_cons] at hc
    have hone := raised_one hs hg hfree hw (by omega) none
    have hsig : (s.raiseSig none (s.get f k)).get f k = s.get f k := hone.kept f k hf hfield
    have hrest := ih (s.raiseSig none (s.get f k)) hone.regsOk hone.sigsOk (by rw [hsig]; exact hfree.raised hone.kept)
      (by rw [hsig, hone.waiters, hw]) (by rw [hsig, hone.count]; omega)
    rw [hsig] at hrest
    rw [each_cons, List.length_cons, Nat.add_comm]
    exact hone.trans hrest

/-! ### A waiter wakes -/

theorem State.bump_tile (s : State) (f : Field) (n i p : Nat) : (s.bump f n i).tile p = s.tile p := rfl

theorem offBooks_waiters : OffBooks State.waiters := fun _ _ _ _ _ _ _ _ _ _ _ _ _ _ _ => rfl

theorem Keeps.markDone {α : Type} {own : List Nat} {π : Tile → α} (h : Keeps own π s t) {logno lead unit wr : Nat} :
    Keeps own π s (t.markDone logno lead unit wr) := Keeps.upd (h.when fun _ hv => hv.writeLog)

theorem markDone_waiters (s : State) (logno lead unit wr : Nat) : (s.markDone logno lead unit wr).waiters = s.waiters :=
  ((Beside.refl offBooks_waiters s).when fun _ hv => hv.writeLog).view

/-- The wake of a unit, up to its going on: it is counted and its wait is marked in the log. -/
structure Woken (s t : State) : Prop where
  sigs : t.sigs = s.sigs
  waiters : t.waiters = s.waiters
  tile : ∀ p, t.tile p = s.tile p
  tilesOk : FMap.wf {} t.tiles = true
  count : t.get F.SYN_NWAKE_COUNT = (s.get F.SYN_NWAKE_COUNT + 1) % 2 ^ 64
  regsOk : t.RegsOk

theorem woken_noteWake (hs : s.RegsOk) (ht : FMap.wf {} s.tiles = true) (p : Nat) : Woken s (s.noteWake p) := by
  have honly : onlyRegs s (s.noteWake p) := ((onlyRegs_refl s).setReg).offer
  have htiles : (s.noteWake p).tiles = s.tiles := honly.field State.tiles fun _ _ => rfl
  refine ⟨honly.field State.sigs fun _ _ => rfl, honly.field State.waiters fun _ _ => rfl, fun q => by rw [State.tile, htiles, State.tile],
    htiles ▸ ht, ?_, (Follows.refl s).noteWake.regsOk hs⟩
  rw [State.noteWake, State.offerTile, State.get_offer _ _ _ _ _ _ (by decide) (by simp [evField]; decide), State.bump,
    State.get_setReg_same _ _ _ _ hs]
  rfl

theorem Woken.markDone (h : Woken s t) (logno lead unit wr : Nat) : Woken s (t.markDone logno lead unit wr) := by
  have hk : Keeps [] id t (t.markDone logno lead unit wr) := (Keeps.refl h.regsOk h.tilesOk).markDone
  exact ⟨hk.sigs.trans h.sigs, (markDone_waiters t logno lead unit wr).trans h.waiters, fun p => (hk.tile p).trans (h.tile p), hk.tilesOk,
    (hk.get _ _ (by decide) (by decide) (by decide)).trans h.count, hk.regsOk⟩

theorem wake_done (hs : s.RegsOk) (ht : FMap.wf {} s.tiles = true) (w : Waiter) :
    (s.wake w).sigs = s.sigs ∧ (s.wake w).waiters = s.waiters
      ∧ (w.unit = 8 → ((s.wake w).tile w.tile).vec = (s.tile w.tile).vec.advance)
      ∧ (s.wake w).get F.SYN_NWAKE_COUNT = (s.get F.SYN_NWAKE_COUNT + 1) % 2 ^ 64 := by
  have hnote := woken_noteWake hs ht w.tile
  unfold State.wake
  by_cases hu : w.unit = 8
  · simp only [hu, if_true]
    have hmark := hnote.markDone ((s.noteWake w.tile).tile w.tile).vec.task.logno ((s.noteWake w.tile).tile w.tile).vec.task.lead (unitKey w.tile 8) 0
    refine ⟨hmark.sigs, hmark.waiters, fun _ => ?_, ?_⟩
    · rw [State.bump_tile, State.modVec_tile hmark.tilesOk, hmark.tile]
    · rw [State.bump, State.get_setReg_id _ _ _ _ _ _ (by decide) (by decide) (by decide)]
      exact hmark.count
  · simp only [hu, if_false, false_implies, true_and]
    split
    · have hmark := hnote.markDone
      exact ⟨(hmark _ _ _ _).sigs, (hmark _ _ _ _).waiters, (hmark _ _ _ _).count⟩
    · exact ⟨hnote.sigs, hnote.waiters, hnote.count⟩

/-! ### The raise by the host -/

theorem exec_hostRaise (hio : s.ioReached = true) (d : Word) : exec (.hostRaise d) s =
    .next (if (s.rigOfSig (d.toNat % 2 ^ 14)).isSome then s.raiseSig none (d.toNat % 2 ^ 14) else s.setReg F.SYN_STAT_BADW 1) := by
  have hsig : d.toNat % 2 ^ 14 = bits d.toNat 13 0 := by
    rw [bits_eq, Nat.pow_zero, Nat.div_one]
  rw [hsig]
  exact gated_of_true hio (fun s => if (s.rigOfSig (bits d.toNat 13 0)).isSome then s.raiseSig none (bits d.toNat 13 0) else s.raiseFlag F.SYN_STAT_BADW) s

theorem raise_counts (hs : s.RegsOk) (hg : FMap.wf 0 s.sigs = true) (hfree : FreeSig sig s) (hw : s.waiters.get [] sig = [])
    (hc : s.sigs.get 0 sig < 65535) {t : State} (ht : t = s.raiseSig none sig) :
    t.sigs.get 0 sig = s.sigs.get 0 sig + 1 ∧ (∀ k, k ≠ sig → t.sigs.get 0 k = s.sigs.get 0 k)
      ∧ t.get F.SYN_NRAISE_COUNT = (s.get F.SYN_NRAISE_COUNT + 1) % 2 ^ 64
      ∧ { t with regs := s.regs, sigs := s.sigs, evStarted := s.evStarted } = s := by
  have hone := raised_one hs hg hfree hw hc none
  rw [ht]
  refine ⟨hone.count, hone.others, ?_, hone.frame⟩
  rw [hfree.raiseSig, State.raiseCount_up (by rwa [s.raiseNoted_view State.waiters (fun _ _ _ => rfl)])
    (by rwa [s.raiseNoted_view State.sigs (fun _ _ _ => rfl)])]
  exact s.raiseNoted_count hs sig

theorem raise_lost (hs : s.RegsOk) (hfree : FreeSig sig s) (hlt : sig < 2 ^ 14) (hw : s.waiters.get [] sig = [])
    (hc : 65535 ≤ s.sigs.get 0 sig) {t : State} (ht : t = s.raiseSig none sig) :
    t.sigs = s.sigs ∧ t.get F.SYN_STAT_SSAT = 1 ∧ t.get F.SYN_SLAST_SIG = sig ∧ t.get F.SYN_NSAT_COUNT = (s.get F.SYN_NSAT_COUNT + 1) % 2 ^ 64 := by
  have hsigs : (s.raiseNoted sig).sigs = s.sigs := s.raiseNoted_view State.sigs (fun _ _ _ => rfl) sig
  have hok := s.raiseNoted_regsOk hs sig
  have hok' : ((s.raiseNoted sig).setReg F.SYN_STAT_SSAT 1).RegsOk := State.setReg_regsOk _ _ _ _ hok
  have hsat : (s.raiseNoted sig).get F.SYN_NSAT_COUNT = s.get F.SYN_NSAT_COUNT := s.raiseNoted_kept sig _ _ (by decide) (raiseField_not (by decide))
  rw [ht, hfree.raiseSig, State.raiseCount_lost (by rwa [s.raiseNoted_view State.waiters (fun _ _ _ => rfl)]) (by rwa [hsigs])]
  refine ⟨?_, ?_, ?_, ?_⟩
  · exact ((((onlyRegs_refl (s.raiseNoted sig)).setReg.setReg.setReg).offer).field State.sigs fun _ _ => rfl).trans hsigs
  · rw [State.get_offer _ _ _ _ _ _ (by decide) (by simp [evField]; decide), State.bump, State.get_setReg_id _ _ _ _ _ _ (by decide) (by decide) (by decide),
      State.get_setReg_id _ _ _ _ _ _ (by decide) (by decide) (by decide), State.get_setReg_same _ _ _ _ hok]
    rfl
  · rw [State.get_offer _ _ _ _ _ _ (by decide) (by simp [evField]; decide), State.bump, State.get_setReg_id _ _ _ _ _ _ (by decide) (by decide) (by decide),
      State.get_setReg_same _ _ _ _ hok']
    exact Nat.mod_eq_of_lt hlt
  · rw [State.get_offer _ _ _ _ _ _ (by decide) (by simp [evField]; decide), State.bump,
      State.get_setReg_same _ _ _ _ (State.setReg_regsOk _ _ _ _ hok'), State.get_setReg_id _ _ _ _ _ _ (by decide) (by decide) (by decide),
      State.get_setReg_id _ _ _ _ _ _ (by decide) (by decide) (by decide), hsat]
    rfl

theorem raise_wakes (hs : s.RegsOk) (hwt : FMap.wf [] s.waiters = true) (htiles : FMap.wf {} s.tiles = true) (hfree : FreeSig sig s) {w : Waiter}
    {ws : List Waiter} (hw : s.waiters.get [] sig = w :: ws) {t : State} (ht : t = s.raiseSig none sig) :
    t.sigs = s.sigs ∧ t.waiters.get [] sig = ws ∧ (w.unit = 8 → (t.tile w.tile).vec = (s.tile w.tile).vec.advance)
      ∧ t.get F.SYN_NWAKE_COUNT = (s.get F.SYN_NWAKE_COUNT + 1) % 2 ^ 64 := by
  have hview := fun {α : Type} (π : State → α) hπ => s.raiseNoted_view π hπ sig
  have hwait : (s.raiseNoted sig).waiters = s.waiters := hview State.waiters fun _ _ _ => rfl
  have htile : (s.raiseNoted sig).tiles = s.tiles := hview State.tiles fun _ _ _ => rfl
  obtain ⟨v, hv⟩ : ∃ v, v = { s.raiseNoted sig with waiters := s.waiters.set [] sig ws } := ⟨_, rfl⟩
  have hvt : v.tiles = s.tiles := by rw [hv]; exact htile
  have hvr : v.regs = (s.raiseNoted sig).regs := by rw [hv]
  obtain ⟨hsigs, hwaiters, hvec, hcount⟩ := wake_done (s := v) (by rw [State.RegsOk, hvr]; exact s.raiseNoted_regsOk hs sig) (hvt ▸ htiles) w
  have heq : t = v.wake w := by rw [ht, hfree.raiseSig, State.raiseCount_wakes (by rw [hwait, hw]), hwait, hv]
  rw [heq]
  refine ⟨hsigs.trans ?_, ?_, fun hu => ?_, ?_⟩
  · rw [hv]
    exact hview State.sigs fun _ _ _ => rfl
  · rw [hwaiters, hv]
    exact (FMap.get_set [] s.waiters sig sig ws hwt).trans (if_pos rfl)
  · rw [hvec hu, State.tile, hvt, State.tile]
  · rw [hcount, State.get, hvr]
    exact congrArg (fun c => (c + 1) % 2 ^ 64) (s.raiseNoted_kept sig F.SYN_NWAKE_COUNT 0 (by decide) (raiseField_not (by decide)))

/-! ### A phase of an on-chip barrier -/

theorem FMap.get_each_pred {m : FMap Nat} (hm : FMap.wf 0 m = true) (key : Nat → Nat) (hkey : ∀ a b, key a = key b → a = b) (l : List Nat) (hl : l.Nodup) :
    FMap.wf 0 (each l (fun m a => FMap.upd 0 m (key a) (· - 1)) m) = true
      ∧ ∀ i, (each l (fun m a => FMap.upd 0 m (key a) (· - 1)) m).get 0 i = if ∃ a ∈ l, key a = i then m.get 0 i - 1 else m.get 0 i := by
  induction l generalizing m with
  | nil => simp [hm]
  | cons a l ih =>
    obtain ⟨ha, hl⟩ := List.nodup_cons.mp hl
    obtain ⟨hwf, hget⟩ := ih (FMap.wf_upd 0 m (key a) (· - 1) hm) hl
    refine ⟨hwf, fun i => ?_⟩
    rw [each_cons, hget, FMap.get_upd _ _ _ _ _ hm]
    by_cases hi : i = key a
    · have hno : ¬ ∃ b ∈ l, key b = i := fun ⟨b, hb, hbi⟩ => ha (hkey b a (hbi.trans hi) ▸ hb)
      rw [if_neg hno, if_pos hi, if_pos ⟨a, List.mem_cons_self, hi.symm⟩, hi]
    · have hiff : (∃ b ∈ a :: l, key b = i) ↔ ∃ b ∈ l, key b = i := by simp [Ne.symm hi]
      simp only [hiff, if_neg hi]

/-- The members of barrier `k` have each given one arrival, and the barrier has gone up by a phase. -/
def State.phased (s : State) (k : Nat) : State :=
  let s := { s with obArr := each (s.obMembers k) (fun m p => m.upd 0 (obKey k p) (· - 1)) s.obArr }
  ((s.bump F.SYN_OB_PH_PHASE 1 k).bump F.SYN_NOBC_COUNT).offer (Config.evtCode 75) { rig := s.rigOfSig (s.get F.SYN_OB_0_ARRS k) }

/-- The number of raises at the end of a phase. -/
def State.relCount (s : State) (k : Nat) : Nat :=
  if s.get F.SYN_OB_4_NREL k = 0 then (s.obMembers k).length else s.get F.SYN_OB_4_NREL k

theorem exec_obPhaseComplete (hen : s.get F.SYN_OB_0_EN k = 1) (hms : s.obMembers k ≠ []) (harr : ∀ p ∈ s.obMembers k, 1 ≤ s.obArr.get 0 (obKey k p)) :
    exec (.obPhaseComplete k) s
      = .next (each (List.range (s.relCount k)) (fun s _ => s.raiseSig none (s.get F.SYN_OB_4_RELS k)) (s.phased k)) := by
  have hgo : (s.flag F.SYN_OB_0_EN k && !(s.obMembers k).isEmpty && (s.obMembers k).all fun p => s.obArr.get 0 (obKey k p) ≥ 1) = true := by
    simpa [State.flag, hen, hms] using harr
  exact gated_of_true hgo (fun s' => each (List.range (s'.relCount k)) (fun s _ => s.raiseSig none (s.get F.SYN_OB_4_RELS k)) (s'.phased k)) s

/-- The fields that the end of a phase writes before it raises. -/
def phaseField (f : Field) : Prop := f.id = F.SYN_OB_PH_PHASE.id ∨ f.id = F.SYN_NOBC_COUNT.id ∨ evField f

theorem phaseField_not {f : Field} (h : f.id ≠ F.SYN_OB_PH_PHASE.id ∧ f.id ≠ F.SYN_NOBC_COUNT.id ∧ f.id ≠ F.EVT_CNT_COUNT.id ∧ f.id ≠ F.EVT_CTL_OVF.id) :
    ¬ phaseField f := by
  obtain ⟨hph, hno, hcnt, hovf⟩ := h
  rintro (he | he | he | he)
  · exact hph he
  · exact hno he
  · exact hcnt he
  · exact hovf he

/-- The barrier up by a phase: what is counted, and what is as before. -/
structure Phased (k : Nat) (s t : State) : Prop where
  regsOk : t.RegsOk
  phase : t.get F.SYN_OB_PH_PHASE k = (s.get F.SYN_OB_PH_PHASE k + 1) % 2 ^ 32
  count : t.get F.SYN_NOBC_COUNT = (s.get F.SYN_NOBC_COUNT + 1) % 2 ^ 64
  kept : regsKept (fun f _ => phaseField f) s t
  sigs : t.sigs = s.sigs
  waiters : t.waiters = s.waiters
  obArr : t.obArr = each (s.obMembers k) (fun m p => m.upd 0 (obKey k p) (· - 1)) s.obArr

theorem phased_done (hs : s.RegsOk) (k : Nat) : Phased k s (s.phased k) := by
  obtain ⟨v, hv⟩ : ∃ v, v = { s with obArr := each (s.obMembers k) (fun m p => m.upd 0 (obKey k p) (· - 1)) s.obArr } := ⟨_, rfl⟩
  have heq : s.phased k = ((v.bump F.SYN_OB_PH_PHASE 1 k).bump F.SYN_NOBC_COUNT).offer (Config.evtCode 75) { rig := v.rigOfSig (v.get F.SYN_OB_0_ARRS k) } := by
    rw [State.phased, ← hv]
  have hget : ∀ (f : Field) (i : Nat), v.get f i = s.get f i := fun f i => by
    rw [hv]
    rfl
  have hok : v.RegsOk := by
    rw [hv]
    exact hs
  have hph : (v.bump F.SYN_OB_PH_PHASE 1 k).RegsOk := State.setReg_regsOk _ _ _ _ hok
  have honly : onlyRegs v (s.phased k) := by
    rw [heq]
    exact ((onlyRegs_refl v).setReg.setReg).offer
  have hkept : regsKept (fun f _ => phaseField f) v (s.phased k) := by
    rw [heq]
    exact (((regsKept_refl v).setReg (by decide) fun _ he => .inl he).setReg (by decide) fun _ he => .inr (.inl he)).offer fun _ _ he => .inr (.inr he)
  refine ⟨?_, ?_, ?_, fun f i hf hn => (hkept f i hf hn).trans (hget f i), (honly.field State.sigs fun _ _ => rfl).trans (by rw [hv]),
    (honly.field State.waiters fun _ _ => rfl).trans (by rw [hv]), (honly.field State.obArr fun _ _ => rfl).trans (by rw [hv])⟩
  · rw [heq]
    exact State.offer_regsOk _ _ _ _ (State.setReg_regsOk _ _ _ _ hph)
  · rw [heq, State.get_offer _ _ _ _ _ _ (by decide) (by simp [evField]; decide), State.bump, State.bump,
      State.get_setReg_id _ _ _ _ _ _ (by decide) (by decide) (by decide), State.get_setReg_same _ _ _ _ hok, hget]
    rfl
  · rw [heq, State.get_offer _ _ _ _ _ _ (by decide) (by simp [evField]; decide), State.bump, State.get_setReg_same _ _ _ _ hph, State.bump,
      State.get_setReg_id _ _ _ _ _ _ (by decide) (by decide) (by decide), hget]
    rfl

/-- The arrivals after a phase: one less of each member. -/
theorem phased_arrivals (hm : FMap.wf 0 s.obArr = true) (k j p : Nat) (hp : p < 128) :
    (each (s.obMembers k) (fun m p => FMap.upd 0 m (obKey k p) (· - 1)) s.obArr).get 0 (128 * j + p)
      = if j = k ∧ p ∈ s.obMembers k then s.obArr.get 0 (128 * j + p) - 1 else s.obArr.get 0 (128 * j + p) := by
  have hlt : ∀ q ∈ s.obMembers k, q < 80 := fun q hq => List.mem_range.mp (List.mem_filter.mp hq).1
  have hkey : ∀ a b, obKey k a = obKey k b → a = b := fun a b h => by
    unfold obKey at h
    omega
  have hnodup : (s.obMembers k).Nodup := List.nodup_range.filter _
  rw [(FMap.get_each_pred hm (obKey k) hkey _ hnodup).2]
  have hiff : (∃ a ∈ s.obMembers k, obKey k a = 128 * j + p) ↔ j = k ∧ p ∈ s.obMembers k := by
    refine ⟨fun ⟨a, ha, he⟩ => ?_, fun ⟨hj, hp⟩ => ⟨p, hp, by rw [hj, obKey]⟩⟩
    have := hlt a ha
    unfold obKey at he
    obtain ⟨rfl, rfl⟩ : j = k ∧ a = p := by omega
    exact ⟨rfl, ha⟩
  simp only [hiff]

theorem obPhase_done (hs : s.RegsOk) (hg : FMap.wf 0 s.sigs = true) (hm : FMap.wf 0 s.obArr = true) (k n : Nat)
    (hfree : FreeSig (s.get F.SYN_OB_4_RELS k) s) (hw : s.waiters.get [] (s.get F.SYN_OB_4_RELS k) = [])
    (hc : s.sigs.get 0 (s.get F.SYN_OB_4_RELS k) + n ≤ 65535) {t : State}
    (ht : t = each (List.range n) (fun s _ => s.raiseSig none (s.get F.SYN_OB_4_RELS k)) (s.phased k)) :
    t.get F.SYN_OB_PH_PHASE k = (s.get F.SYN_OB_PH_PHASE k + 1) % 2 ^ 32 ∧ t.get F.SYN_NOBC_COUNT = (s.get F.SYN_NOBC_COUNT + 1) % 2 ^ 64
      ∧ t.sigs.get 0 (s.get F.SYN_OB_4_RELS k) = s.sigs.get 0 (s.get F.SYN_OB_4_RELS k) + n
      ∧ (∀ g, g ≠ s.get F.SYN_OB_4_RELS k → t.sigs.get 0 g = s.sigs.get 0 g)
      ∧ ∀ j p, p < 128 → t.obArr.get 0 (128 * j + p)
          = if j = k ∧ p ∈ s.obMembers k then s.obArr.get 0 (128 * j + p) - 1 else s.obArr.get 0 (128 * j + p) := by
  have hphase := phased_done hs k
  have hrels : (s.phased k).get F.SYN_OB_4_RELS k = s.get F.SYN_OB_4_RELS k := hphase.kept _ _ (by decide) (phaseField_not (by decide))
  have hfree' : FreeSig (s.get F.SYN_OB_4_RELS k) (s.phased k) := hfree.kept hphase.kept fun f hf _ => by
    simp only [List.mem_cons, List.not_mem_nil, or_false] at hf
    obtain rfl | rfl | rfl | rfl := hf
    · exact phaseField_not (by decide)
    · exact phaseField_not (by decide)
    · exact phaseField_not (by decide)
    · exact phaseField_not (by decide)
  have hraised := raised_each (f := F.SYN_OB_4_RELS) (k := k) (by decide) (raiseField_not (by decide)) (List.range n) (s.phased k) hphase.regsOk
    (by rw [hphase.sigs, hg]) (by rw [hrels]; exact hfree') (by rw [hrels, hphase.waiters, hw]) (by rw [hrels, hphase.sigs, List.length_range]; exact hc)
  rw [hrels, List.length_range, ← ht] at hraised
  refine ⟨?_, ?_, by rw [hraised.count, hphase.sigs], fun g hg => by rw [hraised.others g hg, hphase.sigs], fun j p hp => ?_⟩
  · rw [hraised.kept _ _ (by decide) (raiseField_not (by decide)), hphase.phase]
  · rw [hraised.kept _ _ (by decide) (raiseField_not (by decide)), hphase.count]
  · rw [hraised.obArr, hphase.obArr, phased_arrivals hm k j p hp]

/-! ### EN of an on-chip barrier -/

theorem exec_obEnableWrite (hio : s.ioReached = true) (k : Nat) (d : Word) : exec (.obEnableWrite k d) s = .next (s.obEnable k d.toNat) :=
  gated_of_true hio (·.obEnable k d.toNat) s

variable {d : Nat}

/-- The barrier taken out of use: EN 0, and no arrivals. -/
def State.obOff (s : State) (k : Nat) : State := { s.setReg F.SYN_OB_0_EN 0 k with obArr := s.obArr.keep fun q _ => q / 128 ≠ k }

theorem State.obEnable_off (hs : s.RegsOk) (hd : bit d 31 = false) : s.obEnable k d = (s.obOff k).setReg F.SYN_OB_0_ARRS (bits d 13 0) k := by
  have hok : (s.obOff k).RegsOk := s.setReg_regsOk F.SYN_OB_0_EN 0 k hs
  rw [← State.staticWrite_stopped hok _ F.SYN_STAT_SREF _ _ 0 0x380]
  unfold State.obEnable
  rw [hd]
  rfl

theorem obEnable_off_done (hs : s.RegsOk) (hd : bit d 31 = false) {t : State} (ht : t = s.obEnable k d) :
    t.get F.SYN_OB_0_EN k = 0 ∧ t.get F.SYN_OB_0_ARRS k = d % 2 ^ 14 ∧ (∀ p, p < 128 → t.obArr.get 0 (128 * k + p) = 0)
      ∧ ∀ j p, p < 128 → j ≠ k → t.obArr.get 0 (128 * j + p) = s.obArr.get 0 (128 * j + p) := by
  have hok : (s.obOff k).RegsOk := s.setReg_regsOk F.SYN_OB_0_EN 0 k hs
  have hget : ∀ i, t.obArr.get 0 i = if i / 128 = k then 0 else s.obArr.get 0 i := fun i => by
    have harr : t.obArr = s.obArr.keep fun q _ => decide (q / 128 ≠ k) := by
      rw [ht, State.obEnable_off hs hd]
      rfl
    rw [harr, FMap.get_eq_lookup, FMap.lookup_keep fun q => decide (q / 128 ≠ k)]
    by_cases hi : i / 128 = k
    · simp [hi]
    · simp [hi, FMap.get_eq_lookup]
  refine ⟨?_, ?_, fun p hp => ?_, fun j p hp hj => ?_⟩
  · rw [ht, State.obEnable_off hs hd, State.get_setReg_id _ _ _ _ _ _ (by decide) (by decide) (by decide)]
    exact State.get_setReg_same s F.SYN_OB_0_EN 0 k hs
  · rw [ht, State.obEnable_off hs hd, State.get_setReg_same _ _ _ _ hok, bits_eq]
    simp [show F.SYN_OB_0_ARRS.width = 14 from rfl]
  · rw [hget, if_pos (by omega)]
  · rw [hget, if_neg (by omega)]

theorem State.obEnable_new (hs : s.RegsOk) (hd : bit d 31 = true) (hen : s.get F.SYN_OB_0_EN k = 0) :
    s.obEnable k d = let u := s.setReg F.SYN_OB_0_ARRS (bits d 13 0) k
      if u.obOk k then ((u.setReg F.SYN_OB_PM_PMASK (u.pmaskOf (u.get F.SYN_OB_LM_LMASK k)) k).setReg F.SYN_OB_PH_PHASE 0 k).setReg F.SYN_OB_0_EN 1 k
      else u.setReg F.SYN_OB_ST_BBAD 1 k := by
  have hoff : s.flag F.SYN_OB_0_EN k = false := by rw [State.flag, hen]; rfl
  dsimp only
  rw [← State.staticWrite_stopped hs F.SYN_OB_0_ARRS F.SYN_STAT_SREF k (bits d 13 0) 0 0x380]
  unfold State.obEnable
  rw [hd, hoff]
  rfl

/-- The mask of physical tiles depends on the map of tiles alone. -/
theorem State.pmaskOf_congr (h : ∀ i, t.phys i = s.phys i) (m : Nat) : t.pmaskOf m = s.pmaskOf m := by
  unfold State.pmaskOf
  congr 1
  funext a i
  rw [h]

theorem obEnable_good (hs : s.RegsOk) (hd : bit d 31 = true) (hen : s.get F.SYN_OB_0_EN k = 0)
    (hok : (s.setReg F.SYN_OB_0_ARRS (bits d 13 0) k).obOk k = true) {t : State} (ht : t = s.obEnable k d) :
    t.get F.SYN_OB_0_EN k = 1 ∧ t.get F.SYN_OB_PH_PHASE k = 0 ∧ t.get F.SYN_OB_0_ARRS k = d % 2 ^ 14
      ∧ t.get F.SYN_OB_PM_PMASK k = s.pmaskOf (s.get F.SYN_OB_LM_LMASK k) % 2 ^ 80 ∧ onlyRegs s t := by
  obtain ⟨u, hu⟩ : ∃ u, u = s.setReg F.SYN_OB_0_ARRS (bits d 13 0) k := ⟨_, rfl⟩
  have huok : u.RegsOk := hu ▸ s.setReg_regsOk _ _ _ hs
  have hother : ∀ {f : Field} (i : Nat), f.id < 1024 → f.id ≠ F.SYN_OB_0_ARRS.id → u.get f i = s.get f i := fun i hf hne => by
    rw [hu]
    exact State.get_setReg_id _ _ _ _ _ _ (by decide) hf hne
  have hmask : u.pmaskOf (u.get F.SYN_OB_LM_LMASK k) = s.pmaskOf (s.get F.SYN_OB_LM_LMASK k) := by
    rw [hother _ (by decide) (by decide), State.pmaskOf_congr fun i => hother i (by decide) (by decide)]
  rw [State.obEnable_new hs hd hen] at ht
  dsimp only at ht
  rw [if_pos hok, ← hu, hmask] at ht
  obtain ⟨v, hv⟩ : ∃ v, v = u.setReg F.SYN_OB_PM_PMASK (s.pmaskOf (s.get F.SYN_OB_LM_LMASK k)) k := ⟨_, rfl⟩
  have hvok : v.RegsOk := hv ▸ State.setReg_regsOk _ _ _ _ huok
  rw [← hv] at ht
  rw [ht]
  refine ⟨State.get_setReg_same _ _ _ _ (State.setReg_regsOk _ _ _ _ hvok), ?_, ?_, ?_, ?_⟩
  · rw [State.get_setReg_id _ _ _ _ _ _ (by decide) (by decide) (by decide), State.get_setReg_same _ _ _ _ hvok]
    rfl
  · rw [State.get_setReg_id _ _ _ _ _ _ (by decide) (by decide) (by decide), State.get_setReg_id _ _ _ _ _ _ (by decide) (by decide) (by decide), hv,
      State.get_setReg_id _ _ _ _ _ _ (by decide) (by decide) (by decide), hu, State.get_setReg_same _ _ _ _ hs, bits_eq]
    simp [show F.SYN_OB_0_ARRS.width = 14 from rfl]
  · rw [State.get_setReg_id _ _ _ _ _ _ (by decide) (by decide) (by decide), State.get_setReg_id _ _ _ _ _ _ (by decide) (by decide) (by decide), hv,
      State.get_setReg_same _ _ _ _ huok]
    rfl
  · have honly : onlyRegs s v := by
      rw [hv, hu]
      exact (onlyRegs_refl s).setReg.setReg
    exact honly.setReg.setReg

theorem obEnable_bad (hs : s.RegsOk) (hd : bit d 31 = true) (hen : s.get F.SYN_OB_0_EN k = 0)
    (hok : (s.setReg F.SYN_OB_0_ARRS (bits d 13 0) k).obOk k = false) {t : State} (ht : t = s.obEnable k d) :
    t.get F.SYN_OB_0_EN k = 0 ∧ t.get F.SYN_OB_ST_BBAD k = 1 ∧ onlyRegs s t := by
  rw [State.obEnable_new hs hd hen] at ht
  dsimp only at ht
  rw [if_neg (by simp [hok])] at ht
  rw [ht]
  refine ⟨?_, State.get_setReg_same _ _ _ _ (s.setReg_regsOk _ _ _ hs), (onlyRegs_refl s).setReg.setReg⟩
  rw [State.get_setReg_id _ _ _ _ _ _ (by decide) (by decide) (by decide), State.get_setReg_id _ _ _ _ _ _ (by decide) (by decide) (by decide), hen]

theorem obEnable_refused (hs : s.RegsOk) (hd : bit d 31 = true) (hen : s.get F.SYN_OB_0_EN k = 1) (hne : s.get F.SYN_OB_0_ARRS k ≠ d % 2 ^ 14)
    {t : State} (ht : t = s.obEnable k d) :
    t.get F.SYN_OB_0_EN k = 1 ∧ t.get F.SYN_OB_0_ARRS k = s.get F.SYN_OB_0_ARRS k ∧ t.get F.SYN_STAT_SREF = 1 ∧ onlyRegs s t := by
  have hon : s.flag F.SYN_OB_0_EN k = true := by rw [State.flag, hen]; rfl
  have hbits : bits d 13 0 % 2 ^ F.SYN_OB_0_ARRS.width = d % 2 ^ 14 := by
    rw [bits_eq]
    simp [show F.SYN_OB_0_ARRS.width = 14 from rfl]
  have heq : t = (s.setReg F.SYN_STAT_SREF 1 0).offer 0x380 := by
    rw [ht, ← State.staticWrite_refused (f := F.SYN_OB_0_ARRS) (i := k) (v := bits d 13 0) (by rwa [hbits])]
    unfold State.obEnable
    rw [hd, hon]
    rfl
  rw [heq]
  refine ⟨?_, ?_, ?_, (onlyRegs_refl s).setReg.offer⟩
  · rw [State.get_offer _ _ _ _ _ _ (by decide) (by simp [evField]; decide), State.get_setReg_id _ _ _ _ _ _ (by decide) (by decide) (by decide), hen]
  · rw [State.get_offer _ _ _ _ _ _ (by decide) (by simp [evField]; decide), State.get_setReg_id _ _ _ _ _ _ (by decide) (by decide) (by decide)]
  · rw [State.get_offer _ _ _ _ _ _ (by decide) (by simp [evField]; decide), State.get_setReg_same _ _ _ _ hs]
    rfl

/-- Settles O38: the raise by what its signal meets, the phase, and the write of EN by whether the barrier is enabled and may be. -/
theorem signalsAndOnChipBarriers : Obligations.SignalsAndOnChipBarriers := by
  intro s hs hg hwt hm
  refine ⟨fun d hio => ⟨fun hrig => ?_, fun hrig hob hxb => ⟨fun hw hc => ?_, fun hw hc => ?_, fun w ws hw htiles => ?_⟩⟩, ?_, fun k d hio => ?_⟩
  · exact ⟨s.setReg F.SYN_STAT_BADW 1, by rw [exec_hostRaise hio, hrig]; exact congrArg _ (if_neg (by simp)), State.get_setReg_same _ _ _ _ hs, rfl, (regsKept_refl s).setReg (by decide) fun _ he => he⟩
  · exact ⟨_, by rw [exec_hostRaise hio, if_pos hrig], raise_counts hs hg ⟨hob, hxb⟩ hw hc rfl⟩
  · exact ⟨_, by rw [exec_hostRaise hio, if_pos hrig], raise_lost hs ⟨hob, hxb⟩ (Nat.mod_lt _ (by decide)) hw hc rfl⟩
  · exact ⟨_, by rw [exec_hostRaise hio, if_pos hrig], raise_wakes hs hwt htiles ⟨hob, hxb⟩ hw rfl⟩
  · intro k
    dsimp only
    intro hen hms harr hob hxb hw hc
    exact ⟨_, exec_obPhaseComplete hen hms harr, obPhase_done hs hg hm k _ ⟨hob, hxb⟩ hw hc rfl⟩
  · have hu : s.setReg F.SYN_OB_0_ARRS (d.toNat % 2 ^ 14) k = s.setReg F.SYN_OB_0_ARRS (bits d.toNat 13 0) k := by
      rw [bits_eq, Nat.pow_zero, Nat.div_one]
    dsimp only
    rw [exec_obEnableWrite hio, hu]
    exact ⟨fun hd => ⟨_, rfl, obEnable_off_done hs ((bit_eq_false_iff _ _).mpr hd) rfl⟩,
      fun hd hen hok => ⟨_, rfl, obEnable_good hs ((bit_iff _ _).mpr hd) hen hok rfl⟩,
      fun hd hen hok => ⟨_, rfl, obEnable_bad hs ((bit_iff _ _).mpr hd) hen hok rfl⟩,
      fun hd hen hne => ⟨_, rfl, obEnable_refused hs ((bit_iff _ _).mpr hd) hen hne rfl⟩⟩

end Sys2Proof.Machine
end

section
/-! ## Bytes written run by run

A masked write of 64 bytes is written as the runs of its mask's bits: together they put each byte whose bit is set, and no other. -/

namespace Sys2Proof.Machine

/-! ### The runs of a mask -/

/-- Position `i` lies in a run. -/
def inRun (i : Nat) (r : Nat × Nat) : Prop := r.1 ≤ i ∧ i < r.1 + r.2

/-- The runs of the low `n` bits: none leaves them, and together they hold the bits that are set. -/
theorem maskRuns_spec (mask n : Nat) :
    (∀ r ∈ maskRuns mask n, r.1 + r.2 ≤ n) ∧ ∀ i, (∃ r ∈ maskRuns mask n, inRun i r) ↔ i < n ∧ bit mask i = true := by
  induction n with
  | zero => simp [maskRuns]
  | succ n ih =>
    obtain ⟨hend, hin⟩ := ih
    have hlt : ∀ i, i < n + 1 ∧ bit mask i = true ↔ (i < n ∧ bit mask i = true) ∨ (i = n ∧ bit mask n = true) := by
      intro i
      refine ⟨fun ⟨h, hb⟩ => ?_, ?_⟩
      · by_cases hi : i = n
        · exact .inr ⟨hi, hi ▸ hb⟩
        · exact .inl ⟨by omega, hb⟩
      · rintro (⟨h, hb⟩ | ⟨rfl, hb⟩)
        · exact ⟨by omega, hb⟩
        · exact ⟨by omega, hb⟩
    have hnew : ∀ i, inRun i (n, 1) ↔ i = n := fun i => by
      unfold inRun
      omega
    have happ : (∀ r ∈ maskRuns mask n ++ [(n, 1)], r.1 + r.2 ≤ n + 1)
        ∧ ∀ i, (∃ r ∈ maskRuns mask n ++ [(n, 1)], inRun i r) ↔ (i < n ∧ bit mask i = true) ∨ i = n := by
      refine ⟨fun r hr => ?_, fun i => ?_⟩
      · obtain hr | rfl : r ∈ maskRuns mask n ∨ r = (n, 1) := by simpa using hr
        · have := hend r hr
          omega
        · exact le_rfl
      · simp only [List.mem_append, List.mem_singleton, or_and_right, exists_or, exists_eq_left, hin, hnew]
    cases hb : bit mask n with
    | false =>
      rw [maskRuns, hb]
      refine ⟨fun r hr => (hend r hr).trans (Nat.le_succ n), fun i => ?_⟩
      rw [hlt]
      simpa [hb] using hin i
    | true =>
      simp only [hlt, hb, and_true]
      rw [maskRuns, hb]
      cases hlast : (maskRuns mask n).getLast? with
      | none =>
        have hnil : maskRuns mask n = [] := List.getLast?_eq_none_iff.mp hlast
        rw [hnil] at happ
        simpa using happ
      | some x =>
        simp only [if_true]
        split
        next hx =>
          have hsplit : (maskRuns mask n).dropLast ++ [x] = maskRuns mask n := List.dropLast_append_getLast? x hlast
          have hlong : ∀ i, inRun i (x.1, x.2 + 1) ↔ inRun i x ∨ i = n := fun i => by
            unfold inRun
            omega
          refine ⟨fun r hr => ?_, fun i => ?_⟩
          · obtain hr | rfl : r ∈ (maskRuns mask n).dropLast ∨ r = (x.1, x.2 + 1) := by simpa using hr
            · have := hend r (List.mem_of_mem_dropLast hr)
              omega
            · dsimp only
              omega
          · rw [← hin i]
            conv_rhs => rw [← hsplit]
            simp only [List.mem_append, List.mem_singleton, or_and_right, exists_or, exists_eq_left, hlong, or_assoc]
        next => exact happ

/-! ### The bytes after the runs are written -/

theorem Content.settlePois_bytes (c : Content) (a n : Nat) (pw : Nat → Bool) : (c.settlePois a n pw).bytes = c.bytes := by
  unfold Content.settlePois
  split
  · rfl
  · exact each_ind (fun t : Content => t.bytes = c.bytes) _ _ _ rfl fun t k _ ht => ht

theorem Content.putBytes_bytesOk (bs : List Byte) (c : Content) (a : Nat) (h : FMap.wf 0 c.bytes = true) : FMap.wf 0 (c.putBytes a bs).bytes = true := by
  induction bs generalizing c a with
  | nil => exact h
  | cons b bs ih => exact ih (c.setByte a b) (a + 1) (FMap.wf_set 0 c.bytes a b h)

theorem Content.writeP_bytesOk {c : Content} (h : FMap.wf 0 c.bytes = true) (a : Nat) (bs : List (Byte × Bool)) :
    FMap.wf 0 (c.writeP a bs).bytes = true := by
  rw [Content.writeP, Content.write, Content.settlePois_bytes]
  exact Content.putBytes_bytesOk _ c a h

/-- The bytes of one run, none poisoned. -/
def runPiece (data : List Byte) (r : Nat × Nat) : List (Byte × Bool) := ((data.drop r.1).take r.2).map fun b => (b, false)

/-- The runs of some data written from `a` on. -/
def Content.writeRuns (c : Content) (a : Nat) (data : List Byte) (runs : List (Nat × Nat)) : Content :=
  each runs (fun c r => c.writeP (a + r.1) (runPiece data r)) c

theorem Content.byte_writePiece {c : Content} (h : FMap.wf 0 c.bytes = true) (a x : Nat) {data : List Byte} {r : Nat × Nat} (hr : r.1 + r.2 ≤ data.length) :
    (c.writeP (a + r.1) (runPiece data r)).byte x = if a + r.1 ≤ x ∧ x < a + r.1 + r.2 then data.getD (x - a) 0 else c.byte x := by
  have hlen : ((runPiece data r).map Prod.fst).length = r.2 := by
    simp only [runPiece, List.length_map, List.length_take, List.length_drop]
    omega
  have hbytes : (runPiece data r).map Prod.fst = (data.drop r.1).take r.2 := by simp [runPiece, Function.comp_def]
  rw [Content.writeP, Content.byte_write _ _ _ _ _ h, hlen]
  split
  next hx =>
    rw [hbytes, List.getD_eq_getElem?_getD, List.getD_eq_getElem?_getD, List.getElem?_take_of_lt (by omega), List.getElem?_drop]
    congr 2
    omega
  next => rfl

theorem Content.byte_writeRuns (runs : List (Nat × Nat)) {c : Content} (h : FMap.wf 0 c.bytes = true) (a x : Nat) {data : List Byte}
    (hr : ∀ r ∈ runs, r.1 + r.2 ≤ data.length) :
    ((∃ r ∈ runs, a ≤ x ∧ inRun (x - a) r) → (c.writeRuns a data runs).byte x = data.getD (x - a) 0)
      ∧ ((¬ ∃ r ∈ runs, a ≤ x ∧ inRun (x - a) r) → (c.writeRuns a data runs).byte x = c.byte x) := by
  induction runs generalizing c with
  | nil => simp [Content.writeRuns]
  | cons r l ih =>
    obtain ⟨hr0, hl⟩ := List.forall_mem_cons.mp hr
    have hhead : (a + r.1 ≤ x ∧ x < a + r.1 + r.2) ↔ a ≤ x ∧ inRun (x - a) r := by
      unfold inRun
      omega
    have hpiece := Content.byte_writePiece h a x hr0
    obtain ⟨hin, hout⟩ := ih (Content.writeP_bytesOk h (a + r.1) (runPiece data r)) hl
    have heq : c.writeRuns a data (r :: l) = (c.writeP (a + r.1) (runPiece data r)).writeRuns a data l := rfl
    rw [heq]
    by_cases hlater : ∃ r ∈ l, a ≤ x ∧ inRun (x - a) r
    · exact ⟨fun _ => hin hlater, fun hno => absurd (List.exists_mem_cons_of_exists hlater) hno⟩
    · rw [hout hlater, hpiece]
      refine ⟨fun hsome => if_pos (hhead.mpr ?_), fun hno => if_neg fun hx => hno ⟨r, List.mem_cons_self, hhead.mp hx⟩⟩
      exact ((List.exists_mem_cons_iff ..).mp hsome).resolve_right hlater

/-- A masked write: each byte whose bit is set is written, and no other. -/
theorem Content.writeRuns_done {c : Content} (h : FMap.wf 0 c.bytes = true) (a mask : Nat) {data : List Byte} (hlen : data.length = 64) :
    (∀ i < 64, (c.writeRuns a data (maskRuns mask 64)).byte (a + i) = if bit mask i then data.getD i 0 else c.byte (a + i))
      ∧ ∀ x, x < a ∨ a + 64 ≤ x → (c.writeRuns a data (maskRuns mask 64)).byte x = c.byte x := by
  obtain ⟨hend, hin⟩ := maskRuns_spec mask 64
  have hbyte := fun x => Content.byte_writeRuns (maskRuns mask 64) h a x fun r hr => (hend r hr).trans_eq hlen.symm
  refine ⟨fun i hi => ?_, fun x hx => (hbyte x).2 fun ⟨r, hr, ha, hrun⟩ => ?_⟩
  · obtain ⟨hyes, hno⟩ := hbyte (a + i)
    have hiff : (∃ r ∈ maskRuns mask 64, a ≤ a + i ∧ inRun (a + i - a) r) ↔ bit mask i = true := by
      simp only [Nat.le_add_right, true_and, Nat.add_sub_cancel_left, hin, hi]
    rw [hiff, Nat.add_sub_cancel_left] at hyes
    rw [hiff] at hno
    split
    next hb => exact hyes hb
    next hb => exact hno hb
  · have := (hin (x - a)).mp ⟨r, hr, hrun⟩
    omega

end Sys2Proof.Machine
end

section
/-! ## Snoops and host window accesses (R152, R186, R321 to R323, R394) -/

namespace Sys2Proof.Machine

variable {s t u : State} {off key ofs : Nat} {p q : Page}

/-! ### Refused accesses -/

theorem refuseHost_done (hs : s.RegsOk) (hoff : off < 2 ^ 44) :
    onlyRegs s (s.refuseHost off) ∧ (s.refuseHost off).get F.QUE_STAT_HAF = 1 ∧ (s.refuseHost off).get F.QUE_HAFA_AP = off / 2 ^ 36
      ∧ (s.refuseHost off).get F.QUE_HAFA_OFS = off := by
  obtain ⟨v, hv⟩ : ∃ v, v = s.setReg F.QUE_STAT_HAF 1 := ⟨_, rfl⟩
  have hvok : v.RegsOk := hv ▸ s.setReg_regsOk _ _ _ hs
  have hapok : (v.setReg F.QUE_HAFA_AP (off / 2 ^ 36)).RegsOk := State.setReg_regsOk _ _ _ _ hvok
  have heq : s.refuseHost off = ((v.setReg F.QUE_HAFA_AP (off / 2 ^ 36)).setReg F.QUE_HAFA_OFS off).offer (Config.evtCode 13) := by
    rw [hv]
    rfl
  have honly : onlyRegs s v := hv ▸ (onlyRegs_refl s).setReg
  rw [heq]
  refine ⟨honly.setReg.setReg.offer, ?_, ?_, ?_⟩
  · rw [State.get_offer _ _ _ _ _ _ (by decide) (by simp [evField]; decide), State.get_setReg_id _ _ _ _ _ _ (by decide) (by decide) (by decide),
      State.get_setReg_id _ _ _ _ _ _ (by decide) (by decide) (by decide), hv, State.get_setReg_same _ _ _ _ hs]
    rfl
  · rw [State.get_offer _ _ _ _ _ _ (by decide) (by simp [evField]; decide), State.get_setReg_id _ _ _ _ _ _ (by decide) (by decide) (by decide),
      State.get_setReg_same _ _ _ _ hvok]
    exact Nat.mod_eq_of_lt (by simp only [show F.QUE_HAFA_AP.width = 8 from rfl]; omega)
  · rw [State.get_offer _ _ _ _ _ _ (by decide) (by simp [evField]; decide), State.get_setReg_same _ _ _ _ hapok]
    exact Nat.mod_eq_of_lt hoff

theorem refuseRead_done (hs : s.RegsOk) (hoff : off < 2 ^ 44) :
    (s.refuseRead off).out = s.out ++ [.windowData off (List.replicate 64 0) true] ∧ { s.refuseRead off with regs := s.regs, out := s.out } = s
      ∧ (s.refuseRead off).get F.QUE_STAT_HAF = 1 ∧ (s.refuseRead off).get F.QUE_HAFA_AP = off / 2 ^ 36
      ∧ (s.refuseRead off).get F.QUE_HAFA_OFS = off := by
  obtain ⟨honly, hhaf, hap, hofs⟩ := refuseHost_done hs hoff
  have hout : (s.refuseHost off).out = s.out := honly.field State.out fun _ _ => rfl
  exact ⟨congrArg (· ++ _) hout, congrArg (fun t : State => { t with out := s.out }) honly, hhaf, hap, hofs⟩

/-- The offset reaches no page: its aperture is disabled, or shows an address where none is mapped. -/
def State.offMap (s : State) (off : Nat) : Prop :=
  2 ^ 36 ≤ off ∧ (s.apertureOf off = none ∨ ∃ k o, s.apertureOf off = some (k, o) ∧ s.page? k = none)

theorem exec_hostWindowRead (off : Nat) (errs : List (Nat × Nat)) (lost : Bool) :
    exec (.hostWindowRead off errs lost) s = execHostWindowRead off errs lost s := rfl

theorem exec_hostWindowWrite (off : Nat) (data : List Byte) (mask : Nat) (errs : List (Nat × Nat)) :
    exec (.hostWindowWrite off data mask errs) s = execHostWindowWrite off data mask errs s := rfl

theorem hostRead_refused (hu : s.ucieWaits = false) (h : s.online = false ∨ s.offMap off) (errs : List (Nat × Nat)) (lost : Bool) :
    exec (.hostWindowRead off errs lost) s = .next (s.refuseRead off) := by
  rw [exec_hostWindowRead, execHostWindowRead, hu]
  cases hon : s.online with
  | false => rfl
  | true =>
    obtain ⟨hlo, hmap⟩ : s.offMap off := h.resolve_left (by simp [hon])
    have hhi : ¬ off < 2 ^ 36 := by omega
    obtain hap | ⟨k, o, hap, hpage⟩ := hmap
    · simp only [hhi, hap, Bool.not_true, Bool.false_eq_true, if_false]
    · simp only [hhi, hap, hpage, Bool.not_true, Bool.false_eq_true, if_false]

/-- The offset reaches a page that takes no write of the host. -/
def State.offWrite (s : State) (off : Nat) : Prop :=
  2 ^ 36 ≤ off ∧ ∃ k o p, s.apertureOf off = some (k, o) ∧ s.page? k = some p ∧ (s.get F.QUE_AP_0_WP (off / 2 ^ 36) ≠ 0 ∨ p.ro = true)

theorem hostWrite_refused (hu : s.ucieWaits = false) (h : (s.online = false ∨ s.offMap off) ∨ s.offWrite off) (data : List Byte) (mask : Nat)
    (errs : List (Nat × Nat)) : exec (.hostWindowWrite off data mask errs) s = .next (s.refuseHost off) := by
  rw [exec_hostWindowWrite, execHostWindowWrite, hu]
  cases hon : s.online with
  | false => rfl
  | true =>
    obtain (hoff | ⟨hlo, hmap⟩) | ⟨hlo, k, o, p, hap, hpage, hro⟩ := h
    · exact absurd hon (by simp [hoff])
    · have hhi : ¬ off < 2 ^ 36 := by omega
      obtain hap | ⟨k, o, hap, hpage⟩ := hmap
      · simp only [hhi, hap, Bool.not_true, Bool.false_eq_true, if_false]
      · simp only [hhi, hap, hpage, Bool.not_true, Bool.false_eq_true, if_false]
    · have hhi : ¬ off < 2 ^ 36 := by omega
      have hrefuse : (s.flag F.QUE_AP_0_WP (off / 2 ^ 36) || p.ro) = true := by
        simpa [State.flag] using hro
      simp only [hhi, hap, hpage, hrefuse, Bool.not_true, Bool.false_eq_true, if_false, if_true]

/-! ### The image staging area -/

theorem Content.ecc_nil (c : Content) (w0 nw : Nat) (pick : Nat → Nat) : c.ecc w0 nw [] pick = { c := c } := rfl

theorem State.noteEcc_clean (s : State) (c : Content) (f : Nat → Where) : s.noteEcc { c := c } f = s := rfl

theorem State.stagingRead_clean (s : State) (a n : Nat) : s.stagingRead a n [] = (s, s.staging.read a n) := rfl

theorem hostRead_staging (hon : s.online = true) (hu : s.ucieWaits = false) (hlo : off < 2 ^ 36) (hst : off < stagingSize) (lost : Bool) :
    exec (.hostWindowRead off [] lost) s = .next ((s.tier0Bytes 1).answerWindow off (s.staging.read off 64)) := by
  rw [exec_hostWindowRead, execHostWindowRead]
  simp only [hu, hon, hlo, hst, State.stagingRead_clean, Bool.not_true, Bool.false_eq_true, if_false, if_true]

theorem hostRead_beyond (hon : s.online = true) (hu : s.ucieWaits = false) (hlo : off < 2 ^ 36) (hst : stagingSize ≤ off) (errs : List (Nat × Nat))
    (lost : Bool) : exec (.hostWindowRead off errs lost) s = .next (s.answerWindow off (List.replicate 64 (0, false))) := by
  rw [exec_hostWindowRead, execHostWindowRead]
  simp only [hu, hon, hlo, Nat.not_lt.mpr hst, Bool.not_true, Bool.false_eq_true, if_false, if_true]

/-- The staging area after a masked write. -/
def State.stagingWritten (s : State) (off : Nat) (data : List Byte) (mask : Nat) : State :=
  { s with staging := s.staging.writeRuns off data (maskRuns mask 64) }

theorem hostWrite_staging (hon : s.online = true) (hu : s.ucieWaits = false) (hlo : off < 2 ^ 36) (hst : off < stagingSize) (data : List Byte)
    (mask : Nat) (errs : List (Nat × Nat)) :
    exec (.hostWindowWrite off data mask errs) s = .next ((s.stagingWritten off data mask).tier0Bytes 2) := by
  rw [exec_hostWindowWrite, execHostWindowWrite, if_neg (by simp [hu]), if_neg (by simp [hon]), if_pos hlo, if_pos hst]
  rfl

theorem hostWrite_beyond (hon : s.online = true) (hu : s.ucieWaits = false) (hlo : off < 2 ^ 36) (hst : stagingSize ≤ off) (data : List Byte)
    (mask : Nat) (errs : List (Nat × Nat)) : exec (.hostWindowWrite off data mask errs) s = .next s := by
  rw [exec_hostWindowWrite, execHostWindowWrite]
  simp only [hu, hon, hlo, Nat.not_lt.mpr hst, Bool.not_true, Bool.false_eq_true, if_false, if_true]

theorem stagingWritten_done (hw : FMap.wf 0 s.staging.bytes = true) (off : Nat) {data : List Byte} (hlen : data.length = 64) (mask : Nat) {t : State}
    (ht : t = (s.stagingWritten off data mask).tier0Bytes 2) :
    (∀ i < 64, t.staging.byte (off + i) = if bit mask i then data.getD i 0 else s.staging.byte (off + i))
      ∧ (∀ a, a < off ∨ off + 64 ≤ a → t.staging.byte a = s.staging.byte a) ∧ { t with staging := s.staging, regs := s.regs, scrubs := s.scrubs } = s := by
  have hframe := (s.stagingWritten off data mask).tier0Bytes_frame 2
  have hst : t.staging = s.staging.writeRuns off data (maskRuns mask 64) := by
    rw [ht]
    exact (congrArg State.staging hframe :)
  obtain ⟨hin, hout⟩ := Content.writeRuns_done hw off mask hlen
  rw [hst, ht]
  exact ⟨hin, hout, congrArg (fun t : State => { t with staging := s.staging }) hframe⟩

/-! ### One page changed -/

/-- `t` has come from `s` with page `q` under one key, every other page as it was. -/
structure PageSet (key : Nat) (q : Page) (s t : State) : Prop where
  pagesOk : FMap.wf none t.pages = true
  here : t.page? key = some q
  others : ∀ k, k ≠ key → t.page? k = s.page? k

theorem PageSet.refl (hw : FMap.wf none s.pages = true) (h : s.page? key = some q) : PageSet key q s s := ⟨hw, h, fun _ _ => rfl⟩

theorem PageSet.of_pages (h : PageSet key q s t) (hp : u.pages = t.pages) : PageSet key q s u := by
  have hpage : ∀ k, u.page? k = t.page? k := fun k => by rw [State.page?, hp, State.page?]
  exact ⟨hp ▸ h.pagesOk, (hpage key).trans h.here, fun k hk => (hpage k).trans (h.others k hk)⟩

theorem State.modPage_eq (h : s.page? key = some q) (f : Page → Page) : s.modPage key f = { s with pages := s.pages.set none key (some (f q)) } := by
  unfold State.modPage
  rw [h]

theorem PageSet.modPage (h : PageSet key q s t) (f : Page → Page) : PageSet key (f q) s (t.modPage key f) := by
  have hget := fun k => FMap.get_set none t.pages key k (some (f q)) h.pagesOk
  have hwf := FMap.wf_set none t.pages key (some (f q)) h.pagesOk
  rw [State.modPage_eq h.here]
  exact ⟨hwf, (hget key).trans (if_pos rfl), fun k hk => ((hget k).trans (if_neg hk)).trans (h.others k hk)⟩

theorem State.tier0Bytes_pages (s : State) (lines : Nat) : (s.tier0Bytes lines).pages = s.pages := (congrArg State.pages (s.tier0Bytes_frame lines) :)

theorem PageSet.tier0Bytes (h : PageSet key q s t) {lines : Nat} : PageSet key q s (t.tier0Bytes lines) := h.of_pages (t.tier0Bytes_pages lines)

/-- A transfer to or from a page of tier 0 heats it. -/
theorem State.touch_tier0 (h : s.page? key = some q) (hq : q.tier = 0) :
    s.touch key = s.modPage key fun q' => { q' with heat := min 255 (q.heat + 1) } := by
  unfold State.touch
  simp [h, hq]

theorem PageSet.touch (h : PageSet key q s t) (hq : q.tier = 0) : PageSet key { q with heat := min 255 (q.heat + 1) } s (t.touch key) := by
  rw [State.touch_tier0 h.here hq]
  exact h.modPage fun q' => { q' with heat := min 255 (q.heat + 1) }

theorem State.modPage_out (s : State) (key : Nat) (f : Page → Page) : (s.modPage key f).out = s.out := by
  unfold State.modPage
  split
  · rfl
  · rfl

theorem State.tier0Bytes_out (s : State) (lines : Nat) : (s.tier0Bytes lines).out = s.out := (congrArg State.out (s.tier0Bytes_frame lines) :)

/-! ### A page of tier 0 at rest -/

/-- The page is plain: writable, its home a frame of tier 0, with nothing to fold and no line lost. -/
structure Page.Plain (p : Page) : Prop where
  tier : p.tier = 0
  zero : p.zero = false
  cmp : p.cmp = false
  ro : p.ro = false
  ldg : p.ldg = false
  linePois : p.linePois = []

/-- Nothing is under way that would make an access to the memories wait or do more. -/
structure State.Quiet (s : State) : Prop where
  moves : s.moves = []
  wc : s.wc = []
  outVers : s.outVers = []
  rigs : s.rigs = []
  log : s.log = []
  acts : s.acts = []
  ctlReset : s.ctlReset = []
  mirrors : s.mirrorsPages = false

/-- The page that a state holds at a key is one that a quiet state can serve: the chain of `PageSet` keeps it so. -/
structure Rests (key : Nat) (q : Page) (s t : State) : Prop extends PageSet key q s t where
  plain : q.Plain
  quiet : t.Quiet

theorem State.mirrorsPages_congr (hg : ∀ f ∈ [F.TWN_STAT_STATE, F.TWN_STAT_SUSP, F.TWN_CTL_PROT], t.get f = s.get f) :
    t.mirrorsPages = s.mirrorsPages := by
  simp only [State.mirrorsPages, State.mirrors, State.flag, hg F.TWN_STAT_STATE (by simp), hg F.TWN_STAT_SUSP (by simp), hg F.TWN_CTL_PROT (by simp)]

theorem State.tier0Bytes_get (s : State) (lines : Nat) {f : Field} (hf : f.id < 1024) (hne : f.id ≠ F.TIER_EBYTE_COUNT.id) (i : Nat) :
    (s.tier0Bytes lines).get f i = s.get f i := by
  have hget : (s.tier0Bytes lines).get f i = (s.bump F.TIER_EBYTE_COUNT (256 * lines)).get f i := by
    unfold State.tier0Bytes State.traffic State.get
    rfl
  rw [hget, State.bump]
  exact State.get_setReg_id _ _ _ _ _ _ (by decide) hf hne

theorem State.Quiet.tier0Bytes (h : s.Quiet) (lines : Nat) : (s.tier0Bytes lines).Quiet := by
  have hframe := s.tier0Bytes_frame lines
  refine ⟨(congrArg State.moves hframe :).trans h.moves, (congrArg State.wc hframe :).trans h.wc, (congrArg State.outVers hframe :).trans h.outVers,
    (congrArg State.rigs hframe :).trans h.rigs, (congrArg State.log hframe :).trans h.log, (congrArg State.acts hframe :).trans h.acts,
    (congrArg State.ctlReset hframe :).trans h.ctlReset, (State.mirrorsPages_congr fun f hf => ?_).trans h.mirrors⟩
  refine s.tier0Bytes_get lines ?_ ?_ 0
  · revert hf
    revert f
    decide
  · revert hf
    revert f
    decide

theorem State.Quiet.modPage (h : s.Quiet) (hp : s.page? key = some q) (f : Page → Page) : (s.modPage key f).Quiet := by
  rw [State.modPage_eq hp]
  obtain ⟨hmoves, hwc, hout, hrigs, hlog, hacts, hreset, hmirrors⟩ := h
  exact ⟨hmoves, hwc, hout, hrigs, hlog, hacts, hreset, hmirrors⟩

theorem Rests.tier0Bytes (h : Rests key q s t) {lines : Nat} : Rests key q s (t.tier0Bytes lines) :=
  ⟨h.toPageSet.tier0Bytes, h.plain, h.quiet.tier0Bytes lines⟩

theorem Rests.modPage (h : Rests key q s t) (f : Page → Page) (hf : (f q).Plain) : Rests key (f q) s (t.modPage key f) :=
  ⟨h.toPageSet.modPage f, hf, h.quiet.modPage h.here f⟩

theorem Rests.countLine (h : Rests key q s t) : Rests key q s (t.countLine key) := by
  have heq : t.countLine key = t.tier0Bytes 1 := by
    unfold State.countLine
    simp [h.here, h.plain.zero, h.plain.tier]
  rw [heq]
  exact h.tier0Bytes

/-! ### Nothing makes an access wait -/

theorem State.Quiet.homeWaits (h : s.Quiet) (tier frame line : Nat) : s.homeWaits tier frame line = false := by
  simp [State.homeWaits, h.ctlReset, h.acts]

theorem State.Quiet.pageChanging (h : s.Quiet) (key : Nat) : s.pageChanging key = false := by simp [State.pageChanging, h.rigs]

theorem State.Quiet.verNamed (h : s.Quiet) (key ver : Nat) : s.verNamed key ver = false := by simp [State.verNamed, h.log]

theorem State.Quiet.rangeWaits (h : s.Quiet) (key : Nat) (w : Which) (ofs n : Nat) : s.rangeWaits key w ofs n = false := by
  simp [State.rangeWaits, h.homeWaits]

theorem Rests.outsideReady (h : Rests key q s t) (line : Nat) : t.outsideReady key line = true := by
  have hheld : t.heldWaits key = false := by simp [State.heldWaits, h.here, h.quiet.verNamed]
  have htakes : t.homeTakes key line = true := by
    simp [State.homeTakes, h.here, h.quiet.moves, h.plain.ldg, State.inPlace, h.plain.tier]
  simp [State.outsideReady, h.here, hheld, htakes, h.quiet.pageChanging, h.quiet.homeWaits, h.plain.zero]

/-! ### The read -/

/-- The value of the current version is what the page holds. -/
theorem Rests.merged (h : Rests key q s t) : t.merged key .current = q.data := by
  have hpois : q.data.poisLines [] = q.data := rfl
  simp [State.merged, State.wcOf, h.quiet.wc, State.homeData, State.verData, h.here, h.plain.linePois, hpois, each_nil]

/-- The state after an error-free read: its lines are counted. -/
def State.linesRead (s : State) (key ofs n : Nat) (q : Page) : State :=
  (s.tier0Bytes ((ofs + n + 255) / 256 - ofs / 256)).modVer key .current fun _ => q.data

theorem Rests.readPage (h : Rests key q s t) (ofs n : Nat) :
    t.readPage key .current ofs n [] [] = { s := t.linesRead key ofs n q, data := ((t.linesRead key ofs n q).merged key .current).read ofs n } := by
  have hhome : t.verHome key .current = (0, q.frame) := by simp [State.verHome, h.here, h.plain.tier]
  have hdata : t.verData key .current = q.data := by simp [State.verData, h.here]
  have hlanded : t.landed key = 0 := by simp [State.landed, h.quiet.moves]
  unfold State.readPage
  simp [h.here, h.plain.zero, h.plain.ro, h.plain.cmp, hhome, hdata, hlanded, Content.ecc_nil, State.noteEcc_clean, each_nil]
  exact ⟨rfl, rfl⟩

theorem Rests.linesRead (h : Rests key q s t) (ofs n : Nat) : Rests key q s (t.linesRead key ofs n q) :=
  (h.tier0Bytes (lines := (ofs + n + 255) / 256 - ofs / 256)).modPage (fun p => { p with data := q.data }) h.plain

theorem Rests.readWaits (h : Rests key q s t) (hneg : t.negReads = []) (ofs : Nat) :
    t.foldWaits key ofs 64 = false ∧ (t.inTransit key ofs 64 || t.pageChanging key || t.rangeWaits key .current ofs 64
      || !(t.rereading key ofs 64).isEmpty) = false ∧ t.homeGone key = false := by
  have hfold : t.foldWaits key ofs 64 = false := by simp [State.foldWaits, h.here, h.plain.ldg]
  have htransit : t.inTransit key ofs 64 = false := by simp [State.inTransit, h.quiet.moves]
  have hreread : (t.rereading key ofs 64).isEmpty = true := by simp [State.rereading, hneg]
  have hgone : t.homeGone key = false := by simp [State.homeGone, h.here, h.plain.tier]
  exact ⟨hfold, by rw [htransit, hreread, h.quiet.pageChanging, h.quiet.rangeWaits]; rfl, hgone⟩

theorem hostRead_page (hon : s.online = true) (hu : s.ucieWaits = false) (hhi : 2 ^ 36 ≤ off) (hap : s.apertureOf off = some (key, ofs))
    (h : Rests key q s s) (hneg : s.negReads = []) :
    exec (.hostWindowRead off [] false) s = .next (((s.linesRead key ofs 64 q).touch key).answerWindow off (q.data.read ofs 64)) := by
  obtain ⟨hfold, hwaits, hgone⟩ := h.readWaits hneg ofs
  have hlo : ¬ off < 2 ^ 36 := by omega
  rw [exec_hostWindowRead, execHostWindowRead]
  simp only [hu, hon, hlo, hap, h.here, hfold, hwaits, hgone, h.readPage, (h.linesRead ofs 64).merged, List.isEmpty_nil, Bool.not_true, Bool.or_self,
    Bool.false_eq_true, if_false, if_true]

theorem hostRead_page_done (h : Rests key q s s) (off : Nat) {t : State}
    (ht : t = ((s.linesRead key ofs 64 q).touch key).answerWindow off (q.data.read ofs 64)) :
    t.out = s.out ++ [.windowData off ((q.data.read ofs 64).map Prod.fst) ((q.data.read ofs 64).any Prod.snd)]
      ∧ (t.page? key).map (·.data) = some q.data ∧ ∀ k, k ≠ key → t.page? k = s.page? k := by
  have hread := h.linesRead ofs 64
  have htouch := hread.toPageSet.touch hread.plain.tier
  have hout : ((s.linesRead key ofs 64 q).touch key).out = s.out := by
    rw [State.touch_tier0 hread.here hread.plain.tier, State.modPage_out]
    exact (State.modPage_out _ key fun p => { p with data := q.data }).trans (s.tier0Bytes_out _)
  have hset : PageSet key { { q with data := q.data } with heat := min 255 (q.heat + 1) } s t := htouch.of_pages (by rw [ht]; rfl)
  refine ⟨?_, by rw [hset.here]; rfl, hset.others⟩
  rw [ht]
  exact congrArg (· ++ _) hout

/-! ### The write -/

theorem Rests.readForModify (h : Rests key q s t) (line : Nat) : Rests key q s (t.readForModify key line []) := by
  have heq : t.readForModify key line [] = t.countLine key := by
    unfold State.readForModify
    simp [h.here, h.plain.zero, h.plain.cmp, h.plain.tier]
  rw [heq]
  exact h.countLine

theorem Rests.newVersion (h : Rests key q s t) : Rests key { q with ver := q.ver + 1 } s (t.newVersion key) := by
  have heq : t.newVersion key = { t with heldQ := t.heldQ.filter (·.1 ≠ key) }.modPage key fun p => { p with ver := p.ver + 1 } := by
    unfold State.newVersion
    simp only [h.here, h.quiet.verNamed, Bool.false_eq_true, if_false]
  obtain ⟨hmoves, hwc, hout, hrigs, hlog, hacts, hreset, hmirrors⟩ := h.quiet
  have hheld : Rests key q s { t with heldQ := t.heldQ.filter (·.1 ≠ key) } :=
    ⟨h.toPageSet.of_pages rfl, h.plain, hmoves, hwc, hout, hrigs, hlog, hacts, hreset, hmirrors⟩
  obtain ⟨htier, hzero, hcmp, hro, hldg, hpois⟩ := h.plain
  rw [heq]
  exact hheld.modPage (fun p => { p with ver := p.ver + 1 }) ⟨htier, hzero, hcmp, hro, hldg, hpois⟩

theorem Rests.landBytes (h : Rests key q s t) (ofs : Nat) (bs : List (Byte × Bool)) :
    Rests key { q with data := q.data.writeP ofs bs } s (t.landBytes key ofs bs) := by
  have heq : t.landBytes key ofs bs = t.modPage key fun p => { p with data := p.data.writeP ofs bs } := by
    unfold State.landBytes
    rw [h.quiet.mirrors]
    rfl
  obtain ⟨htier, hzero, hcmp, hro, hldg, hpois⟩ := h.plain
  rw [heq]
  exact h.modPage (fun p => { p with data := p.data.writeP ofs bs }) ⟨htier, hzero, hcmp, hro, hldg, hpois⟩

theorem Rests.outsideLand (h : Rests key q s t) (ofs : Nat) (bs : List (Byte × Bool)) : t.outsideLand key ofs bs = t.landBytes key ofs bs := by
  have hstaging : ∀ space addr, t.stagingRig space addr = none := fun space addr => by simp [State.stagingRig, h.quiet.rigs]
  have hout : t.outVer? key = none := by simp [State.outVer?, h.quiet.outVers]
  have hflush : ∀ line, t.flushLine key line .current = t := fun line => by simp [State.flushLine, h.quiet.wc, each_nil]
  unfold State.outsideLand
  simp only [hstaging, hout, hflush, h.here, Option.map_some, Option.getD_some, h.plain.zero, when_false]

theorem Rests.landRuns (l : List (Nat × Nat)) {q : Page} {t : State} (h : Rests key q s t) (ofs : Nat) (data : List Byte) :
    Rests key { q with data := q.data.writeRuns ofs data l } s (each l (fun s r => s.landBytes key (ofs + r.1) (runPiece data r)) t) := by
  induction l generalizing q t with
  | nil => exact h
  | cons r l ih => exact ih (h.landBytes (ofs + r.1) (runPiece data r))

/-- The runs of a masked write land in a new version of the page. -/
def State.runsLanded (s : State) (key ofs : Nat) (data : List Byte) (r : Nat × Nat) (l : List (Nat × Nat)) : State :=
  ((each l (fun s r => s.landBytes key (ofs + r.1) (runPiece data r))
    ((s.readForModify key (ofs / 256) []).outsideWrite key (ofs + r.1) (runPiece data r))).countLine key).touch key

theorem hostWrite_page (hon : s.online = true) (hu : s.ucieWaits = false) (hhi : 2 ^ 36 ≤ off) (hap : s.apertureOf off = some (key, ofs))
    (h : Rests key q s s) (hwp : s.get F.QUE_AP_0_WP (off / 2 ^ 36) = 0) (data : List Byte) (mask : Nat) :
    (maskRuns mask 64 = [] → exec (.hostWindowWrite off data mask []) s = .next (s.touch key))
      ∧ ∀ r l, maskRuns mask 64 = r :: l → exec (.hostWindowWrite off data mask []) s = .next (s.runsLanded key ofs data r l) := by
  have hlo : ¬ off < 2 ^ 36 := by omega
  have hok : (s.flag F.QUE_AP_0_WP (off / 2 ^ 36) || q.ro) = false := by
    rw [State.flag, hwp, h.plain.ro]
    rfl
  rw [exec_hostWindowWrite, execHostWindowWrite]
  refine ⟨fun hr => ?_, fun r l hr => ?_⟩
  · simp only [hu, hon, hlo, hap, h.here, hok, h.outsideReady, hr, Bool.not_true, Bool.false_eq_true, if_false]
  · simp only [hu, hon, hlo, hap, h.here, hok, h.outsideReady, hr, Bool.not_true, Bool.false_eq_true, if_false]
    rfl

theorem Rests.runsLanded (h : Rests key q s s) (ofs : Nat) (data : List Byte) (r : Nat × Nat) (l : List (Nat × Nat)) :
    ∃ q', q'.data = q.data.writeRuns ofs data (r :: l) ∧ PageSet key q' s (s.runsLanded key ofs data r l) := by
  have hnew := (h.readForModify (ofs / 256)).newVersion
  have hfirst := hnew.landBytes (ofs + r.1) (runPiece data r)
  rw [← hnew.outsideLand] at hfirst
  have hall := (Rests.landRuns l hfirst ofs data).countLine
  exact ⟨_, rfl, hall.toPageSet.touch hall.plain.tier⟩

theorem hostWrite_page_done (hon : s.online = true) (hu : s.ucieWaits = false) (hhi : 2 ^ 36 ≤ off) (hap : s.apertureOf off = some (key, ofs))
    (h : Rests key q s s) (hwp : s.get F.QUE_AP_0_WP (off / 2 ^ 36) = 0) (hw : FMap.wf 0 q.data.bytes = true) {data : List Byte}
    (hlen : data.length = 64) (mask : Nat) :
    ∃ t q', exec (.hostWindowWrite off data mask []) s = .next t ∧ t.page? key = some q'
      ∧ (∀ i < 64, q'.data.byte (ofs + i) = if bit mask i then data.getD i 0 else q.data.byte (ofs + i))
      ∧ (∀ a, a < ofs ∨ ofs + 64 ≤ a → q'.data.byte a = q.data.byte a) ∧ ∀ k, k ≠ key → t.page? k = s.page? k := by
  obtain ⟨hnone, hsome⟩ := hostWrite_page hon hu hhi hap h hwp data mask
  obtain ⟨hin, hout⟩ := Content.writeRuns_done hw ofs mask hlen
  cases hr : maskRuns mask 64 with
  | nil =>
    rw [hr] at hin hout
    have hset := h.toPageSet.touch h.plain.tier
    exact ⟨_, _, hnone hr, hset.here, hin, hout, hset.others⟩
  | cons r l =>
    rw [hr] at hin hout
    obtain ⟨q', hdata, hset⟩ := h.runsLanded ofs data r l
    rw [← hdata] at hin hout
    exact ⟨_, q', hsome r l hr, hset.here, hin, hout, hset.others⟩

/-- Settles O12: an access by where it goes: refused, to the staging area, beyond it, or to a page at rest. -/
theorem hostWindow : Obligations.HostWindow := by
  refine ⟨fun addr s => rfl, fun off s hs hoff hu => ⟨fun h errs lost => ?_, fun h data mask errs => ?_⟩, fun off s hon hlo hu => ⟨?_, ?_, ?_, ?_⟩, ?_⟩
  · exact ⟨_, hostRead_refused hu h errs lost, refuseRead_done hs hoff⟩
  · exact ⟨_, hostWrite_refused hu h data mask errs, refuseHost_done hs hoff⟩
  · exact fun hst lost => hostRead_staging hon hu hlo hst lost
  · exact fun hst hw data mask hlen errs => ⟨_, hostWrite_staging hon hu hlo hst data mask errs, stagingWritten_done hw off hlen mask rfl⟩
  · exact fun hst errs lost => hostRead_beyond hon hu hlo hst errs lost
  · exact fun hst data mask errs => hostWrite_beyond hon hu hlo hst data mask errs
  · intro off key ofs p s hon hhi hap _ hpage hw htier hzero hcmp hro hldg hpois hu hneg hmoves hwc hout hrigs hlog hmirrors hacts hreset
    have h : Rests key p s s :=
      ⟨.refl hw hpage, ⟨htier, hzero, hcmp, hro, hldg, hpois⟩, ⟨hmoves, hwc, hout, hrigs, hlog, hacts, hreset, hmirrors⟩⟩
    exact ⟨⟨_, hostRead_page hon hu hhi hap h hneg, hostRead_page_done h off rfl⟩,
      fun hwp hbytes data mask hlen => hostWrite_page_done hon hu hhi hap h hwp hbytes hlen mask⟩

end Sys2Proof.Machine
end

section
/-! ## What leaves the rigs alone

Reads of the device for a rig, completions, and the release of spaces: none of them changes a rig. -/

namespace Sys2Proof.Machine

variable {α : Type} {s t : State}

theorem offBooks_rigs : OffBooks State.rigs := fun _ _ _ _ _ _ _ _ _ _ _ _ _ _ _ => rfl

theorem Beside.iteFst {c : Prop} [Decidable c] {a b : State × α} (ha : Beside State.rigs s a.1) (hb : Beside State.rigs s b.1) :
    Beside State.rigs s (if c then a else b).1 := by
  split
  · exact ha
  · exact hb

theorem Beside.iteRead {c : Prop} [Decidable c] {a b : PageRead} (ha : Beside State.rigs s a.s) (hb : Beside State.rigs s b.s) :
    Beside State.rigs s (if c then a else b).s := by
  split
  · exact ha
  · exact hb

/-- An update of tiles, queues, call sheets, spaces and what the memories hold. -/
theorem Beside.device (h : Beside State.rigs s t) {tiles sheets compls sqs cqs spaces pages staged outVers heldVers ledgers stagedLedgers wc ascentQ
      forcedQ descentQ moves txs negReads floors log : _} :
    Beside State.rigs s { t with
      tiles := tiles, sheets := sheets, compls := compls, sqs := sqs, cqs := cqs, spaces := spaces, pages := pages, staged := staged
      outVers := outVers, heldVers := heldVers, ledgers := ledgers, stagedLedgers := stagedLedgers, wc := wc, ascentQ := ascentQ, forcedQ := forcedQ
      descentQ := descentQ, moves := moves, txs := txs, negReads := negReads, floors := floors, log := log } :=
  h.of_view rfl rfl

/-! ### What a read finds and counts -/

theorem Beside.wantEvac (h : Beside State.rigs s t) {c : Nat} {byCount : Bool} : Beside State.rigs s (t.wantEvac c byCount) := by
  unfold State.wantEvac
  refine .ite h ?_
  split
  · exact .ite h h.modChan.requestAct
  · exact h.spend.modChan.requestAct

theorem Beside.noteCorrected (h : Beside State.rigs s t) {x : Where} : Beside State.rigs s (t.noteCorrected x) := by
  have hcount := (h.bump (f := F.ECC_NCE_COUNT) (n := 1) (i := x.w) (by decide) (by decide)).offer (code := 0x2C1) (inc := 1) (a := x.attr)
    |>.flCount (i := x.counter false) (n := 1)
  exact .ite (hcount.modChan.when fun _ hv => hv.wantEvac) hcount

theorem Beside.noteUncorrectable (h : Beside State.rigs s t) {x : Where} : Beside State.rigs s (t.noteUncorrectable x) := by
  unfold State.noteUncorrectable
  refine .journal (.setReg (.setReg (.setReg (.flCount (.offer (h.bump ?_ ?_))) ?_ ?_) ?_ ?_) ?_ ?_)
  all_goals decide

theorem Beside.noteEcc (h : Beside State.rigs s t) {o : EccOut} {f : Nat → Where} : Beside State.rigs s (t.noteEcc o f) :=
  (h.each fun _ _ hv => hv.noteCorrected).each fun _ _ hv => hv.noteUncorrectable

theorem Beside.noteLost (h : Beside State.rigs s t) {key n : Nat} : Beside State.rigs s (t.noteLost key n) := (h.bump (by decide) (by decide)).offer

theorem Beside.tier0Bytes (h : Beside State.rigs s t) {lines : Nat} : Beside State.rigs s (t.tier0Bytes lines) :=
  (h.bump (by decide) (by decide)).traffic

theorem Beside.checkChunks (h : Beside State.rigs s t) {key ofs n : Nat} {p : Page} {errs : List (Nat × Nat)} {o : EccOut} :
    Beside State.rigs s (t.checkChunks key p ofs n errs o).1 := h.of_view rfl rfl

theorem Beside.modPage (h : Beside State.rigs s t) {key : Nat} {f : Page → Page} : Beside State.rigs s (t.modPage key f) := by
  unfold State.modPage
  split
  · exact h.of_view rfl rfl
  · exact h

theorem Beside.modVer (h : Beside State.rigs s t) {key : Nat} {w : Which} {f : Content → Content} : Beside State.rigs s (t.modVer key w f) := by
  cases w with
  | current => exact h.modPage
  | staged r => exact h.of_view rfl rfl
  | out l => exact h.of_view rfl rfl
  | held n => exact h.of_view rfl rfl

theorem Beside.readPage (h : Beside State.rigs s t) {key ofs n : Nat} {w : Which} {errs : List (Nat × Nat)} {lost : List Nat} :
    Beside State.rigs s (t.readPage key w ofs n errs lost).s := by
  unfold State.readPage
  split
  · exact h
  · refine .iteRead h ?_
    split
    extract_lets _ _ _ _ _ _ _ _ chk s1 s2 s3 _ s4 _ _ _ _ s5 s6 s7
    have hc : Beside State.rigs s chk.1 := .iteFst h.checkChunks h
    have h2 : Beside State.rigs s s2 := .ite hc hc.spend
    have h4 : Beside State.rigs s s4 := .ite h2.noteEcc.tier0Bytes (.ite h2.noteEcc.traffic h2.noteEcc)
    have h5 : Beside State.rigs s s5 := .ite h4 (h4.each fun _ _ hv => hv.noteLost)
    have h6 : Beside State.rigs s s6 := .ite h5.modVer h5
    exact .iteRead (.ite hc hc.spend) (.iteRead h5 (.ite h6.modPage h6))

theorem Beside.touch (h : Beside State.rigs s t) {key : Nat} : Beside State.rigs s (t.touch key) := by
  unfold State.touch
  split
  · exact h
  · exact .ite (.ite (h.modPage.of_view rfl rfl) (h.modPage.bump (by decide) (by decide))) h.modPage

theorem Beside.forceAscent (h : Beside State.rigs s t) {key : Nat} : Beside State.rigs s (t.forceAscent key) := .ite h (h.of_view rfl rfl)

theorem Beside.wantReread (h : Beside State.rigs s t) {key line : Nat} {readers : List (Nat × Nat × Nat)} {tasks : List (Nat × Nat)} :
    Beside State.rigs s (t.wantReread key line readers tasks) := .ite (h.of_view rfl rfl) (h.of_view rfl rfl)

theorem Beside.fetch (h : Beside State.rigs s t) {rig space addr n : Nat} {errs : List (Nat × Nat)} {w : Nat → Which} {tasks : List (Nat × Nat)} :
    Beside State.rigs s (t.fetch rig space addr n errs w tasks).1 := by
  unfold State.fetch
  extract_lets pieces folds step r
  have hr : Beside State.rigs s r.s := each_ind (fun acc : FetchAcc => Beside State.rigs s acc.s) _ _ _ h fun _ _ _ ha => Beside.touch (Beside.readPage ha)
  refine .iteFst h (.iteFst h (.iteFst ?_ (.iteFst (h.of_view rfl rfl) (.iteFst hr (.iteFst ?_ hr)))))
  · exact h.each fun _ _ hv => hv.forceAscent
  · exact hr.each fun _ _ hv => hv.wantReread

/-! ### Completions -/

theorem Beside.modSq (h : Beside State.rigs s t) {n : Nat} {f : Sq → Sq} : Beside State.rigs s (t.modSq n f) := h.of_view rfl rfl

theorem Beside.modCq (h : Beside State.rigs s t) {n : Nat} {f : Cq → Cq} : Beside State.rigs s (t.modCq n f) := h.of_view rfl rfl

theorem Beside.sendVector (h : Beside State.rigs s t) {vec : Nat} {rig : Option Nat} : Beside State.rigs s (t.sendVector vec rig) :=
  .ite (h.emit.bump (by decide) (by decide)).offer (h.of_view rfl rfl)

theorem Beside.trySend (h : Beside State.rigs s t) {n : Nat} : Beside State.rigs s (t.trySend n) := by
  unfold State.trySend
  split
  · exact .ite h.modCq.sendVector h
  · exact h

theorem Beside.driveCompl (h : Beside State.rigs s t) {c : Compl} : Beside State.rigs s (t.driveCompl c) := by
  unfold State.driveCompl
  split
  · exact h
  · exact (h.emit.modCq.bump (by decide) (by decide)).offer.trySend

theorem Beside.writeCompl (h : Beside State.rigs s t) {c : Compl} : Beside State.rigs s (t.writeCompl c) :=
  .ite h.writeLog.driveCompl (h.writeLog.of_view rfl rfl)

theorem Beside.postCompl (h : Beside State.rigs s t) {c : Compl} : Beside State.rigs s (t.postCompl c) :=
  .ite (.ite (h.of_view rfl rfl) h.writeCompl)
    (.ite h.modCq.writeCompl (h.device.offer))

theorem Beside.dropHeld (h : Beside State.rigs s t) : Beside State.rigs s t.dropHeld := h.of_view rfl rfl

theorem Beside.dropRecords (h : Beside State.rigs s t) {logno : Nat} : Beside State.rigs s (t.dropRecords logno) := by
  unfold State.dropRecords
  exact h.device.dropHeld.ringCheck

/-! ### Queues given up -/

theorem Beside.reloadSheet (h : Beside State.rigs s t) {x : Sheet} : Beside State.rigs s (t.reloadSheet x) := by
  unfold State.reloadSheet
  exact h.device.dropRecords.postCompl

theorem Beside.reloadEntries (h : Beside State.rigs s t) {n k : Nat} : Beside State.rigs s (State.reloadEntries n k t) := by
  induction k generalizing t with
  | zero => exact h
  | succ k ih =>
    unfold State.reloadEntries
    split
    · exact h
    · exact .ite h (ih (h.fetch.setReg (by decide) (by decide)).modSq.reloadSheet)

theorem Beside.giveUp (h : Beside State.rigs s t) {n : Nat} : Beside State.rigs s (t.giveUp n) := by
  unfold State.giveUp
  exact (h.modSq.each fun _ _ hv => hv.reloadSheet).reloadEntries

/-! ### Tiles and spaces -/

theorem Beside.bareTile (h : Beside State.rigs s t) {n : Nat} : Beside State.rigs s (t.bareTile n) := by
  have htile : Beside State.rigs s (t.modTile (t.phys n) Tile.filled) := h.of_view rfl rfl
  unfold State.bareTile
  refine Beside.device (.setReg (.setReg (.setReg (.setReg (.setReg (.setReg (htile.each fun _ _ hv => ?_) ?_ ?_) ?_ ?_) ?_ ?_) ?_ ?_) ?_ ?_) ?_ ?_)
  · exact ((hv.setReg (by decide) (by decide)).setReg (by decide) (by decide)).setReg (by decide) (by decide)
  all_goals decide

theorem Beside.deallocate (h : Beside State.rigs s t) {f : Option (Nat × Nat)} : Beside State.rigs s (t.deallocate f) := by
  unfold State.deallocate
  split
  · unfold State.nvme
    split
    · exact h.emit
    · exact h
  · exact h

theorem Beside.unmapPage (h : Beside State.rigs s t) {key : Nat} : Beside State.rigs s (t.unmapPage key) := by
  unfold State.unmapPage
  refine .device ?_
  split
  · exact h.deallocate.deallocate
  · exact h

theorem Beside.releaseSpace (h : Beside State.rigs s t) {n : Nat} : Beside State.rigs s (t.releaseSpace n) := by
  unfold State.releaseSpace
  exact (h.each fun _ _ hv => hv.unmapPage).device.each fun _ _ hv => hv.endAct

theorem Beside.placeSpace (h : Beside State.rigs s t) {x : Nat × Nat × Nat × Nat} : Beside State.rigs s (t.placeSpace x) := by
  unfold State.placeSpace
  exact (Beside.ite h h.releaseSpace).device

theorem Beside.placeSpaces (h : Beside State.rigs s t) {c : Content} {rigs : List Nat} : Beside State.rigs s (t.placeSpaces c rigs) := by
  unfold State.placeSpaces
  refine ((h.each fun _ _ hv => hv.releaseSpace).device.each fun _ _ hv => hv.placeSpace).each fun _ _ hv => ?_
  split
  · exact hv.device
  · exact hv

end Sys2Proof.Machine
end

section
/-! ## An accepted image takes effect and extends CHAIN (R165 to R167, R325, R385, R404)

Up to the placing of the spaces the rigs are as they were; then those that go are removed, and those of the image are placed. -/

namespace Sys2Proof.Machine

variable {s t u : State} {n : Nat} {c : Content} {l : Load}

/-! ### Changes of registers and tiles -/

theorem regsTilesOnly.each {β : Type} (h : regsTilesOnly s t) {l : List β} {f : State → β → State} (hf : ∀ t a, regsTilesOnly s t → regsTilesOnly s (f t a)) :
    regsTilesOnly s (each l f t) := each_ind _ l f t h fun t a _ => hf t a

/-- What shows neither register nor tile reads as before. -/
theorem regsTilesOnly.field {α : Type} (h : regsTilesOnly s t) (π : State → α)
    (hπ : ∀ (u : State) (regs : FMap Nat) (tiles : FMap Tile), π { u with regs := regs, tiles := tiles } = π u) : π t = π s :=
  (hπ t s.regs s.tiles).symm.trans (congrArg π h)

theorem regsTilesOnly.clearRig (h : regsTilesOnly s t) : regsTilesOnly s (t.clearRig n) :=
  h.each fun _ _ h => h.each fun _ _ h => h.each fun _ _ h => h.setReg

theorem regsTilesOnly.wireTile (h : regsTilesOnly s t) {r : ImgRig} : regsTilesOnly s (t.wireTile c r n) := by
  unfold State.wireTile
  dsimp only
  split
  · exact (h.each fun _ _ h => h.setReg.setReg.setReg).setReg.each fun _ _ h => h.modTile
  · exact ((h.each fun _ _ h => h.setReg.setReg.setReg).setReg.each fun _ _ h => h.modTile).modTile

theorem regsTilesOnly.fuseTiles (h : regsTilesOnly s t) {f : ImgFuse} : regsTilesOnly s (t.fuseTiles f) :=
  h.each fun _ _ h => h.setReg.setReg.setReg.setReg.setReg

theorem regsTilesOnly.placeModes (h : regsTilesOnly s t) {r : ImgRig} {m : ImgMode} : regsTilesOnly s (t.placeModes r m) := by
  unfold State.placeModes
  refine .setReg (.setReg (.setReg (.setReg (.setReg (.setReg (.setReg (.setReg (.setReg (.setReg ?_)))))))))
  exact h.setReg.setReg.setReg.setReg.setReg.setReg.setReg.setReg.setReg.setReg.setReg.setReg.each fun _ _ h => h.setReg.setReg

/-! ### A rig is removed -/

theorem removeRig_rigs (s : State) (n : Nat) : (s.removeRig n).rigs = s.rigs.set {} n {} := rfl

theorem removeRigs_done (ns : List Nat) (s : State) (hw : FMap.wf {} s.rigs = true) :
    FMap.wf {} (each ns State.removeRig s).rigs = true
      ∧ (∀ n, (each ns State.removeRig s).rig n = if n ∈ ns then {} else s.rig n) := by
  induction ns generalizing s with
  | nil => exact ⟨hw, fun _ => rfl⟩
  | cons a ns ih =>
    obtain ⟨hwf, hrig⟩ := ih (s.removeRig a) (by rw [removeRig_rigs]; exact FMap.wf_set {} s.rigs a {} hw)
    refine ⟨hwf, fun n => ?_⟩
    rw [each_cons, hrig, State.rig, removeRig_rigs, FMap.get_set {} s.rigs a n {} hw, State.rig]
    by_cases hn : n = a
    · simp [hn]
    · simp [hn]

/-! ### A rig is placed -/

/-- The rig as an image's rig entry makes it. -/
def Rig.placed (c : Content) (r : ImgRig) : Rig :=
  { exists_ := true, tiles := r.tiles
    fused := ((imgFuses c).filter fun f => f.rig = r.rig).map fun f => { shape := f.shape, members := f.members }
    sqFirst := r.sqFirst, sqLast := r.sqLast, cqFirst := r.cqFirst, cqLast := r.cqLast, sigFirst := r.sigFirst, sigLast := r.sigLast
    obFirst := r.obFirst, obCount := r.obCount, xbFirst := r.xbFirst, xbCount := r.xbCount
    take := { lsLog := (((imgModes c).find? fun m => m.rig = r.rig).map (·.lsinit)).getD 16 } }

/-- Is a signal in the range of a rig entry? -/
def ImgRig.inSig (r : ImgRig) (k : Nat) : Bool := decide (r.sigFirst ≤ k) && decide (k ≤ r.sigLast)

theorem zeroSync_sigs (s : State) (r : ImgRig) : (s.zeroSync r).rigs = s.rigs ∧ (s.zeroSync r).sigs = s.sigs.filter fun x => !r.inSig x.1 := by
  unfold State.zeroSync
  refine each_ind (fun t : State => t.rigs = s.rigs ∧ t.sigs = s.sigs.filter fun x => !r.inSig x.1) _ _ _ ?_ fun t i _ ht => ht
  exact each_ind (fun t : State => t.rigs = s.rigs ∧ t.sigs = s.sigs.filter fun x => !r.inSig x.1) _ _ _ ⟨rfl, rfl⟩ fun t i _ ht => ht

/-- The rig's entry, before its tiles are wired. -/
def State.rigEntered (s : State) (c : Content) (r : ImgRig) : State :=
  let s := if (s.rig r.rig).exists_ || s.rigState r.rig = rigLoading then s else (s.clearRig r.rig).setReg F.IMG_RSTAT_STATE rigLoading r.rig
  { s.modRig r.rig fun _ => Rig.placed c r with exchanges := s.exchanges.filter fun x => x.rig ≠ r.rig }

/-- The tiles and the registers of a rig that is placed. -/
def State.rigWired (s : State) (c : Content) (r : ImgRig) : State :=
  let s := each r.tiles (fun s t => s.wireTile c r t) s
  let s := each ((imgFuses c).filter fun f => f.rig = r.rig) State.fuseTiles s
  match (imgModes c).find? fun m => m.rig = r.rig with
  | some m => s.placeModes r m
  | none => s

theorem placeRig_eq (s : State) (c : Content) (r : ImgRig) : s.placeRig c r =
    if (s.rig r.rig).exists_ && imgKind c = 1 then ((((s.rigEntered c r).rigWired c r).zeroSync r).setReg F.SYN_RIG_RSGRP 0xFFF r.rig).bump
      F.IMG_RSTAT_NLOAD 1 r.rig else (((s.rigEntered c r).rigWired c r).zeroSync r).setReg F.SYN_RIG_RSGRP 0xFFF r.rig := rfl

theorem rigEntered_rigs (s : State) (c : Content) (r : ImgRig) :
    (s.rigEntered c r).rigs = s.rigs.upd {} r.rig (fun _ => Rig.placed c r) ∧ (s.rigEntered c r).sigs = s.sigs := by
  have hclear : regsTilesOnly s (if (s.rig r.rig).exists_ || s.rigState r.rig = rigLoading then s else
      (s.clearRig r.rig).setReg F.IMG_RSTAT_STATE rigLoading r.rig) := by
    split
    · exact regsTilesOnly_refl s
    · exact (regsTilesOnly_refl s).clearRig.setReg
  have hrigs := hclear.field State.rigs fun _ _ _ => rfl
  exact ⟨congrArg (fun m : FMap Rig => FMap.upd ({} : Rig) m r.rig fun _ => Rig.placed c r) hrigs, hclear.field State.sigs fun _ _ _ => rfl⟩

theorem rigWired_only (s : State) (c : Content) (r : ImgRig) : regsTilesOnly s (s.rigWired c r) := by
  have hfused : regsTilesOnly s (each ((imgFuses c).filter fun f => f.rig = r.rig) State.fuseTiles (each r.tiles (fun s t => s.wireTile c r t) s)) :=
    ((regsTilesOnly_refl s).each fun _ _ h => h.wireTile).each fun _ _ h => h.fuseTiles
  unfold State.rigWired
  dsimp only
  split
  · exact hfused.placeModes
  · exact hfused

theorem placeRig_rigs (s : State) (c : Content) (r : ImgRig) :
    (s.placeRig c r).rigs = s.rigs.upd {} r.rig (fun _ => Rig.placed c r) ∧ (s.placeRig c r).sigs = s.sigs.filter fun x => !r.inSig x.1 := by
  obtain ⟨hrigs, hsigs⟩ := rigEntered_rigs s c r
  have hwired := rigWired_only (s.rigEntered c r) c r
  obtain ⟨hrigs', hsigs'⟩ := zeroSync_sigs ((s.rigEntered c r).rigWired c r) r
  have hboth : (((s.rigEntered c r).rigWired c r).zeroSync r).rigs = s.rigs.upd {} r.rig (fun _ => Rig.placed c r)
      ∧ (((s.rigEntered c r).rigWired c r).zeroSync r).sigs = s.sigs.filter fun x => !r.inSig x.1 := by
    rw [hrigs', hsigs', hwired.field State.rigs fun _ _ _ => rfl, hwired.field State.sigs fun _ _ _ => rfl, hrigs, hsigs]
    exact ⟨rfl, rfl⟩
  rw [placeRig_eq]
  split
  · exact hboth
  · exact hboth

/-- No signal of a rig entry's range is listed. -/
def sigsClear (r : ImgRig) (s : State) : Prop := ∀ e ∈ s.sigs, r.inSig e.1 = false

theorem placeRigs_done (l : List ImgRig) (hnd : (l.map (·.rig)).Nodup) (s : State) (hw : FMap.wf {} s.rigs = true) {t : State}
    (ht : t = each l (fun s r => s.placeRig c r) s) :
    FMap.wf {} t.rigs = true ∧ (∀ e ∈ t.sigs, e ∈ s.sigs) ∧ (∀ r ∈ l, t.rig r.rig = Rig.placed c r ∧ sigsClear r t)
      ∧ ∀ n, n ∉ l.map (·.rig) → t.rig n = s.rig n := by
  induction l generalizing s with
  | nil =>
    rw [ht]
    exact ⟨hw, fun _ he => he, by simp, fun _ _ => rfl⟩
  | cons r l ih =>
    rw [List.map_cons, List.nodup_cons] at hnd
    obtain ⟨hr, hnd⟩ := hnd
    obtain ⟨hrigs, hsigs⟩ := placeRig_rigs s c r
    have hrig : ∀ n, (s.placeRig c r).rig n = if n = r.rig then Rig.placed c r else s.rig n := fun n => by
      rw [State.rig, hrigs, FMap.get_upd {} s.rigs r.rig n (fun _ => Rig.placed c r) hw, State.rig]
    obtain ⟨hwf, hsub, hplaced, hother⟩ := ih hnd (s.placeRig c r) (by rw [hrigs]; exact FMap.wf_upd {} s.rigs r.rig _ hw) ht
    have hmem : ∀ e ∈ t.sigs, e ∈ s.sigs ∧ r.inSig e.1 = false := fun e he => by
      have := hsub e he
      rw [hsigs] at this
      simpa using this
    refine ⟨hwf, fun e he => (hmem e he).1, fun x hx => ?_, fun n hn => ?_⟩
    · obtain rfl | hx := List.mem_cons.mp hx
      · exact ⟨by rw [hother _ hr, hrig, if_pos rfl], fun e he => (hmem e he).2⟩
      · exact hplaced x hx
    · rw [List.map_cons, List.mem_cons, not_or] at hn
      rw [hother n hn.2, hrig, if_neg hn.1]

theorem sigsClear.get {r : ImgRig} (h : sigsClear r s) {k : Nat} (hlo : r.sigFirst ≤ k) (hhi : k ≤ r.sigLast) : s.sigs.get 0 k = 0 := by
  by_contra hne
  have := h _ (FMap.mem_of_get_ne hne)
  simp [ImgRig.inSig, hlo, hhi] at this

/-! ### The image is applied -/

/-- What goes before the rigs change: transfers and queues given up, tiles filled, spaces placed. -/
def State.unloaded (s : State) (c : Content) : State :=
  let rigs := s.loadRigs c
  let s := { s with txs := s.txs.filter fun j => !rigs.contains j.rig }
  let s := each (s.cqsGone c) (fun s m => s.modCq m fun q => { q with gone := true }) (each (s.sqsGone c) State.giveUp s)
  (each (s.loadTiles c) State.bareTile s).placeSpaces c rigs

/-- The rigs of a load that its image does not hold. -/
def State.rigsGone (s : State) (c : Content) : List Nat :=
  (s.loadRigs c).filter fun n => !(if imgKind c = 2 then [] else (imgRigs c).map (·.rig)).contains n

/-- The rigs changed. -/
def State.rigsLoaded (s : State) (c : Content) : State :=
  let s := each (s.rigsGone c) State.removeRig (s.unloaded c)
  if imgKind c = 2 then s else (each (imgRigs c) (fun s r => s.placeRig c r) s).placeFloors c

theorem applyImage_eq (s : State) (c : Content) : s.applyImage c = if imgKind c = 0 then
    ((s.rigsLoaded c).setReg F.IMG_DEV_COMP (c.u8 (secOff c 5))).setReg F.IMG_DEV_HEATEPOCH (c.u16 (secOff c 5 + 4)) else s.rigsLoaded c := rfl

theorem unloaded_rigs (s : State) (c : Content) : (s.unloaded c).rigs = s.rigs := by
  have h : Beside State.rigs s (s.unloaded c) := by
    unfold State.unloaded
    exact ((((Beside.refl offBooks_rigs s).device.each fun _ _ hv => hv.giveUp).each fun _ _ hv => hv.modCq).each fun _ _ hv => hv.bareTile).placeSpaces
  exact h.view

theorem placeFloors_rigs (s : State) (c : Content) : (s.placeFloors c).rigs = s.rigs ∧ (s.placeFloors c).sigs = s.sigs :=
  each_ind (fun t : State => t.rigs = s.rigs ∧ t.sigs = s.sigs) _ _ _ ⟨rfl, rfl⟩ fun _ _ _ ht => ht

/-- The rigs after a load: those that are gone absent, and for the rest those of the image as they are placed. -/
theorem rigsLoaded_done (hw : FMap.wf {} s.rigs = true) (hnd : ((imgRigs c).map (·.rig)).Nodup) {t : State} (ht : t = s.rigsLoaded c) :
    (imgKind c = 2 → ∀ n, t.rig n = if n ∈ s.rigsGone c then {} else s.rig n)
      ∧ (imgKind c ≠ 2 → (∀ r ∈ imgRigs c, t.rig r.rig = Rig.placed c r ∧ sigsClear r t)
        ∧ ∀ n, n ∉ (imgRigs c).map (·.rig) → t.rig n = if n ∈ s.rigsGone c then {} else s.rig n) := by
  have hun := unloaded_rigs s c
  have hrig : ∀ n, (s.unloaded c).rig n = s.rig n := fun n => by rw [State.rig, hun, State.rig]
  obtain ⟨hwf, hgone⟩ := removeRigs_done (s.rigsGone c) (s.unloaded c) (by rw [hun, hw])
  refine ⟨fun h2 n => ?_, fun h2 => ?_⟩
  · rw [ht, State.rigsLoaded, if_pos h2, hgone, hrig]
  · obtain ⟨-, -, hplaced, hother⟩ := placeRigs_done (c := c) (imgRigs c) hnd _ hwf rfl
    obtain ⟨hfr, hfs⟩ := placeFloors_rigs (each (imgRigs c) (fun s r => s.placeRig c r) (each (s.rigsGone c) State.removeRig (s.unloaded c))) c
    have hsame : ∀ n, t.rig n = (each (imgRigs c) (fun s r => s.placeRig c r) (each (s.rigsGone c) State.removeRig (s.unloaded c))).rig n := fun n => by
      rw [ht, State.rigsLoaded, if_neg h2, State.rig, hfr, State.rig]
    have hsigs : t.sigs = (each (imgRigs c) (fun s r => s.placeRig c r) (each (s.rigsGone c) State.removeRig (s.unloaded c))).sigs := by
      rw [ht, State.rigsLoaded, if_neg h2, hfs]
    refine ⟨fun r hr => ⟨(hsame _).trans (hplaced r hr).1, fun e he => (hplaced r hr).2 e (hsigs ▸ he)⟩, fun n hn => ?_⟩
    rw [hsame, hother n hn, hgone, hrig]

theorem mem_rigsGone : n ∈ s.rigsGone c ↔ n ∈ s.loadRigs c ∧ (imgKind c = 2 ∨ n ∉ (imgRigs c).map (·.rig)) := by
  rw [State.rigsGone, List.mem_filter]
  by_cases h2 : imgKind c = 2
  · simp [h2]
  · simp [h2]

/-- A rig that a whole image does not list is absent: it was, or it is one of those removed. -/
theorem rigsGone_whole (h0 : imgKind c = 0) (hn : n ∉ (imgRigs c).map (·.rig)) : (if n ∈ s.rigsGone c then ({} : Rig) else s.rig n).exists_ = false := by
  split
  next => rfl
  next hgone =>
    by_contra hex
    rw [Bool.not_eq_false] at hex
    have hmem : n ∈ s.loadRigs c := by
      have hne : FMap.get {} s.rigs n ≠ {} := fun he => by
        rw [State.rig, he] at hex
        exact Bool.false_ne_true hex
      rw [State.loadRigs, if_pos h0]
      exact List.mem_map.mpr ⟨_, List.mem_filter.mpr ⟨FMap.mem_of_get_ne hne, hex⟩, rfl⟩
    exact hgone (mem_rigsGone.mpr ⟨hmem, .inr hn⟩)

theorem applyImage_rigs (s : State) (c : Content) : (s.applyImage c).rigs = (s.rigsLoaded c).rigs ∧ (s.applyImage c).sigs = (s.rigsLoaded c).sigs := by
  rw [applyImage_eq]
  split
  · exact ⟨rfl, rfl⟩
  · exact ⟨rfl, rfl⟩

/-- The image in force, and the loader in its last state. -/
def State.imageApplied (s : State) (c : Content) : State := (s.applyImage c).setReg F.IMG_STAT_STATE 4

theorem exec_imageApply (hl : s.load = some l) (hstate : s.get F.IMG_STAT_STATE = 3) (hidle : (s.loadRigs l.img).all s.rigIdle = true) :
    exec .imageApply s = .next (s.imageApplied l.img) := by
  have hexec : exec .imageApply s = execImageApply s := rfl
  rw [hexec, execImageApply, hl]
  exact gated_of_true (by rw [hstate, hidle]; rfl) (fun s => (s.applyImage l.img).setReg F.IMG_STAT_STATE 4) s

theorem imageApplied_done (hs : s.RegsOk) (hw : FMap.wf {} s.rigs = true) (hnd : ((imgRigs c).map (·.rig)).Nodup) {t : State} (ht : t = s.imageApplied c) :
    t.get F.IMG_STAT_STATE = 4
      ∧ (imgKind c ≠ 2 → ∀ r ∈ imgRigs c, (t.rig r.rig).exists_ = true ∧ (t.rig r.rig).tiles = r.tiles
          ∧ (t.rig r.rig).sqFirst = r.sqFirst ∧ (t.rig r.rig).sqLast = r.sqLast ∧ (t.rig r.rig).take.state = 0
          ∧ (∀ k, r.sigFirst ≤ k → k ≤ r.sigLast → t.sigs.get 0 k = 0))
      ∧ (imgKind c = 0 → ∀ n, n ∉ (imgRigs c).map (·.rig) → (t.rig n).exists_ = false)
      ∧ (imgKind c = 2 → ∀ r ∈ imgRigs c, (t.rig r.rig).exists_ = false)
      ∧ (imgKind c ≠ 0 → ∀ n, n ∉ (imgRigs c).map (·.rig) → t.rig n = s.rig n) := by
  obtain ⟨hremoval, hplaced⟩ := rigsLoaded_done hw hnd rfl
  obtain ⟨hrigs, hsigs⟩ := applyImage_rigs s c
  have hrig : ∀ n, t.rig n = (s.rigsLoaded c).rig n := fun n => by
    rw [ht, State.rig, State.rig, ← hrigs]
    rfl
  have hsig : t.sigs = (s.rigsLoaded c).sigs := by
    rw [ht, ← hsigs]
    rfl
  have hpart : imgKind c ≠ 0 → s.loadRigs c = (imgRigs c).map (·.rig) := fun h => if_neg h
  refine ⟨?_, fun h2 r hr => ?_, fun h0 n hn => ?_, fun h2 r hr => ?_, fun h0 n hn => ?_⟩
  · rw [ht]
    exact State.get_setReg_same _ _ _ _ ((Follows.refl s).applyImage.regsOk hs)
  · obtain ⟨hr', hclear⟩ := (hplaced h2).1 r hr
    rw [hrig, hr', hsig]
    exact ⟨rfl, rfl, rfl, rfl, rfl, fun k hlo hhi => hclear.get hlo hhi⟩
  · rw [hrig, (hplaced (by omega)).2 n hn]
    exact rigsGone_whole h0 hn
  · rw [hrig, hremoval h2, if_pos (mem_rigsGone.mpr ⟨by rw [hpart (by omega)]; exact List.mem_map_of_mem hr, .inl h2⟩)]
  · have hno : n ∉ s.rigsGone c := fun hg => hn (hpart h0 ▸ (mem_rigsGone.mp hg).1)
    rw [hrig]
    by_cases h2 : imgKind c = 2
    · rw [hremoval h2, if_neg hno]
    · rw [(hplaced h2).2 n hn, if_neg hno]

/-! ### The load ends -/

theorem FMap.each_set_none {β : Type} [DecidableEq β] (ns : List Nat) (m : FMap (Option β)) (hm : FMap.wf none m = true) :
    ∀ n, (each ns (fun (m : FMap (Option β)) n => m.set none n none) m).get none n = if n ∈ ns then none else m.get none n := by
  induction ns generalizing m with
  | nil => simp [each_nil]
  | cons a ns ih =>
    intro n
    rw [each_cons, ih _ (FMap.wf_set none m a none hm), FMap.get_set none m a n none hm]
    by_cases hn : n = a
    · simp [hn]
    · simp [hn]

/-- The queues given up are deleted. -/
def State.queuesDeleted (s : State) (c : Content) : State :=
  { s with sqs := each (s.sqsGone c) (fun (m : FMap (Option Sq)) n => m.set none n none) s.sqs
           cqs := each (s.cqsGone c) (fun (m : FMap (Option Cq)) n => m.set none n none) s.cqs }

/-- The state in which a rig of the image begins: it runs, or is stopped under HOLD, a trip, or for want of a tile. -/
def State.beginState (s : State) (hold : Bool) (n : Nat) : Nat := if hold || s.tripHold || !s.rigWhole n then rigStopped else rigRunning

/-- The rigs of the image begin. -/
def State.rigsBegun (s : State) (c : Content) (hold : Bool) : State :=
  if imgKind c = 2 then s else each (imgRigs c) (fun s r => s.setReg F.IMG_RSTAT_STATE (s.beginState hold r.rig) r.rig) s

/-- The image is measured and the loader idle. -/
def State.loadDone (s : State) (c : Content) : State := { ((s.measure c).setReg F.IMG_STAT_ACC 1).setReg F.IMG_STAT_STATE 0 with load := none }

/-- A whole image gives its number, and ends step 10 of start-up. -/
def State.imageNamed (s : State) (c : Content) : State :=
  if imgKind c = 0 then
    if (s.setReg F.IMG_ID_ID (c.u64 16)).get F.SEC_BOOT_STEP = 10 then (s.setReg F.IMG_ID_ID (c.u64 16)).setReg F.SEC_BOOT_STEP 11
    else s.setReg F.IMG_ID_ID (c.u64 16)
  else s

theorem exec_imageApplyComplete (hl : s.load = some l) (hstate : s.get F.IMG_STAT_STATE = 4)
    (hcompl : (s.compls.any fun x => (s.sqsGone l.img).contains x.sq || (s.cqsGone l.img).contains x.cq) = false) :
    exec .imageApplyComplete s = .next ((((s.queuesDeleted l.img).rigsBegun l.img l.hold).loadDone l.img).imageNamed l.img) := by
  have hexec : exec .imageApplyComplete s = execImageApplyComplete s := rfl
  rw [hexec, execImageApplyComplete, hl]
  refine (gated_of_true ?_ _ s).trans rfl
  rw [hstate, hcompl]
  rfl

/-- Rigs of the image begin one by one: only registers that hold rigs' states change. -/
structure Begun (s t : State) : Prop where
  regsOk : t.RegsOk
  onlyRegs : onlyRegs s t
  kept : regsKept (fun f _ => f.id = F.IMG_RSTAT_STATE.id) s t

theorem Begun.refl (hs : s.RegsOk) : Begun s s := ⟨hs, rfl, regsKept_refl s⟩

theorem Begun.setReg (h : Begun s t) {v n : Nat} : Begun s (t.setReg F.IMG_RSTAT_STATE v n) :=
  ⟨State.setReg_regsOk _ _ _ _ h.regsOk, h.onlyRegs.setReg, h.kept.setReg (by decide) fun _ he => he⟩

/-- What decides how a rig begins is as it was. -/
theorem Begun.beginState (h : Begun s t) (hold : Bool) (n : Nat) : t.beginState hold n = s.beginState hold n := by
  have htrip : t.tripHold = s.tripHold := h.onlyRegs.field State.tripHold fun _ _ => rfl
  have hrig : t.rig n = s.rig n := h.onlyRegs.field (fun s => s.rig n) fun _ _ => rfl
  have hmap : ∀ i, t.flag F.GLB_TMAP_VALID i = s.flag F.GLB_TMAP_VALID i := fun i => by
    rw [State.flag, h.kept _ _ (by decide) (by dsimp only; decide), State.flag]
  have hwhole : t.rigWhole n = s.rigWhole n := by simp only [State.rigWhole, hrig, hmap]
  rw [State.beginState, htrip, hwhole, State.beginState]

theorem rigsBegun_done (hs : s.RegsOk) (c : Content) (hold : Bool) :
    Begun s (s.rigsBegun c hold) ∧ (imgKind c ≠ 2 → ∀ r ∈ imgRigs c, (s.rigsBegun c hold).rigState r.rig = s.beginState hold r.rig) := by
  have hset : ∀ t : State, Begun s t → ∀ n, (t.setReg F.IMG_RSTAT_STATE (t.beginState hold n) n).rigState n = s.beginState hold n := fun t ht n => by
    rw [State.rigState, State.get_setReg_same _ _ _ _ ht.regsOk, ht.beginState, State.beginState]
    split
    · rfl
    · rfl
  unfold State.rigsBegun
  by_cases h2 : imgKind c = 2
  · rw [if_pos h2]
    exact ⟨.refl hs, absurd h2⟩
  · rw [if_neg h2]
    refine ⟨each_ind (Begun s) _ _ _ (.refl hs) fun t r _ ht => ht.setReg, fun _ => ?_⟩
    refine each_reaches (Begun s) (fun (r : ImgRig) t => t.rigState r.rig = s.beginState hold r.rig) (.refl hs) (fun r _ t ht => ht.setReg)
      (fun r _ t ht => hset t ht r.rig) fun a _ t b ht hb => ?_
    by_cases hab : b.rig = a.rig
    · rw [hab, hset t ht a.rig]
    · rw [State.rigState, State.get_setReg_idx _ _ _ _ _ hab]
      exact hb

/-- What the end of a load leaves in the registers. -/
structure LoadDone (c : Content) (s t : State) : Prop where
  regsOk : t.RegsOk
  state : t.get F.IMG_STAT_STATE = 0
  acc : t.get F.IMG_STAT_ACC = 1
  kept : regsKept (fun f _ => f.id = F.IMG_DIG_BYTES.id ∨ f.id = F.IMG_STAT_ACC.id ∨ f.id = F.IMG_STAT_STATE.id) s t
  load : t.load = none
  queues : t.sqs = s.sqs ∧ t.cqs = s.cqs
  chain : t.chain = Config.shake256 ((if imgKind c = 0 then List.replicate 64 0 else digest64 s.chain) ++ imgDigestOf c) 64

theorem loadDone_done (hs : s.RegsOk) (c : Content) : LoadDone c s (s.loadDone c) := by
  have hmeasured : (s.measure c).RegsOk := (Follows.refl s).measure.regsOk hs
  have hacc : ((s.measure c).setReg F.IMG_STAT_ACC 1).RegsOk := State.setReg_regsOk _ _ _ _ hmeasured
  have hkept : regsKept (fun f _ => f.id = F.IMG_DIG_BYTES.id ∨ f.id = F.IMG_STAT_ACC.id ∨ f.id = F.IMG_STAT_STATE.id) s (s.measure c) :=
    (regsKept_refl s).setReg (f := F.IMG_DIG_BYTES) (by decide) fun _ he => .inl he
  have hall : regsKept (fun f _ => f.id = F.IMG_DIG_BYTES.id ∨ f.id = F.IMG_STAT_ACC.id ∨ f.id = F.IMG_STAT_STATE.id) s
      (((s.measure c).setReg F.IMG_STAT_ACC 1).setReg F.IMG_STAT_STATE 0) :=
    (hkept.setReg (by decide) fun _ he => .inr (.inl he)).setReg (by decide) fun _ he => .inr (.inr he)
  refine ⟨State.setReg_regsOk _ F.IMG_STAT_STATE 0 0 hacc, State.get_setReg_same _ F.IMG_STAT_STATE 0 0 hacc, ?_, hall, rfl, ⟨rfl, rfl⟩, ?_⟩
  · have hget : (s.loadDone c).get F.IMG_STAT_ACC = (((s.measure c).setReg F.IMG_STAT_ACC 1).setReg F.IMG_STAT_STATE 0).get F.IMG_STAT_ACC := rfl
    rw [hget, State.get_setReg_id _ _ _ _ _ _ (by decide) (by decide) (by decide), State.get_setReg_same _ _ _ _ hmeasured]
    rfl
  · have hchain : (s.loadDone c).chain
        = Config.shake256 ((if decide (imgKind c = 0) = true then List.replicate 64 0 else digest64 s.chain) ++ imgDigestOf c) 64 := rfl
    rw [hchain]
    simp only [decide_eq_true_eq]

theorem imageNamed_done (hs : s.RegsOk) (c : Content) :
    onlyRegs s (s.imageNamed c) ∧ regsKept (fun f _ => f.id = F.IMG_ID_ID.id ∨ f.id = F.SEC_BOOT_STEP.id) s (s.imageNamed c)
      ∧ (imgKind c = 0 → (s.imageNamed c).get F.IMG_ID_ID = c.u64 16 % 2 ^ 64
        ∧ (s.get F.SEC_BOOT_STEP = 10 → (s.imageNamed c).get F.SEC_BOOT_STEP = 11)) := by
  obtain ⟨v, hv⟩ : ∃ v, v = s.setReg F.IMG_ID_ID (c.u64 16) := ⟨_, rfl⟩
  have hvok : v.RegsOk := hv ▸ s.setReg_regsOk _ _ _ hs
  have hvonly : onlyRegs s v := hv ▸ (onlyRegs_refl s).setReg
  have hvkept : regsKept (fun f _ => f.id = F.IMG_ID_ID.id ∨ f.id = F.SEC_BOOT_STEP.id) s v :=
    hv ▸ (regsKept_refl s).setReg (by decide) fun _ he => .inl he
  have hid : v.get F.IMG_ID_ID = c.u64 16 % 2 ^ 64 := by
    rw [hv]
    exact State.get_setReg_same _ _ _ _ hs
  have hstep : v.get F.SEC_BOOT_STEP = s.get F.SEC_BOOT_STEP := by
    rw [hv]
    exact State.get_setReg_id _ _ _ _ _ _ (by decide) (by decide) (by decide)
  unfold State.imageNamed
  rw [← hv]
  by_cases h0 : imgKind c = 0
  · rw [if_pos h0]
    by_cases h10 : v.get F.SEC_BOOT_STEP = 10
    · rw [if_pos h10]
      refine ⟨hvonly.setReg, hvkept.setReg (by decide) fun _ he => .inr he, fun _ => ⟨?_, fun _ => State.get_setReg_same _ _ _ _ hvok⟩⟩
      rw [State.get_setReg_id _ _ _ _ _ _ (by decide) (by decide) (by decide), hid]
    · rw [if_neg h10]
      exact ⟨hvonly, hvkept, fun _ => ⟨hid, fun h => absurd (hstep.trans h) h10⟩⟩
  · rw [if_neg h0]
    exact ⟨onlyRegs_refl s, regsKept_refl s, fun h => absurd h h0⟩

theorem imageComplete_done (hs : s.RegsOk) (hsq : FMap.wf none s.sqs = true) (hcq : FMap.wf none s.cqs = true) (c : Content) (hold : Bool) {t : State}
    (ht : t = (((s.queuesDeleted c).rigsBegun c hold).loadDone c).imageNamed c) :
    t.get F.IMG_STAT_STATE = 0 ∧ t.get F.IMG_STAT_ACC = 1 ∧ t.load = none
      ∧ (∀ n ∈ s.sqsGone c, t.sq? n = none) ∧ (∀ n, n ∉ s.sqsGone c → t.sq? n = s.sq? n)
      ∧ (∀ n ∈ s.cqsGone c, t.cq? n = none) ∧ (∀ n, n ∉ s.cqsGone c → t.cq? n = s.cq? n)
      ∧ (imgKind c ≠ 2 → hold = true ∨ s.tripHold = true → ∀ r ∈ imgRigs c, t.rigState r.rig = rigStopped)
      ∧ (imgKind c ≠ 2 → hold = false → s.tripHold = false → ∀ r ∈ imgRigs c, s.rigWhole r.rig = true → t.rigState r.rig = rigRunning)
      ∧ (imgKind c = 0 → t.chain = Config.shake256 (List.replicate 64 0 ++ imgDigestOf c) 64 ∧ t.get F.IMG_ID_ID = c.u64 16 % 2 ^ 64
          ∧ (s.get F.SEC_BOOT_STEP = 10 → t.get F.SEC_BOOT_STEP = 11))
      ∧ (imgKind c ≠ 0 → t.chain = Config.shake256 (digest64 s.chain ++ imgDigestOf c) 64) := by
  have hdeleted : (s.queuesDeleted c).RegsOk := hs
  obtain ⟨hbegun, hstates⟩ := rigsBegun_done hdeleted c hold
  have hdone := loadDone_done hbegun.regsOk c
  obtain ⟨honly, hkept, hnamed⟩ := imageNamed_done hdone.regsOk c
  rw [← ht] at honly hkept hnamed
  have hsqs : t.sqs = (s.queuesDeleted c).sqs :=
    ((honly.field State.sqs fun _ _ => rfl).trans hdone.queues.1).trans (hbegun.onlyRegs.field State.sqs fun _ _ => rfl)
  have hcqs : t.cqs = (s.queuesDeleted c).cqs :=
    ((honly.field State.cqs fun _ _ => rfl).trans hdone.queues.2).trans (hbegun.onlyRegs.field State.cqs fun _ _ => rfl)
  have hsq? : ∀ n, t.sq? n = if n ∈ s.sqsGone c then none else s.sq? n := fun n => by
    rw [State.sq?, hsqs]
    exact FMap.each_set_none (s.sqsGone c) s.sqs hsq n
  have hcq? : ∀ n, t.cq? n = if n ∈ s.cqsGone c then none else s.cq? n := fun n => by
    rw [State.cq?, hcqs]
    exact FMap.each_set_none (s.cqsGone c) s.cqs hcq n
  have hrig : imgKind c ≠ 2 → ∀ r ∈ imgRigs c, t.rigState r.rig = s.beginState hold r.rig := fun h2 r hr =>
    ((hkept _ _ (by decide) (by dsimp only; decide)).trans (hdone.kept _ _ (by decide) (by dsimp only; decide))).trans (hstates h2 r hr)
  have hchain : t.chain = Config.shake256 ((if imgKind c = 0 then List.replicate 64 0 else digest64 s.chain) ++ imgDigestOf c) 64 := by
    rw [honly.field State.chain fun _ _ => rfl, hdone.chain, hbegun.onlyRegs.field State.chain fun _ _ => rfl]
    rfl
  have hstep : ((s.queuesDeleted c).rigsBegun c hold |>.loadDone c).get F.SEC_BOOT_STEP = s.get F.SEC_BOOT_STEP :=
    (hdone.kept _ _ (by decide) (by decide)).trans (hbegun.kept _ _ (by decide) (by decide))
  refine ⟨(hkept _ _ (by decide) (by decide)).trans hdone.state, (hkept _ _ (by decide) (by decide)).trans hdone.acc,
    (honly.field State.load fun _ _ => rfl).trans hdone.load, fun n hn => by rw [hsq?, if_pos hn], fun n hn => by rw [hsq?, if_neg hn],
    fun n hn => by rw [hcq?, if_pos hn], fun n hn => by rw [hcq?, if_neg hn], fun h2 hstop r hr => ?_, fun h2 hhold htrip r hr hwhole => ?_,
    fun h0 => ⟨by rw [hchain, if_pos h0], (hnamed h0).1, fun h => (hnamed h0).2 (hstep.trans h)⟩, fun h0 => by rw [hchain, if_neg h0]⟩
  · rw [hrig h2 r hr, State.beginState]
    exact if_pos (by obtain h | h := hstop <;> simp [h])
  · rw [hrig h2 r hr, State.beginState]
    exact if_neg (by simp [hhold, htrip, hwhole])

/-- Settles O14: the rigs that go and those that come when the image is applied, then the end of the load part by part. -/
theorem imageTakesEffect : Obligations.ImageTakesEffect :=
  ⟨fun _ _ hs hw _ hl hstate hidle hnd => ⟨_, exec_imageApply hl hstate hidle, imageApplied_done hs hw hnd rfl⟩,
    fun _ _ hs hsq hcq hl hstate hcompl => ⟨_, exec_imageApplyComplete hl hstate hcompl, imageComplete_done hs hsq hcq _ _ rfl⟩⟩

end Sys2Proof.Machine
end
